-- ==== Sys2Proof/Word.lean ====
section
/-!
DEFINITION. The words of the Vilalmette V16: bytes, doublewords, quadwords, instruction words and
the 40-bit stamps of logical time (R5, R26, R36, R37).
-/
namespace Sys2Proof

/-- One byte of memory or local memory (R5). -/
abbrev Byte := BitVec 8

/-- A doubleword: the width of a g register, an f register and a control register (R26). -/
abbrev Word := BitVec 64

/-- A quadword: the width of a v register (R26). -/
abbrev Quad := BitVec 128

/-- A Gnotra instruction word (R37). -/
abbrev IWord := BitVec 32

/-- A logical-time stamp, the width of LCLK (R36, R96). -/
abbrev Stamp := BitVec 40

/-- A 5-bit register field of an instruction word (R38). -/
abbrev Reg := BitVec 5

end Sys2Proof
end

