-- ==== Sys2Proof/Syntax.lean ====
section
/-!
DEFINITION. The steps of the part: one constructor for each row of the table of operations and events.
The first kind are the Gnotra instructions (R37 to R61), with the fields of their words as they stand in
the table; register numbers are the raw 5-bit fields. The second kind are the events of the module; their
arguments say which request, core, slot or unit the event concerns (`n` is a place in a list of the
state), and what comes with it from outside the module.
-/
namespace Sys2Proof

/-- One step of the module. -/
inductive Instr where
  /-- Adds g[a] and g[b] modulo 2^64 into g[d]. (R71) -/
  | add (d : Reg) (a : Reg) (b : Reg)
  /-- Subtracts g[b] from g[a] modulo 2^64 into g[d]. (R71) -/
  | sub (d : Reg) (a : Reg) (b : Reg)
  /-- Bitwise AND of g[a] and g[b] into g[d]. (R71) -/
  | and (d : Reg) (a : Reg) (b : Reg)
  /-- Bitwise OR of g[a] and g[b] into g[d]. (R71) -/
  | or (d : Reg) (a : Reg) (b : Reg)
  /-- Bitwise XOR of g[a] and g[b] into g[d]. (R71) -/
  | xor (d : Reg) (a : Reg) (b : Reg)
  /-- g[a] AND NOT g[b] into g[d]. (R71) -/
  | andn (d : Reg) (a : Reg) (b : Reg)
  /-- Shifts g[a] left by g[b][5:0] with zero fill. (R71) -/
  | sll (d : Reg) (a : Reg) (b : Reg)
  /-- Shifts g[a] right by g[b][5:0] with zero fill. (R71) -/
  | srl (d : Reg) (a : Reg) (b : Reg)
  /-- Shifts g[a] right by g[b][5:0] with sign fill. (R71) -/
  | sra (d : Reg) (a : Reg) (b : Reg)
  /-- Writes 1 if g[a] is signed-less than g[b], else 0. (R71) -/
  | slt (d : Reg) (a : Reg) (b : Reg)
  /-- Writes 1 if g[a] is unsigned-less than g[b], else 0. (R71) -/
  | sltu (d : Reg) (a : Reg) (b : Reg)
  /-- Signed minimum of g[a] and g[b]. (R71) -/
  | min (d : Reg) (a : Reg) (b : Reg)
  /-- Signed maximum of g[a] and g[b]. (R71) -/
  | max (d : Reg) (a : Reg) (b : Reg)
  /-- Unsigned minimum of g[a] and g[b]. (R71) -/
  | minu (d : Reg) (a : Reg) (b : Reg)
  /-- Unsigned maximum of g[a] and g[b]. (R71) -/
  | maxu (d : Reg) (a : Reg) (b : Reg)
  /-- Low 64 bits of the product of g[a] and g[b]. (R71) -/
  | mul (d : Reg) (a : Reg) (b : Reg)
  /-- High 64 bits of the signed 128-bit product. (R71) -/
  | mulh (d : Reg) (a : Reg) (b : Reg)
  /-- High 64 bits of the unsigned 128-bit product. (R71) -/
  | mulhu (d : Reg) (a : Reg) (b : Reg)
  /-- Counts leading zero bits of g[a]. (R71) -/
  | clz (d : Reg) (a : Reg)
  /-- Counts trailing zero bits of g[a]. (R71) -/
  | ctz (d : Reg) (a : Reg)
  /-- Counts one bits of g[a]. (R71) -/
  | popc (d : Reg) (a : Reg)
  /-- Signed division truncating toward zero, with fixed results for zero divisor and overflow. (R72) -/
  | div (d : Reg) (a : Reg) (b : Reg)
  /-- Unsigned division, all ones for a zero divisor. (R72) -/
  | divu (d : Reg) (a : Reg) (b : Reg)
  /-- Signed remainder with the sign of the dividend. (R72) -/
  | rem (d : Reg) (a : Reg) (b : Reg)
  /-- Unsigned remainder, the dividend for a zero divisor. (R72) -/
  | remu (d : Reg) (a : Reg) (b : Reg)
  /-- The canonical hint ADDI g0, g0, 0, which does nothing for one issue cycle. (R43) -/
  | nop
  /-- Adds the sign-extended immediate to g[a]. (R74) -/
  | addi (d : Reg) (a : Reg) (i : BitVec 16)
  /-- ANDs g[a] with the zero-extended immediate. (R74) -/
  | andi (d : Reg) (a : Reg) (i : BitVec 16)
  /-- ORs g[a] with the zero-extended immediate. (R74) -/
  | ori (d : Reg) (a : Reg) (i : BitVec 16)
  /-- XORs g[a] with the zero-extended immediate. (R74) -/
  | xori (d : Reg) (a : Reg) (i : BitVec 16)
  /-- Signed compare of g[a] with the sign-extended immediate. (R74) -/
  | slti (d : Reg) (a : Reg) (i : BitVec 16)
  /-- Unsigned compare of g[a] with the sign-extended immediate. (R74) -/
  | sltiu (d : Reg) (a : Reg) (i : BitVec 16)
  /-- Shifts g[a] left by an immediate count. (R74) -/
  | slli (d : Reg) (a : Reg) (s : BitVec 6)
  /-- Shifts g[a] right logically by an immediate count. (R74) -/
  | srli (d : Reg) (a : Reg) (s : BitVec 6)
  /-- Shifts g[a] right arithmetically by an immediate count. (R74) -/
  | srai (d : Reg) (a : Reg) (s : BitVec 6)
  /-- Loads the sign-extended immediate shifted left 16. (R74) -/
  | lhi (d : Reg) (i : BitVec 16)
  /-- Shifts g[a] left 16 and ORs in the immediate. (R74) -/
  | shori (d : Reg) (a : Reg) (i : BitVec 16)
  /-- Branches when g[a] equals g[b]. (R75) -/
  | beq (a : Reg) (b : Reg) (o : BitVec 16)
  /-- Branches when g[a] differs from g[b]. (R75) -/
  | bne (a : Reg) (b : Reg) (o : BitVec 16)
  /-- Branches when g[a] is signed-less than g[b]. (R75) -/
  | blt (a : Reg) (b : Reg) (o : BitVec 16)
  /-- Branches when g[a] is signed-greater or equal to g[b]. (R75) -/
  | bge (a : Reg) (b : Reg) (o : BitVec 16)
  /-- Branches when g[a] is unsigned-less than g[b]. (R75) -/
  | bltu (a : Reg) (b : Reg) (o : BitVec 16)
  /-- Branches when g[a] is unsigned-greater or equal to g[b]. (R75) -/
  | bgeu (a : Reg) (b : Reg) (o : BitVec 16)
  /-- Writes PC + 4 to lr and jumps by a 26-bit word offset. (R75) -/
  | jal (o : BitVec 26)
  /-- Jumps to g[a] + immediate after checking alignment, writing PC + 4 to g[d]. (R75) -/
  | jalr (d : Reg) (a : Reg) (i : BitVec 16)
  /-- Adds one thread to the executing thread's launch after its earlier accesses perform. (R83) -/
  | spawn (d : Reg) (a : Reg) (b : Reg)
  /-- Ends the thread and frees its context; its outstanding work continues. (R85) -/
  | exit
  /-- Gives up the thread's issue turn in the core's round-robin. (R86) -/
  | yield
  /-- Writes the home core's index to g[d]. (R87) -/
  | home (d : Reg)
  /-- Waits until this die's GTR replica reaches g[a]. (R88) -/
  | waitt (a : Reg)
  /-- The GTR reaches the WAITT target and the waiting thread becomes ready. (R88) -/
  | waittExpiry (ctx : Nat)
  /-- Raises the context's logical clock to g[a], clamped to the stamp horizon. (R89) -/
  | lclkup (d : Reg) (a : Reg)
  /-- Waits for the context's own LM writes, then discards the fetch buffer. (R93) -/
  | iflush
  /-- Raises BREAK with the 5-bit code in TRAPVAL and TRAPPC = PC + 4. (R91) -/
  | trap (c : BitVec 5)
  /-- Returns from trap or interrupt code to TRAPPC and clears NEST and INT. (R92) -/
  | eret
  /-- Reads a control register into g[d]. (R78) -/
  | crr (d : Reg) (n : BitVec 12)
  /-- Presents g[a] to a control register and returns its old value. (R78) -/
  | crw (d : Reg) (a : Reg) (n : BitVec 12)
  /-- Presents old OR g[a] to a control register and returns its old value. (R78) -/
  | crs (d : Reg) (a : Reg) (n : BitVec 12)
  /-- Presents old AND NOT g[a] to a control register and returns its old value. (R78) -/
  | crc (d : Reg) (a : Reg) (n : BitVec 12)
  /-- Waits until the ring's filled count reaches g[a] + n, as an acquire at core scope. (R170) -/
  | rwait (d : Reg) (a : Reg) (q : BitVec 3) (n : BitVec 9)
  /-- Waits until the ring's free count reaches g[a] + n. (R170) -/
  | rroom (d : Reg) (a : Reg) (q : BitVec 3) (n : BitVec 9)
  /-- Advances the ring's HEAD by k after earlier ring accesses perform. (R171) -/
  | radvh (d : Reg) (a : Reg) (q : BitVec 3) (n : BitVec 9)
  /-- Advances the ring's TAIL by k after earlier ring accesses perform. (R171) -/
  | radvt (d : Reg) (a : Reg) (q : BitVec 3) (n : BitVec 9)
  /-- Loads a doubleword or quadword from slot i of a ring. (R172) -/
  | rld (d : Reg) (t : BitVec 1) (w : BitVec 1) (q : BitVec 3) (i : BitVec 8) (o : BitVec 8)
  /-- Stores a doubleword or quadword into slot i of a ring. (R172) -/
  | rst (d : Reg) (t : BitVec 1) (w : BitVec 1) (q : BitVec 3) (i : BitVec 8) (o : BitVec 8)
  /-- Adds a member with a chosen rank to a group word and records it in the rank table. (R206) -/
  | join (d : Reg) (a : Reg) (b : Reg)
  /-- Removes a member from a group word. (R206) -/
  | leave (a : Reg)
  /-- Releases, arrives at the group word, and waits for the generation to change. (R206) -/
  | bar (d : Reg) (a : Reg)
  /-- Waits until a memory word is at least a target, as an acquire. (R208) -/
  | cwait (d : Reg) (a : Reg) (b : Reg)
  /-- Takes the next ticket of a ticket word and waits until it is served. (R209) -/
  | ticket (d : Reg) (a : Reg)
  /-- Releases and advances SERVING of a ticket word, waking its holder. (R209) -/
  | serve (a : Reg)
  /-- Adds a 64-bit contribution to a memory word, combining in the cluster router. (R210) -/
  | gamoD (d : Reg) (a : Reg) (b : Reg)
  /-- Adds a 32-bit contribution to a memory word, combining in the cluster router. (R210) -/
  | gamoW (d : Reg) (a : Reg) (b : Reg)
  /-- 32 cycles after a combiner entry opens it sends one AADD of the sum and frees the entry. (R210) -/
  | gamoWindowEnd (n : Nat)
  /-- Submits a launch record to the partition's launch table. (R213) -/
  | launch (d : Reg) (a : Reg)
  /-- Sends a 64-byte active message to a low-priority handler of a core. (R214) -/
  | sendLo (d : Reg) (a : Reg) (b : Reg) (v : BitVec 5)
  /-- Sends a 64-byte active message to a high-priority handler of a core. (R214) -/
  | sendHi (d : Reg) (a : Reg) (b : Reg) (v : BitVec 5)
  /-- Sends a 64-byte payload into a ring of a core. (R214) -/
  | sendr (d : Reg) (a : Reg) (b : Reg) (v : BitVec 5)
  /-- Ends the handler and frees its mailbox slot. (R218) -/
  | hret
  /-- Checks a copy parameter block and queues a bulk copy, returning its transfer id. (R221) -/
  | xpush (d : Reg) (a : Reg)
  /-- Returns the status of a copy, acquiring its writes when DONE. (R224) -/
  | xstat (d : Reg) (a : Reg)
  /-- Atomic add at an address, returning the old value. (R173) -/
  | aadd (d : Reg) (a : Reg) (b : Reg) (o : BitVec 2) (s : BitVec 2) (z : BitVec 1)
  /-- Atomic AND at an address, returning the old value. (R173) -/
  | aand (d : Reg) (a : Reg) (b : Reg) (o : BitVec 2) (s : BitVec 2) (z : BitVec 1)
  /-- Atomic OR at an address, returning the old value. (R173) -/
  | aor (d : Reg) (a : Reg) (b : Reg) (o : BitVec 2) (s : BitVec 2) (z : BitVec 1)
  /-- Atomic XOR at an address, returning the old value. (R173) -/
  | axor (d : Reg) (a : Reg) (b : Reg) (o : BitVec 2) (s : BitVec 2) (z : BitVec 1)
  /-- Atomic signed minimum, returning the old value. (R173) -/
  | amin (d : Reg) (a : Reg) (b : Reg) (o : BitVec 2) (s : BitVec 2) (z : BitVec 1)
  /-- Atomic signed maximum, returning the old value. (R173) -/
  | amax (d : Reg) (a : Reg) (b : Reg) (o : BitVec 2) (s : BitVec 2) (z : BitVec 1)
  /-- Atomic unsigned minimum, returning the old value. (R173) -/
  | aminu (d : Reg) (a : Reg) (b : Reg) (o : BitVec 2) (s : BitVec 2) (z : BitVec 1)
  /-- Atomic unsigned maximum, returning the old value. (R173) -/
  | amaxu (d : Reg) (a : Reg) (b : Reg) (o : BitVec 2) (s : BitVec 2) (z : BitVec 1)
  /-- Atomic swap, returning the old value. (R173) -/
  | aswap (d : Reg) (a : Reg) (b : Reg) (o : BitVec 2) (s : BitVec 2) (z : BitVec 1)
  /-- Atomic compare-and-swap against g[d], returning the old value. (R173) -/
  | acas (d : Reg) (a : Reg) (b : Reg) (o : BitVec 2) (s : BitVec 2) (z : BitVec 1)
  /-- Atomic floating-point add rounded to nearest even, returning the old value. (R173) -/
  | afadd (d : Reg) (a : Reg) (b : Reg) (o : BitVec 2) (s : BitVec 2) (z : BitVec 1)
  /-- Submits a matrix multiply-accumulate job over K-blocks from two rings. (R288) -/
  | mma (d : Reg) (a : Reg) (b : Reg) (p : BitVec 4) (c : BitVec 5)
  /-- Submits a bitmap-sparse matrix multiply-accumulate job. (R288) -/
  | mmasp (d : Reg) (a : Reg) (b : Reg) (p : BitVec 4) (c : BitVec 5)
  /-- Waits for earlier queued engine work, then writes an engine register. (R294) -/
  | ewr (a : Reg) (e : BitVec 4)
  /-- Waits for earlier queued engine work, then reads an engine register. (R294) -/
  | erd (d : Reg) (e : BitVec 4)
  /-- Queues a clear of an accumulator tile and its KIND. (R294) -/
  | mzero (c : BitVec 2)
  /-- Queues a store of an accumulator tile to LM, scaled and converted. (R296) -/
  | mst (d : Reg) (a : Reg) (b : Reg) (c : BitVec 2)
  /-- Queues a transposing load of a 16 x 16 tile from LM into a ring panel. (R297) -/
  | mldt (d : Reg) (a : Reg) (b : Reg) (q : BitVec 3)
  /-- Waits for a matrix job to complete and returns its status. (R293) -/
  | jwait (d : Reg) (a : Reg)
  /-- Returns a matrix job's current status at once. (R293) -/
  | jpoll (d : Reg) (a : Reg)
  /-- Loads a sign-extended byte. (R155) -/
  | lb (d : Reg) (a : Reg) (r : BitVec 2) (o : BitVec 1) (s : BitVec 2) (h : BitVec 2) (x : BitVec 8)
  /-- Loads a zero-extended byte. (R155) -/
  | lbu (d : Reg) (a : Reg) (r : BitVec 2) (o : BitVec 1) (s : BitVec 2) (h : BitVec 2) (x : BitVec 8)
  /-- Loads a sign-extended halfword. (R155) -/
  | lh (d : Reg) (a : Reg) (r : BitVec 2) (o : BitVec 1) (s : BitVec 2) (h : BitVec 2) (x : BitVec 8)
  /-- Loads a zero-extended halfword. (R155) -/
  | lhu (d : Reg) (a : Reg) (r : BitVec 2) (o : BitVec 1) (s : BitVec 2) (h : BitVec 2) (x : BitVec 8)
  /-- Loads a sign-extended word. (R155) -/
  | lw (d : Reg) (a : Reg) (r : BitVec 2) (o : BitVec 1) (s : BitVec 2) (h : BitVec 2) (x : BitVec 8)
  /-- Loads a zero-extended word. (R155) -/
  | lwu (d : Reg) (a : Reg) (r : BitVec 2) (o : BitVec 1) (s : BitVec 2) (h : BitVec 2) (x : BitVec 8)
  /-- Loads a doubleword. (R155) -/
  | ld (d : Reg) (a : Reg) (r : BitVec 2) (o : BitVec 1) (s : BitVec 2) (h : BitVec 2) (x : BitVec 8)
  /-- Loads an FP32 word into an f register with the high half all ones. (R155) -/
  | flw (d : Reg) (a : Reg) (r : BitVec 2) (o : BitVec 1) (s : BitVec 2) (h : BitVec 2) (x : BitVec 8)
  /-- Loads a doubleword into an f register. (R155) -/
  | fld (d : Reg) (a : Reg) (r : BitVec 2) (o : BitVec 1) (s : BitVec 2) (h : BitVec 2) (x : BitVec 8)
  /-- Loads 16 bytes into a v register. (R155) -/
  | vld (d : Reg) (a : Reg) (r : BitVec 2) (o : BitVec 1) (s : BitVec 2) (h : BitVec 2) (x : BitVec 8)
  /-- Stores a byte. (R157) -/
  | sb (d : Reg) (a : Reg) (o : BitVec 2) (s : BitVec 2) (h : BitVec 1) (x : BitVec 8)
  /-- Stores a halfword. (R157) -/
  | sh (d : Reg) (a : Reg) (o : BitVec 2) (s : BitVec 2) (h : BitVec 1) (x : BitVec 8)
  /-- Stores a word. (R157) -/
  | sw (d : Reg) (a : Reg) (o : BitVec 2) (s : BitVec 2) (h : BitVec 1) (x : BitVec 8)
  /-- Stores a doubleword, optionally as release and or push. (R157) -/
  | sd (d : Reg) (a : Reg) (o : BitVec 2) (s : BitVec 2) (h : BitVec 1) (x : BitVec 8)
  /-- Stores the low word of an f register. (R157) -/
  | fsw (d : Reg) (a : Reg) (o : BitVec 2) (s : BitVec 2) (h : BitVec 1) (x : BitVec 8)
  /-- Stores an f register. (R157) -/
  | fsd (d : Reg) (a : Reg) (o : BitVec 2) (s : BitVec 2) (h : BitVec 1) (x : BitVec 8)
  /-- Stores 16 bytes of a v register. (R157) -/
  | vst (d : Reg) (a : Reg) (o : BitVec 2) (s : BitVec 2) (h : BitVec 1) (x : BitVec 8)
  /-- Waits at the LM port until the word is full, then returns it. (R162) -/
  | ldf (d : Reg) (a : Reg) (o : BitVec 1) (x : BitVec 8)
  /-- Waits until the word is full, returns it and sets it empty. (R162) -/
  | ldfe (d : Reg) (a : Reg) (o : BitVec 1) (x : BitVec 8)
  /-- Waits until the word is empty, writes it and sets it full. (R162) -/
  | sde (d : Reg) (a : Reg) (o : BitVec 1) (x : BitVec 8)
  /-- Sets an LM word's full/empty bit to empty. (R162) -/
  | fesetE (a : Reg) (x : BitVec 8)
  /-- Sets an LM word's full/empty bit to full. (R162) -/
  | fesetF (a : Reg) (x : BitVec 8)
  /-- Waits for earlier accesses and pushes of a scope, records PRES, clears the spin table. (R165) -/
  | fence (s : BitVec 2)
  /-- Drops a line from the core's cache region and from dew stores on one route. (R166) -/
  | ppurge (a : Reg) (r : BitVec 2) (x : BitVec 8)
  /-- Fetches the current version and a lease for a sector and returns its rts. (R167) -/
  | lease (d : Reg) (a : Reg) (r : BitVec 2) (x : BitVec 8)
  /-- Prefetches a sector as a load with no destination. (R168) -/
  | pref (a : Reg) (r : BitVec 2) (h : BitVec 1) (x : BitVec 8)
  /-- Lane-wise integer add. (R265) -/
  | vadd (d : Reg) (a : Reg) (b : Reg) (k : BitVec 3) (w : BitVec 2)
  /-- Lane-wise integer subtract. (R265) -/
  | vsub (d : Reg) (a : Reg) (b : Reg) (k : BitVec 3) (w : BitVec 2)
  /-- Lane-wise low product. (R265) -/
  | vmul (d : Reg) (a : Reg) (b : Reg) (k : BitVec 3) (w : BitVec 2)
  /-- Lane-wise signed high product. (R265) -/
  | vmulh (d : Reg) (a : Reg) (b : Reg) (k : BitVec 3) (w : BitVec 2)
  /-- Lane-wise unsigned high product. (R265) -/
  | vmulhu (d : Reg) (a : Reg) (b : Reg) (k : BitVec 3) (w : BitVec 2)
  /-- Lane-wise AND. (R265) -/
  | vand (d : Reg) (a : Reg) (b : Reg) (k : BitVec 3) (w : BitVec 2)
  /-- Lane-wise OR. (R265) -/
  | vor (d : Reg) (a : Reg) (b : Reg) (k : BitVec 3) (w : BitVec 2)
  /-- Lane-wise XOR. (R265) -/
  | vxor (d : Reg) (a : Reg) (b : Reg) (k : BitVec 3) (w : BitVec 2)
  /-- Lane-wise left shift. (R265) -/
  | vsll (d : Reg) (a : Reg) (b : Reg) (k : BitVec 3) (w : BitVec 2)
  /-- Lane-wise logical right shift. (R265) -/
  | vsrl (d : Reg) (a : Reg) (b : Reg) (k : BitVec 3) (w : BitVec 2)
  /-- Lane-wise arithmetic right shift. (R265) -/
  | vsra (d : Reg) (a : Reg) (b : Reg) (k : BitVec 3) (w : BitVec 2)
  /-- Lane-wise signed minimum. (R265) -/
  | vmin (d : Reg) (a : Reg) (b : Reg) (k : BitVec 3) (w : BitVec 2)
  /-- Lane-wise signed maximum. (R265) -/
  | vmax (d : Reg) (a : Reg) (b : Reg) (k : BitVec 3) (w : BitVec 2)
  /-- Lane-wise unsigned minimum. (R265) -/
  | vminu (d : Reg) (a : Reg) (b : Reg) (k : BitVec 3) (w : BitVec 2)
  /-- Lane-wise unsigned maximum. (R265) -/
  | vmaxu (d : Reg) (a : Reg) (b : Reg) (k : BitVec 3) (w : BitVec 2)
  /-- Lane-wise signed saturating add. (R265) -/
  | vadds (d : Reg) (a : Reg) (b : Reg) (k : BitVec 3) (w : BitVec 2)
  /-- Lane-wise signed saturating subtract. (R265) -/
  | vsubs (d : Reg) (a : Reg) (b : Reg) (k : BitVec 3) (w : BitVec 2)
  /-- Lane-wise unsigned saturating add. (R265) -/
  | vaddus (d : Reg) (a : Reg) (b : Reg) (k : BitVec 3) (w : BitVec 2)
  /-- Lane-wise unsigned saturating subtract. (R265) -/
  | vsubus (d : Reg) (a : Reg) (b : Reg) (k : BitVec 3) (w : BitVec 2)
  /-- Lane-wise equality into a mask register. (R266) -/
  | vcmpeq (d : Reg) (a : Reg) (b : Reg) (k : BitVec 3) (w : BitVec 2)
  /-- Lane-wise signed less-than into a mask register. (R266) -/
  | vcmplt (d : Reg) (a : Reg) (b : Reg) (k : BitVec 3) (w : BitVec 2)
  /-- Lane-wise unsigned less-than into a mask register. (R266) -/
  | vcmpltu (d : Reg) (a : Reg) (b : Reg) (k : BitVec 3) (w : BitVec 2)
  /-- Selects lanes of v[a] or v[b] by a mask. (R266) -/
  | vsel (d : Reg) (a : Reg) (b : Reg) (k : BitVec 3) (w : BitVec 2)
  /-- Writes g[a] into every active lane. (R266) -/
  | vsplat (d : Reg) (a : Reg) (k : BitVec 3) (w : BitVec 2)
  /-- Extracts one lane into a g register. (R266) -/
  | vext (d : Reg) (a : Reg) (b : Reg) (w : BitVec 2)
  /-- Inserts g[a] into one lane. (R266) -/
  | vins (d : Reg) (a : Reg) (b : Reg) (w : BitVec 2)
  /-- Permutes lanes by indices in v[b]. (R266) -/
  | vperm (d : Reg) (a : Reg) (b : Reg) (k : BitVec 3) (w : BitVec 2)
  /-- Accumulates signed dot products into 32-bit lanes. (R267) -/
  | vdot (d : Reg) (a : Reg) (b : Reg) (k : BitVec 3) (w : BitVec 1)
  /-- Sums active lanes into a g register. (R267) -/
  | vred (d : Reg) (a : Reg) (k : BitVec 3) (w : BitVec 2)
  /-- ANDs two mask registers. (R268) -/
  | kand (d : Reg) (a : Reg) (b : Reg)
  /-- ORs two mask registers. (R268) -/
  | kor (d : Reg) (a : Reg) (b : Reg)
  /-- XORs two mask registers. (R268) -/
  | kxor (d : Reg) (a : Reg) (b : Reg)
  /-- k[a] AND NOT k[b]. (R268) -/
  | kandn (d : Reg) (a : Reg) (b : Reg)
  /-- Moves g[a][15:0] into a mask register. (R268) -/
  | kmovg (d : Reg) (a : Reg)
  /-- Moves a mask register into a g register. (R268) -/
  | gmovk (d : Reg) (a : Reg)
  /-- Correctly rounded e^x in FP32 or FP64. (R272) -/
  | fexp (d : Reg) (a : Reg) (p : BitVec 1) (m : BitVec 3)
  /-- Correctly rounded ln x in FP32 or FP64. (R272) -/
  | flog (d : Reg) (a : Reg) (p : BitVec 1) (m : BitVec 3)
  /-- Correctly rounded erf x in FP32 or FP64. (R272) -/
  | ferf (d : Reg) (a : Reg) (p : BitVec 1) (m : BitVec 3)
  /-- FP64 division rounded once, on the W-core. (R272) -/
  | fdivD (d : Reg) (a : Reg) (b : Reg) (m : BitVec 3)
  /-- FP64 square root rounded once, on the W-core. (R272) -/
  | fsqrtD (d : Reg) (a : Reg) (m : BitVec 3)
  /-- Advances a CRC-32C over the 16 bytes of v[b]. (R273) -/
  | vcrc (d : Reg) (a : Reg) (b : Reg)
  /-- Scalar floating add rounded once. (R269) -/
  | fadd (d : Reg) (a : Reg) (b : Reg) (p : BitVec 1) (m : BitVec 3)
  /-- Scalar floating subtract rounded once. (R269) -/
  | fsub (d : Reg) (a : Reg) (b : Reg) (p : BitVec 1) (m : BitVec 3)
  /-- Scalar floating multiply rounded once. (R269) -/
  | fmul (d : Reg) (a : Reg) (b : Reg) (p : BitVec 1) (m : BitVec 3)
  /-- FP32 division rounded once. (R269) -/
  | fdivS (d : Reg) (a : Reg) (b : Reg) (m : BitVec 3)
  /-- FP32 square root rounded once. (R269) -/
  | fsqrtS (d : Reg) (a : Reg) (m : BitVec 3)
  /-- Scalar floating minimum. (R269) -/
  | fmin (d : Reg) (a : Reg) (b : Reg) (p : BitVec 1)
  /-- Scalar floating maximum. (R269) -/
  | fmax (d : Reg) (a : Reg) (b : Reg) (p : BitVec 1)
  /-- Fused a × b + d rounded once. (R269) -/
  | fma (d : Reg) (a : Reg) (b : Reg) (p : BitVec 1) (m : BitVec 3)
  /-- Fused a × b − d rounded once. (R269) -/
  | fms (d : Reg) (a : Reg) (b : Reg) (p : BitVec 1) (m : BitVec 3)
  /-- Fused −(a × b) + d rounded once. (R269) -/
  | fnma (d : Reg) (a : Reg) (b : Reg) (p : BitVec 1) (m : BitVec 3)
  /-- Fused −(a × b) − d rounded once. (R269) -/
  | fnms (d : Reg) (a : Reg) (b : Reg) (p : BitVec 1) (m : BitVec 3)
  /-- Floating equality into a g register. (R270) -/
  | feq (d : Reg) (a : Reg) (b : Reg) (p : BitVec 1)
  /-- Floating less-than into a g register. (R270) -/
  | flt (d : Reg) (a : Reg) (b : Reg) (p : BitVec 1)
  /-- Floating less-or-equal into a g register. (R270) -/
  | fle (d : Reg) (a : Reg) (b : Reg) (p : BitVec 1)
  /-- Writes the one-hot class of a floating value. (R270) -/
  | fclass (d : Reg) (a : Reg) (p : BitVec 1)
  /-- a with the sign of b. (R270) -/
  | fsgnj (d : Reg) (a : Reg) (b : Reg) (p : BitVec 1)
  /-- a with the opposite of b's sign. (R270) -/
  | fsgnjn (d : Reg) (a : Reg) (b : Reg) (p : BitVec 1)
  /-- a with sign a XOR b. (R270) -/
  | fsgnjx (d : Reg) (a : Reg) (b : Reg) (p : BitVec 1)
  /-- Moves g bits into an f register. (R270) -/
  | fmvfg (d : Reg) (a : Reg) (p : BitVec 1)
  /-- Moves f bits into a g register. (R270) -/
  | fmvgf (d : Reg) (a : Reg) (p : BitVec 1)
  /-- Scalar conversion between floating and integer formats, rounded once. (R274) -/
  | fcvt (d : Reg) (a : Reg) (s : BitVec 5) (m : BitVec 3) (t : BitVec 5)
  /-- Lane-wise conversion between formats, rounded once. (R274) -/
  | vcvt (d : Reg) (a : Reg) (s : BitVec 5) (k : BitVec 3) (m : BitVec 3) (t : BitVec 5)
  /-- Lane-wise floating add. (R275) -/
  | vfadd (d : Reg) (a : Reg) (b : Reg) (k : BitVec 3) (m : BitVec 3) (t : BitVec 2)
  /-- Lane-wise floating subtract. (R275) -/
  | vfsub (d : Reg) (a : Reg) (b : Reg) (k : BitVec 3) (m : BitVec 3) (t : BitVec 2)
  /-- Lane-wise floating multiply. (R275) -/
  | vfmul (d : Reg) (a : Reg) (b : Reg) (k : BitVec 3) (m : BitVec 3) (t : BitVec 2)
  /-- Lane-wise fused multiply-add into d. (R275) -/
  | vfma (d : Reg) (a : Reg) (b : Reg) (k : BitVec 3) (m : BitVec 3) (t : BitVec 2)
  /-- Lane-wise fused −(a × b) + d. (R275) -/
  | vfnma (d : Reg) (a : Reg) (b : Reg) (k : BitVec 3) (m : BitVec 3) (t : BitVec 2)
  /-- Lane-wise floating minimum. (R275) -/
  | vfmin (d : Reg) (a : Reg) (b : Reg) (k : BitVec 3) (t : BitVec 2)
  /-- Lane-wise floating maximum. (R275) -/
  | vfmax (d : Reg) (a : Reg) (b : Reg) (k : BitVec 3) (t : BitVec 2)
  /-- Lane-wise floating compare into a mask register. (R275) -/
  | vfcmp (d : Reg) (a : Reg) (b : Reg) (k : BitVec 3) (p : BitVec 2) (t : BitVec 2)
  /-- Pairwise-tree floating sum of active lanes. (R276) -/
  | vfredSum (d : Reg) (a : Reg) (k : BitVec 3) (m : BitVec 3) (t : BitVec 2)
  /-- Pairwise-tree floating minimum of active lanes. (R276) -/
  | vfredMin (d : Reg) (a : Reg) (k : BitVec 3) (t : BitVec 2)
  /-- Pairwise-tree floating maximum of active lanes. (R276) -/
  | vfredMax (d : Reg) (a : Reg) (k : BitVec 3) (t : BitVec 2)
  /-- A thread that reaches a W word drains and moves to the W-core, waiting for a free context. (R73) -/
  | migrateToWCore (cluster : Nat)
  /-- After 256 retired non-W instructions the thread drains and returns to an L-core. (R73) -/
  | migrateReturn (ctx : Nat)
  /-- A migrated thread gives up the W-core after 64 µs or on waiting while the FIFO is not empty. (R198) -/
  | wCoreEarlyReturn (ctx : Nat)
  /-- A pending copy completion is taken at a boundary while XIEN is set, entering the copy's handler. (R90) -/
  | copyCompletionInterrupt (ctx : Nat)
  /-- A load request reaches its home and is answered with the current version, extending its lease. (R98) -/
  | homeLoad (n : Nat) (c : Stamp) (passed : Nat)
  /-- A load passing a router is answered by its dew store when a valid unexpired copy matches. (R139) -/
  | dewAnswer (n : Nat) (c : Stamp)
  /-- A reply retraces the path, condensing copies, filling the cache region and raising LCLK. (R138) -/
  | loadReply (n : Nat)
  /-- A store reaches its home and makes a new version stamped past every lease. (R100) -/
  | homeStore (n : Nat)
  /-- A store waiting at the home for LF to reach the horizon performs. (R131) -/
  | horizonWaitEnd (n : Nat)
  /-- A plshared write proceeds once the home's GTR passes the latest expiry plus 8 ns. (R126) -/
  | plsharedWriteRelease (n : Nat)
  /-- A store acknowledgement frees the store-buffer entry and raises LCLK to its wts. (R158) -/
  | storeAck (n : Nat)
  /-- An atomic or group, wait or ticket operation performs at the atomic unit under home stamping. (R102) -/
  | homeAtomic (n : Nat)
  /-- An atomic's result arrives, writing g[d] and raising LCLK. (R174) -/
  | atomicResult (n : Nat)
  /-- An atomic to an LM address runs in the owner's built-in high-priority handler in one port step. (R175) -/
  | lmAtomic (n : Nat)
  /-- A home slice publishes a new PUB to the S-die and grants once acknowledged. (R134) -/
  | pubPublish (slice : Nat) (value : Stamp)
  /-- Homes raise old stamps to LF − 2^38 and caches drop copies whose rts is before LF. (R132) -/
  | homeSweep
  /-- A pushed copy arrives at a core, which accepts or refuses it. (R145) -/
  | pushReceive (n : Nat)
  /-- The home gathers receivers' answers and sends one push acknowledgement. (R146) -/
  | pushAnswer (n : Nat)
  /-- The core adds a push acknowledgement to the context's delivered and refused counts. (R146) -/
  | pushAck (n : Nat)
  /-- A purge's acknowledgement returns from the home and PPURGE performs. (R142) -/
  | purgeAck (n : Nat)
  /-- A wait message reaching a router combines into or opens a squall entry or passes uncombined. (R199) -/
  | squallWait (n : Nat)
  /-- A wake reaching a router fans out to the entry's children and frees the entry. (R199) -/
  | squallWake (n : Nat)
  /-- A squall entry 64 µs old is freed without a wake. (R199) -/
  | squallEntryExpiry (n : Nat)
  /-- A wait at the home is answered, recorded, or answered unrecorded when records are full. (R199) -/
  | homeWaitRecord (n : Nat)
  /-- A wake reaches a waiter, which resumes or registers again. (R199) -/
  | waitWake (n : Nat)
  /-- A waiter with no wake for 64 µs sends its wait again. (R199) -/
  | waitRepoll (ctx : Nat)
  /-- A waiter answered unrecorded sends its wait again after 4 µs. (R199) -/
  | unrecordedResend (ctx : Nat)
  /-- An active message reaches a core, which accepts it into a mailbox slot or ring, or refuses it. (R215) -/
  | messageArrival (n : Nat)
  /-- A dormant handler context starts on a waiting mailbox message after its turn. (R217) -/
  | handlerStart (core : Nat) (high : Bool)
  /-- A message status reaches the sender and is written to g[d]. (R215) -/
  | messageAnswer (n : Nat)
  /-- A handler exceeding HLIMIT is stopped and its launch aborted. (R195) -/
  | handlerOverrun (ctx : Nat)
  /-- A store, SDE or FESET from another source performs at an LM port. (R110) -/
  | remoteLmStore (n : Nat)
  /-- Hardware offers a refused request again every 1 µs. (R200) -/
  | refusedOfferRetry (n : Nat)
  /-- A unit held 4 µs for a refused source that did not offer is passed to the next source. (R200) -/
  | reservedHoldLapse (n : Nat)
  /-- The steward maps or denies a page; the home performs or discards parked stores and sends the wake. (R350) -/
  | pageResolve (part : Nat) (page : Nat) (leaf : Option Word)
  /-- A page wake reaches a fault-waiting context, which re-executes or aborts. (R348) -/
  | faultWake (n : Nat)
  /-- A gated launch's gate word reaches its value and the launch opens. (R181) -/
  | gateOpen (part : Nat) (slot : Nat)
  /-- A launch waiting 1 ms since its last placement becomes aged. (R186) -/
  | launchAged (part : Nat) (slot : Nat)
  /-- The launch table places the head thread on a candidate core chosen by policy. (R187) -/
  | threadPlace (part : Nat)
  /-- Footprint staging completes and the placed thread starts. (R190) -/
  | stagingDone (ctx : Nat)
  /-- A drained launch performs a system release and increments its completion word. (R185) -/
  | launchComplete (part : Nat) (slot : Nat)
  /-- The S-die posts a VF completion entry and raises MSI-X when the queue has room. (R338) -/
  | completionPost (part : Nat)
  /-- A steward aborts a launch, discarding unperformed work and logging the abort. (R346) -/
  | launchAbort (part : Nat) (slot : Nat)
  /-- Every 1 µs Isobar estimates power, recomputes headroom and steps clocks down. (R191) -/
  | isobarEstimate (measured : List (Nat × Int))
  /-- Work waiting 100 µs for headroom becomes aged and drives clock steps down. (R193) -/
  | workAged (tile : Nat)
  /-- Every 10 µs Isobar raises a die's clock 25 MHz if its conditions hold. (R193) -/
  | clockRaiseCheck (tile : Nat)
  /-- An admitted matrix job with filled rings is dispatched and snapshots its rings. (R289) -/
  | jobDispatch (core : Nat)
  /-- A matrix job retires, writing its tile, popping slots and setting its status. (R289) -/
  | jobRetire (core : Nat)
  /-- The XU dispatches a core's next copy after Isobar admits it. (R222) -/
  | copyDispatch (core : Nat)
  /-- An element read or write of a copy is answered, written or failed. (R222) -/
  | copyElement (core : Nat) (seq : Nat) (element : Nat)
  /-- A page wake makes a parked copy RUNNING again. (R222) -/
  | copyResume (n : Nat)
  /-- Every destination word is written and acknowledged; the copy is DONE and its completion pending. (R223) -/
  | copyDone (core : Nat) (seq : Nat)
  /-- Every 8 µs a die exchanges timestamps with the master, slews and updates lock. (R148) -/
  | gtrExchange (die : Nat) (measured : Option Int) (bound : BitVec 12)
  /-- Every 8 µs Zwion ends exchange time flits for the master to follow. (R340) -/
  | zwionTimeExchange (port : Nat) (measured : Int)
  /-- A request's 20 µs reply timer expires and its class's recovery runs. (R358) -/
  | replyTimeout (n : Nat)
  /-- A home or the launch table answers a fetch by sequence number as performed or not received. (R359) -/
  | seqFetch (n : Nat)
  /-- A rights purge makes a core drop a domain's PLB entries and acknowledge. (R308) -/
  | rightsPurge (core : Nat) (domain : Nat)
  /-- A slice drops a page from its translation cache after a table change. (R315) -/
  | translationPurge (slice : Nat) (page : Nat)
  /-- A steward moves a page between stacks or from host memory and sends its wake: with the leaf it writes, and the lines of the host's data by number. (R316) -/
  | pageMigration (page : Nat) (large : Bool) (leafAndData : Word × List (Nat × BitVec 512))
  /-- Wiping of state before it changes hands completes. (R324) -/
  | wipe (part : Nat)
  /-- The drain deadline expires; outstanding work is recorded and cores are saved. (R351) -/
  | preemptDrainDeadline (part : Nat)
  /-- A pre-empted core's drain ends early and its image is saved. (R351) -/
  | drainComplete (part : Nat)
  /-- A die is pre-empted, quiesced, frosted, reset and returned. (R360) -/
  | dieReset (die : Nat) (answers : Bool)
  /-- The quiesce deadline expires and crossings to the die are frosted. (R360) -/
  | quiesceDeadline (die : Nat)
  /-- A returning home slice sets memory stamps past its PUB before serving. (R361) -/
  | homeReturn (slice : Nat)
  /-- A die-crossing CRC failure replays flit groups in order, frosting after 16 failures. (R356) -/
  | crossingReplay (die : Nat) (good : Bool)
  /-- A router link CRC error retries once, then poisons or loses the flit. (R356) -/
  | linkCrcRetry (n : Nat) (again : Bool)
  /-- The patrol scrubs every HBM line at least once in 24 hours. (R356) -/
  | hbmPatrol (word : Nat) (errors : Nat)
  /-- A CXL.cache grant fills the host-line store and counts SEQ. (R331) -/
  | hostGrant (hpa : Nat) (state : BitVec 2) (data : BitVec 512)
  /-- A host snoop arrives and is held until leases expire or an outstanding request completes. (R333) -/
  | hostSnoop (hpa : Nat) (invalidate : Bool)
  /-- After expiry the held snoop is answered, with data if M. (R333) -/
  | snoopAnswer (hpa : Nat)
  /-- The host's answer to a crossed eviction ends it without resending data. (R334) -/
  | writePullDrop (hpa : Nat)
  /-- A host CXL.mem access to device memory is served by bias or rejected. (R335) -/
  | hostMemAccess (vf : Nat) (addr : Nat) (write : Option (BitVec 512))
  /-- After leases expire the page's bias is set to host and the access is served. (R335) -/
  | biasFlipToHost (page : Nat)
  /-- A 64-byte write to LREC submits a launch record from a VF and sets LSTAT. (R337) -/
  | launchPortWrite (vf : Nat) (offset : Nat) (bytes : List Byte)
  /-- A host write to a VF register without behaviour of its own, such as CQHEAD. (R337) -/
  | vfRegisterWrite (vf : Nat) (offset : Nat) (value : Word)
  /-- A Zwion flit is checked and accepted, NAKed or refused busy. (R339) -/
  | zwionFlitReceive (port : Nat) (kind : BitVec 4) (seq : BitVec 12) (ack : BitVec 12) (cls : BitVec 4) (payload : List Byte) (crcGood : Bool) (full : Bool)
  /-- A NAK makes the sender replay from the next flit in order. (R339) -/
  | zwionNak (port : Nat) (last : BitVec 12)
  /-- 100 ns after a busy the sender replays from the refused flit. (R339) -/
  | zwionBusyReplay (port : Nat) (seq : BitVec 12)
  /-- After 16 NAKs of one flit the port retrains and may drop to four lanes. (R339) -/
  | zwionRetrain (port : Nat) (lanesGood : Bool)
  /-- A collective slot's gate opens and it reads its contribution. (R342) -/
  | collStart (part : Nat) (slot : Nat)
  /-- A contribution chunk reaches rank 0 and is folded, buffered or refused. (R342) -/
  | collChunk (part : Nat) (slot : Nat) (rank : Nat) (chunk : Nat) (data : List Word)
  /-- The result reaches a rank, which writes DST, releases and increments DONE. (R342) -/
  | collResult (part : Nat) (slot : Nat) (result : List Word) (flags : BitVec 5) (ending : BitVec 4) (peer : BitVec 8)
  /-- 2 ms after opening an unfinished collective ends LATE at every rank. (R342) -/
  | collDeadline (part : Nat) (slot : Nat)
  /-- Main below 44 V for 10 µs holds every die in reset. (R368) -/
  | mainUndervoltage
  /-- Main in range starts bring-up at step 1. (R372) -/
  | mainPowerOn
  /-- A CXL hot reset restarts bring-up at step 1. (R372) -/
  | cxlHotReset
  /-- Bring-up step 1: Primrose runs from boot ROM, self-tests and reads fuses. (R372) -/
  | primroseSelfTest (good : Bool)
  /-- Bring-up step 2: steward firmware signature and version are verified; the image is its version and its bytes. (R327) -/
  | firmwareVerify (signed : Bool) (image : Nat × List Byte)
  /-- Bring-up step 3: stewards start, dies leave reset, crossings train. (R372) -/
  | stewardStart (failed : Option Nat)
  /-- Bring-up step 4: all 32 stacks train. (R372) -/
  | hbmTraining (failed : Option Nat)
  /-- Bring-up step 5: disabled clusters are read from fuses and disabled. (R372) -/
  | disableMapLoad (clusters : List Nat)
  /-- Bring-up step 6: the whole module is wiped. (R372) -/
  | moduleWipe (failed : Option Nat)
  /-- Bring-up step 7: every replica loads the master and locks. (R372) -/
  | gtrInitialLock (failed : Option Nat)
  /-- Bring-up step 8: Isobar starts with the last cap. (R372) -/
  | isobarStart (good : Bool)
  /-- Bring-up step 9: the full CXL offer and partitions become available. (R372) -/
  | ready
  /-- A C-die sensor at 105 °C forces that die to 0.50 GHz. (R370) -/
  | cDieClamp (tile : Nat) (degrees : Nat)
  /-- A B-die or HBM logic die at 105 °C slows its tile's C-die and halves HBM bandwidth. (R370) -/
  | baseDieClamp (die : Nat) (degrees : Nat)
  /-- An S-die sensor at 105 °C slows every C-die, Zwion port and the host-line store. (R370) -/
  | sDieClamp (degrees : Nat)
  /-- A clamp lifts when every sensor of the die reads below 100 °C. (R370) -/
  | clampLift (die : Nat) (degrees : Nat)
  /-- Any die at 110 °C disconnects Main within 100 µs and logs the trip. (R370) -/
  | thermalTrip (die : Nat) (degrees : Nat)
  /-- Returns BOOTSTAT, cap, power estimate and sensor values. (R374) -/
  | getStatus
  /-- Sets the operator's power cap within 4,000–7,500 W. (R369) -/
  | setCap (watts : Nat) (oob : Bool)
  /-- Returns each C-die's clock step. (R374) -/
  | getClocks
  /-- Returns one page of the cluster disable map. (R374) -/
  | readDisableMap (page : Nat)
  /-- Starts a partition from a descriptor. (R318) -/
  | partCreate (desc : List Word)
  /-- Ends a partition and wipes its state. (R324) -/
  | partEnd (part : Nat)
  /-- Pre-empts a whole partition: stop, drain, record, save, release. (R351) -/
  | partPreempt (part : Nat) (deadline : Nat)
  /-- Restores a saved partition onto its cores and resumes it. (R355) -/
  | partRestore (part : Nat)
  /-- Grows or shrinks a partition, relocating cluster images on a shrink. (R363) -/
  | partResize (part : Nat) (desc : List Word) (forced : Bool)
  /-- Management command to drain a partition. (R374) -/
  | partDrain (part : Nat) (deadline : Nat)
  /-- Creates a protection domain for an owner in a partition. (R304) -/
  | domainCreate (part : Nat) (owner : Option Nat)
  /-- Retires a protection domain. (R304) -/
  | domainRetire (id : Nat)
  /-- Writes a domain's rights table and purges PLBs: the entries, given as their indices, their first words and their second words. (R308) -/
  | rightsWrite (id : Nat) (index : List Nat) (word0 word1 : List Word)
  /-- Returns a partition's 64 abort records. (R347) -/
  | readAbortLog (part : Nat)
  /-- Returns corrected-error counts per die. (R356) -/
  | readErrors
  /-- Writes a collective slot descriptor. (R341) -/
  | collWrite (part : Nat) (slot : Nat) (desc : List Word)
  /-- Selects the source the GTR master follows. (R340) -/
  | timeSource (source : Nat)
  /-- Flips a page back to device bias after the host gives up its lines. (R335) -/
  | biasDevice (page : Nat)
  /-- Resets a VF, aborting its launches and withdrawing its collectives. (R364) -/
  | vfReset (vf : Nat)
  /-- A signed request moves the life-cycle state, wiping the module. (R326) -/
  | lifecycle (target : BitVec 2) (signed : Bool) (key : BitVec 512)
  /-- A signed request raises the firmware security-version counter. (R327) -/
  | raiseCounter (signed : Bool)
  /-- Restarts the bring-up sequence. (R374) -/
  | reset (oob : Bool)
  /-- A baseboard controller requests Main off over I3C. (R375) -/
  | i3cMainOff
  /-- SPDM request for supported versions. (R328) -/
  | getVersion (fn : Nat)
  /-- SPDM request for capabilities. (R328) -/
  | getCapabilities (fn : Nat)
  /-- SPDM algorithm negotiation, P-521 and SHA-512 only. (R328) -/
  | negotiateAlgorithms (fn : Nat) (p521 : Bool) (sha512 : Bool)
  /-- SPDM request for certificate digests. (R328) -/
  | getDigests (fn : Nat)
  /-- SPDM request for the slot 0 certificate chain. (R328) -/
  | getCertificate (fn : Nat) (slot : Nat)
  /-- SPDM challenge signed by the device key. (R328) -/
  | challenge (fn : Nat) (nonce : List Byte)
  /-- Returns signed measurement digests computed at the request. (R329) -/
  | getMeasurements (fn : Nat) (index : Nat) (nonce : List Byte)
  /-- SPDM ECDHE key exchange on P-521. (R328) -/
  | keyExchange (fn : Nat) (share : List Byte)
  /-- SPDM finish of a secured session. (R328) -/
  | finish (fn : Nat) (verified : Bool)
  /-- Ends an SPDM secured session. (R328) -/
  | endSession (fn : Nat)
  /-- A fetched word that is zero, has an unassigned major or minor, an ILLEGAL field value or a non-zero reserved field raises ILLEGAL. (R42) -/
  | illegalInstruction (word : IWord)
  /-- A GO written to MBCTL with an opcode not in the table ends with CODE 3. (R374) -/
  | unknownOpcode (opcode : BitVec 16)
  /-- With host PTM as the source, the S-die master exchanges PTM timestamps with the host and slews to within ±100 ns. (R340) -/
  | ptmTimeExchange (measured : Int)
  /-- The host answers a dirty eviction that crossed no snoop by pulling the data, which frees the eviction buffer and leaves the line in I. (R334) -/
  | dirtyEvictionAnswer (hpa : Nat)
  /-- A steward adds, removes or changes a partition's region-map entry, or refuses one that breaks R309 or R311. (R311) -/
  | regionMapWrite (part : Nat) (index : Nat) (word0 : Word) (word1 : Word)
  /-- IDE key programming arrives over an SPDM secured session and sets the CXL IDE keys. (R330) -/
  | ideKeyProgramming (fn : Nat) (stream : Nat) (key : BitVec 256)
  deriving DecidableEq, Repr

end Sys2Proof
end

