-- ==== Sys2Proof/WellFormed.lean ====
section
/-!
DEFINITION. Which instructions are well-formed: field values that R40, R41, R45 to R57 and R274 mark ILLEGAL are
not, and the numbers of an event's arguments lie in the ranges of the parts they name.
-/
namespace Sys2Proof

/-- A rounding mode that is not ILLEGAL (R40). -/
def roundingMode (m : BitVec 3) : Bool := !(m == 5 || m == 6)

/-- A k register in a d, a or b field (R41). -/
def maskReg (r : Reg) : Bool := decide (r.toNat < 8)

/-- A k register that may be a destination: not k0 (R41). -/
def maskDest (r : Reg) : Bool := decide (0 < r.toNat) && decide (r.toNat < 8)

/-- The control-register numbers that R48 assigns. -/
def assignedCr (n : BitVec 12) : Bool :=
  let k := n.toNat
  decide (k ≤ 0x004) || (decide (0x008 ≤ k) && decide (k ≤ 0x00B)) || (decide (0x010 ≤ k) && decide (k ≤ 0x012)) ||
    (decide (0x020 ≤ k) && decide (k ≤ 0x024)) || k == 0x030 || k == 0x031 || (decide (0x038 ≤ k) && decide (k ≤ 0x03A)) ||
    (decide (0x040 ≤ k) && decide (k ≤ 0x043)) || k == 0x048 || k == 0x049 || k == 0x050 || k == 0x051 ||
    (decide (0x060 ≤ k) && decide (k ≤ 0x067))

/-- A floating code of R56. -/
def floatCode (c : BitVec 5) : Bool := decide (c.toNat ≤ 9)

/-- An integer code of R56. -/
def intCode (c : BitVec 5) : Bool := decide (16 ≤ c.toNat) && decide (c.toNat ≤ 23)

/-- A pair of conversion codes that R56 and R274 allow: listed, not equal, not both integer. -/
def conversion (t s : BitVec 5) : Bool :=
  (floatCode t || intCode t) && (floatCode s || intCode s) && !(t == s) && !(intCode t && intCode s)

/-- A context id: core index * 8 + context number 0 to 5 (R376). -/
def contextId (c : Nat) : Bool := decide (c < 8388608) && decide (c % 8 < 6)

/-- Well-formed instructions and events. -/
def Instr.wf : Instr → Bool
  | .add d a b => !(d == 0 && a == 0 && b == 0)
  | .sub _ _ _ => true
  | .and _ _ _ => true
  | .or _ _ _ => true
  | .xor _ _ _ => true
  | .andn _ _ _ => true
  | .sll _ _ _ => true
  | .srl _ _ _ => true
  | .sra _ _ _ => true
  | .slt _ _ _ => true
  | .sltu _ _ _ => true
  | .min _ _ _ => true
  | .max _ _ _ => true
  | .minu _ _ _ => true
  | .maxu _ _ _ => true
  | .mul _ _ _ => true
  | .mulh _ _ _ => true
  | .mulhu _ _ _ => true
  | .clz _ _ => true
  | .ctz _ _ => true
  | .popc _ _ => true
  | .div _ _ _ => true
  | .divu _ _ _ => true
  | .rem _ _ _ => true
  | .remu _ _ _ => true
  | .nop => true
  | .addi d a i => !(d == 0 && a == 0 && i == 0)
  | .andi _ _ _ => true
  | .ori _ _ _ => true
  | .xori _ _ _ => true
  | .slti _ _ _ => true
  | .sltiu _ _ _ => true
  | .slli _ _ _ => true
  | .srli _ _ _ => true
  | .srai _ _ _ => true
  | .lhi _ _ => true
  | .shori _ _ _ => true
  | .beq _ _ _ => true
  | .bne _ _ _ => true
  | .blt _ _ _ => true
  | .bge _ _ _ => true
  | .bltu _ _ _ => true
  | .bgeu _ _ _ => true
  | .jal _ => true
  | .jalr _ _ _ => true
  | .spawn _ _ _ => true
  | .exit => true
  | .yield => true
  | .home _ => true
  | .waitt _ => true
  | .waittExpiry ctx => contextId ctx
  | .lclkup _ _ => true
  | .iflush => true
  | .trap _ => true
  | .eret => true
  | .crr _ n => assignedCr n
  | .crw _ _ n => assignedCr n
  | .crs _ _ n => assignedCr n
  | .crc _ _ n => assignedCr n
  | .rwait _ _ _ n => decide (n.toNat ≤ 256)
  | .rroom _ _ _ n => decide (n.toNat ≤ 256)
  | .radvh _ _ _ n => decide (n.toNat ≤ 256)
  | .radvt _ _ _ n => decide (n.toNat ≤ 256)
  | .rld _ _ _ _ _ _ => true
  | .rst _ _ _ _ _ _ => true
  | .join _ _ _ => true
  | .leave _ => true
  | .bar _ _ => true
  | .cwait _ _ _ => true
  | .ticket _ _ => true
  | .serve _ => true
  | .gamoD _ _ _ => true
  | .gamoW _ _ _ => true
  | .gamoWindowEnd _ => true
  | .launch _ _ => true
  | .sendLo _ _ _ v => decide (v.toNat % 4 = 0)
  | .sendHi _ _ _ v => decide (v.toNat % 4 = 0)
  | .sendr _ _ _ v => decide (v.toNat % 4 = 0)
  | .hret => true
  | .xpush _ _ => true
  | .xstat _ _ => true
  | .aadd _ _ _ _ _ _ => true
  | .aand _ _ _ _ _ _ => true
  | .aor _ _ _ _ _ _ => true
  | .axor _ _ _ _ _ _ => true
  | .amin _ _ _ _ _ _ => true
  | .amax _ _ _ _ _ _ => true
  | .aminu _ _ _ _ _ _ => true
  | .amaxu _ _ _ _ _ _ => true
  | .aswap _ _ _ _ _ _ => true
  | .acas _ _ _ _ _ _ => true
  | .afadd _ _ _ _ _ _ => true
  | .mma _ _ _ p _ => decide (p.toNat ≤ 13)
  | .mmasp _ _ _ p _ => decide (p.toNat ≤ 13)
  | .ewr _ _ => true
  | .erd _ _ => true
  | .mzero _ => true
  | .mst _ _ _ _ => true
  | .mldt _ _ _ _ => true
  | .jwait _ _ => true
  | .jpoll _ _ => true
  | .lb _ _ _ _ _ _ _ => true
  | .lbu _ _ _ _ _ _ _ => true
  | .lh _ _ _ _ _ _ _ => true
  | .lhu _ _ _ _ _ _ _ => true
  | .lw _ _ _ _ _ _ _ => true
  | .lwu _ _ _ _ _ _ _ => true
  | .ld _ _ _ _ _ _ _ => true
  | .flw _ _ _ _ _ _ _ => true
  | .fld _ _ _ _ _ _ _ => true
  | .vld _ _ _ _ _ _ _ => true
  | .sb _ _ _ _ _ _ => true
  | .sh _ _ _ _ _ _ => true
  | .sw _ _ _ _ _ _ => true
  | .sd _ _ _ _ _ _ => true
  | .fsw _ _ _ _ _ _ => true
  | .fsd _ _ _ _ _ _ => true
  | .vst _ _ _ _ _ _ => true
  | .ldf _ _ _ _ => true
  | .ldfe _ _ _ _ => true
  | .sde _ _ _ _ => true
  | .fesetE _ _ => true
  | .fesetF _ _ => true
  | .fence _ => true
  | .ppurge _ _ _ => true
  | .lease _ _ _ _ => true
  | .pref _ _ _ _ => true
  | .vadd _ _ _ _ _ => true
  | .vsub _ _ _ _ _ => true
  | .vmul _ _ _ _ _ => true
  | .vmulh _ _ _ _ _ => true
  | .vmulhu _ _ _ _ _ => true
  | .vand _ _ _ _ _ => true
  | .vor _ _ _ _ _ => true
  | .vxor _ _ _ _ _ => true
  | .vsll _ _ _ _ _ => true
  | .vsrl _ _ _ _ _ => true
  | .vsra _ _ _ _ _ => true
  | .vmin _ _ _ _ _ => true
  | .vmax _ _ _ _ _ => true
  | .vminu _ _ _ _ _ => true
  | .vmaxu _ _ _ _ _ => true
  | .vadds _ _ _ _ _ => true
  | .vsubs _ _ _ _ _ => true
  | .vaddus _ _ _ _ _ => true
  | .vsubus _ _ _ _ _ => true
  | .vcmpeq d _ _ _ _ => maskDest d
  | .vcmplt d _ _ _ _ => maskDest d
  | .vcmpltu d _ _ _ _ => maskDest d
  | .vsel _ _ _ _ _ => true
  | .vsplat _ _ _ _ => true
  | .vext _ _ _ _ => true
  | .vins _ _ _ _ => true
  | .vperm _ _ _ _ _ => true
  | .vdot _ _ _ _ _ => true
  | .vred _ _ _ _ => true
  | .kand d a b => maskDest d && maskReg a && maskReg b
  | .kor d a b => maskDest d && maskReg a && maskReg b
  | .kxor d a b => maskDest d && maskReg a && maskReg b
  | .kandn d a b => maskDest d && maskReg a && maskReg b
  | .kmovg d _ => maskDest d
  | .gmovk _ a => maskReg a
  | .fexp _ _ _ m => roundingMode m
  | .flog _ _ _ m => roundingMode m
  | .ferf _ _ _ m => roundingMode m
  | .fdivD _ _ _ m => roundingMode m
  | .fsqrtD _ _ m => roundingMode m
  | .vcrc _ _ _ => true
  | .fadd _ _ _ _ m => roundingMode m
  | .fsub _ _ _ _ m => roundingMode m
  | .fmul _ _ _ _ m => roundingMode m
  | .fdivS _ _ _ m => roundingMode m
  | .fsqrtS _ _ m => roundingMode m
  | .fmin _ _ _ _ => true
  | .fmax _ _ _ _ => true
  | .fma _ _ _ _ m => roundingMode m
  | .fms _ _ _ _ m => roundingMode m
  | .fnma _ _ _ _ m => roundingMode m
  | .fnms _ _ _ _ m => roundingMode m
  | .feq _ _ _ _ => true
  | .flt _ _ _ _ => true
  | .fle _ _ _ _ => true
  | .fclass _ _ _ => true
  | .fsgnj _ _ _ _ => true
  | .fsgnjn _ _ _ _ => true
  | .fsgnjx _ _ _ _ => true
  | .fmvfg _ _ _ => true
  | .fmvgf _ _ _ => true
  | .fcvt _ _ s m t => roundingMode m && conversion t s
  | .vcvt _ _ s _ m t => roundingMode m && conversion t s
  | .vfadd _ _ _ _ m _ => roundingMode m
  | .vfsub _ _ _ _ m _ => roundingMode m
  | .vfmul _ _ _ _ m _ => roundingMode m
  | .vfma _ _ _ _ m _ => roundingMode m
  | .vfnma _ _ _ _ m _ => roundingMode m
  | .vfmin _ _ _ _ _ => true
  | .vfmax _ _ _ _ _ => true
  | .vfcmp d _ _ _ p _ => maskDest d && decide (p.toNat ≤ 2)
  | .vfredSum _ _ _ m _ => roundingMode m
  | .vfredMin _ _ _ _ => true
  | .vfredMax _ _ _ _ => true
  | .migrateToWCore cluster => decide (cluster < 131072)
  | .migrateReturn ctx => contextId ctx
  | .wCoreEarlyReturn ctx => contextId ctx
  | .copyCompletionInterrupt ctx => contextId ctx
  | .homeLoad _ _ _ => true
  | .dewAnswer _ _ => true
  | .loadReply _ => true
  | .homeStore _ => true
  | .horizonWaitEnd _ => true
  | .plsharedWriteRelease _ => true
  | .storeAck _ => true
  | .homeAtomic _ => true
  | .atomicResult _ => true
  | .lmAtomic _ => true
  | .pubPublish slice _ => decide (slice < 1024)
  | .homeSweep => true
  | .pushReceive _ => true
  | .pushAnswer _ => true
  | .pushAck _ => true
  | .purgeAck _ => true
  | .squallWait _ => true
  | .squallWake _ => true
  | .squallEntryExpiry _ => true
  | .homeWaitRecord _ => true
  | .waitWake _ => true
  | .waitRepoll ctx => contextId ctx
  | .unrecordedResend ctx => contextId ctx
  | .messageArrival _ => true
  | .handlerStart core _ => decide (core < 1048576)
  | .messageAnswer _ => true
  | .handlerOverrun ctx => contextId ctx
  | .remoteLmStore _ => true
  | .refusedOfferRetry _ => true
  | .reservedHoldLapse _ => true
  | .pageResolve part _ _ => decide (part < 16)
  | .faultWake _ => true
  | .gateOpen part slot => decide (part < 16) && decide (slot < 256)
  | .launchAged part slot => decide (part < 16) && decide (slot < 256)
  | .threadPlace part => decide (part < 16)
  | .stagingDone ctx => contextId ctx
  | .launchComplete part slot => decide (part < 16) && decide (slot < 256)
  | .completionPost part => decide (part < 16)
  | .launchAbort part slot => decide (part < 16) && decide (slot < 256)
  | .isobarEstimate _ => true
  | .workAged tile => decide (tile < 16)
  | .clockRaiseCheck tile => decide (tile < 16)
  | .jobDispatch core => decide (core < 1048576)
  | .jobRetire core => decide (core < 1048576)
  | .copyDispatch core => decide (core < 1048576)
  | .copyElement core _ _ => decide (core < 1048576)
  | .copyResume _ => true
  | .copyDone core _ => decide (core < 1048576)
  | .gtrExchange die _ _ => decide (die < 65)
  | .zwionTimeExchange port _ => decide (port < 8)
  | .replyTimeout _ => true
  | .seqFetch _ => true
  | .rightsPurge core _ => decide (core < 1048576)
  | .translationPurge slice _ => decide (slice < 1024)
  | .pageMigration _ _ _ => true
  | .wipe part => decide (part < 16)
  | .preemptDrainDeadline part => decide (part < 16)
  | .drainComplete part => decide (part < 16)
  | .dieReset die _ => decide (die < 65)
  | .quiesceDeadline die => decide (die < 65)
  | .homeReturn slice => decide (slice < 1024)
  | .crossingReplay die _ => decide (die < 65)
  | .linkCrcRetry _ _ => true
  | .hbmPatrol _ _ => true
  | .hostGrant _ _ _ => true
  | .hostSnoop _ _ => true
  | .snoopAnswer _ => true
  | .writePullDrop _ => true
  | .hostMemAccess vf _ _ => decide (vf < 128)
  | .biasFlipToHost _ => true
  | .launchPortWrite vf _ bytes => decide (vf < 128) && decide (bytes.length ≤ 64)
  | .vfRegisterWrite vf _ _ => decide (vf < 128)
  | .zwionFlitReceive port _ _ _ _ _ _ _ => decide (port < 8)
  | .zwionNak port _ => decide (port < 8)
  | .zwionBusyReplay port _ => decide (port < 8)
  | .zwionRetrain port _ => decide (port < 8)
  | .collStart part slot => decide (part < 16) && decide (slot < 64)
  | .collChunk part slot _ _ _ => decide (part < 16) && decide (slot < 64)
  | .collResult part slot _ _ _ _ => decide (part < 16) && decide (slot < 64)
  | .collDeadline part slot => decide (part < 16) && decide (slot < 64)
  | .mainUndervoltage => true
  | .mainPowerOn => true
  | .cxlHotReset => true
  | .primroseSelfTest _ => true
  | .firmwareVerify _ _ => true
  | .stewardStart _ => true
  | .hbmTraining _ => true
  | .disableMapLoad _ => true
  | .moduleWipe _ => true
  | .gtrInitialLock _ => true
  | .isobarStart _ => true
  | .ready => true
  | .cDieClamp tile _ => decide (tile < 16)
  | .baseDieClamp die _ => decide (die < 65)
  | .sDieClamp _ => true
  | .clampLift die _ => decide (die < 65)
  | .thermalTrip die _ => decide (die < 65)
  | .getStatus => true
  | .setCap _ _ => true
  | .getClocks => true
  | .readDisableMap _ => true
  | .partCreate desc => decide (desc.length ≤ 8)
  | .partEnd part => decide (part < 16)
  | .partPreempt part _ => decide (part < 16)
  | .partRestore part => decide (part < 16)
  | .partResize part desc _ => decide (part < 16) && decide (desc.length ≤ 8)
  | .partDrain part _ => decide (part < 16)
  | .domainCreate part _ => decide (part < 16)
  | .domainRetire _ => true
  | .rightsWrite _ index word0 word1 => decide (index.length ≤ 170) && decide (word0.length = index.length ∧ word1.length = index.length) && index.all fun x => decide (x < 256)
  | .readAbortLog part => decide (part < 16)
  | .readErrors => true
  | .collWrite part slot desc => decide (part < 16) && decide (slot < 64) && decide (desc.length ≤ 8)
  | .timeSource _ => true
  | .biasDevice _ => true
  | .vfReset vf => decide (vf < 128)
  | .lifecycle _ _ _ => true
  | .raiseCounter _ => true
  | .reset _ => true
  | .i3cMainOff => true
  | .getVersion fn => decide (fn < 129)
  | .getCapabilities fn => decide (fn < 129)
  | .negotiateAlgorithms fn _ _ => decide (fn < 129)
  | .getDigests fn => decide (fn < 129)
  | .getCertificate _ slot => decide (slot < 8)
  | .challenge fn _ => decide (fn < 129)
  | .getMeasurements fn _ _ => decide (fn < 129)
  | .keyExchange fn _ => decide (fn < 129)
  | .finish fn _ => decide (fn < 129)
  | .endSession fn => decide (fn < 129)
  | .illegalInstruction _ => true
  | .unknownOpcode _ => true
  | .ptmTimeExchange _ => true
  | .dirtyEvictionAnswer _ => true
  | .regionMapWrite part index _ _ => decide (part < 16) && decide (index < 64)
  | .ideKeyProgramming fn _ _ => decide (fn < 129)

/-- The instructions that have a word, as against the events of the module. -/
def Instr.isWord : Instr → Bool
  | .add _ _ _ => true
  | .sub _ _ _ => true
  | .and _ _ _ => true
  | .or _ _ _ => true
  | .xor _ _ _ => true
  | .andn _ _ _ => true
  | .sll _ _ _ => true
  | .srl _ _ _ => true
  | .sra _ _ _ => true
  | .slt _ _ _ => true
  | .sltu _ _ _ => true
  | .min _ _ _ => true
  | .max _ _ _ => true
  | .minu _ _ _ => true
  | .maxu _ _ _ => true
  | .mul _ _ _ => true
  | .mulh _ _ _ => true
  | .mulhu _ _ _ => true
  | .clz _ _ => true
  | .ctz _ _ => true
  | .popc _ _ => true
  | .div _ _ _ => true
  | .divu _ _ _ => true
  | .rem _ _ _ => true
  | .remu _ _ _ => true
  | .nop => true
  | .addi _ _ _ => true
  | .andi _ _ _ => true
  | .ori _ _ _ => true
  | .xori _ _ _ => true
  | .slti _ _ _ => true
  | .sltiu _ _ _ => true
  | .slli _ _ _ => true
  | .srli _ _ _ => true
  | .srai _ _ _ => true
  | .lhi _ _ => true
  | .shori _ _ _ => true
  | .beq _ _ _ => true
  | .bne _ _ _ => true
  | .blt _ _ _ => true
  | .bge _ _ _ => true
  | .bltu _ _ _ => true
  | .bgeu _ _ _ => true
  | .jal _ => true
  | .jalr _ _ _ => true
  | .spawn _ _ _ => true
  | .exit => true
  | .yield => true
  | .home _ => true
  | .waitt _ => true
  | .waittExpiry _ => false
  | .lclkup _ _ => true
  | .iflush => true
  | .trap _ => true
  | .eret => true
  | .crr _ _ => true
  | .crw _ _ _ => true
  | .crs _ _ _ => true
  | .crc _ _ _ => true
  | .rwait _ _ _ _ => true
  | .rroom _ _ _ _ => true
  | .radvh _ _ _ _ => true
  | .radvt _ _ _ _ => true
  | .rld _ _ _ _ _ _ => true
  | .rst _ _ _ _ _ _ => true
  | .join _ _ _ => true
  | .leave _ => true
  | .bar _ _ => true
  | .cwait _ _ _ => true
  | .ticket _ _ => true
  | .serve _ => true
  | .gamoD _ _ _ => true
  | .gamoW _ _ _ => true
  | .gamoWindowEnd _ => false
  | .launch _ _ => true
  | .sendLo _ _ _ _ => true
  | .sendHi _ _ _ _ => true
  | .sendr _ _ _ _ => true
  | .hret => true
  | .xpush _ _ => true
  | .xstat _ _ => true
  | .aadd _ _ _ _ _ _ => true
  | .aand _ _ _ _ _ _ => true
  | .aor _ _ _ _ _ _ => true
  | .axor _ _ _ _ _ _ => true
  | .amin _ _ _ _ _ _ => true
  | .amax _ _ _ _ _ _ => true
  | .aminu _ _ _ _ _ _ => true
  | .amaxu _ _ _ _ _ _ => true
  | .aswap _ _ _ _ _ _ => true
  | .acas _ _ _ _ _ _ => true
  | .afadd _ _ _ _ _ _ => true
  | .mma _ _ _ _ _ => true
  | .mmasp _ _ _ _ _ => true
  | .ewr _ _ => true
  | .erd _ _ => true
  | .mzero _ => true
  | .mst _ _ _ _ => true
  | .mldt _ _ _ _ => true
  | .jwait _ _ => true
  | .jpoll _ _ => true
  | .lb _ _ _ _ _ _ _ => true
  | .lbu _ _ _ _ _ _ _ => true
  | .lh _ _ _ _ _ _ _ => true
  | .lhu _ _ _ _ _ _ _ => true
  | .lw _ _ _ _ _ _ _ => true
  | .lwu _ _ _ _ _ _ _ => true
  | .ld _ _ _ _ _ _ _ => true
  | .flw _ _ _ _ _ _ _ => true
  | .fld _ _ _ _ _ _ _ => true
  | .vld _ _ _ _ _ _ _ => true
  | .sb _ _ _ _ _ _ => true
  | .sh _ _ _ _ _ _ => true
  | .sw _ _ _ _ _ _ => true
  | .sd _ _ _ _ _ _ => true
  | .fsw _ _ _ _ _ _ => true
  | .fsd _ _ _ _ _ _ => true
  | .vst _ _ _ _ _ _ => true
  | .ldf _ _ _ _ => true
  | .ldfe _ _ _ _ => true
  | .sde _ _ _ _ => true
  | .fesetE _ _ => true
  | .fesetF _ _ => true
  | .fence _ => true
  | .ppurge _ _ _ => true
  | .lease _ _ _ _ => true
  | .pref _ _ _ _ => true
  | .vadd _ _ _ _ _ => true
  | .vsub _ _ _ _ _ => true
  | .vmul _ _ _ _ _ => true
  | .vmulh _ _ _ _ _ => true
  | .vmulhu _ _ _ _ _ => true
  | .vand _ _ _ _ _ => true
  | .vor _ _ _ _ _ => true
  | .vxor _ _ _ _ _ => true
  | .vsll _ _ _ _ _ => true
  | .vsrl _ _ _ _ _ => true
  | .vsra _ _ _ _ _ => true
  | .vmin _ _ _ _ _ => true
  | .vmax _ _ _ _ _ => true
  | .vminu _ _ _ _ _ => true
  | .vmaxu _ _ _ _ _ => true
  | .vadds _ _ _ _ _ => true
  | .vsubs _ _ _ _ _ => true
  | .vaddus _ _ _ _ _ => true
  | .vsubus _ _ _ _ _ => true
  | .vcmpeq _ _ _ _ _ => true
  | .vcmplt _ _ _ _ _ => true
  | .vcmpltu _ _ _ _ _ => true
  | .vsel _ _ _ _ _ => true
  | .vsplat _ _ _ _ => true
  | .vext _ _ _ _ => true
  | .vins _ _ _ _ => true
  | .vperm _ _ _ _ _ => true
  | .vdot _ _ _ _ _ => true
  | .vred _ _ _ _ => true
  | .kand _ _ _ => true
  | .kor _ _ _ => true
  | .kxor _ _ _ => true
  | .kandn _ _ _ => true
  | .kmovg _ _ => true
  | .gmovk _ _ => true
  | .fexp _ _ _ _ => true
  | .flog _ _ _ _ => true
  | .ferf _ _ _ _ => true
  | .fdivD _ _ _ _ => true
  | .fsqrtD _ _ _ => true
  | .vcrc _ _ _ => true
  | .fadd _ _ _ _ _ => true
  | .fsub _ _ _ _ _ => true
  | .fmul _ _ _ _ _ => true
  | .fdivS _ _ _ _ => true
  | .fsqrtS _ _ _ => true
  | .fmin _ _ _ _ => true
  | .fmax _ _ _ _ => true
  | .fma _ _ _ _ _ => true
  | .fms _ _ _ _ _ => true
  | .fnma _ _ _ _ _ => true
  | .fnms _ _ _ _ _ => true
  | .feq _ _ _ _ => true
  | .flt _ _ _ _ => true
  | .fle _ _ _ _ => true
  | .fclass _ _ _ => true
  | .fsgnj _ _ _ _ => true
  | .fsgnjn _ _ _ _ => true
  | .fsgnjx _ _ _ _ => true
  | .fmvfg _ _ _ => true
  | .fmvgf _ _ _ => true
  | .fcvt _ _ _ _ _ => true
  | .vcvt _ _ _ _ _ _ => true
  | .vfadd _ _ _ _ _ _ => true
  | .vfsub _ _ _ _ _ _ => true
  | .vfmul _ _ _ _ _ _ => true
  | .vfma _ _ _ _ _ _ => true
  | .vfnma _ _ _ _ _ _ => true
  | .vfmin _ _ _ _ _ => true
  | .vfmax _ _ _ _ _ => true
  | .vfcmp _ _ _ _ _ _ => true
  | .vfredSum _ _ _ _ _ => true
  | .vfredMin _ _ _ _ => true
  | .vfredMax _ _ _ _ => true
  | .migrateToWCore _ => false
  | .migrateReturn _ => false
  | .wCoreEarlyReturn _ => false
  | .copyCompletionInterrupt _ => false
  | .homeLoad _ _ _ => false
  | .dewAnswer _ _ => false
  | .loadReply _ => false
  | .homeStore _ => false
  | .horizonWaitEnd _ => false
  | .plsharedWriteRelease _ => false
  | .storeAck _ => false
  | .homeAtomic _ => false
  | .atomicResult _ => false
  | .lmAtomic _ => false
  | .pubPublish _ _ => false
  | .homeSweep => false
  | .pushReceive _ => false
  | .pushAnswer _ => false
  | .pushAck _ => false
  | .purgeAck _ => false
  | .squallWait _ => false
  | .squallWake _ => false
  | .squallEntryExpiry _ => false
  | .homeWaitRecord _ => false
  | .waitWake _ => false
  | .waitRepoll _ => false
  | .unrecordedResend _ => false
  | .messageArrival _ => false
  | .handlerStart _ _ => false
  | .messageAnswer _ => false
  | .handlerOverrun _ => false
  | .remoteLmStore _ => false
  | .refusedOfferRetry _ => false
  | .reservedHoldLapse _ => false
  | .pageResolve _ _ _ => false
  | .faultWake _ => false
  | .gateOpen _ _ => false
  | .launchAged _ _ => false
  | .threadPlace _ => false
  | .stagingDone _ => false
  | .launchComplete _ _ => false
  | .completionPost _ => false
  | .launchAbort _ _ => false
  | .isobarEstimate _ => false
  | .workAged _ => false
  | .clockRaiseCheck _ => false
  | .jobDispatch _ => false
  | .jobRetire _ => false
  | .copyDispatch _ => false
  | .copyElement _ _ _ => false
  | .copyResume _ => false
  | .copyDone _ _ => false
  | .gtrExchange _ _ _ => false
  | .zwionTimeExchange _ _ => false
  | .replyTimeout _ => false
  | .seqFetch _ => false
  | .rightsPurge _ _ => false
  | .translationPurge _ _ => false
  | .pageMigration _ _ _ => false
  | .wipe _ => false
  | .preemptDrainDeadline _ => false
  | .drainComplete _ => false
  | .dieReset _ _ => false
  | .quiesceDeadline _ => false
  | .homeReturn _ => false
  | .crossingReplay _ _ => false
  | .linkCrcRetry _ _ => false
  | .hbmPatrol _ _ => false
  | .hostGrant _ _ _ => false
  | .hostSnoop _ _ => false
  | .snoopAnswer _ => false
  | .writePullDrop _ => false
  | .hostMemAccess _ _ _ => false
  | .biasFlipToHost _ => false
  | .launchPortWrite _ _ _ => false
  | .vfRegisterWrite _ _ _ => false
  | .zwionFlitReceive _ _ _ _ _ _ _ _ => false
  | .zwionNak _ _ => false
  | .zwionBusyReplay _ _ => false
  | .zwionRetrain _ _ => false
  | .collStart _ _ => false
  | .collChunk _ _ _ _ _ => false
  | .collResult _ _ _ _ _ _ => false
  | .collDeadline _ _ => false
  | .mainUndervoltage => false
  | .mainPowerOn => false
  | .cxlHotReset => false
  | .primroseSelfTest _ => false
  | .firmwareVerify _ _ => false
  | .stewardStart _ => false
  | .hbmTraining _ => false
  | .disableMapLoad _ => false
  | .moduleWipe _ => false
  | .gtrInitialLock _ => false
  | .isobarStart _ => false
  | .ready => false
  | .cDieClamp _ _ => false
  | .baseDieClamp _ _ => false
  | .sDieClamp _ => false
  | .clampLift _ _ => false
  | .thermalTrip _ _ => false
  | .getStatus => false
  | .setCap _ _ => false
  | .getClocks => false
  | .readDisableMap _ => false
  | .partCreate _ => false
  | .partEnd _ => false
  | .partPreempt _ _ => false
  | .partRestore _ => false
  | .partResize _ _ _ => false
  | .partDrain _ _ => false
  | .domainCreate _ _ => false
  | .domainRetire _ => false
  | .rightsWrite _ _ _ _ => false
  | .readAbortLog _ => false
  | .readErrors => false
  | .collWrite _ _ _ => false
  | .timeSource _ => false
  | .biasDevice _ => false
  | .vfReset _ => false
  | .lifecycle _ _ _ => false
  | .raiseCounter _ => false
  | .reset _ => false
  | .i3cMainOff => false
  | .getVersion _ => false
  | .getCapabilities _ => false
  | .negotiateAlgorithms _ _ _ => false
  | .getDigests _ => false
  | .getCertificate _ _ => false
  | .challenge _ _ => false
  | .getMeasurements _ _ _ => false
  | .keyExchange _ _ => false
  | .finish _ _ => false
  | .endSession _ => false
  | .illegalInstruction _ => false
  | .unknownOpcode _ => false
  | .ptmTimeExchange _ => false
  | .dirtyEvictionAnswer _ => false
  | .regionMapWrite _ _ _ _ => false
  | .ideKeyProgramming _ _ _ => false

end Sys2Proof
end

