-- ==== Sys2Proof/Decode.lean ====
section
/-!
DEFINITION. From instruction words to instructions and back (R37 to R57). `decode` is total: a word that is
zero, has an unassigned major or minor, a field value marked ILLEGAL or a reserved bit set is answered
with `none`, and such a word raises ILLEGAL (R42). `encode` is written from the same tables.
-/
namespace Sys2Proof

/-- Bits of a word from `lo` up, `n` of them. -/
def fld (w lo n : Nat) : BitVec n := BitVec.ofNat n (w / 2 ^ lo)

/-- Major 0x00 by fn[5:0] (R46). -/
def integerOf (w : Nat) : Option Instr :=
  match w % 64 with
  | 0 => some (.add (fld w 21 5) (fld w 16 5) (fld w 11 5))
  | 1 => some (.sub (fld w 21 5) (fld w 16 5) (fld w 11 5))
  | 2 => some (.and (fld w 21 5) (fld w 16 5) (fld w 11 5))
  | 3 => some (.or (fld w 21 5) (fld w 16 5) (fld w 11 5))
  | 4 => some (.xor (fld w 21 5) (fld w 16 5) (fld w 11 5))
  | 5 => some (.andn (fld w 21 5) (fld w 16 5) (fld w 11 5))
  | 6 => some (.sll (fld w 21 5) (fld w 16 5) (fld w 11 5))
  | 7 => some (.srl (fld w 21 5) (fld w 16 5) (fld w 11 5))
  | 8 => some (.sra (fld w 21 5) (fld w 16 5) (fld w 11 5))
  | 9 => some (.slt (fld w 21 5) (fld w 16 5) (fld w 11 5))
  | 10 => some (.sltu (fld w 21 5) (fld w 16 5) (fld w 11 5))
  | 11 => some (.min (fld w 21 5) (fld w 16 5) (fld w 11 5))
  | 12 => some (.max (fld w 21 5) (fld w 16 5) (fld w 11 5))
  | 13 => some (.minu (fld w 21 5) (fld w 16 5) (fld w 11 5))
  | 14 => some (.maxu (fld w 21 5) (fld w 16 5) (fld w 11 5))
  | 15 => some (.mul (fld w 21 5) (fld w 16 5) (fld w 11 5))
  | 16 => some (.mulh (fld w 21 5) (fld w 16 5) (fld w 11 5))
  | 17 => some (.mulhu (fld w 21 5) (fld w 16 5) (fld w 11 5))
  | 18 => some (.clz (fld w 21 5) (fld w 16 5))
  | 19 => some (.ctz (fld w 21 5) (fld w 16 5))
  | 20 => some (.popc (fld w 21 5) (fld w 16 5))
  | _ => none

/-- Major 0x01 by fn[5:0] (R46). -/
def divisionOf (w : Nat) : Option Instr :=
  match w % 64 with
  | 0 => some (.div (fld w 21 5) (fld w 16 5) (fld w 11 5))
  | 1 => some (.divu (fld w 21 5) (fld w 16 5) (fld w 11 5))
  | 2 => some (.rem (fld w 21 5) (fld w 16 5) (fld w 11 5))
  | 3 => some (.remu (fld w 21 5) (fld w 16 5) (fld w 11 5))
  | _ => none

/-- Major 0x08 by imm16[7:6] (R46). -/
def shiftOf (w : Nat) : Option Instr :=
  match w / 64 % 4 with
  | 0 => some (.slli (fld w 21 5) (fld w 16 5) (fld w 0 6))
  | 1 => some (.srli (fld w 21 5) (fld w 16 5) (fld w 0 6))
  | 2 => some (.srai (fld w 21 5) (fld w 16 5) (fld w 0 6))
  | _ => none

/-- Major 0x18 by fn (R47). -/
def systemOf (w : Nat) : Option Instr :=
  match w / 32 % 64 with
  | 0 => some (.spawn (fld w 21 5) (fld w 16 5) (fld w 11 5))
  | 1 => some (.exit)
  | 2 => some (.yield)
  | 3 => some (.home (fld w 21 5))
  | 4 => some (.waitt (fld w 16 5))
  | 5 => some (.lclkup (fld w 21 5) (fld w 16 5))
  | 6 => some (.iflush)
  | 7 => some (.trap (fld w 0 5))
  | 8 => some (.eret)
  | _ => none

/-- Major 0x19 by imm16[15:12] (R48). -/
def controlOf (w : Nat) : Option Instr :=
  match w / 4096 % 16 with
  | 0 => some (.crr (fld w 21 5) (fld w 0 12))
  | 1 => some (.crw (fld w 21 5) (fld w 16 5) (fld w 0 12))
  | 2 => some (.crs (fld w 21 5) (fld w 16 5) (fld w 0 12))
  | 3 => some (.crc (fld w 21 5) (fld w 16 5) (fld w 0 12))
  | _ => none

/-- Major 0x1A by imm16[15:13] (R49). -/
def ringOf (w : Nat) : Option Instr :=
  match w / 8192 % 8 with
  | 0 => some (.rwait (fld w 21 5) (fld w 16 5) (fld w 10 3) (fld w 0 9))
  | 1 => some (.rroom (fld w 21 5) (fld w 16 5) (fld w 10 3) (fld w 0 9))
  | 2 => some (.radvh (fld w 21 5) (fld w 16 5) (fld w 10 3) (fld w 0 9))
  | 3 => some (.radvt (fld w 21 5) (fld w 16 5) (fld w 10 3) (fld w 0 9))
  | _ => none

/-- Minor 6 of major 0x1D by c (R50). -/
def gamoOf (w : Nat) : Option Instr :=
  match w % 32 with
  | 0 => some (.gamoD (fld w 21 5) (fld w 16 5) (fld w 11 5))
  | 1 => some (.gamoW (fld w 21 5) (fld w 16 5) (fld w 11 5))
  | _ => none

/-- Major 0x1D by fn (R50). -/
def syncOf (w : Nat) : Option Instr :=
  match w / 32 % 64 with
  | 0 => some (.join (fld w 21 5) (fld w 16 5) (fld w 11 5))
  | 1 => some (.leave (fld w 16 5))
  | 2 => some (.bar (fld w 21 5) (fld w 16 5))
  | 3 => some (.cwait (fld w 21 5) (fld w 16 5) (fld w 11 5))
  | 4 => some (.ticket (fld w 21 5) (fld w 16 5))
  | 5 => some (.serve (fld w 16 5))
  | 6 => gamoOf w
  | 7 => some (.launch (fld w 21 5) (fld w 16 5))
  | 8 => some (.sendLo (fld w 21 5) (fld w 16 5) (fld w 11 5) (fld w 0 5))
  | 9 => some (.sendHi (fld w 21 5) (fld w 16 5) (fld w 11 5) (fld w 0 5))
  | 10 => some (.sendr (fld w 21 5) (fld w 16 5) (fld w 11 5) (fld w 0 5))
  | 11 => some (.hret)
  | 12 => some (.xpush (fld w 21 5) (fld w 16 5))
  | 13 => some (.xstat (fld w 21 5) (fld w 16 5))
  | _ => none

/-- Major 0x1E by op (R51). -/
def atomicOf (w : Nat) : Option Instr :=
  match w / 128 % 16 with
  | 0 => some (.aadd (fld w 21 5) (fld w 16 5) (fld w 11 5) (fld w 5 2) (fld w 3 2) (fld w 2 1))
  | 1 => some (.aand (fld w 21 5) (fld w 16 5) (fld w 11 5) (fld w 5 2) (fld w 3 2) (fld w 2 1))
  | 2 => some (.aor (fld w 21 5) (fld w 16 5) (fld w 11 5) (fld w 5 2) (fld w 3 2) (fld w 2 1))
  | 3 => some (.axor (fld w 21 5) (fld w 16 5) (fld w 11 5) (fld w 5 2) (fld w 3 2) (fld w 2 1))
  | 4 => some (.amin (fld w 21 5) (fld w 16 5) (fld w 11 5) (fld w 5 2) (fld w 3 2) (fld w 2 1))
  | 5 => some (.amax (fld w 21 5) (fld w 16 5) (fld w 11 5) (fld w 5 2) (fld w 3 2) (fld w 2 1))
  | 6 => some (.aminu (fld w 21 5) (fld w 16 5) (fld w 11 5) (fld w 5 2) (fld w 3 2) (fld w 2 1))
  | 7 => some (.amaxu (fld w 21 5) (fld w 16 5) (fld w 11 5) (fld w 5 2) (fld w 3 2) (fld w 2 1))
  | 8 => some (.aswap (fld w 21 5) (fld w 16 5) (fld w 11 5) (fld w 5 2) (fld w 3 2) (fld w 2 1))
  | 9 => some (.acas (fld w 21 5) (fld w 16 5) (fld w 11 5) (fld w 5 2) (fld w 3 2) (fld w 2 1))
  | 10 => some (.afadd (fld w 21 5) (fld w 16 5) (fld w 11 5) (fld w 5 2) (fld w 3 2) (fld w 2 1))
  | _ => none

/-- Major 0x1F, minors 32 and above, by fn (R52). -/
def engineMinorOf (w : Nat) : Option Instr :=
  match w / 32 % 64 with
  | 32 => some (.ewr (fld w 16 5) (fld w 0 4))
  | 33 => some (.erd (fld w 21 5) (fld w 0 4))
  | 34 => some (.mzero (fld w 0 2))
  | 35 => some (.mst (fld w 21 5) (fld w 16 5) (fld w 11 5) (fld w 0 2))
  | 36 => some (.mldt (fld w 21 5) (fld w 16 5) (fld w 11 5) (fld w 0 3))
  | 37 => some (.jwait (fld w 21 5) (fld w 16 5))
  | 38 => some (.jpoll (fld w 21 5) (fld w 16 5))
  | _ => none

/-- Major 0x1F by fn (R52): 0 to 13 are MMA, 16 to 29 MMASP. -/
def engineOf (w : Nat) : Option Instr :=
  match w / 512 % 4 with
  | 0 => some (.mma (fld w 21 5) (fld w 16 5) (fld w 11 5) (fld w 5 4) (fld w 0 5))
  | 1 => some (.mmasp (fld w 21 5) (fld w 16 5) (fld w 11 5) (fld w 5 4) (fld w 0 5))
  | _ => engineMinorOf w

/-- Major 0x34 by the low bit of ord (R45). -/
def fesetOf (w : Nat) : Option Instr :=
  match w / 4096 % 2 with
  | 0 => some (.fesetE (fld w 16 5) (fld w 0 8))
  | 1 => some (.fesetF (fld w 16 5) (fld w 0 8))
  | _ => none

/-- Minor 29 of major 0x39 by rm (R53). -/
def maskOf (w : Nat) : Option Instr :=
  match w / 32 % 8 with
  | 0 => some (.kand (fld w 21 5) (fld w 16 5) (fld w 11 5))
  | 1 => some (.kor (fld w 21 5) (fld w 16 5) (fld w 11 5))
  | 2 => some (.kxor (fld w 21 5) (fld w 16 5) (fld w 11 5))
  | 3 => some (.kandn (fld w 21 5) (fld w 16 5) (fld w 11 5))
  | 4 => some (.kmovg (fld w 21 5) (fld w 16 5))
  | 5 => some (.gmovk (fld w 21 5) (fld w 16 5))
  | _ => none

/-- Major 0x39 by fn (R53). -/
def vectorIntOf (w : Nat) : Option Instr :=
  match w % 32 with
  | 0 => some (.vadd (fld w 21 5) (fld w 16 5) (fld w 11 5) (fld w 8 3) (fld w 5 2))
  | 1 => some (.vsub (fld w 21 5) (fld w 16 5) (fld w 11 5) (fld w 8 3) (fld w 5 2))
  | 2 => some (.vmul (fld w 21 5) (fld w 16 5) (fld w 11 5) (fld w 8 3) (fld w 5 2))
  | 3 => some (.vmulh (fld w 21 5) (fld w 16 5) (fld w 11 5) (fld w 8 3) (fld w 5 2))
  | 4 => some (.vmulhu (fld w 21 5) (fld w 16 5) (fld w 11 5) (fld w 8 3) (fld w 5 2))
  | 5 => some (.vand (fld w 21 5) (fld w 16 5) (fld w 11 5) (fld w 8 3) (fld w 5 2))
  | 6 => some (.vor (fld w 21 5) (fld w 16 5) (fld w 11 5) (fld w 8 3) (fld w 5 2))
  | 7 => some (.vxor (fld w 21 5) (fld w 16 5) (fld w 11 5) (fld w 8 3) (fld w 5 2))
  | 8 => some (.vsll (fld w 21 5) (fld w 16 5) (fld w 11 5) (fld w 8 3) (fld w 5 2))
  | 9 => some (.vsrl (fld w 21 5) (fld w 16 5) (fld w 11 5) (fld w 8 3) (fld w 5 2))
  | 10 => some (.vsra (fld w 21 5) (fld w 16 5) (fld w 11 5) (fld w 8 3) (fld w 5 2))
  | 11 => some (.vmin (fld w 21 5) (fld w 16 5) (fld w 11 5) (fld w 8 3) (fld w 5 2))
  | 12 => some (.vmax (fld w 21 5) (fld w 16 5) (fld w 11 5) (fld w 8 3) (fld w 5 2))
  | 13 => some (.vminu (fld w 21 5) (fld w 16 5) (fld w 11 5) (fld w 8 3) (fld w 5 2))
  | 14 => some (.vmaxu (fld w 21 5) (fld w 16 5) (fld w 11 5) (fld w 8 3) (fld w 5 2))
  | 15 => some (.vadds (fld w 21 5) (fld w 16 5) (fld w 11 5) (fld w 8 3) (fld w 5 2))
  | 16 => some (.vsubs (fld w 21 5) (fld w 16 5) (fld w 11 5) (fld w 8 3) (fld w 5 2))
  | 17 => some (.vaddus (fld w 21 5) (fld w 16 5) (fld w 11 5) (fld w 8 3) (fld w 5 2))
  | 18 => some (.vsubus (fld w 21 5) (fld w 16 5) (fld w 11 5) (fld w 8 3) (fld w 5 2))
  | 19 => some (.vcmpeq (fld w 21 5) (fld w 16 5) (fld w 11 5) (fld w 8 3) (fld w 5 2))
  | 20 => some (.vcmplt (fld w 21 5) (fld w 16 5) (fld w 11 5) (fld w 8 3) (fld w 5 2))
  | 21 => some (.vcmpltu (fld w 21 5) (fld w 16 5) (fld w 11 5) (fld w 8 3) (fld w 5 2))
  | 22 => some (.vsel (fld w 21 5) (fld w 16 5) (fld w 11 5) (fld w 8 3) (fld w 5 2))
  | 23 => some (.vsplat (fld w 21 5) (fld w 16 5) (fld w 8 3) (fld w 5 2))
  | 24 => some (.vext (fld w 21 5) (fld w 16 5) (fld w 11 5) (fld w 5 2))
  | 25 => some (.vins (fld w 21 5) (fld w 16 5) (fld w 11 5) (fld w 5 2))
  | 26 => some (.vperm (fld w 21 5) (fld w 16 5) (fld w 11 5) (fld w 8 3) (fld w 5 2))
  | 27 => some (.vdot (fld w 21 5) (fld w 16 5) (fld w 11 5) (fld w 8 3) (fld w 5 1))
  | 28 => some (.vred (fld w 21 5) (fld w 16 5) (fld w 8 3) (fld w 5 2))
  | 29 => maskOf w
  | _ => none

/-- Major 0x3A by fn (R54). -/
def wArithOf (w : Nat) : Option Instr :=
  match w % 32 with
  | 0 => some (.fexp (fld w 21 5) (fld w 16 5) (fld w 8 1) (fld w 5 3))
  | 1 => some (.flog (fld w 21 5) (fld w 16 5) (fld w 8 1) (fld w 5 3))
  | 2 => some (.ferf (fld w 21 5) (fld w 16 5) (fld w 8 1) (fld w 5 3))
  | 3 => some (.fdivD (fld w 21 5) (fld w 16 5) (fld w 11 5) (fld w 5 3))
  | 4 => some (.fsqrtD (fld w 21 5) (fld w 16 5) (fld w 5 3))
  | 5 => some (.vcrc (fld w 21 5) (fld w 16 5) (fld w 11 5))
  | _ => none

/-- Major 0x3B by fn (R55). -/
def scalarFpOf (w : Nat) : Option Instr :=
  match w % 32 with
  | 0 => some (.fadd (fld w 21 5) (fld w 16 5) (fld w 11 5) (fld w 8 1) (fld w 5 3))
  | 1 => some (.fsub (fld w 21 5) (fld w 16 5) (fld w 11 5) (fld w 8 1) (fld w 5 3))
  | 2 => some (.fmul (fld w 21 5) (fld w 16 5) (fld w 11 5) (fld w 8 1) (fld w 5 3))
  | 3 => some (.fdivS (fld w 21 5) (fld w 16 5) (fld w 11 5) (fld w 5 3))
  | 4 => some (.fsqrtS (fld w 21 5) (fld w 16 5) (fld w 5 3))
  | 5 => some (.fmin (fld w 21 5) (fld w 16 5) (fld w 11 5) (fld w 8 1))
  | 6 => some (.fmax (fld w 21 5) (fld w 16 5) (fld w 11 5) (fld w 8 1))
  | 7 => some (.fma (fld w 21 5) (fld w 16 5) (fld w 11 5) (fld w 8 1) (fld w 5 3))
  | 8 => some (.fms (fld w 21 5) (fld w 16 5) (fld w 11 5) (fld w 8 1) (fld w 5 3))
  | 9 => some (.fnma (fld w 21 5) (fld w 16 5) (fld w 11 5) (fld w 8 1) (fld w 5 3))
  | 10 => some (.fnms (fld w 21 5) (fld w 16 5) (fld w 11 5) (fld w 8 1) (fld w 5 3))
  | 11 => some (.feq (fld w 21 5) (fld w 16 5) (fld w 11 5) (fld w 8 1))
  | 12 => some (.flt (fld w 21 5) (fld w 16 5) (fld w 11 5) (fld w 8 1))
  | 13 => some (.fle (fld w 21 5) (fld w 16 5) (fld w 11 5) (fld w 8 1))
  | 14 => some (.fclass (fld w 21 5) (fld w 16 5) (fld w 8 1))
  | 15 => some (.fsgnj (fld w 21 5) (fld w 16 5) (fld w 11 5) (fld w 8 1))
  | 16 => some (.fsgnjn (fld w 21 5) (fld w 16 5) (fld w 11 5) (fld w 8 1))
  | 17 => some (.fsgnjx (fld w 21 5) (fld w 16 5) (fld w 11 5) (fld w 8 1))
  | 18 => some (.fmvfg (fld w 21 5) (fld w 16 5) (fld w 8 1))
  | 19 => some (.fmvgf (fld w 21 5) (fld w 16 5) (fld w 8 1))
  | _ => none

/-- Major 0x3E by fn[2:0] (R57). -/
def vectorFpOf (w : Nat) : Option Instr :=
  match w % 8 with
  | 0 => some (.vfadd (fld w 21 5) (fld w 16 5) (fld w 11 5) (fld w 8 3) (fld w 5 3) (fld w 3 2))
  | 1 => some (.vfsub (fld w 21 5) (fld w 16 5) (fld w 11 5) (fld w 8 3) (fld w 5 3) (fld w 3 2))
  | 2 => some (.vfmul (fld w 21 5) (fld w 16 5) (fld w 11 5) (fld w 8 3) (fld w 5 3) (fld w 3 2))
  | 3 => some (.vfma (fld w 21 5) (fld w 16 5) (fld w 11 5) (fld w 8 3) (fld w 5 3) (fld w 3 2))
  | 4 => some (.vfnma (fld w 21 5) (fld w 16 5) (fld w 11 5) (fld w 8 3) (fld w 5 3) (fld w 3 2))
  | 5 => some (.vfmin (fld w 21 5) (fld w 16 5) (fld w 11 5) (fld w 8 3) (fld w 3 2))
  | 6 => some (.vfmax (fld w 21 5) (fld w 16 5) (fld w 11 5) (fld w 8 3) (fld w 3 2))
  | 7 => some (.vfcmp (fld w 21 5) (fld w 16 5) (fld w 11 5) (fld w 8 3) (fld w 5 2) (fld w 3 2))
  | _ => none

/-- Major 0x3F by fn[2:0] (R57). -/
def vfredOf (w : Nat) : Option Instr :=
  match w % 8 with
  | 0 => some (.vfredSum (fld w 21 5) (fld w 16 5) (fld w 8 3) (fld w 5 3) (fld w 3 2))
  | 1 => some (.vfredMin (fld w 21 5) (fld w 16 5) (fld w 8 3) (fld w 3 2))
  | 2 => some (.vfredMax (fld w 21 5) (fld w 16 5) (fld w 8 3) (fld w 3 2))
  | _ => none

/-- The instruction that the major and minor of a word select, with its fields (R44). Reserved bits and
field values are not looked at here. -/
def decodeFields (w : Nat) : Option Instr :=
  match w / 67108864 % 64 with
  | 0 => integerOf w
  | 1 => divisionOf w
  | 2 => some (if w = 134217728 then .nop else .addi (fld w 21 5) (fld w 16 5) (fld w 0 16))
  | 3 => some (.andi (fld w 21 5) (fld w 16 5) (fld w 0 16))
  | 4 => some (.ori (fld w 21 5) (fld w 16 5) (fld w 0 16))
  | 5 => some (.xori (fld w 21 5) (fld w 16 5) (fld w 0 16))
  | 6 => some (.slti (fld w 21 5) (fld w 16 5) (fld w 0 16))
  | 7 => some (.sltiu (fld w 21 5) (fld w 16 5) (fld w 0 16))
  | 8 => shiftOf w
  | 9 => some (.lhi (fld w 21 5) (fld w 0 16))
  | 10 => some (.shori (fld w 21 5) (fld w 16 5) (fld w 0 16))
  | 16 => some (.beq (fld w 21 5) (fld w 16 5) (fld w 0 16))
  | 17 => some (.bne (fld w 21 5) (fld w 16 5) (fld w 0 16))
  | 18 => some (.blt (fld w 21 5) (fld w 16 5) (fld w 0 16))
  | 19 => some (.bge (fld w 21 5) (fld w 16 5) (fld w 0 16))
  | 20 => some (.bltu (fld w 21 5) (fld w 16 5) (fld w 0 16))
  | 21 => some (.bgeu (fld w 21 5) (fld w 16 5) (fld w 0 16))
  | 22 => some (.jal (fld w 0 26))
  | 23 => some (.jalr (fld w 21 5) (fld w 16 5) (fld w 0 16))
  | 24 => systemOf w
  | 25 => controlOf w
  | 26 => ringOf w
  | 27 => some (.rld (fld w 21 5) (fld w 20 1) (fld w 19 1) (fld w 16 3) (fld w 8 8) (fld w 0 8))
  | 28 => some (.rst (fld w 21 5) (fld w 20 1) (fld w 19 1) (fld w 16 3) (fld w 8 8) (fld w 0 8))
  | 29 => syncOf w
  | 30 => atomicOf w
  | 31 => engineOf w
  | 32 => some (.lb (fld w 21 5) (fld w 16 5) (fld w 14 2) (fld w 12 1) (fld w 10 2) (fld w 8 2) (fld w 0 8))
  | 33 => some (.lbu (fld w 21 5) (fld w 16 5) (fld w 14 2) (fld w 12 1) (fld w 10 2) (fld w 8 2) (fld w 0 8))
  | 34 => some (.lh (fld w 21 5) (fld w 16 5) (fld w 14 2) (fld w 12 1) (fld w 10 2) (fld w 8 2) (fld w 0 8))
  | 35 => some (.lhu (fld w 21 5) (fld w 16 5) (fld w 14 2) (fld w 12 1) (fld w 10 2) (fld w 8 2) (fld w 0 8))
  | 36 => some (.lw (fld w 21 5) (fld w 16 5) (fld w 14 2) (fld w 12 1) (fld w 10 2) (fld w 8 2) (fld w 0 8))
  | 37 => some (.lwu (fld w 21 5) (fld w 16 5) (fld w 14 2) (fld w 12 1) (fld w 10 2) (fld w 8 2) (fld w 0 8))
  | 38 => some (.ld (fld w 21 5) (fld w 16 5) (fld w 14 2) (fld w 12 1) (fld w 10 2) (fld w 8 2) (fld w 0 8))
  | 39 => some (.flw (fld w 21 5) (fld w 16 5) (fld w 14 2) (fld w 12 1) (fld w 10 2) (fld w 8 2) (fld w 0 8))
  | 40 => some (.fld (fld w 21 5) (fld w 16 5) (fld w 14 2) (fld w 12 1) (fld w 10 2) (fld w 8 2) (fld w 0 8))
  | 41 => some (.vld (fld w 21 5) (fld w 16 5) (fld w 14 2) (fld w 12 1) (fld w 10 2) (fld w 8 2) (fld w 0 8))
  | 42 => some (.sb (fld w 21 5) (fld w 16 5) (fld w 12 2) (fld w 10 2) (fld w 8 1) (fld w 0 8))
  | 43 => some (.sh (fld w 21 5) (fld w 16 5) (fld w 12 2) (fld w 10 2) (fld w 8 1) (fld w 0 8))
  | 44 => some (.sw (fld w 21 5) (fld w 16 5) (fld w 12 2) (fld w 10 2) (fld w 8 1) (fld w 0 8))
  | 45 => some (.sd (fld w 21 5) (fld w 16 5) (fld w 12 2) (fld w 10 2) (fld w 8 1) (fld w 0 8))
  | 46 => some (.fsw (fld w 21 5) (fld w 16 5) (fld w 12 2) (fld w 10 2) (fld w 8 1) (fld w 0 8))
  | 47 => some (.fsd (fld w 21 5) (fld w 16 5) (fld w 12 2) (fld w 10 2) (fld w 8 1) (fld w 0 8))
  | 48 => some (.vst (fld w 21 5) (fld w 16 5) (fld w 12 2) (fld w 10 2) (fld w 8 1) (fld w 0 8))
  | 49 => some (.ldf (fld w 21 5) (fld w 16 5) (fld w 12 1) (fld w 0 8))
  | 50 => some (.ldfe (fld w 21 5) (fld w 16 5) (fld w 12 1) (fld w 0 8))
  | 51 => some (.sde (fld w 21 5) (fld w 16 5) (fld w 12 1) (fld w 0 8))
  | 52 => fesetOf w
  | 53 => some (.fence (fld w 10 2))
  | 54 => some (.ppurge (fld w 16 5) (fld w 14 2) (fld w 0 8))
  | 55 => some (.lease (fld w 21 5) (fld w 16 5) (fld w 14 2) (fld w 0 8))
  | 56 => some (.pref (fld w 16 5) (fld w 14 2) (fld w 8 1) (fld w 0 8))
  | 57 => vectorIntOf w
  | 58 => wArithOf w
  | 59 => scalarFpOf w
  | 60 => some (.fcvt (fld w 21 5) (fld w 16 5) (fld w 11 5) (fld w 5 3) (fld w 0 5))
  | 61 => some (.vcvt (fld w 21 5) (fld w 16 5) (fld w 11 5) (fld w 8 3) (fld w 5 3) (fld w 0 5))
  | 62 => vectorFpOf w
  | 63 => vfredOf w
  | _ => none

/-- The word of an instruction (R38, R45 to R57); the events of the module have no word. -/
def encode : Instr → Nat
  | .add d a b => 0 + d.toNat * 2097152 + a.toNat * 65536 + b.toNat * 2048
  | .sub d a b => 1 + d.toNat * 2097152 + a.toNat * 65536 + b.toNat * 2048
  | .and d a b => 2 + d.toNat * 2097152 + a.toNat * 65536 + b.toNat * 2048
  | .or d a b => 3 + d.toNat * 2097152 + a.toNat * 65536 + b.toNat * 2048
  | .xor d a b => 4 + d.toNat * 2097152 + a.toNat * 65536 + b.toNat * 2048
  | .andn d a b => 5 + d.toNat * 2097152 + a.toNat * 65536 + b.toNat * 2048
  | .sll d a b => 6 + d.toNat * 2097152 + a.toNat * 65536 + b.toNat * 2048
  | .srl d a b => 7 + d.toNat * 2097152 + a.toNat * 65536 + b.toNat * 2048
  | .sra d a b => 8 + d.toNat * 2097152 + a.toNat * 65536 + b.toNat * 2048
  | .slt d a b => 9 + d.toNat * 2097152 + a.toNat * 65536 + b.toNat * 2048
  | .sltu d a b => 10 + d.toNat * 2097152 + a.toNat * 65536 + b.toNat * 2048
  | .min d a b => 11 + d.toNat * 2097152 + a.toNat * 65536 + b.toNat * 2048
  | .max d a b => 12 + d.toNat * 2097152 + a.toNat * 65536 + b.toNat * 2048
  | .minu d a b => 13 + d.toNat * 2097152 + a.toNat * 65536 + b.toNat * 2048
  | .maxu d a b => 14 + d.toNat * 2097152 + a.toNat * 65536 + b.toNat * 2048
  | .mul d a b => 15 + d.toNat * 2097152 + a.toNat * 65536 + b.toNat * 2048
  | .mulh d a b => 16 + d.toNat * 2097152 + a.toNat * 65536 + b.toNat * 2048
  | .mulhu d a b => 17 + d.toNat * 2097152 + a.toNat * 65536 + b.toNat * 2048
  | .clz d a => 18 + d.toNat * 2097152 + a.toNat * 65536
  | .ctz d a => 19 + d.toNat * 2097152 + a.toNat * 65536
  | .popc d a => 20 + d.toNat * 2097152 + a.toNat * 65536
  | .div d a b => 67108864 + d.toNat * 2097152 + a.toNat * 65536 + b.toNat * 2048
  | .divu d a b => 67108865 + d.toNat * 2097152 + a.toNat * 65536 + b.toNat * 2048
  | .rem d a b => 67108866 + d.toNat * 2097152 + a.toNat * 65536 + b.toNat * 2048
  | .remu d a b => 67108867 + d.toNat * 2097152 + a.toNat * 65536 + b.toNat * 2048
  | .nop => 134217728
  | .addi d a i => 134217728 + d.toNat * 2097152 + a.toNat * 65536 + i.toNat
  | .andi d a i => 201326592 + d.toNat * 2097152 + a.toNat * 65536 + i.toNat
  | .ori d a i => 268435456 + d.toNat * 2097152 + a.toNat * 65536 + i.toNat
  | .xori d a i => 335544320 + d.toNat * 2097152 + a.toNat * 65536 + i.toNat
  | .slti d a i => 402653184 + d.toNat * 2097152 + a.toNat * 65536 + i.toNat
  | .sltiu d a i => 469762048 + d.toNat * 2097152 + a.toNat * 65536 + i.toNat
  | .slli d a s => 536870912 + d.toNat * 2097152 + a.toNat * 65536 + s.toNat
  | .srli d a s => 536870976 + d.toNat * 2097152 + a.toNat * 65536 + s.toNat
  | .srai d a s => 536871040 + d.toNat * 2097152 + a.toNat * 65536 + s.toNat
  | .lhi d i => 603979776 + d.toNat * 2097152 + i.toNat
  | .shori d a i => 671088640 + d.toNat * 2097152 + a.toNat * 65536 + i.toNat
  | .beq a b o => 1073741824 + a.toNat * 2097152 + b.toNat * 65536 + o.toNat
  | .bne a b o => 1140850688 + a.toNat * 2097152 + b.toNat * 65536 + o.toNat
  | .blt a b o => 1207959552 + a.toNat * 2097152 + b.toNat * 65536 + o.toNat
  | .bge a b o => 1275068416 + a.toNat * 2097152 + b.toNat * 65536 + o.toNat
  | .bltu a b o => 1342177280 + a.toNat * 2097152 + b.toNat * 65536 + o.toNat
  | .bgeu a b o => 1409286144 + a.toNat * 2097152 + b.toNat * 65536 + o.toNat
  | .jal o => 1476395008 + o.toNat
  | .jalr d a i => 1543503872 + d.toNat * 2097152 + a.toNat * 65536 + i.toNat
  | .spawn d a b => 1610612736 + d.toNat * 2097152 + a.toNat * 65536 + b.toNat * 2048
  | .exit => 1610612768
  | .yield => 1610612800
  | .home d => 1610612832 + d.toNat * 2097152
  | .waitt a => 1610612864 + a.toNat * 65536
  | .lclkup d a => 1610612896 + d.toNat * 2097152 + a.toNat * 65536
  | .iflush => 1610612928
  | .trap c => 1610612960 + c.toNat
  | .eret => 1610612992
  | .crr d n => 1677721600 + d.toNat * 2097152 + n.toNat
  | .crw d a n => 1677725696 + d.toNat * 2097152 + a.toNat * 65536 + n.toNat
  | .crs d a n => 1677729792 + d.toNat * 2097152 + a.toNat * 65536 + n.toNat
  | .crc d a n => 1677733888 + d.toNat * 2097152 + a.toNat * 65536 + n.toNat
  | .rwait d a q n => 1744830464 + d.toNat * 2097152 + a.toNat * 65536 + q.toNat * 1024 + n.toNat
  | .rroom d a q n => 1744838656 + d.toNat * 2097152 + a.toNat * 65536 + q.toNat * 1024 + n.toNat
  | .radvh d a q n => 1744846848 + d.toNat * 2097152 + a.toNat * 65536 + q.toNat * 1024 + n.toNat
  | .radvt d a q n => 1744855040 + d.toNat * 2097152 + a.toNat * 65536 + q.toNat * 1024 + n.toNat
  | .rld d t w q i o => 1811939328 + d.toNat * 2097152 + t.toNat * 1048576 + w.toNat * 524288 + q.toNat * 65536 + i.toNat * 256 + o.toNat
  | .rst d t w q i o => 1879048192 + d.toNat * 2097152 + t.toNat * 1048576 + w.toNat * 524288 + q.toNat * 65536 + i.toNat * 256 + o.toNat
  | .join d a b => 1946157056 + d.toNat * 2097152 + a.toNat * 65536 + b.toNat * 2048
  | .leave a => 1946157088 + a.toNat * 65536
  | .bar d a => 1946157120 + d.toNat * 2097152 + a.toNat * 65536
  | .cwait d a b => 1946157152 + d.toNat * 2097152 + a.toNat * 65536 + b.toNat * 2048
  | .ticket d a => 1946157184 + d.toNat * 2097152 + a.toNat * 65536
  | .serve a => 1946157216 + a.toNat * 65536
  | .gamoD d a b => 1946157248 + d.toNat * 2097152 + a.toNat * 65536 + b.toNat * 2048
  | .gamoW d a b => 1946157249 + d.toNat * 2097152 + a.toNat * 65536 + b.toNat * 2048
  | .launch d a => 1946157280 + d.toNat * 2097152 + a.toNat * 65536
  | .sendLo d a b v => 1946157312 + d.toNat * 2097152 + a.toNat * 65536 + b.toNat * 2048 + v.toNat
  | .sendHi d a b v => 1946157344 + d.toNat * 2097152 + a.toNat * 65536 + b.toNat * 2048 + v.toNat
  | .sendr d a b v => 1946157376 + d.toNat * 2097152 + a.toNat * 65536 + b.toNat * 2048 + v.toNat
  | .hret => 1946157408
  | .xpush d a => 1946157440 + d.toNat * 2097152 + a.toNat * 65536
  | .xstat d a => 1946157472 + d.toNat * 2097152 + a.toNat * 65536
  | .aadd d a b o s z => 2013265920 + d.toNat * 2097152 + a.toNat * 65536 + b.toNat * 2048 + o.toNat * 32 + s.toNat * 8 + z.toNat * 4
  | .aand d a b o s z => 2013266048 + d.toNat * 2097152 + a.toNat * 65536 + b.toNat * 2048 + o.toNat * 32 + s.toNat * 8 + z.toNat * 4
  | .aor d a b o s z => 2013266176 + d.toNat * 2097152 + a.toNat * 65536 + b.toNat * 2048 + o.toNat * 32 + s.toNat * 8 + z.toNat * 4
  | .axor d a b o s z => 2013266304 + d.toNat * 2097152 + a.toNat * 65536 + b.toNat * 2048 + o.toNat * 32 + s.toNat * 8 + z.toNat * 4
  | .amin d a b o s z => 2013266432 + d.toNat * 2097152 + a.toNat * 65536 + b.toNat * 2048 + o.toNat * 32 + s.toNat * 8 + z.toNat * 4
  | .amax d a b o s z => 2013266560 + d.toNat * 2097152 + a.toNat * 65536 + b.toNat * 2048 + o.toNat * 32 + s.toNat * 8 + z.toNat * 4
  | .aminu d a b o s z => 2013266688 + d.toNat * 2097152 + a.toNat * 65536 + b.toNat * 2048 + o.toNat * 32 + s.toNat * 8 + z.toNat * 4
  | .amaxu d a b o s z => 2013266816 + d.toNat * 2097152 + a.toNat * 65536 + b.toNat * 2048 + o.toNat * 32 + s.toNat * 8 + z.toNat * 4
  | .aswap d a b o s z => 2013266944 + d.toNat * 2097152 + a.toNat * 65536 + b.toNat * 2048 + o.toNat * 32 + s.toNat * 8 + z.toNat * 4
  | .acas d a b o s z => 2013267072 + d.toNat * 2097152 + a.toNat * 65536 + b.toNat * 2048 + o.toNat * 32 + s.toNat * 8 + z.toNat * 4
  | .afadd d a b o s z => 2013267200 + d.toNat * 2097152 + a.toNat * 65536 + b.toNat * 2048 + o.toNat * 32 + s.toNat * 8 + z.toNat * 4
  | .mma d a b p c => 2080374784 + d.toNat * 2097152 + a.toNat * 65536 + b.toNat * 2048 + p.toNat * 32 + c.toNat
  | .mmasp d a b p c => 2080375296 + d.toNat * 2097152 + a.toNat * 65536 + b.toNat * 2048 + p.toNat * 32 + c.toNat
  | .ewr a e => 2080375808 + a.toNat * 65536 + e.toNat
  | .erd d e => 2080375840 + d.toNat * 2097152 + e.toNat
  | .mzero c => 2080375872 + c.toNat
  | .mst d a b c => 2080375904 + d.toNat * 2097152 + a.toNat * 65536 + b.toNat * 2048 + c.toNat
  | .mldt d a b q => 2080375936 + d.toNat * 2097152 + a.toNat * 65536 + b.toNat * 2048 + q.toNat
  | .jwait d a => 2080375968 + d.toNat * 2097152 + a.toNat * 65536
  | .jpoll d a => 2080376000 + d.toNat * 2097152 + a.toNat * 65536
  | .lb d a r o s h x => 2147483648 + d.toNat * 2097152 + a.toNat * 65536 + r.toNat * 16384 + o.toNat * 4096 + s.toNat * 1024 + h.toNat * 256 + x.toNat
  | .lbu d a r o s h x => 2214592512 + d.toNat * 2097152 + a.toNat * 65536 + r.toNat * 16384 + o.toNat * 4096 + s.toNat * 1024 + h.toNat * 256 + x.toNat
  | .lh d a r o s h x => 2281701376 + d.toNat * 2097152 + a.toNat * 65536 + r.toNat * 16384 + o.toNat * 4096 + s.toNat * 1024 + h.toNat * 256 + x.toNat
  | .lhu d a r o s h x => 2348810240 + d.toNat * 2097152 + a.toNat * 65536 + r.toNat * 16384 + o.toNat * 4096 + s.toNat * 1024 + h.toNat * 256 + x.toNat
  | .lw d a r o s h x => 2415919104 + d.toNat * 2097152 + a.toNat * 65536 + r.toNat * 16384 + o.toNat * 4096 + s.toNat * 1024 + h.toNat * 256 + x.toNat
  | .lwu d a r o s h x => 2483027968 + d.toNat * 2097152 + a.toNat * 65536 + r.toNat * 16384 + o.toNat * 4096 + s.toNat * 1024 + h.toNat * 256 + x.toNat
  | .ld d a r o s h x => 2550136832 + d.toNat * 2097152 + a.toNat * 65536 + r.toNat * 16384 + o.toNat * 4096 + s.toNat * 1024 + h.toNat * 256 + x.toNat
  | .flw d a r o s h x => 2617245696 + d.toNat * 2097152 + a.toNat * 65536 + r.toNat * 16384 + o.toNat * 4096 + s.toNat * 1024 + h.toNat * 256 + x.toNat
  | .fld d a r o s h x => 2684354560 + d.toNat * 2097152 + a.toNat * 65536 + r.toNat * 16384 + o.toNat * 4096 + s.toNat * 1024 + h.toNat * 256 + x.toNat
  | .vld d a r o s h x => 2751463424 + d.toNat * 2097152 + a.toNat * 65536 + r.toNat * 16384 + o.toNat * 4096 + s.toNat * 1024 + h.toNat * 256 + x.toNat
  | .sb d a o s h x => 2818572288 + d.toNat * 2097152 + a.toNat * 65536 + o.toNat * 4096 + s.toNat * 1024 + h.toNat * 256 + x.toNat
  | .sh d a o s h x => 2885681152 + d.toNat * 2097152 + a.toNat * 65536 + o.toNat * 4096 + s.toNat * 1024 + h.toNat * 256 + x.toNat
  | .sw d a o s h x => 2952790016 + d.toNat * 2097152 + a.toNat * 65536 + o.toNat * 4096 + s.toNat * 1024 + h.toNat * 256 + x.toNat
  | .sd d a o s h x => 3019898880 + d.toNat * 2097152 + a.toNat * 65536 + o.toNat * 4096 + s.toNat * 1024 + h.toNat * 256 + x.toNat
  | .fsw d a o s h x => 3087007744 + d.toNat * 2097152 + a.toNat * 65536 + o.toNat * 4096 + s.toNat * 1024 + h.toNat * 256 + x.toNat
  | .fsd d a o s h x => 3154116608 + d.toNat * 2097152 + a.toNat * 65536 + o.toNat * 4096 + s.toNat * 1024 + h.toNat * 256 + x.toNat
  | .vst d a o s h x => 3221225472 + d.toNat * 2097152 + a.toNat * 65536 + o.toNat * 4096 + s.toNat * 1024 + h.toNat * 256 + x.toNat
  | .ldf d a o x => 3288334336 + d.toNat * 2097152 + a.toNat * 65536 + o.toNat * 4096 + x.toNat
  | .ldfe d a o x => 3355443200 + d.toNat * 2097152 + a.toNat * 65536 + o.toNat * 4096 + x.toNat
  | .sde d a o x => 3422552064 + d.toNat * 2097152 + a.toNat * 65536 + o.toNat * 4096 + x.toNat
  | .fesetE a x => 3489660928 + a.toNat * 65536 + x.toNat
  | .fesetF a x => 3489665024 + a.toNat * 65536 + x.toNat
  | .fence s => 3556769792 + s.toNat * 1024
  | .ppurge a r x => 3623878656 + a.toNat * 65536 + r.toNat * 16384 + x.toNat
  | .lease d a r x => 3690987520 + d.toNat * 2097152 + a.toNat * 65536 + r.toNat * 16384 + x.toNat
  | .pref a r h x => 3758096384 + a.toNat * 65536 + r.toNat * 16384 + h.toNat * 256 + x.toNat
  | .vadd d a b k w => 3825205248 + d.toNat * 2097152 + a.toNat * 65536 + b.toNat * 2048 + k.toNat * 256 + w.toNat * 32
  | .vsub d a b k w => 3825205249 + d.toNat * 2097152 + a.toNat * 65536 + b.toNat * 2048 + k.toNat * 256 + w.toNat * 32
  | .vmul d a b k w => 3825205250 + d.toNat * 2097152 + a.toNat * 65536 + b.toNat * 2048 + k.toNat * 256 + w.toNat * 32
  | .vmulh d a b k w => 3825205251 + d.toNat * 2097152 + a.toNat * 65536 + b.toNat * 2048 + k.toNat * 256 + w.toNat * 32
  | .vmulhu d a b k w => 3825205252 + d.toNat * 2097152 + a.toNat * 65536 + b.toNat * 2048 + k.toNat * 256 + w.toNat * 32
  | .vand d a b k w => 3825205253 + d.toNat * 2097152 + a.toNat * 65536 + b.toNat * 2048 + k.toNat * 256 + w.toNat * 32
  | .vor d a b k w => 3825205254 + d.toNat * 2097152 + a.toNat * 65536 + b.toNat * 2048 + k.toNat * 256 + w.toNat * 32
  | .vxor d a b k w => 3825205255 + d.toNat * 2097152 + a.toNat * 65536 + b.toNat * 2048 + k.toNat * 256 + w.toNat * 32
  | .vsll d a b k w => 3825205256 + d.toNat * 2097152 + a.toNat * 65536 + b.toNat * 2048 + k.toNat * 256 + w.toNat * 32
  | .vsrl d a b k w => 3825205257 + d.toNat * 2097152 + a.toNat * 65536 + b.toNat * 2048 + k.toNat * 256 + w.toNat * 32
  | .vsra d a b k w => 3825205258 + d.toNat * 2097152 + a.toNat * 65536 + b.toNat * 2048 + k.toNat * 256 + w.toNat * 32
  | .vmin d a b k w => 3825205259 + d.toNat * 2097152 + a.toNat * 65536 + b.toNat * 2048 + k.toNat * 256 + w.toNat * 32
  | .vmax d a b k w => 3825205260 + d.toNat * 2097152 + a.toNat * 65536 + b.toNat * 2048 + k.toNat * 256 + w.toNat * 32
  | .vminu d a b k w => 3825205261 + d.toNat * 2097152 + a.toNat * 65536 + b.toNat * 2048 + k.toNat * 256 + w.toNat * 32
  | .vmaxu d a b k w => 3825205262 + d.toNat * 2097152 + a.toNat * 65536 + b.toNat * 2048 + k.toNat * 256 + w.toNat * 32
  | .vadds d a b k w => 3825205263 + d.toNat * 2097152 + a.toNat * 65536 + b.toNat * 2048 + k.toNat * 256 + w.toNat * 32
  | .vsubs d a b k w => 3825205264 + d.toNat * 2097152 + a.toNat * 65536 + b.toNat * 2048 + k.toNat * 256 + w.toNat * 32
  | .vaddus d a b k w => 3825205265 + d.toNat * 2097152 + a.toNat * 65536 + b.toNat * 2048 + k.toNat * 256 + w.toNat * 32
  | .vsubus d a b k w => 3825205266 + d.toNat * 2097152 + a.toNat * 65536 + b.toNat * 2048 + k.toNat * 256 + w.toNat * 32
  | .vcmpeq d a b k w => 3825205267 + d.toNat * 2097152 + a.toNat * 65536 + b.toNat * 2048 + k.toNat * 256 + w.toNat * 32
  | .vcmplt d a b k w => 3825205268 + d.toNat * 2097152 + a.toNat * 65536 + b.toNat * 2048 + k.toNat * 256 + w.toNat * 32
  | .vcmpltu d a b k w => 3825205269 + d.toNat * 2097152 + a.toNat * 65536 + b.toNat * 2048 + k.toNat * 256 + w.toNat * 32
  | .vsel d a b k w => 3825205270 + d.toNat * 2097152 + a.toNat * 65536 + b.toNat * 2048 + k.toNat * 256 + w.toNat * 32
  | .vsplat d a k w => 3825205271 + d.toNat * 2097152 + a.toNat * 65536 + k.toNat * 256 + w.toNat * 32
  | .vext d a b w => 3825205272 + d.toNat * 2097152 + a.toNat * 65536 + b.toNat * 2048 + w.toNat * 32
  | .vins d a b w => 3825205273 + d.toNat * 2097152 + a.toNat * 65536 + b.toNat * 2048 + w.toNat * 32
  | .vperm d a b k w => 3825205274 + d.toNat * 2097152 + a.toNat * 65536 + b.toNat * 2048 + k.toNat * 256 + w.toNat * 32
  | .vdot d a b k w => 3825205275 + d.toNat * 2097152 + a.toNat * 65536 + b.toNat * 2048 + k.toNat * 256 + w.toNat * 32
  | .vred d a k w => 3825205276 + d.toNat * 2097152 + a.toNat * 65536 + k.toNat * 256 + w.toNat * 32
  | .kand d a b => 3825205277 + d.toNat * 2097152 + a.toNat * 65536 + b.toNat * 2048
  | .kor d a b => 3825205309 + d.toNat * 2097152 + a.toNat * 65536 + b.toNat * 2048
  | .kxor d a b => 3825205341 + d.toNat * 2097152 + a.toNat * 65536 + b.toNat * 2048
  | .kandn d a b => 3825205373 + d.toNat * 2097152 + a.toNat * 65536 + b.toNat * 2048
  | .kmovg d a => 3825205405 + d.toNat * 2097152 + a.toNat * 65536
  | .gmovk d a => 3825205437 + d.toNat * 2097152 + a.toNat * 65536
  | .fexp d a p m => 3892314112 + d.toNat * 2097152 + a.toNat * 65536 + p.toNat * 256 + m.toNat * 32
  | .flog d a p m => 3892314113 + d.toNat * 2097152 + a.toNat * 65536 + p.toNat * 256 + m.toNat * 32
  | .ferf d a p m => 3892314114 + d.toNat * 2097152 + a.toNat * 65536 + p.toNat * 256 + m.toNat * 32
  | .fdivD d a b m => 3892314115 + d.toNat * 2097152 + a.toNat * 65536 + b.toNat * 2048 + m.toNat * 32
  | .fsqrtD d a m => 3892314116 + d.toNat * 2097152 + a.toNat * 65536 + m.toNat * 32
  | .vcrc d a b => 3892314117 + d.toNat * 2097152 + a.toNat * 65536 + b.toNat * 2048
  | .fadd d a b p m => 3959422976 + d.toNat * 2097152 + a.toNat * 65536 + b.toNat * 2048 + p.toNat * 256 + m.toNat * 32
  | .fsub d a b p m => 3959422977 + d.toNat * 2097152 + a.toNat * 65536 + b.toNat * 2048 + p.toNat * 256 + m.toNat * 32
  | .fmul d a b p m => 3959422978 + d.toNat * 2097152 + a.toNat * 65536 + b.toNat * 2048 + p.toNat * 256 + m.toNat * 32
  | .fdivS d a b m => 3959423235 + d.toNat * 2097152 + a.toNat * 65536 + b.toNat * 2048 + m.toNat * 32
  | .fsqrtS d a m => 3959423236 + d.toNat * 2097152 + a.toNat * 65536 + m.toNat * 32
  | .fmin d a b p => 3959422981 + d.toNat * 2097152 + a.toNat * 65536 + b.toNat * 2048 + p.toNat * 256
  | .fmax d a b p => 3959422982 + d.toNat * 2097152 + a.toNat * 65536 + b.toNat * 2048 + p.toNat * 256
  | .fma d a b p m => 3959422983 + d.toNat * 2097152 + a.toNat * 65536 + b.toNat * 2048 + p.toNat * 256 + m.toNat * 32
  | .fms d a b p m => 3959422984 + d.toNat * 2097152 + a.toNat * 65536 + b.toNat * 2048 + p.toNat * 256 + m.toNat * 32
  | .fnma d a b p m => 3959422985 + d.toNat * 2097152 + a.toNat * 65536 + b.toNat * 2048 + p.toNat * 256 + m.toNat * 32
  | .fnms d a b p m => 3959422986 + d.toNat * 2097152 + a.toNat * 65536 + b.toNat * 2048 + p.toNat * 256 + m.toNat * 32
  | .feq d a b p => 3959422987 + d.toNat * 2097152 + a.toNat * 65536 + b.toNat * 2048 + p.toNat * 256
  | .flt d a b p => 3959422988 + d.toNat * 2097152 + a.toNat * 65536 + b.toNat * 2048 + p.toNat * 256
  | .fle d a b p => 3959422989 + d.toNat * 2097152 + a.toNat * 65536 + b.toNat * 2048 + p.toNat * 256
  | .fclass d a p => 3959422990 + d.toNat * 2097152 + a.toNat * 65536 + p.toNat * 256
  | .fsgnj d a b p => 3959422991 + d.toNat * 2097152 + a.toNat * 65536 + b.toNat * 2048 + p.toNat * 256
  | .fsgnjn d a b p => 3959422992 + d.toNat * 2097152 + a.toNat * 65536 + b.toNat * 2048 + p.toNat * 256
  | .fsgnjx d a b p => 3959422993 + d.toNat * 2097152 + a.toNat * 65536 + b.toNat * 2048 + p.toNat * 256
  | .fmvfg d a p => 3959422994 + d.toNat * 2097152 + a.toNat * 65536 + p.toNat * 256
  | .fmvgf d a p => 3959422995 + d.toNat * 2097152 + a.toNat * 65536 + p.toNat * 256
  | .fcvt d a s m t => 4026531840 + d.toNat * 2097152 + a.toNat * 65536 + s.toNat * 2048 + m.toNat * 32 + t.toNat
  | .vcvt d a s k m t => 4093640704 + d.toNat * 2097152 + a.toNat * 65536 + s.toNat * 2048 + k.toNat * 256 + m.toNat * 32 + t.toNat
  | .vfadd d a b k m t => 4160749568 + d.toNat * 2097152 + a.toNat * 65536 + b.toNat * 2048 + k.toNat * 256 + m.toNat * 32 + t.toNat * 8
  | .vfsub d a b k m t => 4160749569 + d.toNat * 2097152 + a.toNat * 65536 + b.toNat * 2048 + k.toNat * 256 + m.toNat * 32 + t.toNat * 8
  | .vfmul d a b k m t => 4160749570 + d.toNat * 2097152 + a.toNat * 65536 + b.toNat * 2048 + k.toNat * 256 + m.toNat * 32 + t.toNat * 8
  | .vfma d a b k m t => 4160749571 + d.toNat * 2097152 + a.toNat * 65536 + b.toNat * 2048 + k.toNat * 256 + m.toNat * 32 + t.toNat * 8
  | .vfnma d a b k m t => 4160749572 + d.toNat * 2097152 + a.toNat * 65536 + b.toNat * 2048 + k.toNat * 256 + m.toNat * 32 + t.toNat * 8
  | .vfmin d a b k t => 4160749573 + d.toNat * 2097152 + a.toNat * 65536 + b.toNat * 2048 + k.toNat * 256 + t.toNat * 8
  | .vfmax d a b k t => 4160749574 + d.toNat * 2097152 + a.toNat * 65536 + b.toNat * 2048 + k.toNat * 256 + t.toNat * 8
  | .vfcmp d a b k p t => 4160749575 + d.toNat * 2097152 + a.toNat * 65536 + b.toNat * 2048 + k.toNat * 256 + p.toNat * 32 + t.toNat * 8
  | .vfredSum d a k m t => 4227858432 + d.toNat * 2097152 + a.toNat * 65536 + k.toNat * 256 + m.toNat * 32 + t.toNat * 8
  | .vfredMin d a k t => 4227858433 + d.toNat * 2097152 + a.toNat * 65536 + k.toNat * 256 + t.toNat * 8
  | .vfredMax d a k t => 4227858434 + d.toNat * 2097152 + a.toNat * 65536 + k.toNat * 256 + t.toNat * 8
  | .waittExpiry _ => 0
  | .gamoWindowEnd _ => 0
  | .migrateToWCore _ => 0
  | .migrateReturn _ => 0
  | .wCoreEarlyReturn _ => 0
  | .copyCompletionInterrupt _ => 0
  | .homeLoad _ _ _ => 0
  | .dewAnswer _ _ => 0
  | .loadReply _ => 0
  | .homeStore _ => 0
  | .horizonWaitEnd _ => 0
  | .plsharedWriteRelease _ => 0
  | .storeAck _ => 0
  | .homeAtomic _ => 0
  | .atomicResult _ => 0
  | .lmAtomic _ => 0
  | .pubPublish _ _ => 0
  | .homeSweep => 0
  | .pushReceive _ => 0
  | .pushAnswer _ => 0
  | .pushAck _ => 0
  | .purgeAck _ => 0
  | .squallWait _ => 0
  | .squallWake _ => 0
  | .squallEntryExpiry _ => 0
  | .homeWaitRecord _ => 0
  | .waitWake _ => 0
  | .waitRepoll _ => 0
  | .unrecordedResend _ => 0
  | .messageArrival _ => 0
  | .handlerStart _ _ => 0
  | .messageAnswer _ => 0
  | .handlerOverrun _ => 0
  | .remoteLmStore _ => 0
  | .refusedOfferRetry _ => 0
  | .reservedHoldLapse _ => 0
  | .pageResolve _ _ _ => 0
  | .faultWake _ => 0
  | .gateOpen _ _ => 0
  | .launchAged _ _ => 0
  | .threadPlace _ => 0
  | .stagingDone _ => 0
  | .launchComplete _ _ => 0
  | .completionPost _ => 0
  | .launchAbort _ _ => 0
  | .isobarEstimate _ => 0
  | .workAged _ => 0
  | .clockRaiseCheck _ => 0
  | .jobDispatch _ => 0
  | .jobRetire _ => 0
  | .copyDispatch _ => 0
  | .copyElement _ _ _ => 0
  | .copyResume _ => 0
  | .copyDone _ _ => 0
  | .gtrExchange _ _ _ => 0
  | .zwionTimeExchange _ _ => 0
  | .replyTimeout _ => 0
  | .seqFetch _ => 0
  | .rightsPurge _ _ => 0
  | .translationPurge _ _ => 0
  | .pageMigration _ _ _ => 0
  | .wipe _ => 0
  | .preemptDrainDeadline _ => 0
  | .drainComplete _ => 0
  | .dieReset _ _ => 0
  | .quiesceDeadline _ => 0
  | .homeReturn _ => 0
  | .crossingReplay _ _ => 0
  | .linkCrcRetry _ _ => 0
  | .hbmPatrol _ _ => 0
  | .hostGrant _ _ _ => 0
  | .hostSnoop _ _ => 0
  | .snoopAnswer _ => 0
  | .writePullDrop _ => 0
  | .hostMemAccess _ _ _ => 0
  | .biasFlipToHost _ => 0
  | .launchPortWrite _ _ _ => 0
  | .vfRegisterWrite _ _ _ => 0
  | .zwionFlitReceive _ _ _ _ _ _ _ _ => 0
  | .zwionNak _ _ => 0
  | .zwionBusyReplay _ _ => 0
  | .zwionRetrain _ _ => 0
  | .collStart _ _ => 0
  | .collChunk _ _ _ _ _ => 0
  | .collResult _ _ _ _ _ _ => 0
  | .collDeadline _ _ => 0
  | .mainUndervoltage => 0
  | .mainPowerOn => 0
  | .cxlHotReset => 0
  | .primroseSelfTest _ => 0
  | .firmwareVerify _ _ => 0
  | .stewardStart _ => 0
  | .hbmTraining _ => 0
  | .disableMapLoad _ => 0
  | .moduleWipe _ => 0
  | .gtrInitialLock _ => 0
  | .isobarStart _ => 0
  | .ready => 0
  | .cDieClamp _ _ => 0
  | .baseDieClamp _ _ => 0
  | .sDieClamp _ => 0
  | .clampLift _ _ => 0
  | .thermalTrip _ _ => 0
  | .getStatus => 0
  | .setCap _ _ => 0
  | .getClocks => 0
  | .readDisableMap _ => 0
  | .partCreate _ => 0
  | .partEnd _ => 0
  | .partPreempt _ _ => 0
  | .partRestore _ => 0
  | .partResize _ _ _ => 0
  | .partDrain _ _ => 0
  | .domainCreate _ _ => 0
  | .domainRetire _ => 0
  | .rightsWrite _ _ _ _ => 0
  | .readAbortLog _ => 0
  | .readErrors => 0
  | .collWrite _ _ _ => 0
  | .timeSource _ => 0
  | .biasDevice _ => 0
  | .vfReset _ => 0
  | .lifecycle _ _ _ => 0
  | .raiseCounter _ => 0
  | .reset _ => 0
  | .i3cMainOff => 0
  | .getVersion _ => 0
  | .getCapabilities _ => 0
  | .negotiateAlgorithms _ _ _ => 0
  | .getDigests _ => 0
  | .getCertificate _ _ => 0
  | .challenge _ _ => 0
  | .getMeasurements _ _ _ => 0
  | .keyExchange _ _ => 0
  | .finish _ _ => 0
  | .endSession _ => 0
  | .illegalInstruction _ => 0
  | .unknownOpcode _ => 0
  | .ptmTimeExchange _ => 0
  | .dirtyEvictionAnswer _ => 0
  | .regionMapWrite _ _ _ _ => 0
  | .ideKeyProgramming _ _ _ => 0

/-- Decodes a word (R42): the fields are those of a well-formed instruction, and every bit that no field
holds is as the tables fix it. -/
def decode (w : Nat) : Option Instr :=
  match decodeFields w with
  | none => none
  | some i => if w ≠ 0 ∧ i.wf = true ∧ encode i = w then some i else none

/-- The little-endian bytes of a number, `n` of them (R37). -/
def bytesOf : Nat → Nat → List Byte
  | 0, _ => []
  | n + 1, w => BitVec.ofNat 8 w :: bytesOf n (w / 256)

/-- The number that little-endian bytes stand for. -/
def ofBytes : List Byte → Nat
  | [] => 0
  | b :: bs => b.toNat + 256 * ofBytes bs

/-- Decodes the first four bytes of a list (R37). -/
def decodeBytes (bs : List Byte) : Option Instr :=
  if bs.length < 4 then none else decode (ofBytes (bs.take 4))

/-- What the decoder reads from an instruction of the table, laid out in bytes as LM holds it. -/
def decodeTableWord (_nbits w : Nat) : Option Instr :=
  decodeBytes (bytesOf 4 w)

end Sys2Proof
end

