-- ==== Sys2Proof/Machine/Fmap.lean ====
section
/-!
DEFINITION. Finite maps from Nat: lists of key and value pairs with rising keys, the plain data in
which the state holds whatever the part has very many of (contexts, cores, registers, records).
An unlisted key reads as a default that the reader names.
-/
namespace Sys2Proof.Machine

/-- A finite map from Nat as a list of pairs. -/
abbrev FMap (β : Type) := List (Nat × β)

/-- The value listed for a key. -/
def FMap.get {β : Type} : FMap β → Nat → Option β
  | [], _ => none
  | (k, v) :: m, j => if j = k then some v else FMap.get m j

/-- The value listed for a key, or the default of an unlisted one. -/
def FMap.getD {β : Type} (m : FMap β) (j : Nat) (dflt : β) : β :=
  (FMap.get m j).getD dflt

/-- Lists a value for a key, in the place that keeps the keys rising. -/
def FMap.set {β : Type} : FMap β → Nat → β → FMap β
  | [], j, v => [(j, v)]
  | (k, w) :: m, j, v =>
    if j < k then (j, v) :: (k, w) :: m
    else if j = k then (j, v) :: m
    else (k, w) :: FMap.set m j v

/-- Takes a key out. -/
def FMap.del {β : Type} (m : FMap β) (j : Nat) : FMap β :=
  m.filter fun p => p.1 != j

end Sys2Proof.Machine
end

