-- ==== Sys2Proof/Machine/CoreState.lean ====
section
/-!
DEFINITION. What one core holds (R14 to R29): its six contexts, its ring descriptors and other
per-core control registers, its mailboxes, its cache region, its engine context and its copies.
-/
namespace Sys2Proof.Machine

/-- A register that an instruction names, for the scoreboard (R15). -/
inductive RegRef where
  | g (n : Nat)
  | f (n : Nat)
  | v (n : Nat)
  | k (n : Nat)
  deriving DecidableEq, Repr

/-- The two priorities of handlers and mailboxes (R19, R25). -/
inductive Prio where
  | lo
  | hi
  deriving DecidableEq, Repr

/-- The states of R24 that hold a context, with the states of R190 (placed, not started) and R345
(stopped at a trap that is not vectored). A handler context that is free is dormant. -/
inductive CtxSt where
  | free
  | staging
  | ready
  | waiting
  | faultWaiting
  | migrationWaiting
  | stopped
  deriving DecidableEq, Repr

/-- The codes of R60. -/
inductive Cause where
  | illegal
  | extMissing
  | misalign
  | prot
  | page
  | unmapped
  | fpe
  | race
  | detForbid
  | ringFault
  | msgFault
  | hOverrun
  | mCheck
  | brk
  | xFault
  deriving DecidableEq, Repr

/-- A trap that a context takes once every result still to come to it has been written (R344): its cause, TRAPADDR, TRAPVAL and TRAPPC. -/
structure DueTrap where
  cause : Cause
  addr : Word
  val : Word
  ret : Word
  deriving DecidableEq, Repr

/-- A charge that admitted work has taken from the headroom of a partition on a tile (R192): in fortieths of a microwatt, after which estimate. -/
structure Charge where
  key : Nat
  amount : Nat
  since : Nat
  deriving DecidableEq, Repr

/-- What a waiting context waits for: the wait kinds of R353. `d` is the register to be written, and `k` the count that RWAIT and RROOM wait for. -/
inductive Wait where
  | none
  | rwait (q : Nat) (k : Nat) (d : Nat)
  | rroom (q : Nat) (k : Nat) (d : Nat)
  | bar (addr : Nat) (gen : Nat) (d : Nat)
  | cwait (addr : Nat) (target : Word) (d : Nat)
  | ticket (addr : Nat) (t : Nat) (d : Nat)
  | jwait (id : Nat) (d : Nat)
  | waitt (v : Word)
  | page (addr : Nat)
  deriving DecidableEq, Repr

/-- One entry of the rank table (R207). -/
structure RankEntry where
  addr : Nat
  rank : Nat
  gen : Nat
  deriving DecidableEq, Repr

/-- One entry of the spin table (R129). -/
structure SpinEntry where
  sector : Nat
  wts : Stamp
  rts : Stamp
  count : Nat
  deriving DecidableEq, Repr

/-- The per-context control registers of R77 that hold a value of their own. -/
structure CtxCr where
  tid : Word := 0
  domain : BitVec 16 := 0
  part : BitVec 5 := 0
  lclk : Stamp := 0
  fflags : BitVec 5 := 0
  ftrapen : BitVec 5 := 0
  frm : BitVec 3 := 0
  trapvec : Word := 0
  trappc : Word := 0
  trapcause : BitVec 10 := 0
  trapaddr : Word := 0
  trapval : Word := 0
  xferid : Word := 0
  xien : BitVec 1 := 0
  pset : BitVec 41 := 0
  pres : Word := 0
  bounceq : BitVec 4 := 0
  bounces : BitVec 32 := 0
  jobst : Word := 0
  deriving DecidableEq, Repr

/-- One context of a core (R22 to R26, R353). Every register that is not listed in its map reads
as zero (R183, R217), k0 as all ones (R26). -/
structure Ctx where
  /-- R24. -/
  st : CtxSt := .free
  wait : Wait := .none
  /-- GTR at which the wait was last sent (R199). -/
  waitSent : Nat := 0
  /-- The last wait was answered unrecorded (R199). -/
  unrecorded : Bool := false
  g : FMap Word := []
  f : FMap Word := []
  v : FMap Quad := []
  k : FMap (BitVec 16) := []
  pc : Word := 0
  cr : CtxCr := {}
  /-- Registers whose result is still to come (R15, R214). -/
  pend : List RegRef := []
  /-- A trap found by an access of this context, to be taken before its next instruction (R119, R344). -/
  due : Option DueTrap := none
  /-- Values that LCLK has held while loads were on their way (R98): for each rise, the next sequence number then, and the first and last value
  before it. -/
  clocks : List (Nat × Stamp × Stamp) := []
  /-- Index of the home core (R23); of a handler, the executing core. -/
  home : Nat := 0
  /-- Launch-table slot of the launch charged (R22, R214). -/
  launch : Option Nat := none
  /-- Domain under which accesses are checked: the launch's, or that of the message (R304). -/
  accessDomain : Nat := 0
  ranks : List RankEntry := []
  spin : List SpinEntry := []
  /-- Transfer ids of pending copy completions with their handlers and W, oldest first (R223). -/
  comps : List (Word × Word × Stamp) := []
  pushDelivered : Nat := 0
  pushRefused : Nat := 0
  pushSkipped : Bool := false
  /-- Consecutive retired words that are not W words, on the W-core (R73). -/
  migCount : Nat := 0
  /-- Migrated to the W-core, and since when (R198). -/
  migrated : Bool := false
  migSince : Nat := 0
  /-- The thread's charge (R192). -/
  charge : Option Charge := none
  /-- Handler: what counts towards HLIMIT, in 640ths of a cycle (R195). -/
  hcount : Nat := 0
  /-- Handler: its mailbox slot. -/
  slot : Nat := 0
  /-- Low handler: suspended by a high one that has not returned; has been, in this run (R195). -/
  suspended : Bool := false
  onceSuspended : Bool := false
  /-- The model's own number of this thread or handler run: an answer that arrives for a context
  that has ended finds another number there. -/
  uid : Nat := 0
  deriving DecidableEq, Repr

/-- A copy of one sector (R96): its 64 bytes as one number, low byte first, and its interval;
`expiry` is the physical lease of a plshared copy (R126). -/
structure SecCopy where
  data : BitVec 512
  wts : Stamp
  rts : Stamp
  expiry : Option Nat := none
  /-- Thread (launch slot and NUMBER) and phase whose load filled it (R118). -/
  filledBy : Option (Nat × Nat × Nat) := none
  /-- SEQ of a host line (R332); none for a line of device memory. -/
  hostSeq : Option Nat := none
  /-- Poison of its eight 8-byte words (R357). -/
  poison : BitVec 8 := 0
  deriving DecidableEq, Repr

/-- One 256-byte line of a cache region or dew store (R19, R138, R145): sectors by number 0 to 3. -/
structure CopyLine where
  line : Nat
  part : Nat
  sectors : FMap SecCopy := []
  /-- Counts against PQUOTA (R145). -/
  push : Bool := false
  deriving DecidableEq, Repr

/-- A message on its way or in a mailbox slot (R214, R217). -/
structure Msg where
  /-- 0 SEND.lo, 1 SEND.hi, 2 SENDR (R216). -/
  kind : Nat
  dest : Nat
  /-- Handler address, or ring number. -/
  target : Word
  payload : BitVec 512
  tid : Word
  lclk : Stamp
  domain : Nat
  launch : Option Nat
  part : Nat
  /-- Of an aborted launch of a VF that is being reset: that VF (R364). -/
  vf : Option Nat := none
  deriving DecidableEq, Repr

/-- A rights-table entry as R306 lays it out. -/
structure RightsEntry where
  base : Nat
  log2size : Nat
  attr : Nat
  p : Bool
  x : Bool
  w : Bool
  r : Bool
  deriving DecidableEq, Repr

/-- A range of LM pinned for a launch (R187, R190). -/
structure Pin where
  launch : Nat
  part : Nat
  off : Nat
  len : Nat
  staged : Bool := false
  deriving DecidableEq, Repr

/-- What a matrix job does (R288, R294, R296, R297). -/
inductive JobKind where
  | mma (sparse : Bool) (pair : Nat) (desc : Word) (opts : Word) (scale : Word)
  | mzero (acc : Nat)
  | mst (addr : Word) (opts : Word) (acc : Nat)
  | mldt (addr : Word) (opts : Word) (ring : Nat)
  deriving DecidableEq, Repr

/-- A job of the cluster job queue (R197, R289); `snap` holds the ring descriptors of the snapshot
once it is dispatched. -/
structure Job where
  id : Option Nat
  kind : JobKind
  running : Bool := false
  snap : List Word := []
  ctx : Nat
  uid : Nat
  launch : Option Nat
  part : Nat
  /-- TID of its issuer. -/
  tid : Word := 0
  /-- When it began to wait for headroom (R193), and its charge once dispatched (R192). -/
  waitedFrom : Option Nat := none
  charge : Option Charge := none
  /-- Its launch has been aborted while it ran: it runs to retirement and is charged to none (R346). -/
  disowned : Bool := false
  /-- Of an aborted launch of a VF that is being reset: that VF (R364). -/
  vf : Option Nat := none
  /-- LM words that it has read before its retirement, by address, whether one carried poison, and the places, among the words it writes, of those already written
  (R113, R299). -/
  ahead : FMap Word := []
  sick : Bool := false
  put : List Nat := []
  deriving DecidableEq, Repr

/-- The core's record of one copy (R221 to R224): status as R224 numbers it. -/
structure CopyRec where
  id : Word
  block : List Word
  status : Nat
  tid : Word
  ctx : Nat
  uid : Nat
  launch : Option Nat
  part : Nat
  domain : Nat
  lclk : Stamp
  w : Stamp := 0
  /-- Elements already moved. -/
  moved : List Nat := []
  /-- Address at which it met a page that is not present (R222), and when it last sent the wait of R350. -/
  parked : Option Nat := none
  waitSent : Nat := 0
  unrecorded : Bool := false
  /-- When it began to wait for headroom (R193), and its charge once dispatched (R192). -/
  waitedFrom : Option Nat := none
  charge : Option Charge := none
  deriving DecidableEq, Repr

/-- One core (R14, R15, R28, R77, R278). -/
structure Core where
  /-- RING0 to RING7 (R28). -/
  rings : FMap Word := []
  pquota : BitVec 6 := 8
  mboxd : BitVec 4 := 8
  hlimit : BitVec 32 := 65536
  traceb : Word := 0
  tracen : BitVec 32 := 0
  /-- Deterministic partitions: phase, launch slot and NUMBER that wrote each ring last (R121). -/
  ringWriter : FMap (Nat × Nat × Nat) := []
  /-- Cache region size code: c = 4 KiB times the code (R19, R212). -/
  cacheSize : Nat := 0
  /-- Cache region, most recently used line first (R141). -/
  cache : List CopyLine := []
  /-- Mailbox slots that hold a message, waiting or running (R19, R195). -/
  boxLo : FMap Msg := []
  boxHi : FMap Msg := []
  /-- Waiting slots in arrival order (R195). -/
  orderLo : List Nat := []
  orderHi : List Nat := []
  /-- Thread contexts still owed a turn before the next handler starts (R195). -/
  owed : List Nat := []
  /-- Thread context that issued last (R195). -/
  lastIssued : Nat := 3
  /-- Fetch buffer: words by LM offset, oldest first (R15, R116). -/
  fetch : List (Nat × IWord) := []
  /-- PLB entries with their domain, most recently used first (R307). -/
  plb : List (Nat × RightsEntry) := []
  pins : List Pin := []
  /-- SEQ of XPUSH (R221) and the core's copy records by sequence (R224). -/
  xseq : BitVec 8 := 0
  copies : FMap CopyRec := []
  /-- Job-queue entries that copies hold: transfer id and issuing thread (R223). -/
  copyEntries : List (Word × Nat) := []
  /-- Engine context (R278, R279): SCALE0-3, KIND0-3, SEQ, LAST and the four tiles. -/
  scales : FMap Word := []
  kinds : FMap (BitVec 2) := []
  eseq : BitVec 13 := 0
  last : BitVec 16 := 0
  /-- Accumulator entries, keyed tile * 256 + row * 16 + column (R280). -/
  acc : FMap (BitVec 32) := []
  /-- The core's matrix jobs, oldest first (R114). -/
  jobs : List Job := []
  /-- Status words of the 256 most recent job ids, newest first (R291). -/
  jobStatus : List (Nat × Word) := []
  /-- Next request sequence number (R358). -/
  reqSeq : Nat := 0
  deriving DecidableEq, Repr

end Sys2Proof.Machine
end

