-- ==== Sys2Proof/Machine/NetState.lean ====
section
/-!
DEFINITION. What is on its way between the agents of the module, and what homes, routers and LM
ports keep (R96 to R151, R158 to R164, R199 to R201, R354 to R359).
-/
namespace Sys2Proof.Machine

/-- How a load's data goes into its destination (R155), or which other request travels as a load:
LEASE (R167), PREF (R168). -/
inductive LoadFmt where
  | sx (bytes : Nat)
  | zx (bytes : Nat)
  | f32
  | f64
  | v128
  | lease
  | pref
  deriving DecidableEq, Repr

/-- A load, LEASE or PREF of a memory address (R98, R156, R167, R168). `attr` is the region
attribute found at issue (R135, R307), `c` the request clock at issue. -/
structure LoadReq where
  fmt : LoadFmt
  d : Nat
  addr : Nat
  rc : Nat
  acq : Bool
  sc : Nat
  hint : Nat
  attr : Nat
  /-- The rights entry found at issue gives no W: a read-only region (R125). -/
  ro : Bool
  c : Stamp
  /-- 1: its page was absent and it waits for the wake; 2: performed again after the wake (R348). -/
  fault : Nat := 0
  /-- Routers of its path that it has passed (R139). -/
  hop : Nat := 0
  deriving DecidableEq, Repr

/-- What an answer to a load brings back: the copy, where it was answered (the home, or the router
with this place on the path), whether it is handed out as a copy, or that the page is absent. -/
inductive LoadAnswer where
  | copy (sec : SecCopy) (atHome : Bool) (hop : Nat) (give : Bool)
  | pageAbsent
  | noTranslation
  | race (who : Word)
  deriving DecidableEq, Repr

/-- A store to a memory address (R100, R158): its bytes, ordering fields, LCLK and PSET at issue. -/
structure StoreReq where
  addr : Nat
  size : Nat
  data : Quad
  rel : Bool
  push : Bool
  sc : Nat
  nl : Bool
  attr : Nat
  l : Stamp
  pset : BitVec 41
  /-- PSET was valid when the store issued (R144). -/
  psetOk : Bool := false
  parked : Bool := false
  refused : Bool := false
  /-- At its home and waiting: 1 for the horizon (R131), 2 for physical leases (R126, R332), 4 to perform after it was parked (R161, R350). -/
  held : Nat := 0
  deriving DecidableEq, Repr

/-- The operations that perform as one read and one write at a word (R173, R205 to R210). -/
inductive AtomOp where
  | amo (op : Nat)
  | gamo
  | join (rank : Nat)
  | leave (gen : Option Nat)
  | bar
  | cwait (target : Word)
  | ticket
  | serve
  /-- The launch hardware's start of a phase whose group has no member (R117, R180). -/
  | kick
  deriving DecidableEq, Repr

/-- One GAMO that a combiner entry gathered (R210). -/
structure GamoPart where
  ctx : Nat
  uid : Nat
  d : Nat
  add : Word
  l : Stamp
  launch : Option Nat
  seq : Nat := 0
  /-- The domain under which it was checked (R304, R308), and whether it is executed again after a page fault (R211, R348). -/
  domain : Nat := 0
  fault : Bool := false
  deriving DecidableEq, Repr

/-- An atomic on its way (R102, R173 to R175, R210). -/
structure AtomReq where
  op : AtomOp
  addr : Nat
  size : Nat
  b : Word
  cmp : Word
  d : Nat
  acq : Bool
  rel : Bool
  sc : Nat
  attr : Nat
  l : Stamp
  parts : List GamoPart := []
  parked : Bool := false
  /-- 1, 2 and 4 as for a store; 3: refused, to be offered again. -/
  held : Nat := 0
  fault : Nat := 0
  deriving DecidableEq, Repr

/-- What an atomic brings back: the old value and the new, and the stamp LCLK rises to; or why it
did not perform. -/
inductive AtomAnswer where
  | done (old : Word) (new : Word) (wts : Option Stamp)
  | pageAbsent
  | noTranslation
  | race (who : Word)
  deriving DecidableEq, Repr

/-- A write to an LM word of another core (R110, R162). -/
inductive LmWrite where
  | store (size : Nat) (data : Quad)
  | sde (data : Word)
  | feset (full : Bool)
  deriving DecidableEq, Repr

/-- The key of a squall wait (R199). -/
inductive Key where
  | page (page : Nat)
  | word (addr : Nat)
  deriving DecidableEq, Repr

/-- A child port of a squall entry: a neighbouring router, a core of the router's own cluster, or, at an elevator, a slot of the partition's launch table (R181) or one of its collective
slots (R342). -/
inductive Port where
  | router (x : Nat) (y : Nat)
  | core (idx : Nat)
  | table (slot : Nat)
  | coll (slot : Nat)
  deriving DecidableEq, Repr

/-- Full/empty instructions at an LM port (R162, R163). -/
inductive FeOp where
  | ldf (d : Nat)
  | ldfe (d : Nat)
  | sde (data : Word) (poison : Bool := false)
  deriving DecidableEq, Repr

/-- What a flight carries. -/
inductive FKind where
  | load (q : LoadReq)
  /-- A load of LM on its way to the port (R110, R156): how it goes into register `d`, its address, .acq and its scope. -/
  | lmLoad (fmt : LoadFmt) (d : Nat) (addr : Nat) (acq : Bool) (sc : Nat)
  | loadReply (q : LoadReq) (a : LoadAnswer)
  | store (q : StoreReq)
  | storeAck (q : StoreReq) (version : SecCopy)
  | atomic (q : AtomReq)
  | atomicResult (q : AtomReq) (a : AtomAnswer)
  | lmWrite (addr : Nat) (w : LmWrite) (rel : Bool) (sc : Nat)
  | lmAck (addr : Nat) (imprecise : Bool)
  | feOffer (addr : Nat) (op : FeOp) (acq : Bool)
  | purge (line : Nat) (rc : Nat)
  /-- A push store that has performed and whose copies wait for PUB (R134, R144): its request, the version that it made and the end of their interval. -/
  | pushDue (q : StoreReq) (version : SecCopy) (top : Stamp)
  | push (line : Nat) (sector : Nat) (copy : SecCopy) (dest : Nat) (gather : Nat)
  | pushAnswer (gather : Nat) (core : Nat) (delivered : Bool)
  | pushAck (addr : Nat) (delivered : Nat) (refused : Nat) (skipped : Bool)
  | wait (key : Key) (addr : Nat) (target : Word) (hop : Nat) (last : Port)
  | wake (key : Key) (value : Word) (wts : Stamp) (port : Port) (unrecorded : Bool)
  | msg (m : Msg) (d : Nat)
  | msgAnswer (m : Msg) (d : Nat) (status : Nat) (race : Option (Word × Word))
  | seqFetch (seq : Nat) (source : Nat)
  /-- A LAUNCH on its way to the launch table: its destination, the record and its list, the domain of its threads, their starting LCLK and the TID of their parent (R213, R358). -/
  | launchReq (d : Nat) (words : List Word) (list : List Word) (domain : Nat) (start : Stamp) (parent : Word)
  /-- The status of a LAUNCH on its way back. -/
  | launchStatus (d : Nat) (status : Nat)
  deriving DecidableEq, Repr

/-- One request, answer or message on its way (R115). `ctx` and `uid` name the context it belongs
to, `seq` is the request sequence number of the issuing core (R358). -/
structure Flight where
  kind : FKind
  ctx : Nat
  uid : Nat
  part : Nat
  domain : Nat
  launch : Option Nat
  seq : Nat := 0
  sentAt : Nat := 0
  incarnation : BitVec 4 := 0
  /-- Poison of the data, by 8-byte word (R357). -/
  poison : BitVec 2 := 0
  /-- When a refused offer was last made (R200). -/
  offered : Nat := 0
  /-- A push store to LM, which sets SKIP when it performs (R159). -/
  skip : Bool := false
  /-- The instruction word that made it (R354). -/
  word : IWord := 0
  /-- Home core of the context that sent it (R20, R103): a thread's accesses go on after its EXIT. -/
  home : Nat := 0
  /-- Incarnation of the agent that sent what the flight carries now (R362). -/
  sender : BitVec 4 := 0
  /-- Fetched by a restore: sent again, it is checked against the rights of then (R308, R355). -/
  recheck : Bool := false
  deriving DecidableEq, Repr

/-- A full/empty instruction held at an LM port (R163), in arrival order. -/
structure Waiter where
  addr : Nat
  op : FeOp
  acq : Bool
  ctx : Nat
  uid : Nat
  part : Nat
  launch : Option Nat
  seq : Nat := 0
  /-- The instruction word that made it (R354). -/
  word : IWord := 0
  deriving DecidableEq, Repr

/-- A request that a full job queue or miss table of a cluster holds (R197): `res` is twice the cluster, plus one for the miss table, and `pos` the core in the cluster, or
8 for the XU. It is of the thread at `pc` of context `key`, or of an XU's copy with id `uid`, of the record `key` mod 256 of core `key` div 256. -/
structure Claim where
  res : Nat
  pos : Nat
  key : Nat
  uid : Nat
  pc : Word
  deriving DecidableEq, Repr

/-- Whom the home of a deterministic partition records for a sector (R119): a thread by launch slot
and NUMBER, several, or a commutative operation by its number and size. -/
inductive Who where
  | none
  | thread (slot : Nat) (number : Nat)
  | several
  | op (code : Nat) (size : Nat)
  deriving DecidableEq, Repr

/-- What a line record keeps of one sector (R122). -/
structure SecRec where
  wts : Stamp
  rts : Stamp
  level : Nat := 0
  phase : Nat := 0
  writer : Who := .none
  lessee : Who := .none
  /-- Latest physical expiry granted (R126). -/
  expiry : Nat := 0
  deriving DecidableEq, Repr

/-- A line record of a home slice (R122). -/
structure LineRec where
  line : Nat
  part : Nat
  slice : Nat
  sectors : FMap SecRec := []
  deriving DecidableEq, Repr

/-- A home's record of a key with waiters (R199). -/
structure WaitRec where
  slice : Nat
  part : Nat
  key : Key
  deriving DecidableEq, Repr

/-- A home's record of a page fault not yet resolved (R350). -/
structure FaultRec where
  slice : Nat
  part : Nat
  page : Nat
  deriving DecidableEq, Repr

/-- A squall entry of a router (R199). -/
structure SquallEntry where
  x : Nat
  y : Nat
  part : Nat
  key : Key
  children : List Port
  min : Word
  expiry : Nat
  deriving DecidableEq, Repr

/-- A line in the dew store of the router at (x, y) (R13, R138). -/
structure DewLine where
  x : Nat
  y : Nat
  body : CopyLine
  deriving DecidableEq, Repr

/-- An entry of a cluster router's GAMO combiner (R210); `opened` counts C-die cycles. -/
structure GamoEntry where
  cluster : Nat
  part : Nat
  addr : Nat
  size : Nat
  returning : Bool
  opened : Nat
  attr : Nat
  domain : Nat
  parts : List GamoPart
  deriving DecidableEq, Repr

/-- The answers a home gathers for one push store (R146). -/
structure Gather where
  id : Nat
  /-- The home slice that gathers, and the address stored to. -/
  slice : Nat
  addr : Nat
  ctx : Nat
  uid : Nat
  left : Nat
  delivered : Nat := 0
  refused : Nat := 0
  deriving DecidableEq, Repr

/-- A translation held by a slice (R314): the walk's result for a page and a partition, and whether its leaf maps 32 MiB (R312). -/
structure TransEntry where
  slice : Nat
  part : Nat
  page : Nat
  result : Nat
  big : Bool := false
  deriving DecidableEq, Repr

/-- An answer kept for a request sequence number (R359), by a home slice or, as number 1024, by the launch table. -/
structure SeqAnswer where
  slice : Nat
  core : Nat
  incarnation : BitVec 4
  seq : Nat
  answer : FKind
  /-- Of an agent of the core that is no context of it: its copy unit (R222). -/
  agent : Bool := false
  deriving DecidableEq, Repr

/-- A resource with a reserved turn (R200, R201). -/
inductive Res where
  | mailbox (core : Nat) (prio : Prio)
  | ring (core : Nat) (q : Nat)
  | launchTable (part : Nat)
  | park (slice : Nat)
  | lmPort (core : Nat)
  deriving DecidableEq, Repr

/-- The refused sources of a resource, oldest first, as context ids, the units held for them with the time their hold ends, and the sources that offered within their hold and
found no unit (R200). -/
structure Turns where
  res : Res
  sources : List Nat := []
  holds : List (Nat × Nat) := []
  asked : List Nat := []
  deriving DecidableEq, Repr

/-- What the homes, routers, ports and links hold (R96 to R151). -/
structure Net where
  /-- Requests, answers and messages on their way, oldest first. -/
  flights : List Flight := []
  /-- Requests whose control message was lost (R358). -/
  lost : List Flight := []
  /-- Waiters at LM ports, oldest first. -/
  waiters : List Waiter := []
  /-- Requests that wait for an entry of a job queue or miss table, and by resource whom it served last (R197). -/
  claims : List Claim := []
  served : FMap Nat := []
  /-- Line records, most recently used first (R122, R123). -/
  recs : List LineRec := []
  /-- Memory stamps M by (partition * 2^40 + 1 MiB region) * 1024 + slice (R123, R320), and by partition that of every one not
  listed. -/
  mstamps : FMap Stamp := []
  mwiped : FMap Stamp := []
  /-- Memory stamp of every region of a slice that returned from a reset, by partition * 1024 + slice (R361). -/
  mreturned : FMap Stamp := []
  /-- Latest physical expiry of a sector whose record a slice has evicted, by (partition * 2^52 + sector) * 1024 + slice (R126). -/
  mexpiry : FMap Nat := []
  /-- Phase, writer and lessee of a sector whose record a slice has evicted, by the same key (R119). -/
  mparties : FMap (Nat × Who × Who) := []
  /-- GTR of the last sweep (R132). -/
  sweptAt : Nat := 0
  /-- Dew store lines, most recently used first (R138). -/
  dew : List DewLine := []
  squall : List SquallEntry := []
  gamo : List GamoEntry := []
  gathers : List Gather := []
  nextGather : Nat := 0
  waits : List WaitRec := []
  /-- Ticket words that have a dispenser, with its slice (R209). -/
  dispensers : List (Nat × Nat) := []
  faults : List FaultRec := []
  trans : List TransEntry := []
  /-- Pages to be wiped once no slice holds a translation of them: first address, bytes, and the partition whose memory stamps rise (R315, R324). -/
  unwiped : List (Nat × Nat × Nat) := []
  /-- Of a page not present whose data are kept, by level * 2^56 + the address bits the level has indexed: the leaf of where they stand (R316). -/
  places : FMap Word := []
  /-- GTR until which the steward keeps a page present after it resolved a fault (R350), by page. -/
  kept : FMap Nat := []
  answers : List SeqAnswer := []
  turns : List Turns := []
  /-- PUB of each slice, and the value that a slice is about to publish for the first operation that waits for it (R134). -/
  pub : FMap Stamp := []
  wanted : FMap Stamp := []
  /-- Dies that refuse new transactions: those being reset (R360). -/
  absent : List Nat := []
  /-- Home slices of a die that was reset that have not yet set their memory stamps (R361). -/
  returning : List Nat := []
  deriving DecidableEq, Repr

end Sys2Proof.Machine
end

