-- ==== Sys2Proof/Machine/ModuleState.lean ====
section
/-!
DEFINITION. What the S-die and the dies as wholes hold: partitions, launches and domains (R179 to
R190, R303 to R326), time (R148 to R150), energy (R191 to R194, R369 to R371), bring-up and
management (R372 to R375), the host port (R330 to R338), Zwion links and collectives (R339 to R343)
and Primrose (R326 to R329).
-/
namespace Sys2Proof.Machine

/-- The states of R181, with the order to abort that waits for the steward (R345, R346). -/
inductive LaunchSt where
  | gated
  | open_
  | placed
  | draining
  | aborted
  deriving DecidableEq, Repr

/-- A record of the abort log (R347). -/
structure AbortRec where
  kind : Nat
  noLaunch : Bool := false
  slot : Nat := 0
  tid : Word := 0
  pc : Word := 0
  addr : Word := 0
  val : Word := 0
  gtr : Nat := 0
  deriving DecidableEq, Repr

/-- A footprint of a launch (R212). -/
structure Foot where
  addr : Nat
  off : Nat
  len : Nat
  deriving DecidableEq, Repr

/-- A thread that SPAWN added and that is not placed yet (R83). -/
structure Spawned where
  number : Nat
  entry : Word
  arg : Word
  tid : Word
  lclk : Stamp
  deriving DecidableEq, Repr

/-- A slot of the launch table (R179 to R185, R212). -/
structure Launch where
  part : Nat
  slot : Nat
  st : LaunchSt
  threads : Nat
  nextNumber : Nat := 0
  spawned : List Spawned := []
  /-- Spawned threads that enter at the phase barrier (R84). -/
  due : Nat := 0
  /-- Threads that hold a context. -/
  live : Nat := 0
  entry : Nat
  args : Word
  group : Nat
  gate : Nat
  gateVal : Word
  done : Nat
  domain : Nat
  cache : Nat
  policy : Nat
  near : Nat
  eclass : Nat
  prio : Nat
  foots : List Foot
  parent : Word
  start : Stamp
  clock : Stamp
  vf : Option Nat := none
  entered : Nat
  lastPlaced : Nat
  aged : Bool := false
  waitedFrom : Option Nat := none
  pendingAbort : Option AbortRec := none
  /-- Parked by a forced shrink (R363). -/
  parked : Bool := false
  /-- Completions of copies whose thread had exited (R85). -/
  orphanComps : List Word := []
  /-- Since when the launch waits for its gate word, or for the page of it (R181, R199): none, its gate is to be read; and whether the wait was answered unrecorded. -/
  gateSent : Option Nat := none
  gateUnrecorded : Bool := false
  /-- NUMBERs, from and up to but without, of threads for which MEMBERS of the phase group stood at its greatest value (R184). -/
  uncounted : List (Nat × Nat) := []
  deriving DecidableEq, Repr

/-- The life of a partition: R318, R351. -/
inductive PartSt where
  | running
  | draining (deadline : Nat)
  | saved
  /-- Restored, and waiting for the acknowledgements and results that are fetched first (R355). -/
  | restoring
  /-- Ended, its wipe not completed (R324, R325). -/
  | ended
  deriving DecidableEq, Repr

/-- A region-map entry (R309). -/
structure RegionEntry where
  base : Nat
  log2size : Nat
  hash : Nat
  gran : Nat
  tiles : BitVec 16
  deriving DecidableEq, Repr

/-- A collective slot (R341, R342). -/
structure CollSlot where
  desc : List Word
  /-- Open at this device, and since when; and the clock of its loads. -/
  open_ : Bool := false
  openedAt : Nat := 0
  clock : Stamp := 0
  /-- This rank's contribution has been read and sent. -/
  given : Bool := false
  /-- Rank 0: by chunk, the elements folded so far and the next rank; and chunks of later ranks: rank, chunk, elements. -/
  fold : FMap (List Word) := []
  nextRank : FMap Nat := []
  buffered : List (Nat × Nat × List Word) := []
  flags : BitVec 5 := 0
  withdrawn : Bool := false
  /-- An ending that is decided and not yet written: its code, PEER, flags and result, and the code that the other ranks are told, or 0 where they know already (R342, R365). -/
  due : Option (Nat × Nat × BitVec 5 × List Word × Nat) := none
  /-- When its gate's wait was last sent, and whether it was answered unrecorded (R199, R342). -/
  gateSent : Option Nat := none
  gateUnrecorded : Bool := false
  /-- What this rank has sent of its contribution, by chunk, and the chunks that rank 0 refused, with the time (R201, R342). -/
  kept : List (List Word) := []
  refused : List (Nat × Nat) := []
  /-- Endings that it met itself and that rank 0 has still to tell back (R342). -/
  echo : Nat := 0
  deriving DecidableEq, Repr

/-- A partition (R317, R318). -/
structure Part where
  qx0 : Nat
  qy0 : Nat
  qw : Nat
  qh : Nat
  det : Bool
  tick : Nat
  weight : Nat
  phaseGroup : Nat
  vfs : List Nat
  st : PartSt := .running
  /-- The die reset that pre-empted it (R360). -/
  resetBy : Option Nat := none
  /-- A shrink that waits for its pre-emption: the new rectangle and whether it is forced (R363). -/
  shrink : Option (Nat × Nat × Nat × Nat × Bool) := none
  /-- Launch table, by slot (R179). -/
  launches : FMap Launch := []
  entries : Nat := 0
  /-- Core that spread placement chose last (R188); a new partition has none, and the model starts it at core 0, which the spec leaves open (log 57). -/
  lastSpread : Nat := 0
  regions : FMap RegionEntry := []
  aborts : List AbortRec := []
  /-- Deterministic mode: launches and spawned threads that enter at the phase barrier (R84, R180),
  slots freed in this phase, and the phase number (R117). -/
  phaseLaunches : List (Nat × Launch) := []
  phaseSpawns : List (Nat × Nat × Spawned) := []
  phaseFreed : List Nat := []
  phase : Nat := 0
  /-- Drain deadline, in µs (R351). -/
  drainTime : Nat := 100
  colls : FMap CollSlot := []
  /-- Records of a restore, with their source cores, that come after those fetched first, and the cores restored (R355). -/
  later : List (Nat × Flight) := []
  restored : List Nat := []
  /-- GTR at its last save, by tile (R352). -/
  savedAt : List Nat := []
  /-- Completion entries that wait for room in a VF's queue (R338). -/
  posts : List (Nat × Nat × Nat × Nat) := []
  deriving DecidableEq, Repr

/-- An active protection domain (R304, R306): its partition, its owner (none is the physical
function) and its rights table. -/
structure Domain where
  part : Nat
  owner : Option Nat
  rights : FMap RightsEntry := []
  /-- Cores that have not acknowledged the last change of the table, and the table as of the last change that is complete (R308, R329). -/
  purging : List Nat := []
  shown : FMap RightsEntry := []
  deriving DecidableEq, Repr

/-- One die's clock and GTR replica (R34, R148, R149, R193). -/
structure Die where
  /-- Offset of the replica from the master, in 1/16 ns, what of it is still to be slewed in, the time that has not yet
  earned a unit of slewing, and whether the replica has loaded the master's value (R148). -/
  offset : Int := 0
  slew : Int := 0
  slewTime : Nat := 0
  loaded : Bool := false
  locked : Bool := false
  good : Nat := 0
  missed : Nat := 0
  bound : BitVec 12 := 0xFFF
  lastExchange : Nat := 0
  /-- The cycle count of R34, in 640ths of a cycle: a unit of GTR is 40 of them at 1.00 GHz. -/
  cycle : Nat := 0
  /-- C-die clock, in steps of 25 MHz above 0.50 GHz (R371). -/
  step : Nat := 20
  /-- Its 16 sensors, in 1/16 °C, as last read (R191, R374). -/
  sensors : FMap Nat := []
  clamped : Bool := false
  lastRaise : Nat := 0
  /-- When its clock last might not rise (R193). -/
  hotAt : Nat := 0
  /-- The estimate at which aged work last lowered its clock (R193). -/
  lastAged : Nat := 0
  /-- Incarnation of the die's agents and corrected-error count (R362, R356). -/
  incarnation : BitVec 4 := 0
  /-- It was reset since the module came up: a context that starts on it has at least the floor of R362 in LCLK. -/
  returned : Bool := false
  errors : Nat := 0
  replays : Nat := 0
  /-- Quiesce deadline while the die is being reset (R360). -/
  quiesce : Option Nat := none
  frosted : Bool := false
  deriving DecidableEq, Repr

/-- Isobar's figures for a partition on a tile (R191), in microwatts; what is pending in fortieths of one, since charges scale with the clock's 25 MHz steps (R192). -/
structure Energy where
  target : Int := 0
  estimate : Int := 0
  pending : Int := 0
  deriving DecidableEq, Repr

/-- The life-cycle states of R326. -/
inductive LifeCycle where
  | blank
  | provisioned
  | deployed
  | returned
  deriving DecidableEq, Repr

/-- Bring-up, power and the management mailbox (R368 to R375). -/
structure Mgmt where
  main : Bool := true
  step : BitVec 4 := 1
  error : BitVec 8 := 0
  detail : BitVec 16 := 0
  stopped : Bool := false
  /-- Die of a thermal trip recorded in the standby log (R370). -/
  trip : Option Nat := none
  cap : Nat := 4000
  capNext : Nat := 4000
  busy : Bool := false
  /-- Partition for which a command is in progress (R351), or 2^20 and a domain (R308), or 2^21 and a VF (R364), or 2^22 for a bias flip (R335). -/
  busyPart : Nat := 0
  code : BitVec 7 := 0
  length : BitVec 32 := 0
  mbdata : List Word := []
  lifecycle : LifeCycle := .blank
  ownerKey : BitVec 512 := 0
  vendorRecorded : Bool := false
  wipePending : Bool := false
  /-- A life-cycle transition whose wipe is not complete: the new state and the owner key's digest (R326). -/
  nextLife : Option (LifeCycle × BitVec 512) := none
  minVersion : Nat := 0
  /-- Version and contents of the steward firmware image that was accepted (R327, R329). -/
  fwVersion : Nat := 0
  fwImage : List Byte := []
  /-- 0 none, 1 host PTM, 2 + n Zwion port n (R340). -/
  timeSource : Nat := 0
  ext : Bool := false
  /-- What the master is still to slew in, and its last exchange with the source (R148, R340). -/
  slew : Int := 0
  slewTime : Nat := 0
  lastTime : Nat := 0
  /-- Isobar runs (R372), and when it estimated last (R191). -/
  isobar : Bool := false
  lastEstimate : Nat := 0
  powerEstimate : Nat := 0
  /-- The quiesce deadline of a die reset, in µs: 50 to 10,000 (R360). -/
  quiesceTime : Nat := 200
  /-- What the baseboard controller read last over I3C (R375). -/
  i3cData : List Word := []
  deriving DecidableEq, Repr

/-- MESI states of a host line (R331). -/
inductive Mesi where
  | m
  | e
  | s
  | i
  deriving DecidableEq, Repr

/-- A line of the host-line store (R331 to R334). `pending` is the request sent to the host: 1
RdShared, 2 RdOwn, 3 dirty eviction, 4 ownership without data (R335). -/
structure HostLine where
  hpa : Nat
  va : Nat
  part : Nat
  mesi : Mesi := .i
  seq : BitVec 16 := 0
  expiry : Nat := 0
  pending : Nat := 0
  /-- A snoop held for it: whether it invalidates. -/
  snoop : Option Bool := none
  /-- Bytes kept in the eviction buffer. -/
  evicted : Option (BitVec 512) := none
  deriving DecidableEq, Repr

/-- A virtual function (R323, R337). -/
structure Vf where
  lstat : BitVec 16 := 0
  cqbase : Word := 0
  cqsize : BitVec 4 := 0
  cqhead : BitVec 20 := 0
  cqtail : BitVec 20 := 0
  /-- Entries posted to host memory: index, low and high doubleword. -/
  queue : FMap (Word × Word) := []
  msix : Nat := 0
  errorLog : Nat := 0
  /-- The quiesce deadline while the VF is being reset (R360, R364). -/
  resetAt : Option Nat := none
  deriving DecidableEq, Repr

/-- Data that went to the host: the line, its 64 bytes, and whether they are poisoned (R333 to R335). -/
structure HostAnswer where
  addr : Nat
  data : BitVec 512
  poison : Bool := false
  deriving DecidableEq, Repr

/-- The host port (R330 to R338). -/
structure HostPort where
  lines : List HostLine := []
  /-- 4 KiB pages under host bias, and pages whose flip to it waits (R335). -/
  hostBias : List Nat := []
  flipping : List Nat := []
  /-- The 4 KiB page that BIAS_DEVICE takes back, while the host still gives up its lines (R335). -/
  unbiasing : Option Nat := none
  vfs : FMap Vf := []
  /-- Data sent to the host, newest first. -/
  sent : List HostAnswer := []
  deriving DecidableEq, Repr

/-- A flit of a Zwion class with its sequence number (R339). -/
structure Flit where
  seq : BitVec 12
  cls : BitVec 4
  payload : List Byte
  /-- Type: 0 data, 1 acknowledge only, 2 NAK, 3 busy, 4 time. -/
  kind : BitVec 4 := 0
  /-- Last sequence received in order, as the sender knows it. -/
  ack : BitVec 12 := 0
  deriving DecidableEq, Repr

/-- A Zwion port (R339). -/
structure Zwion where
  lanes : Nat := 8
  /-- Sequence number of the next flit, flits that wait for room in the replay buffer, the buffer, and what has gone out, oldest first. -/
  txSeq : BitVec 12 := 0
  queue : List (BitVec 4 × List Byte) := []
  replay : List Flit := []
  line : List Flit := []
  /-- The flit from which to replay after a busy, and when. -/
  resend : Option (BitVec 12 × Nat) := none
  rxLast : BitVec 12 := 0xFFF
  /-- The flit sent that was answered with NAK last, and how often in a row; and the flit expected that this port answered so. -/
  nakOf : BitVec 12 := 0
  naks : Nat := 0
  sentOf : BitVec 12 := 0
  sentNaks : Nat := 0
  /-- Last answer sent: 1 acknowledge, 2 NAK, 3 busy. -/
  answered : Nat := 0
  received : List Flit := []
  deriving DecidableEq, Repr

/-- The answers of the SPDM responder (R328, R329); `error` with UnsupportedRequest, or with another code. -/
inductive SpdmAnswer where
  | version (v : Nat)
  | capabilities
  | algorithms
  | digests (d : List Byte)
  | certificate (c : List Byte)
  | challengeAuth (signature : List Byte)
  | measurements (blocks : List (Nat × List Byte)) (signature : List Byte)
  | keyExchange (share : List Byte)
  | finished
  | ended
  | ideProgrammed
  | error (unsupported : Bool)
  deriving DecidableEq, Repr

/-- Primrose as SPDM responder towards one function (R328): 1 after the version, 2 the capabilities, 3 the algorithms; a key exchange that waits for FINISH; a
secured session; and the answers it gave, newest first. -/
structure Spdm where
  stage : Nat := 0
  exchanged : Bool := false
  inSession : Bool := false
  answers : List SpdmAnswer := []
  deriving DecidableEq, Repr

/-- Primrose (R326 to R330): sessions by function, 0 the physical one and 1 + n VF n, and the IDE keys by stream. -/
structure Trust where
  sessions : FMap Spdm := []
  ideKeys : List (Nat × BitVec 256) := []
  deriving DecidableEq, Repr

/-- The saved image of one core (R352 to R354): the core, its six contexts by number, its LM, and what was outstanding. -/
structure SavedCore where
  part : Nat
  /-- The core it was saved from: the source of its records (R352, R354). -/
  source : Nat
  core : Core
  ctxs : List Ctx
  /-- LM bytes that are not zero, by offset; words whose full/empty bit is empty, and poisoned words, by offset. -/
  lm : List (Nat × Byte)
  empty : List Nat
  poison : List Nat
  /-- What was outstanding (R354). -/
  replay : List Flight
  gtr : Nat
  /-- Incarnation of the core at the save, and whether the image is of launches that a forced shrink has parked (R352, R363). -/
  incarnation : BitVec 4 := 0
  parked : Bool := false
  /-- Which of its partition's forced shrinks parked it: their launches resume shrink by shrink (R363). -/
  group : Nat := 0
  deriving DecidableEq, Repr

/-- The key of a core's image in its partition's save region (R352). -/
def saveKey (p core : Nat) : Nat := p * 1048576 + core

end Sys2Proof.Machine
end

