-- ==== Sys2Proof/Machine/State.lean ====
section
/-!
DEFINITION. The state of the module: everything the manual gives the part, as plain data, and
the state right after reset.
-/
namespace Sys2Proof.Machine

/-- Memory: the bytes that differ from what an unlisted address reads as, by rising address. Memory
addresses stand as they are, LM bytes at their place in the global LM window (R31). -/
abbrev Memory := List Host.Cell

/-- What a byte of memory or LM that nothing has written reads as: a wipe sets every LM word to zero
and writes HBM pages with zeros (R18, R324). -/
def Memory.unlisted : Byte := 0

/-- Every address of a list is above a bound, and no entry equals what an unlisted address reads as. -/
def Memory.wfFrom (lo : Nat) : Memory → Bool
  | [] => true
  | (a, b) :: m => decide (lo ≤ a) && decide (b ≠ Memory.unlisted) && Memory.wfFrom (a + 1) m

/-- The canonical form of memory: rising addresses, and no entry equal to the unlisted byte. -/
def Memory.wf (m : Memory) : Bool := Memory.wfFrom 0 m

/-- Where a soft error strikes (R356): a word of LM by its offset, a line of a cache region or dew store, the buffer of a router that a flight stands in, a record of a
stamp store, a parked store, a translation, a word of HBM, the registers of a context, or the accumulators of a core. -/
inductive Upset where
  | lmWord (core : Nat) (off : Nat)
  | cacheCopy (core : Nat) (part : Nat) (addr : Nat)
  | dewCopy (x : Nat) (y : Nat) (part : Nat) (addr : Nat)
  | routerBuffer (flight : Nat)
  | lineRecord (slice : Nat) (part : Nat) (addr : Nat)
  | parkedStore (flight : Nat)
  | translation (slice : Nat) (part : Nat) (page : Nat)
  | hbmWord (part : Nat) (addr : Nat)
  | registers (ctx : Nat)
  | accumulators (core : Nat)
  deriving DecidableEq, Repr

/-- What moves next: a core takes an issue turn, an event of the opcode table happens, time
passes (in 1/16 ns), a soft error strikes, corrected or not, or an SPDM request that no row of the table names comes to a function (R328). The agenda is
the model's own input: how the agents of the part and the world outside it interleave. -/
inductive Move where
  | issue (core : Nat)
  | event (e : Instr)
  | tick (n : Nat)
  | upset (u : Upset) (corrected : Bool)
  | otherRequest (fn : Nat)
  /-- An issue turn of a core in which a load or store of LM, a load that its own copy could answer, or a LAUNCH, is sent and performs later (R107, R116, R358). -/
  | issueLate (core : Nat)
  /-- The running matrix job of a core reads an 8-byte word of its operands, or writes one of the words it writes, before it retires (R113, R299). -/
  | jobRead (core : Nat) (word : Nat)
  | jobWrite (core : Nat) (word : Nat)
  /-- A LAUNCH reaches the launch table, or its status its core (R213, R358). -/
  | launchArrive (flight : Nat)
  /-- Management writes one word of MBDATA, reads status over I3C (R373, R375), or orders a parked launch to abort (R363). -/
  | mailboxData (word : Nat) (value : Word)
  | i3cRead
  | abortParked (part : Nat) (slot : Nat)
  /-- A restore goes on, once what was fetched or issued again has come (R355). -/
  | resume (part : Nat)
  deriving DecidableEq, Repr

/-- Why the machine stops. Raised by `step` alone. -/
inductive Fault where
  /-- Raised by `step` when Main is off and nothing on the agenda turns it on: no die runs (R368,
  R370, R375). Safe: no instruction is carried out. -/
  | mainOff
  deriving DecidableEq, Repr

/-- Why an instruction has no meaning here. -/
inductive Refusal where
  /-- Raised by an arm of `exec` for an instruction the model gives no meaning. Safe: nothing is
  carried out. -/
  | notModelled (mnemonic : String)
  deriving DecidableEq, Repr

/-- The state of the module. -/
structure State where
  /-- Bytes of memory and of every LM (R18, R31). -/
  mem : Memory
  /-- LM words whose full/empty bit is empty, by rising global address (R18). -/
  emptied : List Nat
  /-- 8-byte words that carry the poison bit (R357). -/
  poison : List Nat
  /-- Contexts, by core index * 8 + context number (R15, R376). -/
  ctxs : FMap Ctx
  /-- Cores, by core index (R32). -/
  cores : FMap Core
  /-- Homes, routers, ports and what is on its way. -/
  net : Net
  /-- Context that executes. -/
  cur : Nat
  /-- What moves next; empty: the order of `step`. -/
  agenda : List Move
  /-- The master GTR, in 1/16 ns (R35). -/
  gtr : Nat
  /-- Dies: C-dies 0-15, B-dies 16-31, HBM logic dies 32-63, S-die 64 (R4, R11). -/
  dies : FMap Die
  /-- Clusters disabled by fuses, as core index / 8 (R1). -/
  disabled : List Nat
  /-- Partitions, by number (R317). -/
  parts : FMap Part
  /-- Active domains, by id (R304). -/
  domains : FMap Domain
  /-- Page-table entries, by level * 2^56 + the address bits the level has indexed (R312). -/
  pte : FMap Word
  /-- Migration FIFOs of clusters, by cluster: context ids (R198). -/
  migFifo : FMap (List Nat)
  /-- Round-robin pointers of job dispatch, by cluster: matrix engine, copy unit (R197). -/
  rrJobs : FMap (Nat × Nat)
  /-- Isobar, by tile * 16 + partition (R191). -/
  energy : FMap Energy
  mgmt : Mgmt
  host : HostPort
  zwion : FMap Zwion
  trust : Trust
  /-- Saved cores, by partition * 2^20 + core index (R352): each partition has its own save region. -/
  saved : FMap SavedCore
  /-- Next number for a thread or handler run. -/
  nextUid : Nat
  /-- How many free values have been taken. -/
  free : Nat
  /-- What is now issued is sent, where it could perform at once (log 7). -/
  late : Bool
  deriving DecidableEq, Repr

/-- The module right after power-on reset: bring-up stands at step 1 (R372), no partition exists and
every register has its reset value. -/
def State.reset : State where
  mem := []
  emptied := []
  poison := []
  ctxs := []
  cores := []
  net := {}
  cur := 0
  agenda := []
  gtr := 0
  dies := []
  disabled := []
  parts := []
  domains := []
  pte := []
  migFifo := []
  rrJobs := []
  energy := []
  mgmt := {}
  host := {}
  zwion := []
  trust := {}
  saved := []
  nextUid := 1
  free := 0
  late := false

end Sys2Proof.Machine
end

