-- ==== Sys2Proof/Machine/Topology.lean ====
section
/-!
DEFINITION. Where things are (R10 to R12, R22, R30 to R33, R137) and what time it is (R34 to R36, R89, R127, R131,
R133, R149). Cores, clusters, tiles, slices and dies go by number.
-/
namespace Sys2Proof.Machine

/-! ### Cores, clusters, tiles -/

/-- Number of core indices of the module (R32). -/
def coreCount : Nat := 1048576

/-- Core that holds a context (R376: context ids are core index * 8 + number). -/
def coreOf (ctx : Nat) : Nat := ctx / 8

/-- Number of a context on its core: 0 to 3 threads, 4 low handler, 5 high handler (R376). -/
def numberOf (ctx : Nat) : Nat := ctx % 8

/-- Handler contexts (R25). -/
def isHandler (ctx : Nat) : Bool := decide (4 ≤ numberOf ctx)

/-- Cluster of a core (R32). -/
def clusterOf (core : Nat) : Nat := core / 8

/-- Tile of a core, which is also its C-die (R32). -/
def tileOf (core : Nat) : Nat := core / 65536

/-- W-core of the cluster of a core (R14). -/
def wCoreOf (core : Nat) : Nat := core / 8 * 8 + 7

/-- Whether a core is the W-core of its cluster (R14). -/
def isWCore (core : Nat) : Bool := core % 8 == 7

/-- Global X of the router of a core's cluster (R10, R32). -/
def routerX (core : Nat) : Nat := core / 65536 % 4 * 128 + core / 512 % 128

/-- Global Y of the router of a core's cluster (R10, R32). -/
def routerY (core : Nat) : Nat := core / 262144 * 64 + core / 8 % 64

/-- Core index of core n of the cluster whose router stands at (x, y) (R10, R32). -/
def coreAt (x y n : Nat) : Nat :=
  y / 64 * 262144 + x / 128 * 65536 + x % 128 * 512 + y % 64 * 8 + n

/-- Home slices are numbered tile * 64 + slice of the tile (R12). -/
def sliceTile (slice : Nat) : Nat := slice / 64

/-- Global X of the elevator router of a slice (R12). -/
def elevatorX (slice : Nat) : Nat := slice / 64 % 4 * 128 + slice % 8 * 16 + 8

/-- Global Y of the elevator router of a slice (R12). -/
def elevatorY (slice : Nat) : Nat := slice / 256 * 64 + slice % 64 / 8 * 8 + 4

/-- B-die of a slice (dies: C-dies 0-15, B-dies 16-31, HBM logic dies 32-63, S-die 64; R11). -/
def sliceDie (slice : Nat) : Nat := 16 + slice / 64

/-- The S-die (R11). -/
def sDie : Nat := 64

/-- Whether a core's cluster is enabled (R1). -/
def State.enabled (s : State) (core : Nat) : Bool :=
  decide (core < coreCount) && !(s.disabled.contains (clusterOf core))

/-! ### Paths on the router grid (R137) -/

/-- Numbers from a to b, both included, rising or falling. -/
def stepsBetween (a b : Nat) : List Nat :=
  if a ≤ b then (List.range (b - a + 1)).map (a + ·) else (List.range (a - b + 1)).map (a - ·)

/-- Routers from (x, y) to (hx, hy), X first or Y first, both ends included (R137). -/
def pathBetween (yFirst : Bool) (x y hx hy : Nat) : List (Nat × Nat) :=
  if yFirst then (stepsBetween y hy).map (fun j => (x, j)) ++ ((stepsBetween x hx).drop 1).map (fun i => (i, hy))
  else (stepsBetween x hx).map (fun i => (i, y)) ++ ((stepsBetween y hy).drop 1).map (fun j => (hx, j))

/-- Path of a request of route class rc from a core to a slice: YX for wide, XY for the others (R137). -/
def requestPath (rc core slice : Nat) : List (Nat × Nat) :=
  pathBetween (rc == 1) (routerX core) (routerY core) (elevatorX slice) (elevatorY slice)

/-- Router steps between two routers (R188). -/
def gridSteps (x y hx hy : Nat) : Nat := (x - hx) + (hx - x) + ((y - hy) + (hy - y))

/-! ### The address space (R30, R31) -/

/-- First address above memory: the self window (R31). -/
def selfBase : Nat := 0x00FE000000000000

/-- First address of the global LM window (R31). -/
def globalBase : Nat := 0x00FF000000000000

/-- Bytes of one LM (R18). -/
def lmSize : Nat := 0x6000

/-- Where an LM byte stands in the state's memory: its global address (R31). -/
def lmAddr (core off : Nat) : Nat := globalBase + core * 0x8000 + off

/-- What an address names (R30, R31): memory, an LM byte, or nothing. -/
inductive Place where
  | memory
  | lm (core : Nat) (off : Nat)
  | unmapped
  deriving DecidableEq, Repr

/-- Classifies an address; `home` is the core whose LM the self window shows (R31). -/
def placeOf (home : Nat) (a : Word) : Place :=
  let n := a.toNat
  if n < selfBase then .memory
  else if n < selfBase + lmSize then .lm home (n - selfBase)
  else if n < globalBase then .unmapped
  else if n < globalBase + 0x800000000 then
    if (n - globalBase) % 0x8000 < lmSize then .lm ((n - globalBase) / 0x8000) ((n - globalBase) % 0x8000)
    else .unmapped
  else .unmapped

/-! ### Stamps (R89, R96) -/

/-- Later(x, y) modulo 2^40 (R89). -/
def later (x y : Stamp) : Bool := decide (1 ≤ (x - y).toNat) && decide ((x - y).toNat < 2 ^ 39)

/-- The later of two stamps (R96). -/
def maxStamp (x y : Stamp) : Stamp := if later y x then y else x

/-- The earlier of two stamps (R124). -/
def minStamp (x y : Stamp) : Stamp := if later x y then y else x

/-! ### Time (R34 to R36, R127, R148) -/

/-- A die (R11). -/
def State.die (s : State) (d : Nat) : Die := s.dies.getD d {}

/-- BOUND of a die (R149): 0x040 while it is locked, else what its last exchange found, and never less than the replica's distance from the master. -/
def Die.boundNow (d : Die) : Nat := Nat.min 0xFFF (Nat.max d.bound.toNat d.offset.natAbs)

/-- The GTR replica of a die, modulo 2^64 (R35). -/
def State.gtrOf (s : State) (d : Nat) : Nat :=
  (((s.gtr : Int) + (s.die d).offset) % (2 ^ 64 : Int)).toNat

/-- A partition (R317); of a number that names none, an empty one. -/
def State.part? (s : State) (p : Nat) : Option Part := s.parts.get p

/-- Whether a partition runs: it is neither draining nor saved (R351). -/
def State.partRuns (s : State) (p : Nat) : Bool :=
  match s.parts.get p with
  | some q => q.st == .running
  | none => true

/-- log2 of a partition's drift tick in units of GTR (R127); the default tick for no partition. -/
def State.tickLog (s : State) (p : Nat) : Nat :=
  match s.parts.get p with
  | some q => 9 + q.tick
  | none => 11

/-- The logical floor of a partition on a die: LF = GTR divided by the drift tick (R36, R127). -/
def State.lf (s : State) (p d : Nat) : Stamp :=
  BitVec.ofNat 40 (s.gtrOf d / 2 ^ s.tickLog p)

/-- The stamp horizon LF + 2^32 (R131). -/
def State.horizon (s : State) (p d : Nat) : Stamp := s.lf p d + 4294967296

/-- Deterministic partitions (R77, R117). -/
def State.isDet (s : State) (p : Nat) : Bool :=
  match s.parts.get p with
  | some q => q.det
  | none => false

/-- What a context that starts on a returned die has at least in LCLK: the latest PUB that any slice has published by then, plus 2^20 + 1 (R362). -/
def State.pubFloor (s : State) : Stamp :=
  match s.net.pub.map Prod.snd with
  | [] => 1048577
  | x :: xs => xs.foldl maxStamp x + 1048577

/-- LCLK of a context that starts on a core: on a die that was reset, at least the floor of R362. -/
def State.startClock (s : State) (core : Nat) (v : Stamp) : Stamp := if (s.die (tileOf core)).returned then maxStamp s.pubFloor v else v

/-- One microsecond in units of GTR (R35). -/
def microsecond : Nat := 16000

end Sys2Proof.Machine
end

