-- ==== Sys2Proof/Machine/Turns.lean ====
section
/-!
DEFINITION. Refusal and the reserved turn (R200, R201).
-/
namespace Sys2Proof.Machine

/-- The die whose GTR times a resource's holds. -/
def Res.die : Res → Nat
  | .mailbox c _ => tileOf c
  | .ring c _ => tileOf c
  | .launchTable _ => sDie
  | .park sl => sliceDie sl
  | .lmPort c => tileOf c

/-- A hold lasts 4 µs (R200). -/
def holdTime : Nat := 4 * microsecond

/-- The reserved-turn list of a resource. -/
def State.turnsOf (s : State) (r : Res) : Turns :=
  (s.net.turns.find? fun t => decide (t.res = r)).getD { res := r }

/-- Replaces the reserved-turn list of a resource; one with no source is not kept. -/
def State.setTurns (s : State) (t : Turns) : State :=
  let ts := s.net.turns
  let next :=
    if t.sources = [] then ts.filter fun u => decide (u.res ≠ t.res)
    else if ts.any (fun u => decide (u.res = t.res)) then ts.map fun u => if u.res = t.res then t else u
    else ts ++ [t]
  { s with net := { s.net with turns := next } }

/-- Holds a unit for the earliest source that has none, until a time (R200). -/
def Turns.holdNext (t : Turns) (ends : Nat) : Turns :=
  match t.sources.find? fun x => !(t.holds.any fun h => h.1 == x) with
  | some x => { t with holds := t.holds ++ [(x, ends)] }
  | none => t

/-- A source leaves the list: it was accepted, or did not offer within its hold. -/
def Turns.without (t : Turns) (src : Nat) : Turns :=
  { t with sources := t.sources.filter (· != src), holds := t.holds.filter (fun h => h.1 != src), asked := t.asked.filter (· != src) }

/-- One hold that has lapsed: the record of a source that did not offer within it is dropped, and the unit is held for the next (R200). A source that did offer, and found
the unit taken back (R196, R349), keeps its record, as R226 says, and is held for anew; that it is, the spec does not say (log 63). -/
def Turns.lapse (now : Nat) (t : Turns) : Turns :=
  match t.holds.find? fun h => decide (h.2 ≤ now) with
  | some h =>
    if t.asked.contains h.1 then
      { t with asked := t.asked.filter (· != h.1), holds := t.holds.map fun x => if x.1 = h.1 then (h.1, h.2 + holdTime) else x }
    else (t.without h.1).holdNext (h.2 + holdTime)
  | none => t

/-- Every hold that has lapsed, one after another; each drops a source, or one that has offered. -/
def Turns.settle (now : Nat) : Nat → Turns → Turns
  | 0, t => t
  | k + 1, t => Turns.settle now k (t.lapse now)

/-- The list of a resource as it stands now. -/
def State.settled (s : State) (r : Res) : Turns :=
  let t := s.turnsOf r
  t.settle (s.gtrOf r.die) (2 * t.sources.length + 1)

/-- Offers a request of a source to a resource with `units` free units (R200): it is accepted when a unit is free and held for it or
more units are free than are held; a refused source is recorded while the list has fewer than 16, and where it was held for, that it offered. -/
def State.offer (s : State) (r : Res) (src units : Nat) : Bool × State :=
  let t := s.settled r
  if t.holds.any (fun h => h.1 == src) && decide (0 < units) || decide (t.holds.length < units) then
    (true, s.setTurns (t.without src))
  else
    (false, s.setTurns (if t.holds.any fun h => h.1 == src then { t with asked := src :: t.asked.filter (· != src) }
      else if t.sources.contains src || decide (16 ≤ t.sources.length) then t
      else { t with sources := t.sources ++ [src] }))

/-- A unit of a resource frees: it is held for 4 µs for the earliest source without one (R200). -/
def State.unitFreed (s : State) (r : Res) : State :=
  s.setTurns ((s.settled r).holdNext (s.gtrOf r.die + holdTime))

/-- Units that free at once (R196). -/
def State.unitsFreed (s : State) (r : Res) : Nat → State
  | 0 => s
  | n + 1 => State.unitsFreed (s.unitFreed r) r n

end Sys2Proof.Machine
end

