-- ==== Sys2Proof/Machine/Ops.lean ====
section
/-!
DEFINITION. The named operations that every meaning is written over: bytes of memory and LM (R18, R110, R116, R357),
contexts and their registers (R26, R41), retiring an instruction (R73), taking an exception and returning from
one (R90, R92, R344, R345).
-/
namespace Sys2Proof.Machine

/-- What a meaning answers. -/
abbrev Answer := Host.Outcome State Fault Refusal

/-! ### Bytes of memory -/

/-- The byte at an address. -/
def Memory.read : Memory → Nat → Byte
  | [], _ => Memory.unlisted
  | (a, b) :: m, x => if x = a then b else Memory.read m x

/-- Writes a byte; the canonical form is kept, so writing the unlisted byte takes the entry out. -/
def Memory.write : Memory → Nat → Byte → Memory
  | [], x, v => if v = Memory.unlisted then [] else [(x, v)]
  | (a, b) :: m, x, v =>
    if x < a then (if v = Memory.unlisted then (a, b) :: m else (x, v) :: (a, b) :: m)
    else if x = a then (if v = Memory.unlisted then m else (x, v) :: m)
    else (a, b) :: Memory.write m x v

/-- The little-endian number in `n` bytes from an address (R5). -/
def Memory.readNat (m : Memory) (x : Nat) : Nat → Nat
  | 0 => 0
  | n + 1 => (m.read x).toNat + 256 * Memory.readNat m (x + 1) n

/-- Writes a number as `n` little-endian bytes (R5). -/
def Memory.writeNat (m : Memory) (x : Nat) : Nat → Nat → Memory
  | 0, _ => m
  | n + 1, v => Memory.writeNat (m.write x (BitVec.ofNat 8 v)) (x + 1) n (v / 256)

/-- Takes out every byte of [lo, lo + n): they read as wiped (R324). -/
def Memory.wipe (m : Memory) (lo n : Nat) : Memory :=
  m.filter fun c => decide (c.1 < lo) || decide (lo + n ≤ c.1)

/-! ### Contexts and cores -/

/-- A context by id; one that nothing has touched reads as free. -/
def State.ctx (s : State) (id : Nat) : Ctx := s.ctxs.getD id {}

/-- Replaces a context. -/
def State.setCtx (s : State) (id : Nat) (c : Ctx) : State := { s with ctxs := s.ctxs.set id c }

/-- Changes a context. -/
def State.onCtx (s : State) (id : Nat) (f : Ctx → Ctx) : State := s.setCtx id (f (s.ctx id))

/-- A core by index. -/
def State.core (s : State) (i : Nat) : Core := s.cores.getD i {}

/-- Replaces a core. -/
def State.setCore (s : State) (i : Nat) (c : Core) : State := { s with cores := s.cores.set i c }

/-- Changes a core. -/
def State.onCore (s : State) (i : Nat) (f : Core → Core) : State := s.setCore i (f (s.core i))

/-- The context that executes. -/
def State.here (s : State) : Ctx := s.ctx s.cur

/-- Changes the context that executes. -/
def State.onHere (s : State) (f : Ctx → Ctx) : State := s.onCtx s.cur f

/-- The core that executes. -/
def State.execCore (s : State) : Nat := coreOf s.cur

/-- Whether the executing context is a handler (R25). -/
def State.inHandler (s : State) : Bool := isHandler s.cur

/-- The core whose LM, rings and per-core registers a context reaches: a thread's home core, a handler's
executing core (R23, R31, R77). -/
def State.homeOf (s : State) (id : Nat) : Nat := if isHandler id then coreOf id else (s.ctx id).home

/-- The home core of the executing context. -/
def State.homeCore (s : State) : Nat := s.homeOf s.cur

/-- Partition number of a context (R77). -/
def Ctx.partNo (c : Ctx) : Nat := c.cr.part.toNat % 16

/-- Changes a context's control registers. -/
def Ctx.onCr (c : Ctx) (f : CtxCr → CtxCr) : Ctx := { c with cr := f c.cr }

/-- Whether the executing context belongs to a deterministic partition: PART[4] (R77, R117). -/
def State.detHere (s : State) : Bool := decide (16 ≤ s.here.cr.part.toNat)

/-- The logical floor for a context (R127). -/
def State.lfOf (s : State) (id : Nat) : Stamp := s.lf (s.ctx id).partNo (tileOf (coreOf id))

/-- LCLK of a context after drift (R127). -/
def State.lclkOf (s : State) (id : Nat) : Stamp := maxStamp (s.ctx id).cr.lclk (s.lfOf id)

/-- Whether a load of a context is on its way. -/
def State.loadsOut (s : State) (id : Nat) : Bool :=
  (s.net.flights ++ s.net.lost).any fun f => f.ctx == id && f.uid == (s.ctx id).uid && match f.kind with
    | .load _ => true
    | _ => false

/-- The values that LCLK has held, once it rises to a stamp: while loads are on their way those up to now are kept (R98). -/
def State.clocksAt (s : State) (id : Nat) (v : Stamp) : List (Nat × Stamp × Stamp) :=
  let c := s.ctx id
  if maxStamp (s.lclkOf id) v = c.cr.lclk then c.clocks
  else if s.loadsOut id then c.clocks ++ [((s.core (coreOf id)).reqSeq, c.cr.lclk, s.lclkOf id)]
  else []

/-- Raises a context's LCLK to a stamp, after drift (R97, R127). -/
def State.raiseLclk (s : State) (id : Nat) (v : Stamp) : State :=
  s.onCtx id fun c => { c with clocks := s.clocksAt id v, cr := { c.cr with lclk := maxStamp (s.lclkOf id) v } }

/-! ### Registers of a context (R26, R41) -/

/-- Reads a g register; g0 reads as zero. -/
def Ctx.rdG (c : Ctx) (n : Nat) : Word := if n = 0 then 0 else c.g.getD n 0

/-- Writes a g register; a write to g0 is discarded. -/
def Ctx.wrG (c : Ctx) (n : Nat) (v : Word) : Ctx := if n = 0 then c else { c with g := c.g.set n v }

/-- Reads an f register. -/
def Ctx.rdF (c : Ctx) (n : Nat) : Word := c.f.getD n 0

/-- Writes an f register. -/
def Ctx.wrF (c : Ctx) (n : Nat) (v : Word) : Ctx := { c with f := c.f.set n v }

/-- Reads a v register. -/
def Ctx.rdV (c : Ctx) (n : Nat) : Quad := c.v.getD n 0

/-- Writes a v register. -/
def Ctx.wrV (c : Ctx) (n : Nat) (v : Quad) : Ctx := { c with v := c.v.set n v }

/-- Reads a k register; k0 reads as all ones. -/
def Ctx.rdK (c : Ctx) (n : Nat) : BitVec 16 := if n = 0 then 0xFFFF else c.k.getD n 0

/-- Writes a k register; k0 is never a destination (R41). -/
def Ctx.wrK (c : Ctx) (n : Nat) (v : BitVec 16) : Ctx := if n = 0 then c else { c with k := c.k.set n v }

/-- Reads a g register of the executing context. -/
def State.rdG (s : State) (r : Reg) : Word := s.here.rdG r.toNat

/-- Writes a g register of the executing context. -/
def State.wrG (s : State) (r : Reg) (v : Word) : State := s.onHere fun c => c.wrG r.toNat v

/-- Reads an f register of the executing context. -/
def State.rdF (s : State) (r : Reg) : Word := s.here.rdF r.toNat

/-- Writes an f register of the executing context. -/
def State.wrF (s : State) (r : Reg) (v : Word) : State := s.onHere fun c => c.wrF r.toNat v

/-- Reads a v register of the executing context. -/
def State.rdV (s : State) (r : Reg) : Quad := s.here.rdV r.toNat

/-- Writes a v register of the executing context. -/
def State.wrV (s : State) (r : Reg) (v : Quad) : State := s.onHere fun c => c.wrV r.toNat v

/-- Reads a k register of the executing context. -/
def State.rdK (s : State) (n : Nat) : BitVec 16 := s.here.rdK n

/-- Writes a k register of the executing context. -/
def State.wrK (s : State) (n : Nat) (v : BitVec 16) : State := s.onHere fun c => c.wrK n v

/-! ### Local memory (R18, R110, R116, R357) -/

/-- The 8-byte word that holds an address. -/
def wordOf (a : Nat) : Nat := a / 8 * 8

/-- Full/empty bit of an LM word, by global address (R18). -/
def State.full (s : State) (a : Nat) : Bool := !(s.emptied.contains (wordOf a))

/-- Puts a number into a rising list. -/
def insertRising : List Nat → Nat → List Nat
  | [], x => [x]
  | y :: ys, x => if x < y then x :: y :: ys else if x = y then y :: ys else y :: insertRising ys x

/-- Sets the full/empty bit of an LM word (R18). -/
def State.setFull (s : State) (a : Nat) (full : Bool) : State :=
  { s with emptied := if full then s.emptied.filter (· != wordOf a) else insertRising s.emptied (wordOf a) }

/-- Whether any of the words of [a, a + n) carries poison (R357). -/
def State.poisoned (s : State) (a n : Nat) : Bool :=
  s.poison.any fun w => decide (wordOf a ≤ w) && decide (w < a + n)

/-- Sets or clears the poison bit of an 8-byte word (R357). -/
def State.setPoison (s : State) (a : Nat) (on : Bool) : State :=
  { s with poison := if on then insertRising s.poison (wordOf a) else s.poison.filter (· != wordOf a) }

/-- A store that covers all 8 bytes of a word clears its poison; a narrower one leaves it (R357). -/
def State.unpoison (s : State) (a n : Nat) : State :=
  { s with poison := s.poison.filter fun w => !(decide (a ≤ w) && decide (w + 8 ≤ a + n)) }

/-- Writes a number as bytes of memory or LM (R5), clearing the poison of words it covers. -/
def State.writeMem (s : State) (a n v : Nat) : State :=
  State.unpoison { s with mem := s.mem.writeNat a n v } a n

/-- The fetch buffer drops the first word that a write of [off, off + n) touches and every word after it (R116). -/
def keepFetched (off n : Nat) : List (Nat × IWord) → List (Nat × IWord)
  | [] => []
  | (o, w) :: rest => if o < off + n ∧ off < o + 4 then [] else (o, w) :: keepFetched off n rest

/-- Discards what a core's fetch buffer holds of a range of its LM (R116). -/
def Core.dropFetched (c : Core) (off n : Nat) : Core := { c with fetch := keepFetched off n c.fetch }

/-- One write at an LM port: `n` bytes at an offset of a core (R110, R116). -/
def State.lmWrite (s : State) (core off n v : Nat) : State :=
  (s.writeMem (lmAddr core off) n v).onCore core fun c => c.dropFetched off n

/-- Reads `n` bytes at an offset of a core's LM. -/
def State.lmRead (s : State) (core off n : Nat) : Nat := s.mem.readNat (lmAddr core off) n

/-- Where the cache region of a core begins: 0x6000 − c (R19). -/
def Core.scratchEnd (c : Core) : Nat := lmSize - c.cacheSize * 0x1000

/-- Whether [off, off + n) lies in the scratch of a core (R19). -/
def Core.inScratch (c : Core) (off n : Nat) : Bool :=
  decide (0x400 ≤ off) && decide (off + n ≤ c.scratchEnd)

/-! ### Partitions, launches and the abort log (R179, R345 to R347) -/

/-- Changes a partition that exists. -/
def State.onPart (s : State) (p : Nat) (f : Part → Part) : State :=
  match s.parts.get p with
  | some q => { s with parts := s.parts.set p (f q) }
  | none => s

/-- A launch by partition and slot (R179). -/
def State.launch? (s : State) (p slot : Nat) : Option Launch :=
  match s.parts.get p with
  | some q => q.launches.get slot
  | none => none

/-- Changes a launch of a partition that exists. -/
def Part.onLaunch (q : Part) (slot : Nat) (f : Launch → Launch) : Part :=
  match q.launches.get slot with
  | some l => { q with launches := q.launches.set slot (f l) }
  | none => q

/-- Changes a launch that exists. -/
def State.onLaunch (s : State) (p slot : Nat) (f : Launch → Launch) : State :=
  s.onPart p fun q => q.onLaunch slot f

/-- Orders the abort of a launch: it is Aborted from now on and waits for its steward (R181, R346); a launch already
ordered to abort keeps its first record. -/
def Launch.orderAbort (l : Launch) (r : AbortRec) : Launch :=
  { l with st := .aborted, pendingAbort := some (l.pendingAbort.getD r) }

/-- Orders the abort of the launch in a slot (R346): its record holds the steward's GTR of this moment (R347). Which steward's the spec does not say; the model takes the S-die's
(log 63). -/
def State.orderAbort (s : State) (p slot : Nat) (r : AbortRec) : State :=
  s.onLaunch p slot fun l => l.orderAbort { r with slot := slot, gtr := s.gtrOf sDie }

/-- Adds a record to a partition's abort log, which keeps the newest 64 (R347); one without a launch gets the steward's GTR, the
S-die's as above (log 63). -/
def State.logAbort (s : State) (p : Nat) (r : AbortRec) : State :=
  s.onPart p fun q => { q with aborts := ((if r.noLaunch then { r with gtr := s.gtrOf sDie } else r) :: q.aborts).take 64 }

/-- Frees a mailbox slot of a priority (R195, R218). -/
def Core.freeSlot (c : Core) (high : Bool) (slot : Nat) : Core :=
  if high then { c with boxHi := c.boxHi.del slot, orderHi := c.orderHi.filter (· != slot) }
  else { c with boxLo := c.boxLo.del slot, orderLo := c.orderLo.filter (· != slot) }

/-- Contexts of a core that take the thread turns owed before the next handler starts (R195). -/
def State.readyThreads (s : State) (core : Nat) : List Nat :=
  ([0, 1, 2, 3] : List Nat).filter fun n => (s.ctx (core * 8 + n)).st = .ready

/-- Whether a handler context of a core is active: it has started and not returned (R25). -/
def State.handlerActive (s : State) (core : Nat) : Bool :=
  (s.ctx (core * 8 + 4)).st != .free || (s.ctx (core * 8 + 5)).st != .free

/-- Whether a handler context holds its core's issue slot: started, not returned and not waiting for a page (R25, R349). -/
def State.active (s : State) (id : Nat) : Bool := (s.ctx id).st != .free && (s.ctx id).st != .faultWaiting

/-- Whether a context is suspended now: a low handler that a high one suspended, but for the time that the high one waits for a page (R195, R349). -/
def State.isSuspended (s : State) (id : Nat) : Bool := (s.ctx id).suspended && s.active (coreOf id * 8 + 5)

/-- Whether the thread turns owed after an HRET have been taken (R195): no owed context is still ready. -/
def State.turnsTaken (s : State) (core : Nat) : Bool := (s.core core).owed.all fun n => (s.ctx (core * 8 + n)).st != .ready

/-- Ends a handler context (R195, R196, R218, R345): it is dormant and its mailbox slot frees; a low handler that a high one suspended
goes on; with no handler left active, each ready thread is owed a turn. -/
def State.endHandler (s : State) (id : Nat) : State :=
  let core := coreOf id
  let high := numberOf id == 5
  let slot := (s.ctx id).slot
  let s := (s.onCore core fun k => k.freeSlot high slot).setCtx id {}
  let s := if slot < (s.core core).mboxd.toNat then s.unitFreed (.mailbox core (if high then .hi else .lo)) else s
  let s := if high then s.onCtx (core * 8 + 4) fun c => { c with suspended := false } else s
  if s.active (core * 8 + 4) || s.active (core * 8 + 5) then s else s.onCore core fun k => { k with owed := s.readyThreads core }

/-- Charges a failure to a context (R345): its launch is ordered to abort; a handler charged to no launch is stopped,
and the abort log gets a record with NL = 1. -/
def State.chargeFailure (s : State) (id : Nat) (r : AbortRec) : State :=
  let c := s.ctx id
  match c.launch with
  | some slot => (s.onCtx id fun c => { c with st := .stopped }).orderAbort c.partNo slot r
  | none =>
    if isHandler id then (s.endHandler id).logAbort c.partNo { r with noLaunch := true, slot := 0 }
    else s.onCtx id fun c => { c with st := .stopped }

/-! ### Isobar's charges (R192) -/

/-- Isobar's figures changed at a key. -/
def State.onEnergy (s : State) (key : Nat) (f : Energy → Energy) : State := { s with energy := s.energy.set key (f (s.energy.getD key {})) }

/-- The charge of work that a partition's tile admits now: in fortieths of a microwatt, at the clock of the tile's C-die. -/
def State.chargeOf (s : State) (p tile microwatts : Nat) : Charge :=
  { key := tile * 16 + p, amount := microwatts * (20 + (s.die tile).step), since := s.mgmt.lastEstimate }

/-- Admission puts the charge into pending (R192). -/
def State.takeCharge (s : State) (c : Charge) : State := s.onEnergy c.key fun e => { e with pending := e.pending + c.amount }

/-- A charge applies until its work ends (R192): while it still counts as pending it is taken back. -/
def State.lift (s : State) (c : Option Charge) : State :=
  match c with
  | some c => if c.since = s.mgmt.lastEstimate then s.onEnergy c.key fun e => { e with pending := e.pending - c.amount } else s
  | none => s

/-! ### Retiring an instruction -/

/-- The count of R73 after an instruction has retired: a W word resets it; on the W-core every other one adds 1 for
a thread that migrated, and it stays at 256. -/
def Ctx.countRetired (c : Ctx) (w : Bool) : Ctx :=
  if w then { c with migCount := 0 }
  else if c.migrated then { c with migCount := Nat.min (c.migCount + 1) 256 } else c

/-- Retires an instruction: PC goes to a target (R73, R75). -/
def Ctx.retireAt (c : Ctx) (w : Bool) (target : Word) : Ctx := { c.countRetired w with pc := target }

/-- Retires the executing instruction, which is not a W word; the next is at PC + 4 (R37). -/
def State.retire (s : State) : State := s.onHere fun c => c.retireAt false (c.pc + 4)

/-- Retires the executing instruction, which is a W word (R73). -/
def State.retireW (s : State) : State := s.onHere fun c => c.retireAt true (c.pc + 4)

/-- Retires the executing instruction with the next one at a target (R75). -/
def State.retireTo (s : State) (target : Word) : State := s.onHere fun c => c.retireAt false target

/-- Writes g[d] and retires: the shape of every instruction with one g result. -/
def State.finishG (s : State) (d : Reg) (v : Word) : State := (s.wrG d v).retire

/-! ### Exceptions -/

/-- Numbers of the causes (R60). -/
def Cause.code : Cause → BitVec 8
  | .illegal => 1
  | .extMissing => 2
  | .misalign => 3
  | .prot => 4
  | .page => 5
  | .unmapped => 6
  | .fpe => 7
  | .race => 8
  | .detForbid => 9
  | .ringFault => 10
  | .msgFault => 11
  | .hOverrun => 12
  | .mCheck => 13
  | .brk => 14
  | .xFault => 15

/-- TRAPCAUSE.NEST (R90). -/
def Ctx.nested (c : Ctx) : Bool := c.cr.trapcause.getLsbD 8

/-- Whether a trap of a context is vectored (R90, R345). -/
def State.vectored (s : State) (id : Nat) : Bool :=
  !(isHandler id) && !(s.ctx id).nested && (s.ctx id).cr.trapvec != 0

/-- The vectored entry of R90: TRAPPC, TRAPADDR, TRAPVAL and TRAPCAUSE are written and PC becomes TRAPVEC; the spin
table is cleared (R130). -/
def Ctx.enterTrap (c : Ctx) (cause : Cause) (addr val ret : Word) : Ctx :=
  { c with
    pc := c.cr.trapvec
    spin := []
    cr := { c.cr with
      trappc := ret, trapaddr := addr, trapval := val
      trapcause := BitVec.append (1 : BitVec 2) cause.code } }

/-- Whether a load or LEASE of a context is still to be answered, one of g0, which nothing awaits, among them (R344, R348). -/
def State.answersOut (s : State) (id : Nat) : Bool :=
  (s.net.flights ++ s.net.lost).any fun f => f.ctx == id && f.uid == (s.ctx id).uid && match f.kind with
    | .load q => q.fmt != .pref
    | .loadReply q _ => q.fmt != .pref
    | _ => false

/-- Takes a precise trap of a context (R90, R344, R345). It waits until every load before it has completed and every result still to come to the context
has been written (R344, R348). A vectored trap enters at TRAPVEC; otherwise the context stops and the failure is charged. -/
def State.trapOf (s : State) (id : Nat) (cause : Cause) (addr val ret : Word) : State :=
  let c := s.ctx id
  if c.pend != [] || s.answersOut id then s
  else if s.vectored id then s.setCtx id (c.enterTrap cause addr val ret)
  else s.chargeFailure id
    { kind := cause.code.toNat, tid := c.cr.tid, pc := ret, addr := addr, val := val }

/-- A trap that an access of a context has met (R119, R344): taken at once, or before its next instruction, once every result still to come has
been written. -/
def State.trapLater (s : State) (id : Nat) (cause : Cause) (addr val ret : Word) : State :=
  if (s.ctx id).pend = [] ∧ s.answersOut id = false then s.trapOf id cause addr val ret
  else s.onCtx id fun c => { c with due := some { cause := cause, addr := addr, val := val, ret := ret } }

/-- Takes the trap that is due (R344). -/
def State.takeDue (s : State) (id : Nat) (t : DueTrap) : State :=
  (s.onCtx id fun c => { c with due := none }).trapOf id t.cause t.addr t.val t.ret

/-- Takes a trap of the executing context at the executing instruction: TRAPPC is PC (R90). -/
def State.trap (s : State) (cause : Cause) (addr val : Word) : State :=
  s.trapOf s.cur cause addr val s.here.pc

/-- The word of an instruction, zero-extended, as TRAPVAL records it (R42, R344). -/
def instrWord (i : Instr) : Word := BitVec.ofNat 64 (encode i)

/-- ILLEGAL at the executing instruction (R42): TRAPADDR is PC and TRAPVAL the word. -/
def State.illegal (s : State) (i : Instr) : State := s.trap .illegal s.here.pc (instrWord i)

/-- DETFORBID at the executing instruction (R344). -/
def State.detForbid (s : State) (i : Instr) : State := s.trap .detForbid s.here.pc (instrWord i)

/-- Machine check of a context: never vectored, charged to its launch (R345, R357). -/
def State.machineCheck (s : State) (id : Nat) (addr : Word) : State :=
  s.chargeFailure id { kind := 13, tid := (s.ctx id).cr.tid, pc := (s.ctx id).pc, addr := addr }

/-- The return of R92: PC is TRAPPC, NEST and INT are cleared and CODE is kept. -/
def Ctx.leaveTrap (c : Ctx) : Ctx :=
  { c with
    pc := c.cr.trappc
    cr := { c.cr with trapcause := BitVec.append (0 : BitVec 2) (c.cr.trapcause.setWidth 8) } }

/-- The entry of a copy-completion interrupt (R90, R223): TRAPPC is the next instruction, XFERID the transfer, INT and
NEST are set, and PC is the handler of the copy; CODE, TRAPADDR and TRAPVAL are unchanged. -/
def Ctx.enterInterrupt (c : Ctx) (id handler : Word) : Ctx :=
  { c with
    pc := handler
    spin := []
    cr := { c.cr with
      trappc := c.pc, xferid := id
      trapcause := BitVec.append (3 : BitVec 2) (c.cr.trapcause.setWidth 8) } }

end Sys2Proof.Machine
end

