-- ==== Sys2Proof/Machine/Wakes.lean ====
section
/-!
DEFINITION. Waking contexts that wait (R24).
-/
namespace Sys2Proof.Machine

/-- The job that a context waits for at JWAIT (R293). -/
def Wait.job? : Wait → Option Nat
  | .jwait id _ => some id
  | _ => .none

/-- Makes a waiting context ready; its instruction tests its condition again (R24). -/
def Ctx.wakeUp (c : Ctx) : Ctx := { c with st := .ready, wait := .none, unrecorded := false }

/-- Wakes the contexts that a test picks. -/
def State.wakeWhere (s : State) (test : Nat → Ctx → Bool) : State :=
  { s with ctxs := s.ctxs.map fun p => (p.1, if p.2.st = .waiting ∧ test p.1 p.2 then p.2.wakeUp else p.2) }


end Sys2Proof.Machine
end

