-- ==== Sys2Proof/Machine/Homes.lean ====
section
/-!
DEFINITION. The home of an address (R309, R310), translation at the home (R312 to R314), stamps, records and leases
(R122 to R127, R131, R134, R135), and the conflict checks of deterministic partitions (R119).
-/
namespace Sys2Proof.Machine

/-! ### Rectangles (R317) -/

/-- Whether the router at (x, y) lies in a partition's rectangle (R317). -/
def Part.covers (q : Part) (x y : Nat) : Bool :=
  decide (q.qx0 ≤ x / 64) && decide (x / 64 < q.qx0 + q.qw) && decide (q.qy0 ≤ y / 32) && decide (y / 32 < q.qy0 + q.qh)

/-- Whether a core lies in a partition. -/
def Part.coversCore (q : Part) (core : Nat) : Bool := decide (core < coreCount) && q.covers (routerX core) (routerY core)

/-- Whether a core lies in partition p. -/
def State.inPart (s : State) (p core : Nat) : Bool :=
  match s.parts.get p with
  | some q => q.coversCore core
  | none => false

/-! ### The region map (R309, R310) -/

/-- The entry whose range holds an address (R310). -/
def Part.region? (q : Part) (a : Nat) : Option RegionEntry :=
  (q.regions.find? fun e => decide (e.2.base ≤ a) && decide (a < e.2.base + 2 ^ e.2.log2size)).map Prod.snd

/-- The home list of an entry: slices of the named tiles whose elevator lies in the partition, rising (R310). -/
def Part.homeList (q : Part) (e : RegionEntry) : List Nat :=
  (List.range 1024).filter fun sl => e.tiles.getLsbD (sliceTile sl) && q.covers (elevatorX sl) (elevatorY sl)

/-- log2 of the granularity (R309). -/
def RegionEntry.granLog (e : RegionEntry) : Nat :=
  if e.gran = 0 then 8 else if e.gran = 1 then 12 else if e.gran = 2 then 16 else 21

/-- Home(addr) (R310); none where no entry holds the address. -/
def State.homeSlice (s : State) (p a : Nat) : Option Nat :=
  match s.parts.get p with
  | none => none
  | some q =>
    match q.region? a with
    | none => none
    | some e =>
      let list := q.homeList e
      let u := (a - e.base) / 2 ^ e.granLog
      let h := if e.hash = 0 then u else u ^^^ (u / 2 ^ 11) ^^^ (u / 2 ^ 22)
      list[h % list.length]?

/-! ### Translation (R312 to R314) -/

/-- What a walk finds (R314). -/
inductive Walk where
  | leaf (entry : Word)
  | absent
  | missing
  deriving DecidableEq, Repr

/-- Bits an address has been indexed by at a level (R312). -/
def levelShift (level : Nat) : Nat :=
  if level = 1 then 45 else if level = 2 then 34 else if level = 3 then 25 else 16

/-- Where the state keeps the entry of a level for an address. -/
def pteKey (level a : Nat) : Nat := level * 2 ^ 56 + a / 2 ^ levelShift level

/-- A field [hi:lo] of an entry. -/
def bitsOf (w : Word) (lo n : Nat) : Nat := w.toNat / 2 ^ lo % 2 ^ n

/-- One level: an entry that is not valid says absent or missing; a leaf must stand where R312 and R313 allow one, and an HBM page lies in the 64 GiB of its stack (R3, log 8). -/
def walkEntry (level : Nat) (e : Word) : Option Walk :=
  if bitsOf e 63 1 = 0 then
    some (if bitsOf e 53 3 = 1 then .absent else .missing)
  else if bitsOf e 60 1 ≠ 0 ∨ bitsOf e 0 12 ≠ 0 then some .missing
  else if bitsOf e 62 1 = 1 then
    if level ≤ 2 ∨ (bitsOf e 61 1 = 1 ∧ bitsOf e 48 5 ≠ 0) ∨ (bitsOf e 61 1 = 0 ∧ bitsOf e 36 12 ≠ 0) ∨ bitsOf e 12 (if level = 3 then 13 else 4) ≠ 0 then some .missing
    else some (.leaf e)
  else if level = 4 then some .missing
  else none

/-- The walk of R312. -/
def State.walk (s : State) (a : Nat) : Walk :=
  let look (level : Nat) := walkEntry level (s.pte.getD (pteKey level a) 0)
  match look 1 with
  | some w => w
  | none =>
    match look 2 with
    | some w => w
    | none =>
      match look 3 with
      | some w => w
      | none => (look 4).getD .missing

/-- What translation says for a requester's partition (R314). -/
inductive Translation where
  | mapped (host : Bool)
  | absent
  | missing
  deriving DecidableEq, Repr

/-- The outcome of a walk for a partition (R314). -/
def Walk.forPart (w : Walk) (p : Nat) : Translation :=
  match w with
  | .leaf e => if bitsOf e 56 4 = p then .mapped (bitsOf e 61 1 == 1) else .missing
  | .absent => .absent
  | .missing => .missing

/-- A 64 KiB page number. -/
def pageOf (a : Nat) : Nat := a / 65536

/-- Whether the walk of an address ends at level 3, with a page of 32 MiB (R312). -/
def State.bigPage (s : State) (a : Nat) : Bool :=
  match walkEntry 3 (s.pte.getD (pteKey 3 a) 0) with
  | some (.leaf _) => true
  | _ => false

/-- Translates at a slice: from its translation cache, else by a walk, whose leaf is cached among 512 (R314). Which of the 512 a new one replaces, the one filled longest ago, is the model's
choice (log 64). -/
def State.translateAt (s : State) (slice p a : Nat) : Translation × State :=
  match s.net.trans.find? fun t => t.slice == slice && t.part == p && t.page == pageOf a with
  | some t => (Walk.forPart (.leaf (BitVec.ofNat 64 t.result)) p, s)
  | none =>
    match s.walk a with
    | .leaf e =>
      let mine := (s.net.trans.filter fun t => t.slice == slice).take 511
      let others := s.net.trans.filter fun t => t.slice != slice
      (Walk.forPart (.leaf e) p,
        { s with net := { s.net with trans := { slice := slice, part := p, page := pageOf a, result := e.toNat, big := s.bigPage a } :: mine ++ others } })
    | w => (w.forPart p, s)

/-- The leaf under which a slice performs an access, and whether it maps 32 MiB: the one that its translation cache holds, else that of a walk (R314, R315). -/
def State.leafAt (s : State) (slice p a : Nat) : Option (Word × Bool) :=
  match s.net.trans.find? fun t => t.slice == slice && t.part == p && t.page == pageOf a with
  | some t => some (BitVec.ofNat 64 t.result, t.big)
  | none => match s.walk a with
    | .leaf e => some (e, s.bigPage a)
    | _ => none

/-- Whether a mapped page lies in host memory (R103, R313). -/
def State.hostBacked (s : State) (p a : Nat) : Bool :=
  match (s.walk a).forPart p with
  | .mapped h => h
  | _ => false

/-! ### Records and stamps (R122, R123) -/

/-- Sector number in its line. -/
def sectorNo (a : Nat) : Nat := a / 64 % 4

/-- First address of the sector of an address (R96). -/
def sectorOf (a : Nat) : Nat := a / 64 * 64

/-- First address of the 256-byte line of an address (R122). -/
def lineOf (a : Nat) : Nat := a / 256 * 256

/-- Key of a memory stamp: partition tag, region and slice (R123, R320). -/
def stampKey (p slice a : Nat) : Nat := (p * 2 ^ 40 + a / 2 ^ 20) * 1024 + slice

/-- Key of the memory stamp that every region of a returned slice has for a partition (R361). -/
def returnKey (p slice : Nat) : Nat := p * 1024 + slice

/-- The memory stamp M of an address at a slice for a partition (R123). -/
def State.memStamp (s : State) (p slice a : Nat) : Stamp :=
  s.net.mstamps.getD (stampKey p slice a) (match s.net.mwiped.get p, s.net.mreturned.get (returnKey p slice) with
    | some m, some r => maxStamp m r
    | some m, none => m
    | none, some r => r
    | none, none => 0)

/-- The line record of an address at a slice for a partition (R122, R320). -/
def State.record? (s : State) (slice p a : Nat) : Option LineRec :=
  s.net.recs.find? fun r => r.slice == slice && r.part == p && r.line == lineOf a

/-- Where a slice keeps the latest physical expiry of a sector whose record it has evicted (R126). -/
def expiryKey (p slice a : Nat) : Nat := (p * 2 ^ 52 + a / 64) * 1024 + slice

/-- A sector without a record: wts = rts = M and L = 0 (R123); a write of it still waits for the expiry granted before (R126), and the parties of the phase stay known (R119). -/
def State.unrecorded (s : State) (slice p a : Nat) : SecRec :=
  let who := s.net.mparties.getD (expiryKey p slice a) (0, .none, .none)
  { wts := s.memStamp p slice a, rts := s.memStamp p slice a, expiry := s.net.mexpiry.getD (expiryKey p slice a) 0
    phase := who.1, writer := who.2.1, lessee := who.2.2 }

/-- A sector's stamps: those of its record, else those of a sector without one (R123). -/
def State.sector (s : State) (slice p a : Nat) : SecRec :=
  match s.record? slice p a with
  | some r => r.sectors.getD (sectorNo a) (s.unrecorded slice p a)
  | none => s.unrecorded slice p a

/-- Eviction of a record: M becomes the latest of M and every stamp in it (R123). -/
def absorb (m : Stamp) (r : LineRec) : Stamp :=
  r.sectors.foldl (fun m x => maxStamp (maxStamp m x.2.wts) x.2.rts) m

/-- Keeps the physical expiries of a record that leaves (R126). -/
def keepExpiries (m : FMap Nat) (r : LineRec) : FMap Nat :=
  r.sectors.foldl (fun (m : FMap Nat) x =>
    let k := expiryKey r.part r.slice (r.line + 64 * x.1)
    if x.2.expiry = 0 then m.del k else m.set k x.2.expiry) m

/-- Keeps the phase, writer and lessee of the sectors of a record that leaves, so that no conflict of the phase is missed (R119; log 63). -/
def keepParties (m : FMap (Nat × Who × Who)) (r : LineRec) : FMap (Nat × Who × Who) :=
  r.sectors.foldl (fun (m : FMap (Nat × Who × Who)) x =>
    let k := expiryKey r.part r.slice (r.line + 64 * x.1)
    if x.2.writer = .none ∧ x.2.lessee = .none then m.del k else m.set k (x.2.phase, x.2.writer, x.2.lessee)) m

/-- Takes a record out of a slice and lets M absorb its stamps (R123). R123 says nothing of the phase, writer and lessee of an evicted record: that they stay known, since no
conflicting program completes (R119), is the model's reading (log 63). -/
def State.evictRecord (s : State) (r : LineRec) : State :=
  { s with net := { s.net with
      recs := s.net.recs.filter fun x => !(x.slice == r.slice && x.part == r.part && x.line == r.line)
      mexpiry := keepExpiries s.net.mexpiry r, mparties := keepParties s.net.mparties r
      mstamps := s.net.mstamps.set (stampKey r.part r.slice r.line) (absorb (s.memStamp r.part r.slice r.line) r) } }

/-- Records of a slice, most recently used first. -/
def State.recordsOf (s : State) (slice : Nat) : List LineRec := s.net.recs.filter fun r => r.slice == slice

/-- Writes a sector's stamps into its record, which is then the most recently used; a slice that already holds 8,192
records evicts its least recently used one first (R122, R123). -/
def State.setSector (s : State) (slice p a : Nat) (x : SecRec) : State :=
  match s.record? slice p a with
  | some r =>
    let rest := s.net.recs.filter fun y => !(y.slice == slice && y.part == p && y.line == lineOf a)
    { s with net := { s.net with recs := { r with sectors := r.sectors.set (sectorNo a) x } :: rest } }
  | none =>
    let mine := s.recordsOf slice
    let s := if mine.length < 8192 then s else
      match mine.getLast? with
      | some r => s.evictRecord r
      | none => s
    let blank : FMap SecRec := (([0, 1, 2, 3] : List Nat).map fun k => (k, s.unrecorded slice p (lineOf a + 64 * k)))
    { s with net := { s.net with
        recs := { line := lineOf a, part := p, slice := slice, sectors := blank.set (sectorNo a) x } :: s.net.recs } }

/-! ### Leases (R124, R125, R135) -/

/-- Region attributes (R135). -/
def attrFull : Nat := 0
/-- l1only. -/
def attrL1 : Nat := 1
/-- uncached. -/
def attrUncached : Nat := 2
/-- plshared. -/
def attrPlshared : Nat := 3

/-- NewLease (R124). -/
def newLease (lf c : Stamp) (x : SecRec) : SecRec :=
  { x with
    rts := minStamp (maxStamp c lf + BitVec.ofNat 40 (8 * 2 ^ x.level)) (lf + 4294967296)
    level := Nat.min (x.level + 1) 9 }

/-- The later of rts and a clock, L unchanged: a read at the home that hands out no copy (R102, R135). -/
def holdRead (c : Stamp) (x : SecRec) : SecRec := { x with rts := maxStamp x.rts c }

/-- A version with a write stamp: wts = rts = w, L = 0 (R100, R124). The latest physical expiry granted on the sector stays known: a flip to host bias may have to wait
for it (R335). -/
def newVersion (w : Stamp) (x : SecRec) : SecRec := { x with wts := w, rts := w, level := 0 }

/-- Whether a slice may grant a stamp before it publishes a new PUB (R134). -/
def State.mayGrant (s : State) (slice : Nat) (v : Stamp) : Bool :=
  !(later v (s.net.pub.getD slice 0 + 1048576))

/-- An operation that needs a later PUB has its stamp sent to the S-die as the new PUB, one at a time (R134). -/
def State.wantStamp (s : State) (slice : Nat) (v : Stamp) : State :=
  if s.mayGrant slice v || (s.net.wanted.get slice).isSome then s
  else { s with net := { s.net with wanted := s.net.wanted.set slice v } }

/-! ### Deterministic partitions (R117, R119) -/

/-- A record of an earlier phase counts as none (R119). -/
def SecRec.inPhase (x : SecRec) (phase : Nat) : SecRec :=
  if x.phase = phase then x else { x with phase := phase, writer := .none, lessee := .none }

/-- The kinds of access that R119 tells apart. -/
inductive DetAccess where
  | load
  | returning
  | store
  | commutative (code size : Nat)
  deriving DecidableEq, Repr

/-- TRAPVAL of a RACE: NUMBER of the recorded thread and its slot, or all ones for several or an operation (R119). -/
def Who.raceValue : Who → Word
  | .thread slot n => BitVec.ofNat 64 (slot * 2 ^ 32 + n)
  | _ => 0xFFFFFFFF

/-- The check of R119 for thread (slot, number): the updated record, or the party of the conflict. -/
def detCheck (kind : DetAccess) (t : Who) (x : SecRec) : Except Who SecRec :=
  let writerOk := x.writer == .none || x.writer == t
  match kind with
  | .load =>
    if !writerOk then .error x.writer
    else .ok { x with lessee := if x.lessee == .none || x.lessee == t then t else .several }
  | .returning =>
    if !writerOk then .error x.writer
    else if !(x.lessee == .none || x.lessee == t) then .error x.lessee
    else .ok { x with writer := t }
  | .store =>
    if !(x.lessee == .none || x.lessee == t) then .error x.lessee
    else if !writerOk then .error x.writer
    else .ok { x with writer := t }
  | .commutative code size =>
    if x.lessee != .none then .error x.lessee
    else if !(x.writer == .none || x.writer == .op code size) then .error x.writer
    else .ok { x with writer := .op code size }

end Sys2Proof.Machine
end

