-- ==== Sys2Proof/Machine/Flights.lean ====
section
/-!
DEFINITION. What is on its way (R115, R151): sending, order per source, destination and class, and what of an earlier
access is still to be performed (R99, R103 to R107, R164).
-/
namespace Sys2Proof.Machine

/-- The number under which a core's copies send what they send: no context has it (R222). -/
def xuCtx (core : Nat) : Nat := core * 8 + 6

/-- Whether an id is that of a core's copies. -/
def isXu (ctx : Nat) : Bool := numberOf ctx == 6

/-- Whether an id is that of no context: of a core's copies, or of a partition's launch hardware. -/
def isAgent (ctx : Nat) : Bool := decide (6 ≤ numberOf ctx)

/-! ### Classes and lanes (R115) -/

/-- The address of an LM in the state as a core, if it is one. -/
def lmCore? (a : Nat) : Option Nat := if globalBase ≤ a then some ((a - globalBase) / 0x8000) else none

/-- A point that sends or receives: a core, the GAMO combiner of a cluster's router, a router, a home slice, one sector at its home, or the launch tables in the
S-die. -/
inductive Point where
  | core (i : Nat)
  | combiner (cluster : Nat)
  | router (x : Nat) (y : Nat)
  | slice (i : Nat)
  | sector (a : Nat)
  | table
  | nowhere
  deriving DecidableEq, Repr

/-- The die on which a point stands. -/
def Point.die? : Point → Option Nat
  | .core c => some (tileOf c)
  | .combiner cl => some (tileOf (cl * 8))
  | .router x y => some (tileOf (coreAt x y 0))
  | .slice sl => some (sliceDie sl)
  | .sector _ => none
  | .table => some sDie
  | .nowhere => none

/-- Whether a point stands on a die. -/
def Point.on (die : Nat) (x : Point) : Bool := decide (x.die? = some die)

/-- Where the home of an address stands for a partition. -/
def State.homePoint (s : State) (p a : Nat) : Point :=
  match lmCore? a with
  | some c => .core c
  | none =>
    match s.homeSlice p a with
    | some sl => .slice sl
    | none => .nowhere

/-- Where an access of memory performs: its sector at its home, since accesses of different sectors perform in any order (R101, R107); or an LM. -/
def State.sectorPoint (s : State) (p a : Nat) : Point :=
  match s.homePoint p a with
  | .slice _ => .sector (sectorOf a)
  | x => x

/-- The key of a wait as an address. -/
def Key.address : Key → Nat
  | .page p => p * 65536
  | .word a => a

/-- Routers of a request's path (R137); what the S-die sends takes the service path to the elevator of the home (R185). -/
def State.pathOf (s : State) (f : Flight) (rc a : Nat) : List (Nat × Nat) :=
  match s.homeSlice f.part a with
  | some sl => if numberOf f.ctx = 7 then [(elevatorX sl, elevatorY sl)] else requestPath rc (coreOf f.ctx) sl
  | none => []

/-- The router of its path that answered a load, as a point (R139). -/
def State.routerOf (s : State) (f : Flight) (q : LoadReq) (hop : Nat) : Point :=
  match (s.pathOf f q.rc q.addr)[hop]? with
  | some r => .router r.1 r.2
  | none => .nowhere

/-- The home slice for which a push answer is gathered, as a point. -/
def State.gatherPoint (s : State) (g : Nat) : Point :=
  match s.net.gathers.find? fun x => x.id == g with
  | some x => .slice x.slice
  | none => .nowhere

/-- Class, source and destination of a flight; none for one that is not on its way: parked, back at its core, or waiting at its home. -/
def State.laneOf (s : State) (f : Flight) : Option (Nat × Point × Point) :=
  let me := Point.core (coreOf f.ctx)
  let sum (q : AtomReq) : Point := if q.parts = [] then me else .combiner (clusterOf (coreOf f.ctx))
  match f.kind with
  | .load q => if q.fault = 1 then none else some (0, me, s.sectorPoint f.part q.addr)
  | .store q => if q.parked || q.refused || q.held != 0 then none else some (0, me, s.sectorPoint f.part q.addr)
  | .atomic q => if q.parked || q.fault == 1 || q.held != 0 then none else some (0, sum q, s.sectorPoint f.part q.addr)
  | .purge line _ => some (0, me, s.homePoint f.part line)
  | .lmWrite a _ _ _ => some (0, me, s.homePoint f.part a)
  | .feOffer a _ _ => some (0, me, s.homePoint f.part a)
  | .lmLoad _ _ a _ _ => some (0, me, s.homePoint f.part a)
  | .seqFetch _ _ => some (0, me, .nowhere)
  | .launchReq _ _ _ _ _ _ => some (0, me, .table)
  | .launchStatus _ _ => some (1, .table, me)
  | .loadReply q a => some (1, (match a with
      | .copy _ false _ false => .nowhere
      | .copy _ false hop true => s.routerOf f q hop
      | _ => s.homePoint f.part q.addr), me)
  | .storeAck q _ => some (1, s.homePoint f.part q.addr, me)
  | .atomicResult q _ => some (1, s.homePoint f.part q.addr, sum q)
  | .lmAck a _ => some (1, s.homePoint f.part a, me)
  | .pushAck a _ _ _ => some (1, s.homePoint f.part a, me)
  | .pushAnswer g core _ => some (1, .core core, s.gatherPoint g)
  | .pushDue _ _ _ => none
  | .msgAnswer m _ _ _ => some (1, .core m.dest, me)
  | .msg m _ => some (2 + m.kind, me, .core m.dest)
  | .push line _ _ dest _ => some (5, s.homePoint f.part line, .core dest)
  | .wait key _ _ _ _ => some (6, me, s.homePoint f.part key.address)
  | .wake key _ _ port _ =>
    some (6, s.homePoint f.part key.address, match port with | .core c => .core c | .router x y => .router x y | .table _ => .table | .coll _ => .table)

/-! ### Incarnations (R362) -/

/-- A flight with the incarnation of the agent that sends what it carries. -/
def State.stamped (s : State) (f : Flight) : Flight :=
  match (s.laneOf f).bind fun l => l.2.1.die? with
  | some d => { f with sender := (s.die d).incarnation }
  | none => f

/-- Whether the incarnation that a flight bears is the current one of its sender. -/
def State.current (s : State) (f : Flight) : Bool := (s.stamped f).sender == f.sender

/-! ### The list of flights -/

/-- Puts a list of flights into the state. -/
def State.setFlights (s : State) (fs : List Flight) : State := { s with net := { s.net with flights := fs } }

/-- The flight at a place. -/
def State.flight? (s : State) (n : Nat) : Option Flight := s.net.flights[n]?

/-- Takes the flight at a place out. -/
def State.dropFlight (s : State) (n : Nat) : State := s.setFlights (s.net.flights.eraseIdx n)

/-- Puts another flight at a place. -/
def State.putFlight (s : State) (n : Nat) (f : Flight) : State := s.setFlights (s.net.flights.set n (s.stamped f))

/-- Sends a flight: it is the last of its lane. -/
def State.sendFlight (s : State) (f : Flight) : State := s.setFlights (s.net.flights ++ [s.stamped f])

/-- The word at PC of the executing context: of its core's fetch buffer where that holds it, else of the LM (R37, R116). -/
def State.wordHere (s : State) : IWord :=
  match placeOf s.homeCore s.here.pc with
  | .lm core off =>
    match (if core = s.execCore then (s.core core).fetch.find? fun x => x.1 == off else none) with
    | some x => x.2
    | none => BitVec.ofNat 32 (s.lmRead core off 4)
  | _ => 0

/-- Sends something of the executing context, with the next sequence number of its core (R358). -/
def State.send (s : State) (k : FKind) : State :=
  let c := s.here
  let core := s.execCore
  let s' := s.onCore core fun q => { q with reqSeq := q.reqSeq + 1 }
  s'.sendFlight
    { kind := k, ctx := s.cur, uid := c.uid, part := c.partNo, domain := c.accessDomain, launch := c.launch
      seq := (s.core core).reqSeq, sentAt := s.gtrOf (tileOf core), incarnation := (s.die (tileOf core)).incarnation, word := s.wordHere
      home := s.homeCore }

/-- Changes the flight that was sent last. -/
def State.onLast (t : State) (g : Flight → Flight) : State :=
  t.setFlights (t.net.flights.dropLast ++ (t.net.flights.drop (t.net.flights.length - 1)).map g)

/-- Sends something of the executing context that sets SKIP when it performs, where it is a push (R159). -/
def State.sendSkip (s : State) (k : FKind) (skip : Bool) : State := (s.send k).onLast fun f => { f with skip := skip }

/-- An answer to a flight takes its place at the end of the list; its sender's timer runs from the request (R358). -/
def State.answer (s : State) (n : Nat) (f : Flight) (k : FKind) : State :=
  (s.dropFlight n).sendFlight { f with kind := k }

/-- Whether a die refuses a transaction (R360): it is being reset, and the transaction is new, or was sent after the quiesce began. `sent` is when it was sent. -/
def State.refuses (s : State) (die : Nat) (sent : Option Nat) : Bool :=
  s.net.absent.contains die && !(match (s.die die).quiesce, sent with
    | some ends, some t => decide (t + s.mgmt.quiesceTime * microsecond ≤ ends)
    | _, _ => false)

/-- Whether the context that sent a flight is still the one that sent it. -/
def State.alive (s : State) (f : Flight) : Bool := (s.ctx f.ctx).uid == f.uid

/-! ### Earlier accesses of a context (R103 to R107) -/

/-- The address that a flight accesses, where it is an access that a release or FENCE waits for (R105, R106, R165, R166):
loads, stores, atomics, LM writes, full/empty instructions and purges, until their answer has arrived. -/
def Flight.accessed (f : Flight) : Option Nat :=
  match f.kind with
  | .load q => if q.fmt = .pref then none else some q.addr
  | .lmLoad _ _ a _ _ => some a
  | .loadReply q _ => if q.fmt = .pref then none else some q.addr
  | .store q => some q.addr
  | .storeAck q _ => some q.addr
  | .atomic q => some q.addr
  | .atomicResult q _ => some q.addr
  | .lmWrite a _ _ _ => some a
  | .lmAck a _ => some a
  | .feOffer a _ _ => some a
  | .purge line _ => some line
  | _ => none

/-- The region attribute that a flight carries. -/
def Flight.attr (f : Flight) : Nat :=
  match f.kind with
  | .load q => q.attr
  | .loadReply q _ => q.attr
  | .store q => q.attr
  | .storeAck q _ => q.attr
  | .atomic q => q.attr
  | .atomicResult q _ => q.attr
  | _ => 0

/-- Narrowest scope of a location for a thread of a partition that runs on a core and has its home on another (R103): 0 core, 1 cluster, 2 device,
3 system. -/
def State.scopeFrom (s : State) (core home p a attr : Nat) : Nat :=
  match lmCore? a with
  | some c => if c = home then 0 else if clusterOf c = clusterOf core then 1 else 2
  | none => if attr = attrPlshared ∨ s.hostBacked p a = true then 3 else 2

/-- Narrowest scope of a location for a context (R103). -/
def State.scopeOf (s : State) (id a attr : Nat) : Nat := s.scopeFrom (coreOf id) (s.homeOf id) (s.ctx id).partNo a attr

/-- Flights of a run of a context, on their way or with their answer lost. -/
def State.flightsBy (s : State) (id uid : Nat) : List Flight :=
  (s.net.flights ++ s.net.lost).filter fun f => f.ctx == id && f.uid == uid

/-- Flights of a context, on their way or with their answer lost. -/
def State.flightsOf (s : State) (id : Nat) : List Flight := s.flightsBy id (s.ctx id).uid

/-- Full/empty instructions of a context held at ports (R163). -/
def State.waitersOf (s : State) (id : Nat) : List Waiter :=
  s.net.waiters.filter fun w => w.ctx == id && w.uid == (s.ctx id).uid

/-- Whether a part of a GAMO is a context's, issued before a sequence number. -/
def GamoPart.isOf (x : GamoPart) (id uid before : Nat) : Bool := x.ctx == id && x.uid == uid && decide (x.seq < before)

/-- GAMOs of a run of a context, issued before a sequence number, that a combiner gathers or that travel in a combined AADD, by address,
size and attribute (R210). -/
def State.gamosBy (s : State) (id uid before : Nat) : List (Nat × Nat × Nat) :=
  (s.net.gamo.filter fun e => e.parts.any fun x => x.isOf id uid before).map (fun e => (e.addr, e.size, e.attr)) ++
  (s.net.flights ++ s.net.lost).filterMap fun f => match f.kind with
    | .atomic q => if q.parts.any fun x => x.isOf id uid before then some (q.addr, q.size, q.attr) else none
    | .atomicResult q _ => if q.parts.any fun x => x.isOf id uid before then some (q.addr, q.size, q.attr) else none
    | _ => none

/-- GAMOs of a context, issued before a sequence number, that have not performed (R210). -/
def State.gamosOf (s : State) (id before : Nat) : List (Nat × Nat × Nat) := s.gamosBy id (s.ctx id).uid before

/-- Whether a run of a context, with its home core and partition, has an access before a sequence number, within a scope, that has not yet performed; PPURGE is one of
device scope (R166). -/
def State.unperformedBy (s : State) (id uid home p scope before : Nat) : Bool :=
  (s.gamosBy id uid before).any (fun g => decide (s.scopeFrom (coreOf id) home p g.1 g.2.2 ≤ scope)) ||
  (s.flightsBy id uid).any (fun f =>
    decide (f.seq < before) && match f.kind, f.accessed with
      | .purge _ _, _ => decide (2 ≤ scope)
      | _, some a => decide (s.scopeFrom (coreOf id) home p a f.attr ≤ scope)
      | _, none => false) ||
  s.net.waiters.any fun w => w.ctx == id && w.uid == uid && decide (w.seq < before) && decide (s.scopeFrom (coreOf id) home p w.addr 0 ≤ scope)

/-- Whether a context has an access before a sequence number, within a scope, that has not yet performed. -/
def State.unperformed (s : State) (id scope before : Nat) : Bool :=
  s.unperformedBy id (s.ctx id).uid (s.homeOf id) (s.ctx id).partNo scope before

/-- Whether pushes of a run of a context, of stores issued before a sequence number, are still to be delivered, refused or skipped (R105, R146, R159). -/
def State.pushingBy (s : State) (id uid before : Nat) : Bool :=
  s.net.gathers.any (fun g => g.ctx == id && g.uid == uid) ||
  (s.flightsBy id uid).any fun f => match f.kind with
    | .pushAck _ _ _ _ => true
    | .pushDue _ _ _ => true
    | .store q => q.push && decide (f.seq < before)
    | .lmWrite _ _ _ _ => f.skip && decide (f.seq < before)
    | _ => false

/-- Whether pushes of a context, of stores issued before a sequence number, are still to be answered. -/
def State.pushing (s : State) (id before : Nat) : Bool := s.pushingBy id (s.ctx id).uid before

/-- What a release waits for (R105): earlier accesses of its run within its scope and every push. -/
def State.releaseHeld (s : State) (f : Flight) (sc : Nat) : Bool :=
  !(isAgent f.ctx) && (s.unperformedBy f.ctx f.uid f.home f.part sc f.seq || s.pushingBy f.ctx f.uid f.seq)

/-- Whether a flight is a release that still waits, and so has not left its core (R105). -/
def State.notLeft (s : State) (f : Flight) : Bool :=
  match f.kind with
  | .store q => q.rel && s.releaseHeld f q.sc
  | .atomic q => q.rel && s.releaseHeld f q.sc
  | .lmWrite _ _ rel sc => rel && s.releaseHeld f sc
  | _ => false

/-- Whether two flights are pushes of one sector: they reach a core in either order (R147). -/
def pushesOfOne (f g : Flight) : Bool :=
  match f.kind, g.kind with
  | .push a i _ _ _, .push b j _ _ _ => a == b && i == j
  | _, _ => false

/-- Whether no earlier flight of the same lane is still on its way (R115), and the flight is from a current incarnation of its sender: another is dropped (R362, State.dropStale). A point
that the model does not place is in no lane, and a release that waits is not on its way. -/
def State.inOrder (s : State) (n : Nat) : Bool :=
  match s.flight? n with
  | none => false
  | some f =>
    s.current f && match s.laneOf f with
    | none => true
    | some l =>
      if l.2.1 == .nowhere || l.2.2 == .nowhere then true
      else !((s.net.flights.take n).any fun g => s.laneOf g == some l && !(s.notLeft g) && !(pushesOfOne f g))

/-- Drops what bears an incarnation that is no longer that of its sender (R362). -/
def State.dropStale (s : State) : State := s.setFlights (s.net.flights.filter s.current)

/-- Whether an earlier acquire of a context holds back an access of a narrowest scope (R104, R164). -/
def State.acquiring (s : State) (id scope : Nat) : Bool :=
  (s.flightsOf id).any (fun f => match f.kind with
    | .load q => q.acq && decide (scope ≤ q.sc)
    | .lmLoad _ _ _ acq sc => acq && decide (scope ≤ sc)
    | .loadReply q _ => q.acq && decide (scope ≤ q.sc)
    | .atomic q => q.acq && decide (scope ≤ q.sc)
    | .atomicResult q _ => q.acq && decide (scope ≤ q.sc)
    | .feOffer a _ acq => acq && decide (scope ≤ s.scopeOf id a 0)
    | _ => false) ||
  (s.waitersOf id).any fun w => w.acq && decide (scope ≤ s.scopeOf id w.addr 0)

/-- Whether two ranges of bytes meet. -/
def overlaps (a n b m : Nat) : Bool := decide (a < b + m) && decide (b < a + n)

/-- Whether a context has an unperformed full/empty instruction at an LM (R164). -/
def State.feHeld (s : State) (id core : Nat) : Bool :=
  (s.flightsOf id).any (fun f => match f.kind with
    | .feOffer a _ _ => decide (lmCore? a = some core)
    | .lmWrite a (.sde _) _ _ => decide (lmCore? a = some core)
    | .lmWrite a (.feset _) _ _ => decide (lmCore? a = some core)
    | _ => false) ||
  (s.waitersOf id).any fun w => decide (lmCore? w.addr = some core)

/-- Whether a context has an unperformed write or atomic at bytes of an LM (R99, R110). -/
def State.lmOverlap (s : State) (id a n : Nat) : Bool :=
  (s.flightsOf id).any fun f => match f.kind with
    | .lmWrite b (.store m _) _ _ => overlaps a n b m
    | .lmWrite b _ _ _ => overlaps a n b 8
    | .lmAck b _ => overlaps (wordOf a) 16 (wordOf b) 16
    | .atomic q => overlaps a n q.addr q.size
    | .atomicResult q _ => overlaps a n q.addr q.size
    | _ => false

/-- Whether an access of a context to an LM must wait for its earlier ones: at the home core every one, elsewhere a full/empty
instruction, and for a read a write of the same bytes (R99, R107, R110, R164). -/
def State.lmHeld (s : State) (id core a n : Nat) (reads : Bool) : Bool :=
  s.feHeld id core ||
  (if core = s.homeOf id then
    (s.flightsOf id).any fun f => match f.accessed with
      | some b => decide (lmCore? b = some core)
      | none => false
  else reads && s.lmOverlap id a n)

/-- Entries of a core's store buffer in use (R158, R359). -/
def State.storeBuffer (s : State) (core : Nat) : Nat :=
  ((s.net.flights ++ s.net.lost).filter fun f => coreOf f.ctx == core && !(isAgent f.ctx) && match f.kind with
    | .store _ => true
    | .storeAck _ _ => true
    | .atomic _ => true
    | .atomicResult _ _ => true
    | .lmWrite _ _ _ _ => true
    | .lmAck _ _ => true
    | _ => false).length

/-- Entries of a cluster's miss table in use (R14, R197). -/
def State.missTable (s : State) (cluster : Nat) : Nat :=
  ((s.net.flights ++ s.net.lost).filter fun f => clusterOf (coreOf f.ctx) == cluster && match f.kind with
    | .load _ => true
    | .loadReply _ _ => true
    | .purge _ _ => true
    | _ => false).length

/-! ### Whom a full job queue or miss table serves next (R197, R201) -/

/-- Job-queue entries that a core's jobs and copies hold (R197, R223). -/
def Core.entries (c : Core) : Nat := c.jobs.length + c.copyEntries.length

/-- Whether a held request still waits: its thread stands at its instruction, or its copy runs. -/
def State.waitsStill (s : State) (c : Claim) : Bool :=
  if c.pos = 8 then
    match (s.core (c.key / 256)).copies.get (c.key % 256) with
    | some x => x.status == 2 && x.id.toNat == c.uid && s.partRuns x.part
    | none => false
  else
    let k := s.ctx c.key
    k.uid == c.uid && k.pc == c.pc && k.st == .ready && !(s.isSuspended c.key) && s.partRuns k.partNo &&
    (c.res % 2 == 1 || decide ((s.core (c.res / 2 * 8 + c.pos)).entries < 4))

/-- Whether one of `room` free entries of a resource falls to a requester: round-robin, after the one served last, among those that wait. -/
def State.inTurn (s : State) (res pos room : Nat) : Bool :=
  let last := s.net.served.getD res 8
  let place (p : Nat) : Nat := (p + 8 - last) % 9
  decide (((List.range 9).filter fun p =>
    decide (place p < place pos) && s.net.claims.any fun c => c.res == res && c.pos == p && s.waitsStill c).length < room)

/-- A request that finds no entry waits for one. -/
def State.claim (s : State) (c : Claim) : State :=
  { s with net := { s.net with claims := (s.net.claims.filter fun x => x != c && s.waitsStill x) ++ [c] } }

/-- A requester takes an entry: its claim goes, and the next entry falls to one after it. -/
def State.serve (s : State) (res pos key : Nat) : State :=
  { s with net := { s.net with
    claims := s.net.claims.filter fun x => !(x.res == res && x.key == key), served := s.net.served.set res pos } }

/-- The claim of the executing thread on a resource of its cluster. -/
def State.claimHere (s : State) (res pos : Nat) : State := s.claim { res := res, pos := pos, key := s.cur, uid := s.here.uid, pc := s.here.pc }

/-- The miss table of a core's cluster as a resource. -/
def missRes (core : Nat) : Nat := clusterOf core * 2 + 1

/-- Whether the miss table has an entry for a requester (R14, R197). -/
def State.missRoomAt (s : State) (core pos : Nat) : Bool :=
  let used := s.missTable (clusterOf core)
  decide (used < 16) && s.inTurn (missRes core) pos (16 - used)

/-- Whether the miss table has an entry for the executing core. -/
def State.missRoom (s : State) : Bool := s.missRoomAt s.execCore (s.execCore % 8)

/-- The executing thread waits for an entry of the miss table. -/
def State.awaitMiss (s : State) : State := s.claimHere (missRes s.execCore) (s.execCore % 8)

/-- An entry of the miss table is taken; only one that was waited for moves the turn on. -/
def State.takeMiss (s : State) (core pos key : Nat) : State :=
  if s.net.claims.any fun x => x.res == missRes core && x.key == key then s.serve (missRes core) pos key else s

/-- The executing thread takes an entry of the miss table. -/
def State.takeMissHere (s : State) : State := s.takeMiss s.execCore (s.execCore % 8) s.cur

/-- Whether an earlier release of a context, issued before a sequence number, still waits at its core: a message sent after it waits for what it orders (R115). -/
def State.releaseBefore (s : State) (f : Flight) : Bool :=
  (s.flightsBy f.ctx f.uid).any fun g => decide (g.seq < f.seq) && s.notLeft g

/-- Whether nothing of a context is on its way or held: no access, message, push, full/empty waiter or GAMO. -/
def State.quiet (s : State) (id : Nat) : Bool :=
  let n := (s.core (coreOf id)).reqSeq
  (s.flightsOf id).all (fun f => (f.accessed).isNone && match f.kind with
    | .pushAck _ _ _ _ => false
    | .pushDue _ _ _ => false
    | .msg _ _ => false
    | .msgAnswer _ _ _ _ => false
    | .launchReq _ _ _ _ _ _ => false
    | .launchStatus _ _ => false
    | _ => true) && (s.waitersOf id) == [] && !(s.pushing id n) && s.gamosOf id n == []

/-- Whether every instruction that a context has issued has completed (R73). -/
def State.drained (s : State) (id : Nat) : Bool := (s.ctx id).pend == [] && s.quiet id

/-- Whether a flight is an access that waits for its page, and so is to be executed again (R24, R348). -/
def Flight.pageHeld (f : Flight) : Bool :=
  match f.kind with
  | .load q => q.fault == 1
  | .atomic q => q.fault == 1
  | _ => false

/-- Whether a waiting or fault-waiting context has drained (R73, R198): what it issued has completed, but for the instruction that waits, and an access that waits for its page
and is executed again. -/
def State.drainedWait (s : State) (id : Nat) : Bool :=
  (s.setFlights (s.net.flights.filter fun f => !(f.ctx == id && f.pageHeld))).quiet id

end Sys2Proof.Machine
end

