-- ==== Sys2Proof/Machine/Caches.lean ====
section
/-!
DEFINITION. Copies held outside the home: cache regions (R19, R126, R140, R141, R145) and dew stores (R13, R138 to R140).
-/
namespace Sys2Proof.Machine

/-- Lines that a core's cache region holds (R19). -/
def Core.cacheLines (c : Core) : Nat := c.cacheSize * 16

/-- Whether a SEQ is later than another, compared as stamps are but over 16 bits (R332). -/
def laterSeq (x y : Option Nat) : Bool :=
  match x, y with
  | some x, some y => decide (1 ≤ (x + 65536 - y) % 65536) && decide ((x + 65536 - y) % 65536 < 32768)
  | _, _ => false

/-- Whether a copy obtained under an attribute is plshared: a host line is, whatever the attribute (R126, R331). -/
def SecCopy.shared (x : SecCopy) (attr : Nat) : Bool := attr == attrPlshared || x.expiry.isSome || x.hostSeq.isSome

/-- Which of two copies of one sector is kept (R140); of a host line the one with a later SEQ stays (R332). -/
def keepCopy (resident : Option SecCopy) (arriving : SecCopy) : SecCopy :=
  match resident with
  | none => arriving
  | some r =>
    if laterSeq r.hostSeq arriving.hostSeq then r
    else if later arriving.wts r.wts then arriving
    else if arriving.wts = r.wts ∧ later arriving.rts r.rts = true then arriving
    else r

/-- Fills a sector of a line (R140). -/
def CopyLine.fill (l : CopyLine) (sec : Nat) (x : SecCopy) : CopyLine :=
  { l with sectors := l.sectors.set sec (keepCopy (l.sectors.get sec) x) }

/-- Whether a cache line is that of a partition and address. -/
def CopyLine.isAt (l : CopyLine) (p a : Nat) : Bool := l.part == p && l.line == lineOf a

/-- The resident line of an address (R320). -/
def Core.cacheLine? (c : Core) (p a : Nat) : Option CopyLine := c.cache.find? fun l => l.isAt p a

/-- Takes the last line that a test picks out of a list. -/
def dropLastWhere (test : CopyLine → Bool) (ls : List CopyLine) : Option (List CopyLine) :=
  match (ls.reverse).findIdx? test with
  | some i => some ((ls.reverse.eraseIdx i).reverse)
  | none => none

/-- Makes room for one line by evicting the least recently used line that does not count against PQUOTA; none where every
line counts or there is no region (R141, R145). -/
def Core.makeRoom (c : Core) : Option Core :=
  if c.cache.length < c.cacheLines then some c
  else match dropLastWhere (fun l => !l.push) c.cache with
    | some ls => if ls.length < c.cacheLines then some { c with cache := ls } else none
    | none => none

/-- Fills a sector in a cache region (R140, R141); `push` marks a line that a push makes resident (R145). -/
def Core.fillCopy (c : Core) (p a : Nat) (x : SecCopy) (push : Bool) : Core :=
  match c.cacheLine? p a with
  | some l => { c with cache := l.fill (sectorNo a) x :: c.cache.filter fun y => !(y.isAt p a) }
  | none =>
    match c.makeRoom with
    | some c => { c with cache := { line := lineOf a, part := p, sectors := [(sectorNo a, x)], push := push } :: c.cache }
    | none => c

/-- A resident copy of a sector. -/
def Core.copy? (c : Core) (p a : Nat) : Option SecCopy :=
  match c.cacheLine? p a with
  | some l => l.sectors.get (sectorNo a)
  | none => none

/-- A hit: the line is most recently used and stops counting against PQUOTA (R145). -/
def Core.touch (c : Core) (p a : Nat) : Core :=
  match c.cacheLine? p a with
  | some l => { c with cache := { l with push := false } :: c.cache.filter fun y => !(y.isAt p a) }
  | none => c

/-- Drops a line (R142). -/
def Core.dropLine (c : Core) (p a : Nat) : Core := { c with cache := c.cache.filter fun y => !(y.isAt p a) }

/-- Whether a copy may answer a load at a clock: by its physical expiry where it has one, 8 ns before it and only on a
locked die, else by its lease (R98, R126). -/
def State.usable (s : State) (die : Nat) (c : Stamp) (x : SecCopy) : Bool :=
  match x.expiry with
  | some e => (s.die die).locked && decide (s.gtrOf die + 128 < e)
  | none => !(later c x.rts)

/-! ### Dew stores -/

/-- Whether a dew line is that of a router, partition and address. -/
def DewLine.isAt (l : DewLine) (x y p a : Nat) : Bool := l.x == x && l.y == y && l.body.isAt p a

/-- A copy in the dew store of a router (R139). -/
def State.dewCopy? (s : State) (x y p a : Nat) : Option SecCopy :=
  match s.net.dew.find? fun l => l.isAt x y p a with
  | some l => l.body.sectors.get (sectorNo a)
  | none => none

/-- Set of a dew store: address bits [10:8] (R138). -/
def dewSet (a : Nat) : Nat := a / 256 % 8

/-- Deposits a copy in the dew store of a router; a full set evicts its least recently used way (R138, R140). -/
def depositDew (dew : List DewLine) (x y p a : Nat) (k : SecCopy) : List DewLine :=
  let rest := dew.filter fun l => !(l.isAt x y p a)
  match dew.find? fun l => l.isAt x y p a with
  | some l => { l with body := l.body.fill (sectorNo a) k } :: rest
  | none =>
    let new : DewLine := { x := x, y := y, body := { line := lineOf a, part := p, sectors := [(sectorNo a, k)] } }
    let inSet := rest.filter fun l => l.x == x && l.y == y && dewSet l.body.line == dewSet a
    if inSet.length < 8 then new :: rest
    else match inSet.getLast? with
      | some v => new :: rest.filter fun l => !(l.isAt x y v.body.part v.body.line)
      | none => new :: rest

/-- Deposits a copy in the dew stores of several routers (R138). -/
def State.depositAlong (s : State) (routers : List (Nat × Nat)) (p a : Nat) (k : SecCopy) : State :=
  { s with net := { s.net with dew := routers.foldl (fun d r => depositDew d r.1 r.2 p a k) s.net.dew } }

/-- A line of a dew store is used: it becomes the most recently used. -/
def State.touchDew (s : State) (x y p a : Nat) : State :=
  match s.net.dew.find? fun l => l.isAt x y p a with
  | some l => { s with net := { s.net with dew := l :: s.net.dew.filter fun m => !(m.isAt x y p a) } }
  | none => s

/-- Drops a line from the dew stores of several routers (R142). -/
def State.purgeAlong (s : State) (routers : List (Nat × Nat)) (p a : Nat) : State :=
  { s with net := { s.net with dew := s.net.dew.filter fun l => !(routers.contains (l.x, l.y) && l.body.isAt p a) } }

/-! ### What a load may do (R136) -/

/-- Whether a load may hit or fill the cache region: the attribute allows it and the hint is not .nl or .nlnd (R136). -/
def mayCache (attr hint : Nat) : Bool := attr != attrUncached && hint % 2 == 0

/-- Whether a load may be answered by a dew store: attribute full, route near or wide, no deterministic partition
(R118, R136). -/
def mayDew (det : Bool) (attr rc : Nat) : Bool := !det && attr == attrFull && decide (rc ≤ 1)

/-- Whether a reply may condense: attribute full, route not home, hint not .nd or .nlnd (R118, R136). -/
def mayCondense (det : Bool) (attr rc hint : Nat) : Bool := !det && attr == attrFull && rc != 3 && decide (hint ≤ 1)

/-! ### The spin table (R129, R130) -/

/-- SpinUpdate (R129): the updated table, most recently used entry first, and the stamp that LCLK is to reach when the
sixteenth unchanged hit fires. -/
def spinUpdate (table : List SpinEntry) (sec : Nat) (wts rts : Stamp) (atHome : Bool) : List SpinEntry × Option Stamp :=
  let rest := table.filter fun e => e.sector != sec
  match table.find? fun e => e.sector == sec with
  | some e =>
    if atHome || e.wts != wts then ({ sector := sec, wts := wts, rts := rts, count := 0 } :: rest, none)
    else if e.count + 1 = 16 then ({ e with count := 0 } :: rest, some (rts + 1))
    else ({ e with count := e.count + 1 } :: rest, none)
  | none => ({ sector := sec, wts := wts, rts := rts, count := 0 } :: rest.take 3, none)

/-- A store or atomic to a sector clears its entry (R130). -/
def Ctx.clearSpin (c : Ctx) (sec : Nat) : Ctx := { c with spin := c.spin.filter fun e => e.sector != sec }

end Sys2Proof.Machine
end

