-- ==== Sys2Proof/Machine/Operands.lean ====
section
/-!
DEFINITION. Operand forms: immediates and offsets (R39), the registers a word names (R15, R41), and the fate of a word
that names f or v registers or belongs to the W extension (R42, R58, R59, R73, R271).
-/
namespace Sys2Proof.Machine

/-- imm16 sign-extended (R39). -/
def simm (i : BitVec 16) : Word := i.signExtend 64

/-- imm16 zero-extended (R39). -/
def zimm (i : BitVec 16) : Word := i.setWidth 64

/-- off16 of a branch: sign-extended, times 4 (R39). -/
def branchOffset (o : BitVec 16) : Word := o.signExtend 64 * 4

/-- off26 of JAL: sign-extended, times 4 (R39). -/
def jumpOffset (o : BitVec 26) : Word := o.signExtend 64 * 4

/-- The address of a memory instruction: g[a] + SignExtend(off8) × size (R44). -/
def State.address (s : State) (a : Reg) (x : BitVec 8) (size : Nat) : Word :=
  s.rdG a + x.signExtend 64 * BitVec.ofNat 64 size

/-- Whether any of the named f or v registers has a number of at least n. -/
def names (n : Nat) (regs : List Reg) : Bool := regs.any fun r => decide (n ≤ r.toNat)

/-- What becomes of a word (R42). -/
inductive Fate where
  | execute
  | illegal
  | extMissing
  | migrate
  deriving DecidableEq, Repr

/-- The fate of a word in the executing context, from the f and v registers it names and whether it is a W word: the
handler check comes first, then XREG, which no core lists, then W (R42, R58, R59). -/
def State.fate (s : State) (regs : List Reg) (w : Bool) : Fate :=
  if s.inHandler && names 8 regs then .illegal
  else if names 16 regs then .extMissing
  else if w && !(isWCore s.execCore) then (if s.inHandler then .extMissing else .migrate)
  else .execute

/-- Sends the executing thread to the migration FIFO of its cluster (R24, R73, R198). -/
def State.awaitWCore (s : State) : State :=
  let cl := clusterOf s.execCore
  { (s.onHere fun c => { c with st := .migrationWaiting }) with
    migFifo := s.migFifo.set cl ((s.migFifo.getD cl []).filter (· != s.cur) ++ [s.cur]) }

/-- Executes a word by its fate (R42): ILLEGAL and EXTMISSING record PC and the word. -/
def State.allow (s : State) (i : Instr) (regs : List Reg) (w : Bool) (body : State → State) : State :=
  match s.fate regs w with
  | .execute => body s
  | .illegal => s.illegal i
  | .extMissing => s.trap .extMissing s.here.pc (instrWord i)
  | .migrate => s.awaitWCore

/-- The registers of a word of majors 0x00 and 0x02 to 0x0A: with d = 0 it is a hint, which reads no register (R43). -/
def unlessHint (d : Reg) (rs : List RegRef) : List RegRef := if d = 0 then [] else rs

/-- The registers that a word names (R15); the events of the module name none. -/
def regsOf : Instr → List RegRef
  | .add d a b => unlessHint d [.g d.toNat, .g a.toNat, .g b.toNat]
  | .sub d a b => unlessHint d [.g d.toNat, .g a.toNat, .g b.toNat]
  | .and d a b => unlessHint d [.g d.toNat, .g a.toNat, .g b.toNat]
  | .or d a b => unlessHint d [.g d.toNat, .g a.toNat, .g b.toNat]
  | .xor d a b => unlessHint d [.g d.toNat, .g a.toNat, .g b.toNat]
  | .andn d a b => unlessHint d [.g d.toNat, .g a.toNat, .g b.toNat]
  | .sll d a b => unlessHint d [.g d.toNat, .g a.toNat, .g b.toNat]
  | .srl d a b => unlessHint d [.g d.toNat, .g a.toNat, .g b.toNat]
  | .sra d a b => unlessHint d [.g d.toNat, .g a.toNat, .g b.toNat]
  | .slt d a b => unlessHint d [.g d.toNat, .g a.toNat, .g b.toNat]
  | .sltu d a b => unlessHint d [.g d.toNat, .g a.toNat, .g b.toNat]
  | .min d a b => unlessHint d [.g d.toNat, .g a.toNat, .g b.toNat]
  | .max d a b => unlessHint d [.g d.toNat, .g a.toNat, .g b.toNat]
  | .minu d a b => unlessHint d [.g d.toNat, .g a.toNat, .g b.toNat]
  | .maxu d a b => unlessHint d [.g d.toNat, .g a.toNat, .g b.toNat]
  | .mul d a b => unlessHint d [.g d.toNat, .g a.toNat, .g b.toNat]
  | .mulh d a b => unlessHint d [.g d.toNat, .g a.toNat, .g b.toNat]
  | .mulhu d a b => unlessHint d [.g d.toNat, .g a.toNat, .g b.toNat]
  | .clz d a => unlessHint d [.g d.toNat, .g a.toNat]
  | .ctz d a => unlessHint d [.g d.toNat, .g a.toNat]
  | .popc d a => unlessHint d [.g d.toNat, .g a.toNat]
  | .div d a b => [.g d.toNat, .g a.toNat, .g b.toNat]
  | .divu d a b => [.g d.toNat, .g a.toNat, .g b.toNat]
  | .rem d a b => [.g d.toNat, .g a.toNat, .g b.toNat]
  | .remu d a b => [.g d.toNat, .g a.toNat, .g b.toNat]
  | .nop => []
  | .addi d a _ => unlessHint d [.g d.toNat, .g a.toNat]
  | .andi d a _ => unlessHint d [.g d.toNat, .g a.toNat]
  | .ori d a _ => unlessHint d [.g d.toNat, .g a.toNat]
  | .xori d a _ => unlessHint d [.g d.toNat, .g a.toNat]
  | .slti d a _ => unlessHint d [.g d.toNat, .g a.toNat]
  | .sltiu d a _ => unlessHint d [.g d.toNat, .g a.toNat]
  | .slli d a _ => unlessHint d [.g d.toNat, .g a.toNat]
  | .srli d a _ => unlessHint d [.g d.toNat, .g a.toNat]
  | .srai d a _ => unlessHint d [.g d.toNat, .g a.toNat]
  | .lhi d _ => unlessHint d [.g d.toNat]
  | .shori d a _ => unlessHint d [.g d.toNat, .g a.toNat]
  | .beq a b _ => [.g a.toNat, .g b.toNat]
  | .bne a b _ => [.g a.toNat, .g b.toNat]
  | .blt a b _ => [.g a.toNat, .g b.toNat]
  | .bge a b _ => [.g a.toNat, .g b.toNat]
  | .bltu a b _ => [.g a.toNat, .g b.toNat]
  | .bgeu a b _ => [.g a.toNat, .g b.toNat]
  | .jal _ => [.g 1]
  | .jalr d a _ => [.g d.toNat, .g a.toNat]
  | .spawn d a b => [.g d.toNat, .g a.toNat, .g b.toNat]
  | .exit => []
  | .yield => []
  | .home d => [.g d.toNat]
  | .waitt a => [.g a.toNat]
  | .waittExpiry _ => []
  | .lclkup d a => [.g d.toNat, .g a.toNat]
  | .iflush => []
  | .trap _ => []
  | .eret => []
  | .crr d _ => [.g d.toNat]
  | .crw d a _ => [.g d.toNat, .g a.toNat]
  | .crs d a _ => [.g d.toNat, .g a.toNat]
  | .crc d a _ => [.g d.toNat, .g a.toNat]
  | .rwait d a _ _ => [.g d.toNat, .g a.toNat]
  | .rroom d a _ _ => [.g d.toNat, .g a.toNat]
  | .radvh d a _ _ => [.g d.toNat, .g a.toNat]
  | .radvt d a _ _ => [.g d.toNat, .g a.toNat]
  | .rld d _ w _ _ _ => if w == 1 then [.v d.toNat] else [.g d.toNat]
  | .rst d _ w _ _ _ => if w == 1 then [.v d.toNat] else [.g d.toNat]
  | .join d a b => [.g d.toNat, .g a.toNat, .g b.toNat]
  | .leave a => [.g a.toNat]
  | .bar d a => [.g d.toNat, .g a.toNat]
  | .cwait d a b => [.g d.toNat, .g a.toNat, .g b.toNat]
  | .ticket d a => [.g d.toNat, .g a.toNat]
  | .serve a => [.g a.toNat]
  | .gamoD d a b => [.g d.toNat, .g a.toNat, .g b.toNat]
  | .gamoW d a b => [.g d.toNat, .g a.toNat, .g b.toNat]
  | .gamoWindowEnd _ => []
  | .launch d a => [.g d.toNat, .g a.toNat]
  | .sendLo d a b v => [.g d.toNat, .g a.toNat, .g b.toNat, .v v.toNat, .v (v.toNat + 1), .v (v.toNat + 2), .v (v.toNat + 3)]
  | .sendHi d a b v => [.g d.toNat, .g a.toNat, .g b.toNat, .v v.toNat, .v (v.toNat + 1), .v (v.toNat + 2), .v (v.toNat + 3)]
  | .sendr d a b v => [.g d.toNat, .g a.toNat, .g b.toNat, .v v.toNat, .v (v.toNat + 1), .v (v.toNat + 2), .v (v.toNat + 3)]
  | .hret => []
  | .xpush d a => [.g d.toNat, .g a.toNat]
  | .xstat d a => [.g d.toNat, .g a.toNat]
  | .aadd d a b _ _ _ => [.g d.toNat, .g a.toNat, .g b.toNat]
  | .aand d a b _ _ _ => [.g d.toNat, .g a.toNat, .g b.toNat]
  | .aor d a b _ _ _ => [.g d.toNat, .g a.toNat, .g b.toNat]
  | .axor d a b _ _ _ => [.g d.toNat, .g a.toNat, .g b.toNat]
  | .amin d a b _ _ _ => [.g d.toNat, .g a.toNat, .g b.toNat]
  | .amax d a b _ _ _ => [.g d.toNat, .g a.toNat, .g b.toNat]
  | .aminu d a b _ _ _ => [.g d.toNat, .g a.toNat, .g b.toNat]
  | .amaxu d a b _ _ _ => [.g d.toNat, .g a.toNat, .g b.toNat]
  | .aswap d a b _ _ _ => [.g d.toNat, .g a.toNat, .g b.toNat]
  | .acas d a b _ _ _ => [.g d.toNat, .g a.toNat, .g b.toNat]
  | .afadd d a b _ _ _ => [.g d.toNat, .g a.toNat, .g b.toNat]
  | .mma d a b _ c => [.g d.toNat, .g a.toNat, .g b.toNat, .f c.toNat]
  | .mmasp d a b _ c => [.g d.toNat, .g a.toNat, .g b.toNat, .f c.toNat]
  | .ewr a _ => [.g a.toNat]
  | .erd d _ => [.g d.toNat]
  | .mzero _ => []
  | .mst d a b _ => [.g d.toNat, .g a.toNat, .g b.toNat]
  | .mldt d a b _ => [.g d.toNat, .g a.toNat, .g b.toNat]
  | .jwait d a => [.g d.toNat, .g a.toNat]
  | .jpoll d a => [.g d.toNat, .g a.toNat]
  | .lb d a _ _ _ _ _ => [.g d.toNat, .g a.toNat]
  | .lbu d a _ _ _ _ _ => [.g d.toNat, .g a.toNat]
  | .lh d a _ _ _ _ _ => [.g d.toNat, .g a.toNat]
  | .lhu d a _ _ _ _ _ => [.g d.toNat, .g a.toNat]
  | .lw d a _ _ _ _ _ => [.g d.toNat, .g a.toNat]
  | .lwu d a _ _ _ _ _ => [.g d.toNat, .g a.toNat]
  | .ld d a _ _ _ _ _ => [.g d.toNat, .g a.toNat]
  | .flw d a _ _ _ _ _ => [.f d.toNat, .g a.toNat]
  | .fld d a _ _ _ _ _ => [.f d.toNat, .g a.toNat]
  | .vld d a _ _ _ _ _ => [.v d.toNat, .g a.toNat]
  | .sb d a _ _ _ _ => [.g d.toNat, .g a.toNat]
  | .sh d a _ _ _ _ => [.g d.toNat, .g a.toNat]
  | .sw d a _ _ _ _ => [.g d.toNat, .g a.toNat]
  | .sd d a _ _ _ _ => [.g d.toNat, .g a.toNat]
  | .fsw d a _ _ _ _ => [.f d.toNat, .g a.toNat]
  | .fsd d a _ _ _ _ => [.f d.toNat, .g a.toNat]
  | .vst d a _ _ _ _ => [.v d.toNat, .g a.toNat]
  | .ldf d a _ _ => [.g d.toNat, .g a.toNat]
  | .ldfe d a _ _ => [.g d.toNat, .g a.toNat]
  | .sde d a _ _ => [.g d.toNat, .g a.toNat]
  | .fesetE a _ => [.g a.toNat]
  | .fesetF a _ => [.g a.toNat]
  | .fence _ => []
  | .ppurge a _ _ => [.g a.toNat]
  | .lease d a _ _ => [.g d.toNat, .g a.toNat]
  | .pref a _ _ _ => [.g a.toNat]
  | .vadd d a b k _ => [.v d.toNat, .v a.toNat, .v b.toNat, .k k.toNat]
  | .vsub d a b k _ => [.v d.toNat, .v a.toNat, .v b.toNat, .k k.toNat]
  | .vmul d a b k _ => [.v d.toNat, .v a.toNat, .v b.toNat, .k k.toNat]
  | .vmulh d a b k _ => [.v d.toNat, .v a.toNat, .v b.toNat, .k k.toNat]
  | .vmulhu d a b k _ => [.v d.toNat, .v a.toNat, .v b.toNat, .k k.toNat]
  | .vand d a b k _ => [.v d.toNat, .v a.toNat, .v b.toNat, .k k.toNat]
  | .vor d a b k _ => [.v d.toNat, .v a.toNat, .v b.toNat, .k k.toNat]
  | .vxor d a b k _ => [.v d.toNat, .v a.toNat, .v b.toNat, .k k.toNat]
  | .vsll d a b k _ => [.v d.toNat, .v a.toNat, .v b.toNat, .k k.toNat]
  | .vsrl d a b k _ => [.v d.toNat, .v a.toNat, .v b.toNat, .k k.toNat]
  | .vsra d a b k _ => [.v d.toNat, .v a.toNat, .v b.toNat, .k k.toNat]
  | .vmin d a b k _ => [.v d.toNat, .v a.toNat, .v b.toNat, .k k.toNat]
  | .vmax d a b k _ => [.v d.toNat, .v a.toNat, .v b.toNat, .k k.toNat]
  | .vminu d a b k _ => [.v d.toNat, .v a.toNat, .v b.toNat, .k k.toNat]
  | .vmaxu d a b k _ => [.v d.toNat, .v a.toNat, .v b.toNat, .k k.toNat]
  | .vadds d a b k _ => [.v d.toNat, .v a.toNat, .v b.toNat, .k k.toNat]
  | .vsubs d a b k _ => [.v d.toNat, .v a.toNat, .v b.toNat, .k k.toNat]
  | .vaddus d a b k _ => [.v d.toNat, .v a.toNat, .v b.toNat, .k k.toNat]
  | .vsubus d a b k _ => [.v d.toNat, .v a.toNat, .v b.toNat, .k k.toNat]
  | .vcmpeq d a b k _ => [.k d.toNat, .v a.toNat, .v b.toNat, .k k.toNat]
  | .vcmplt d a b k _ => [.k d.toNat, .v a.toNat, .v b.toNat, .k k.toNat]
  | .vcmpltu d a b k _ => [.k d.toNat, .v a.toNat, .v b.toNat, .k k.toNat]
  | .vsel d a b k _ => [.v d.toNat, .v a.toNat, .v b.toNat, .k k.toNat]
  | .vsplat d a k _ => [.v d.toNat, .g a.toNat, .k k.toNat]
  | .vext d a b _ => [.g d.toNat, .v a.toNat, .g b.toNat]
  | .vins d a b _ => [.v d.toNat, .g a.toNat, .g b.toNat]
  | .vperm d a b k _ => [.v d.toNat, .v a.toNat, .v b.toNat, .k k.toNat]
  | .vdot d a b k _ => [.v d.toNat, .v a.toNat, .v b.toNat, .k k.toNat]
  | .vred d a k _ => [.g d.toNat, .v a.toNat, .k k.toNat]
  | .kand d a b => [.k d.toNat, .k a.toNat, .k b.toNat]
  | .kor d a b => [.k d.toNat, .k a.toNat, .k b.toNat]
  | .kxor d a b => [.k d.toNat, .k a.toNat, .k b.toNat]
  | .kandn d a b => [.k d.toNat, .k a.toNat, .k b.toNat]
  | .kmovg d a => [.k d.toNat, .g a.toNat]
  | .gmovk d a => [.g d.toNat, .k a.toNat]
  | .fexp d a _ _ => [.f d.toNat, .f a.toNat]
  | .flog d a _ _ => [.f d.toNat, .f a.toNat]
  | .ferf d a _ _ => [.f d.toNat, .f a.toNat]
  | .fdivD d a b _ => [.f d.toNat, .f a.toNat, .f b.toNat]
  | .fsqrtD d a _ => [.f d.toNat, .f a.toNat]
  | .vcrc d a b => [.g d.toNat, .g a.toNat, .v b.toNat]
  | .fadd d a b _ _ => [.f d.toNat, .f a.toNat, .f b.toNat]
  | .fsub d a b _ _ => [.f d.toNat, .f a.toNat, .f b.toNat]
  | .fmul d a b _ _ => [.f d.toNat, .f a.toNat, .f b.toNat]
  | .fdivS d a b _ => [.f d.toNat, .f a.toNat, .f b.toNat]
  | .fsqrtS d a _ => [.f d.toNat, .f a.toNat]
  | .fmin d a b _ => [.f d.toNat, .f a.toNat, .f b.toNat]
  | .fmax d a b _ => [.f d.toNat, .f a.toNat, .f b.toNat]
  | .fma d a b _ _ => [.f d.toNat, .f a.toNat, .f b.toNat]
  | .fms d a b _ _ => [.f d.toNat, .f a.toNat, .f b.toNat]
  | .fnma d a b _ _ => [.f d.toNat, .f a.toNat, .f b.toNat]
  | .fnms d a b _ _ => [.f d.toNat, .f a.toNat, .f b.toNat]
  | .feq d a b _ => [.g d.toNat, .f a.toNat, .f b.toNat]
  | .flt d a b _ => [.g d.toNat, .f a.toNat, .f b.toNat]
  | .fle d a b _ => [.g d.toNat, .f a.toNat, .f b.toNat]
  | .fclass d a _ => [.g d.toNat, .f a.toNat]
  | .fsgnj d a b _ => [.f d.toNat, .f a.toNat, .f b.toNat]
  | .fsgnjn d a b _ => [.f d.toNat, .f a.toNat, .f b.toNat]
  | .fsgnjx d a b _ => [.f d.toNat, .f a.toNat, .f b.toNat]
  | .fmvfg d a _ => [.f d.toNat, .g a.toNat]
  | .fmvgf d a _ => [.g d.toNat, .f a.toNat]
  | .fcvt d a s _ t => [if intCode t then .g d.toNat else .f d.toNat, if intCode s then .g a.toNat else .f a.toNat]
  | .vcvt d a _ k _ _ => [.v d.toNat, .v a.toNat, .k k.toNat]
  | .vfadd d a b k _ _ => [.v d.toNat, .v a.toNat, .v b.toNat, .k k.toNat]
  | .vfsub d a b k _ _ => [.v d.toNat, .v a.toNat, .v b.toNat, .k k.toNat]
  | .vfmul d a b k _ _ => [.v d.toNat, .v a.toNat, .v b.toNat, .k k.toNat]
  | .vfma d a b k _ _ => [.v d.toNat, .v a.toNat, .v b.toNat, .k k.toNat]
  | .vfnma d a b k _ _ => [.v d.toNat, .v a.toNat, .v b.toNat, .k k.toNat]
  | .vfmin d a b k _ => [.v d.toNat, .v a.toNat, .v b.toNat, .k k.toNat]
  | .vfmax d a b k _ => [.v d.toNat, .v a.toNat, .v b.toNat, .k k.toNat]
  | .vfcmp d a b k _ _ => [.k d.toNat, .v a.toNat, .v b.toNat, .k k.toNat]
  | .vfredSum d a k _ _ => [.f d.toNat, .v a.toNat, .k k.toNat]
  | .vfredMin d a k _ => [.f d.toNat, .v a.toNat, .k k.toNat]
  | .vfredMax d a k _ => [.f d.toNat, .v a.toNat, .k k.toNat]
  | .migrateToWCore _ => []
  | .migrateReturn _ => []
  | .wCoreEarlyReturn _ => []
  | .copyCompletionInterrupt _ => []
  | .homeLoad _ _ _ => []
  | .dewAnswer _ _ => []
  | .loadReply _ => []
  | .homeStore _ => []
  | .horizonWaitEnd _ => []
  | .plsharedWriteRelease _ => []
  | .storeAck _ => []
  | .homeAtomic _ => []
  | .atomicResult _ => []
  | .lmAtomic _ => []
  | .pubPublish _ _ => []
  | .homeSweep => []
  | .pushReceive _ => []
  | .pushAnswer _ => []
  | .pushAck _ => []
  | .purgeAck _ => []
  | .squallWait _ => []
  | .squallWake _ => []
  | .squallEntryExpiry _ => []
  | .homeWaitRecord _ => []
  | .waitWake _ => []
  | .waitRepoll _ => []
  | .unrecordedResend _ => []
  | .messageArrival _ => []
  | .handlerStart _ _ => []
  | .messageAnswer _ => []
  | .handlerOverrun _ => []
  | .remoteLmStore _ => []
  | .refusedOfferRetry _ => []
  | .reservedHoldLapse _ => []
  | .pageResolve _ _ _ => []
  | .faultWake _ => []
  | .gateOpen _ _ => []
  | .launchAged _ _ => []
  | .threadPlace _ => []
  | .stagingDone _ => []
  | .launchComplete _ _ => []
  | .completionPost _ => []
  | .launchAbort _ _ => []
  | .isobarEstimate _ => []
  | .workAged _ => []
  | .clockRaiseCheck _ => []
  | .jobDispatch _ => []
  | .jobRetire _ => []
  | .copyDispatch _ => []
  | .copyElement _ _ _ => []
  | .copyResume _ => []
  | .copyDone _ _ => []
  | .gtrExchange _ _ _ => []
  | .zwionTimeExchange _ _ => []
  | .replyTimeout _ => []
  | .seqFetch _ => []
  | .rightsPurge _ _ => []
  | .translationPurge _ _ => []
  | .pageMigration _ _ _ => []
  | .wipe _ => []
  | .preemptDrainDeadline _ => []
  | .drainComplete _ => []
  | .dieReset _ _ => []
  | .quiesceDeadline _ => []
  | .homeReturn _ => []
  | .crossingReplay _ _ => []
  | .linkCrcRetry _ _ => []
  | .hbmPatrol _ _ => []
  | .hostGrant _ _ _ => []
  | .hostSnoop _ _ => []
  | .snoopAnswer _ => []
  | .writePullDrop _ => []
  | .hostMemAccess _ _ _ => []
  | .biasFlipToHost _ => []
  | .launchPortWrite _ _ _ => []
  | .vfRegisterWrite _ _ _ => []
  | .zwionFlitReceive _ _ _ _ _ _ _ _ => []
  | .zwionNak _ _ => []
  | .zwionBusyReplay _ _ => []
  | .zwionRetrain _ _ => []
  | .collStart _ _ => []
  | .collChunk _ _ _ _ _ => []
  | .collResult _ _ _ _ _ _ => []
  | .collDeadline _ _ => []
  | .mainUndervoltage => []
  | .mainPowerOn => []
  | .cxlHotReset => []
  | .primroseSelfTest _ => []
  | .firmwareVerify _ _ => []
  | .stewardStart _ => []
  | .hbmTraining _ => []
  | .disableMapLoad _ => []
  | .moduleWipe _ => []
  | .gtrInitialLock _ => []
  | .isobarStart _ => []
  | .ready => []
  | .cDieClamp _ _ => []
  | .baseDieClamp _ _ => []
  | .sDieClamp _ => []
  | .clampLift _ _ => []
  | .thermalTrip _ _ => []
  | .getStatus => []
  | .setCap _ _ => []
  | .getClocks => []
  | .readDisableMap _ => []
  | .partCreate _ => []
  | .partEnd _ => []
  | .partPreempt _ _ => []
  | .partRestore _ => []
  | .partResize _ _ _ => []
  | .partDrain _ _ => []
  | .domainCreate _ _ => []
  | .domainRetire _ => []
  | .rightsWrite _ _ _ _ => []
  | .readAbortLog _ => []
  | .readErrors => []
  | .collWrite _ _ _ => []
  | .timeSource _ => []
  | .biasDevice _ => []
  | .vfReset _ => []
  | .lifecycle _ _ _ => []
  | .raiseCounter _ => []
  | .reset _ => []
  | .i3cMainOff => []
  | .getVersion _ => []
  | .getCapabilities _ => []
  | .negotiateAlgorithms _ _ _ => []
  | .getDigests _ => []
  | .getCertificate _ _ => []
  | .challenge _ _ => []
  | .getMeasurements _ _ _ => []
  | .keyExchange _ _ => []
  | .finish _ _ => []
  | .endSession _ => []
  | .illegalInstruction _ => []
  | .unknownOpcode _ => []
  | .ptmTimeExchange _ => []
  | .dirtyEvictionAnswer _ => []
  | .regionMapWrite _ _ _ _ => []
  | .ideKeyProgramming _ _ _ => []

/-- Whether a result that the word waits for in the scoreboard is still to come to the context (R15). -/
def Ctx.blocked (c : Ctx) (i : Instr) : Bool := (regsOf i).any fun r => c.pend.contains r

/-- Results that are still to come to the contexts of a core: entries of its scoreboard in use (R15). -/
def State.scoreboard (s : State) (core : Nat) : Nat := ((List.range 6).map fun k => (s.ctx (core * 8 + k)).pend.length).sum

end Sys2Proof.Machine
end

