-- ==== Sys2Proof/Machine/Access.lean ====
section
/-!
DEFINITION. From an address to a target: the classification of R154, the PLB check of R307, the fates of R20 and R33 and
the alignment check of R153.
-/
namespace Sys2Proof.Machine

/-- The kinds of access that R33 and R154 tell apart. -/
inductive AccessKind where
  | load
  | store
  | atomic
  deriving DecidableEq, Repr

/-- R is needed (R154). -/
def AccessKind.reads : AccessKind → Bool
  | .load => true
  | .store => false
  | .atomic => true

/-- W is needed (R154). -/
def AccessKind.writes : AccessKind → Bool
  | .load => false
  | .store => true
  | .atomic => true

/-- What an access reaches, or the trap it takes. -/
inductive Target where
  | trap (c : Cause)
  | lm (core off : Nat)
  | memory (e : RightsEntry)
  deriving DecidableEq, Repr

/-- Whether the range of a rights entry holds an address (R306). -/
def RightsEntry.holds (e : RightsEntry) (a : Nat) : Bool := decide (e.base ≤ a) && decide (a < e.base + 2 ^ e.log2size)

/-- The rights entry of a domain that holds an address (R306, R307). -/
def State.rightsFor (s : State) (dom a : Nat) : Option RightsEntry :=
  match s.domains.get dom with
  | some d => (d.rights.find? fun e => e.2.holds a).map Prod.snd
  | none => none

/-- Looks an address up in a core's PLB; a miss is refilled from the rights table and replaces the least recently used of
32 entries (R307). -/
def State.plbLookup (s : State) (core dom a : Nat) : Option RightsEntry × State :=
  let hit (p : Nat × RightsEntry) : Bool := p.1 == dom && p.2.holds a
  match (s.core core).plb.find? hit with
  | some p => (some p.2, s.onCore core fun c => { c with plb := p :: c.plb.filter (· != p) })
  | none =>
    match s.rightsFor dom a with
    | some e => (some e, s.onCore core fun c => { c with plb := ((dom, e) :: c.plb).take 32 })
    | none => (none, s)

/-- The fate of an access to an LM window (R20, R33): `home` is the accessing context's home core, `exec` the core that
executes it, whose own cache region no access reaches (R20). -/
def State.lmFate (s : State) (part home exec : Nat) (kind : AccessKind) (core off : Nat) : Target :=
  if !(s.enabled core) then .trap .unmapped
  else if core = home then (if (s.core core).scratchEnd ≤ off then .trap .prot else .lm core off)
  else if !(s.inPart part core) then .trap .prot
  else if clusterOf core = clusterOf exec then
    (if (kind = .load ∨ core = exec) ∧ (s.core core).scratchEnd ≤ off then .trap .prot else .lm core off)
  else if kind = .load then .trap .prot
  else .lm core off

/-- Classifies an access of a context (R154): UNMAPPED, then the PLB check and the fates of R33 and R20, then alignment. -/
def State.locate (s : State) (id : Nat) (kind : AccessKind) (a : Word) (size : Nat) : Target × State :=
  let c := s.ctx id
  let t : Target × State :=
    match placeOf (s.homeOf id) a with
    | .unmapped => (.trap .unmapped, s)
    | .lm core off => (s.lmFate c.partNo (s.homeOf id) (coreOf id) kind core off, s)
    | .memory =>
      match s.plbLookup (coreOf id) c.accessDomain a.toNat with
      | (some e, s) =>
        if (kind.reads && !e.r) || (kind.writes && !e.w) then (.trap .prot, s) else (.memory e, s)
      | (none, s) => (.trap .prot, s)
  match t.1 with
  | .trap _ => t
  | _ => if a.toNat % size ≠ 0 then (.trap .misalign, t.2) else t

/-- Runs an access by its target; a trap has TRAPADDR = TRAPVAL = the address (R153, R307). -/
def State.withTarget (s : State) (kind : AccessKind) (a : Word) (size : Nat)
    (lm : State → Nat → Nat → State) (mem : State → RightsEntry → State) : State :=
  match s.locate s.cur kind a size with
  | (.trap c, s) => s.trap c a a
  | (.lm core off, s) => lm s core off
  | (.memory e, s) => mem s e

/-! ### The trace ring (R111, R112) -/

/-- TRACEB.EN (R111). -/
def traceOn (b : Word) : Bool := b.getLsbD 23

/-- log2 of the trace ring's entries (R111). -/
def traceLog (b : Word) : Nat := bitsOf b 16 4

/-- LM offset of trace entry 0 (R111). -/
def traceBase (b : Word) : Nat := bitsOf b 0 16

/-- Whether a trace ring is valid (R111). -/
def Core.traceValid (c : Core) : Bool :=
  decide (traceLog c.traceb ≤ 8) && decide (traceBase c.traceb % 32 = 0) &&
  c.inScratch (traceBase c.traceb) (2 ^ traceLog c.traceb * 32)

/-- Logs one traced write of a word at a port (R112): `src` is the source core, `kind` as R112 numbers it, `log2` of the
bytes written, the offset and the value recorded. -/
def State.traceWrite (s : State) (core src kind log2 off value : Nat) : State :=
  let c := s.core core
  if traceOn c.traceb && c.traceValid then
    let o := traceBase c.traceb + c.tracen.toNat % 2 ^ traceLog c.traceb * 32
    let s := s.lmWrite core o 8 (s.gtrOf (tileOf core))
    let s := s.lmWrite core (o + 8) 8 (src % 2 ^ 20 + log2 * 2 ^ 24 + kind * 2 ^ 28)
    let s := s.lmWrite core (o + 16) 8 off
    let s := s.lmWrite core (o + 24) 8 value
    s.onCore core fun c => { c with tracen := c.tracen + 1 }
  else s

/-- log2 of 1, 2, 4 or 8. -/
def sizeLog (n : Nat) : Nat := Nat.log2 n

/-- A write from another core at a port, traced word by word (R110, R112). -/
def State.tracedWrite (s : State) (core off n v src kind : Nat) : State :=
  let s := s.lmWrite core off n v
  let one (s : State) (o k : Nat) : State :=
    s.traceWrite core src kind (sizeLog k) (o / 8 * 8) (s.lmRead core (o / 8 * 8) 8)
  if n = 16 then one (one s off 8) (off + 8) 8 else one s off n

/-- A store of an executing core at an LM port: traced where that is another core than the owner, as for a migrated thread at its home core (R111). -/
def State.portStore (s : State) (exec core off n v : Nat) : State :=
  if exec = core then s.lmWrite core off n v else s.tracedWrite core off n v exec 0

/-! ### Contexts and accesses -/

/-- The launch slot and NUMBER of a context, as R119 records it. -/
def State.whoIs (s : State) (id : Nat) : Who :=
  .thread ((s.ctx id).launch.getD 0) ((s.ctx id).cr.tid.toNat % 2 ^ 32)

/-- The phase number of a partition (R117). -/
def State.phaseOf (s : State) (p : Nat) : Nat :=
  match s.parts.get p with
  | some q => q.phase
  | none => 0

/-- Drift: stores LCLK back raised to LF, wherever LCLK is read (R127). -/
def State.drift (s : State) (id : Nat) : State := s.raiseLclk id (s.lfOf id)

/-- PRES (R146): SKIP [61], REFUSED [60:30] and DELIVERED [29:0], saturating. -/
def presOf (skipped : Bool) (refused delivered : Nat) : Word :=
  BitVec.ofNat 64 ((if skipped then 2 ^ 61 else 0) + Nat.min refused (2 ^ 31 - 1) * 2 ^ 30 + Nat.min delivered (2 ^ 30 - 1))

/-- Records the push counts in PRES and restarts them (R105, R106, R146). -/
def Ctx.recordPushes (c : Ctx) : Ctx :=
  let pres := presOf c.pushSkipped c.pushRefused c.pushDelivered
  { c with pushDelivered := 0, pushRefused := 0, pushSkipped := false, cr := { c.cr with pres := pres } }

/-- Marks registers as still to come (R15). -/
def Ctx.await (c : Ctx) (r : RegRef) : Ctx := { c with pend := r :: c.pend.filter (· != r) }

/-- A register has been written (R15). -/
def Ctx.arrived (c : Ctx) (r : RegRef) : Ctx := { c with pend := c.pend.filter (· != r) }

end Sys2Proof.Machine
end

