-- ==== Sys2Proof/Machine/Memory.lean ====
section
/-!
DEFINITION. Loads, stores, FENCE, PPURGE, LEASE and PREF (R152 to R161, R165 to R168): what the instruction does when it
issues. Accesses of LM at the core or its cluster-mates are performed in the same step; accesses of memory and writes to
other cores' LM are sent, and the events of the homes and ports perform them (log 7).
-/
namespace Sys2Proof.Machine

/-! ### Loads (R155, R156) -/

/-- Access size of a load. -/
def LoadFmt.size : LoadFmt → Nat
  | .sx n => n
  | .zx n => n
  | .f32 => 4
  | .f64 => 8
  | .v128 => 16
  | .lease => 1
  | .pref => 1

/-- The register that a load writes; none for PREF and for g0. -/
def LoadFmt.target (fmt : LoadFmt) (d : Nat) : Option RegRef :=
  match fmt with
  | .sx _ => if d = 0 then none else some (.g d)
  | .zx _ => if d = 0 then none else some (.g d)
  | .lease => if d = 0 then none else some (.g d)
  | .f32 => some (.f d)
  | .f64 => some (.f d)
  | .v128 => some (.v d)
  | .pref => none

/-- Writes loaded bytes to the destination (R155). -/
def Ctx.deliver (c : Ctx) (fmt : LoadFmt) (d raw : Nat) : Ctx :=
  match fmt with
  | .sx n => c.wrG d ((BitVec.ofNat (8 * n) raw).signExtend 64)
  | .zx n => c.wrG d ((BitVec.ofNat (8 * n) raw).setWidth 64)
  | .lease => c.wrG d (BitVec.ofNat 64 raw)
  | .f32 => c.wrF d (BitVec.ofNat 64 (0xFFFFFFFF00000000 + raw % 2 ^ 32))
  | .f64 => c.wrF d (BitVec.ofNat 64 raw)
  | .v128 => c.wrV d (BitVec.ofNat 128 raw)
  | .pref => c

/-- Adds a register that is still to come, if there is one (R15). -/
def Ctx.awaitMaybe (c : Ctx) (r : Option RegRef) : Ctx :=
  match r with
  | some r => c.await r
  | none => c

/-- Takes a register off the scoreboard, if there is one. -/
def Ctx.arrivedMaybe (c : Ctx) (r : Option RegRef) : Ctx :=
  match r with
  | some r => c.arrived r
  | none => c

/-- Bytes of a sector copy from an address. -/
def SecCopy.bytes (x : SecCopy) (a n : Nat) : Nat := x.data.toNat / 2 ^ (8 * (a % 64)) % 2 ^ (8 * n)

/-- Whether the words of a copy that an access reads carry poison (R357). -/
def SecCopy.poisonedAt (x : SecCopy) (a n : Nat) : Bool :=
  (List.range 8).any fun w => x.poison.getLsbD w && decide (w * 8 < a % 64 + n) && decide (a % 64 < w * 8 + 8)

/-- What a returned version does to its context beside the destination (R97, R129): LCLK rises to the wts and, but for a
plshared load, the spin table is updated. -/
def State.absorbVersion (s : State) (id : Nat) (attr a : Nat) (x : SecCopy) (atHome : Bool) : State :=
  let s := s.raiseLclk id x.wts
  if x.shared attr then s
  else
    let (table, fire) := spinUpdate (s.ctx id).spin (sectorOf a) x.wts x.rts atHome
    let s := s.onCtx id fun c => { c with spin := table }
    match fire with
    | some v => s.raiseLclk id v
    | none => s

/-- Whether a copy may answer a load of the executing context from its own core's cache region: in a deterministic partition
only one that the same thread filled in the current phase (R98, R118, R126). -/
def State.ownHit (s : State) (id : Nat) (c : Stamp) (x : SecCopy) : Bool :=
  s.usable (tileOf (coreOf id)) c x &&
  (!(s.isDet (s.ctx id).partNo) ||
    decide (x.filledBy = some (((s.ctx id).launch.getD 0), ((s.ctx id).cr.tid.toNat % 2 ^ 32), s.phaseOf (s.ctx id).partNo)))

/-- Whether a context has an earlier load of a sector not yet returned, or an earlier store of the bytes not yet
acknowledged (R99). -/
def State.sectorBusy (s : State) (id before a n : Nat) : Bool :=
  (s.gamosOf id before).any (fun g => overlaps g.1 g.2.1 a n) ||
  (s.flightsOf id).any fun f => decide (f.seq < before) && match f.kind with
    | .load q => q.fmt != .pref && sectorOf q.addr == sectorOf a
    | .loadReply q _ => q.fmt != .pref && sectorOf q.addr == sectorOf a
    | .store q => overlaps q.addr q.size a n
    | .storeAck q _ => overlaps q.addr q.size a n
    | .atomic q => overlaps q.addr q.size a n
    | .atomicResult q _ => overlaps q.addr q.size a n
    | _ => false

/-- A load of memory (R156): a hit in the core's cache region performs at once, unless the agenda lets it answer later (log 7); otherwise the request is sent, its destination
is pending, and its launch is to be aborted if no region-map entry holds the address (R160, R310). -/
def State.loadMemory (s : State) (fmt : LoadFmt) (d : Nat) (a : Nat) (rc sc hint : Nat) (acq : Bool) (e : RightsEntry) : State :=
  let id := s.cur
  let c := s.here
  if s.acquiring id (s.scopeOf id a e.attr) then s
  else if !s.missRoom then s.awaitMiss
  else
    let s := s.drift id
    let clk := s.lclkOf id
    let seq := (s.core s.execCore).reqSeq
    let hit := if !s.late && mayCache e.attr hint && !(s.sectorBusy id seq a fmt.size) then
        match (s.core s.execCore).copy? c.partNo a with
        | some x => if s.ownHit id clk x then some x else none
        | none => none
      else none
    match hit with
    | some x =>
      if x.poisonedAt a fmt.size then s.machineCheck id (BitVec.ofNat 64 a)
      else
        let s := (s.onCore s.execCore fun q => q.touch c.partNo a).absorbVersion id e.attr a x false
        (s.onHere fun c => c.deliver fmt d (x.bytes a fmt.size)).retire
    | none =>
      let s := s.takeMissHere.send (.load { fmt := fmt, d := d, addr := a, rc := rc, acq := acq, sc := sc, hint := hint, attr := e.attr, ro := !e.w, c := clk })
      (s.onHere fun c => c.awaitMaybe (fmt.target d)).retire

/-- A load of LM at the core or a cluster-mate (R110, R156): the bytes at the port; poison is consumed (R357). It reads the port at once, unless the agenda sends it there like any
other access (R107; log 7). -/
def State.loadLm (s : State) (fmt : LoadFmt) (d core off : Nat) (acq : Bool) (sc : Nat) : State :=
  let a := lmAddr core off
  if s.acquiring s.cur (s.scopeOf s.cur a 0) || s.lmHeld s.cur core a fmt.size true then s
  else if s.late then ((s.send (.lmLoad fmt d a acq sc)).onHere fun c => c.awaitMaybe (fmt.target d)).retire
  else if s.poisoned a fmt.size then s.machineCheck s.cur (BitVec.ofNat 64 a)
  else (s.onHere fun c => c.deliver fmt d (s.lmRead core off fmt.size)).retire

/-- A load instruction (R155, R156). -/
def State.load (s : State) (i : Instr) (fmt : LoadFmt) (regs : List Reg) (d a : Reg) (r : BitVec 2) (o : BitVec 1)
    (sc h : BitVec 2) (x : BitVec 8) : State :=
  s.allow i regs false fun s =>
    let addr := s.address a x fmt.size
    s.withTarget .load addr fmt.size
      (fun s core off => s.loadLm fmt d.toNat core off (o == 1) sc.toNat)
      (fun s e => s.loadMemory fmt d.toNat addr.toNat r.toNat sc.toNat h.toNat (o == 1) e)

/-- LB (R155). -/
def execLb (d a : Reg) (r : BitVec 2) (o : BitVec 1) (sc h : BitVec 2) (x : BitVec 8) (s : State) : Answer :=
  .next (s.load (.lb d a r o sc h x) (.sx 1) [] d a r o sc h x)

/-- LBU (R155). -/
def execLbu (d a : Reg) (r : BitVec 2) (o : BitVec 1) (sc h : BitVec 2) (x : BitVec 8) (s : State) : Answer :=
  .next (s.load (.lbu d a r o sc h x) (.zx 1) [] d a r o sc h x)

/-- LH (R155). -/
def execLh (d a : Reg) (r : BitVec 2) (o : BitVec 1) (sc h : BitVec 2) (x : BitVec 8) (s : State) : Answer :=
  .next (s.load (.lh d a r o sc h x) (.sx 2) [] d a r o sc h x)

/-- LHU (R155). -/
def execLhu (d a : Reg) (r : BitVec 2) (o : BitVec 1) (sc h : BitVec 2) (x : BitVec 8) (s : State) : Answer :=
  .next (s.load (.lhu d a r o sc h x) (.zx 2) [] d a r o sc h x)

/-- LW (R155). -/
def execLw (d a : Reg) (r : BitVec 2) (o : BitVec 1) (sc h : BitVec 2) (x : BitVec 8) (s : State) : Answer :=
  .next (s.load (.lw d a r o sc h x) (.sx 4) [] d a r o sc h x)

/-- LWU (R155). -/
def execLwu (d a : Reg) (r : BitVec 2) (o : BitVec 1) (sc h : BitVec 2) (x : BitVec 8) (s : State) : Answer :=
  .next (s.load (.lwu d a r o sc h x) (.zx 4) [] d a r o sc h x)

/-- LD (R155). -/
def execLd (d a : Reg) (r : BitVec 2) (o : BitVec 1) (sc h : BitVec 2) (x : BitVec 8) (s : State) : Answer :=
  .next (s.load (.ld d a r o sc h x) (.zx 8) [] d a r o sc h x)

/-- FLW: bits [63:32] all ones (R155). -/
def execFlw (d a : Reg) (r : BitVec 2) (o : BitVec 1) (sc h : BitVec 2) (x : BitVec 8) (s : State) : Answer :=
  .next (s.load (.flw d a r o sc h x) .f32 [d] d a r o sc h x)

/-- FLD (R155). -/
def execFld (d a : Reg) (r : BitVec 2) (o : BitVec 1) (sc h : BitVec 2) (x : BitVec 8) (s : State) : Answer :=
  .next (s.load (.fld d a r o sc h x) .f64 [d] d a r o sc h x)

/-- VLD (R155). -/
def execVld (d a : Reg) (r : BitVec 2) (o : BitVec 1) (sc h : BitVec 2) (x : BitVec 8) (s : State) : Answer :=
  .next (s.load (.vld d a r o sc h x) .v128 [d] d a r o sc h x)

/-! ### Stores (R157 to R159) -/

/-- Whether a PSET value is valid for a partition (R143). -/
def State.psetValid (s : State) (p : Nat) (v : BitVec 41) : Bool :=
  let n := v.toNat
  let x0 := n % 512
  let y0 := n / 512 % 256
  let wm := n / 2 ^ 17 % 256
  let hm := n / 2 ^ 25 % 256
  let mask := n / 2 ^ 33
  mask != 0 && decide (x0 + wm ≤ 511) && decide (y0 + hm ≤ 255) &&
  decide ((wm + 1) * (hm + 1) * ((List.range 8).filter fun i => mask.testBit i).length ≤ 256) &&
  match s.parts.get p with
  | some q => q.covers x0 y0 && q.covers (x0 + wm) (y0 + hm)
  | none => false

/-- A store to memory (R158): it holds at a full store buffer or behind an acquire, and is then sent with LCLK and PSET as
they stand; the thread goes on. -/
def State.storeMemory (s : State) (a n : Nat) (data : Quad) (o sc : Nat) (nl : Bool) (e : RightsEntry) : State :=
  let id := s.cur
  if s.acquiring id (s.scopeOf id a e.attr) || decide (16 ≤ s.storeBuffer s.execCore) then s
  else
    let s := (s.drift id).onHere fun c => c.clearSpin (sectorOf a)
    let s := s.send (.store
      { addr := a, size := n, data := data, rel := o % 2 == 1, push := decide (2 ≤ o), sc := sc, nl := nl, attr := e.attr
        l := s.lclkOf id, pset := s.here.cr.pset, psetOk := s.psetValid s.here.partNo s.here.cr.pset })
    s.retire

/-- A store to LM (R158, R159): it holds at a full store buffer. At the home core it performs at once, unless a release still waits or the agenda sends it to the port like
any other (log 7); to another core it is sent to the port. A push sets SKIP when it performs. -/
def State.storeLm (s : State) (core off n : Nat) (data : Quad) (o sc : Nat) : State :=
  let id := s.cur
  let a := lmAddr core off
  let rel := o % 2 == 1
  let waits := rel && (s.unperformed id sc (s.core s.execCore).reqSeq || s.pushing id (s.core s.execCore).reqSeq)
  if s.acquiring id (s.scopeOf id a 0) || s.lmHeld id core a n false || decide (16 ≤ s.storeBuffer s.execCore) then s
  else if core = s.homeCore ∧ waits = false ∧ s.late = false then
    let s := s.onHere fun c => if rel then c.recordPushes else c
    let s := s.onHere fun c => if 2 ≤ o then { c with pushSkipped := true } else c
    (s.portStore s.execCore core off n data.toNat).retire
  else (s.sendSkip (.lmWrite a (.store n data) rel sc) (decide (2 ≤ o))).retire

/-- A store instruction (R157, R158). -/
def State.store (s : State) (i : Instr) (n : Nat) (regs : List Reg) (data : State → Quad) (a : Reg) (o sc : BitVec 2)
    (h : BitVec 1) (x : BitVec 8) : State :=
  s.allow i regs false fun s =>
    let addr := s.address a x n
    s.withTarget .store addr n
      (fun s core off => s.storeLm core off n (data s) o.toNat sc.toNat)
      (fun s e => s.storeMemory addr.toNat n (data s) o.toNat sc.toNat (h == 1) e)

/-- The low n bits of a g register as store data. -/
def State.gData (s : State) (d : Reg) (n : Nat) : Quad := BitVec.ofNat 128 ((s.rdG d).toNat % 2 ^ n)

/-- The low n bits of an f register as store data; the high half is not checked (R157). -/
def State.fData (s : State) (d : Reg) (n : Nat) : Quad := BitVec.ofNat 128 ((s.rdF d).toNat % 2 ^ n)

/-- SB (R157). -/
def execSb (d a : Reg) (o sc : BitVec 2) (h : BitVec 1) (x : BitVec 8) (s : State) : Answer :=
  .next (s.store (.sb d a o sc h x) 1 [] (fun s => s.gData d 8) a o sc h x)

/-- SH (R157). -/
def execSh (d a : Reg) (o sc : BitVec 2) (h : BitVec 1) (x : BitVec 8) (s : State) : Answer :=
  .next (s.store (.sh d a o sc h x) 2 [] (fun s => s.gData d 16) a o sc h x)

/-- SW (R157). -/
def execSw (d a : Reg) (o sc : BitVec 2) (h : BitVec 1) (x : BitVec 8) (s : State) : Answer :=
  .next (s.store (.sw d a o sc h x) 4 [] (fun s => s.gData d 32) a o sc h x)

/-- SD (R157). -/
def execSd (d a : Reg) (o sc : BitVec 2) (h : BitVec 1) (x : BitVec 8) (s : State) : Answer :=
  .next (s.store (.sd d a o sc h x) 8 [] (fun s => s.gData d 64) a o sc h x)

/-- FSW (R157). -/
def execFsw (d a : Reg) (o sc : BitVec 2) (h : BitVec 1) (x : BitVec 8) (s : State) : Answer :=
  .next (s.store (.fsw d a o sc h x) 4 [d] (fun s => s.fData d 32) a o sc h x)

/-- FSD (R157). -/
def execFsd (d a : Reg) (o sc : BitVec 2) (h : BitVec 1) (x : BitVec 8) (s : State) : Answer :=
  .next (s.store (.fsd d a o sc h x) 8 [d] (fun s => s.fData d 64) a o sc h x)

/-- VST (R157). -/
def execVst (d a : Reg) (o sc : BitVec 2) (h : BitVec 1) (x : BitVec 8) (s : State) : Answer :=
  .next (s.store (.vst d a o sc h x) 16 [d] (fun s => s.rdV d) a o sc h x)

/-! ### FENCE, PPURGE, LEASE, PREF -/

/-- FENCE (R106, R165): waits until every earlier access within the scope has performed and every push has been answered;
then the push results are recorded, LCLK is read after drift and the spin table is cleared (R130). -/
def execFence (sc : BitVec 2) (s : State) : Answer :=
  .next (if s.unperformed s.cur sc.toNat (s.core s.execCore).reqSeq || s.pushing s.cur (s.core s.execCore).reqSeq then s
    else ((s.drift s.cur).onHere fun c => { c.recordPushes with spin := [] }).retire)

/-- PPURGE (R142, R166): after the thread's earlier loads of the line, the line is dropped from the core's cache region and from
every dew store on the path, and a purge is sent whose acknowledgement performs it. -/
def execPpurge (a : Reg) (r : BitVec 2) (x : BitVec 8) (s : State) : Answer :=
  let addr := s.address a x 64
  let c := s.here
  .next (match placeOf s.homeCore addr with
    | .unmapped => s.trap .unmapped addr addr
    | .lm core _ =>
      if !(s.enabled core) then s.trap .unmapped addr addr
      else if core ≠ s.homeCore ∧ s.inPart c.partNo core = false then s.trap .prot addr addr
      else s.retire
    | .memory =>
      match s.plbLookup s.execCore c.accessDomain addr.toNat with
      | (none, s) => s.trap .prot addr addr
      | (some e, s) =>
        if !(e.r || e.w || e.x) then s.trap .prot addr addr
        else if s.acquiring s.cur 2 ||
            (s.flightsOf s.cur).any (fun f => match f.kind with
              | .load q => lineOf q.addr == lineOf addr.toNat
              | .loadReply q _ => lineOf q.addr == lineOf addr.toNat
              | _ => false) then s
        else if !s.missRoom then s.awaitMiss
        else
          let s := s.onCore s.execCore fun q => q.dropLine c.partNo addr.toNat
          match s.homeSlice c.partNo addr.toNat with
          | none => s.retire
          | some sl =>
            let s := s.purgeAlong (requestPath r.toNat s.execCore sl) c.partNo addr.toNat
            (s.takeMissHere.send (.purge (lineOf addr.toNat) r.toNat)).retire)

/-- LEASE (R167): g[d] gets 0 for LM, uncached and plshared; otherwise a request is sent that no dew store answers. With d ≠ 0 it
raises DETFORBID in a deterministic partition. -/
def execLease (d a : Reg) (r : BitVec 2) (x : BitVec 8) (s : State) : Answer :=
  let addr := s.address a x 64
  .next (if s.detHere && d != 0 then s.detForbid (.lease d a r x)
    else s.withTarget .load addr 1
      (fun s _ _ => s.finishG d 0)
      (fun s e =>
        if e.attr = attrUncached ∨ e.attr = attrPlshared then s.finishG d 0
        else if s.acquiring s.cur (s.scopeOf s.cur addr.toNat e.attr) then s
        else if !s.missRoom then s.awaitMiss
        else
          let s := s.drift s.cur
          let s := s.takeMissHere.send (.load
            { fmt := .lease, d := d.toNat, addr := addr.toNat, rc := r.toNat, acq := false, sc := 0, hint := 0
              attr := e.attr, ro := !e.w, c := s.lclkOf s.cur })
          (s.onHere fun c => c.awaitMaybe (LoadFmt.lease.target d.toNat)).retire))

/-- PREF (R168): a load with no destination; only an unmapped address traps, and any other failure, a full miss table, an LM
address and a deterministic partition (R177) drop it. A copy in the core's cache region answers it. -/
def execPref (a : Reg) (r : BitVec 2) (h : BitVec 1) (x : BitVec 8) (s : State) : Answer :=
  let addr := s.address a x 64
  let c := s.here
  .next (match placeOf s.homeCore addr with
    | .unmapped => s.trap .unmapped addr addr
    | .lm core _ => if s.enabled core then s.retire else s.trap .unmapped addr addr
    | .memory =>
      match s.plbLookup s.execCore c.accessDomain addr.toNat with
      | (none, s) => s.retire
      | (some e, s) =>
        let s := s.drift s.cur
        let clk := s.lclkOf s.cur
        let hit := match (s.core s.execCore).copy? c.partNo addr.toNat with
          | some k => mayCache e.attr h.toNat && s.usable (tileOf s.execCore) clk k
          | none => false
        if !e.r || s.detHere then s.retire
        else if hit then (s.onCore s.execCore fun q => q.touch c.partNo addr.toNat).retire
        else if !s.missRoom || (s.homeSlice c.partNo addr.toNat).isNone then s.retire
        else if s.acquiring s.cur (s.scopeOf s.cur addr.toNat e.attr) then s
        else
          let s := s.send (.load
            { fmt := .pref, d := 0, addr := addr.toNat, rc := r.toNat, acq := false, sc := 0, hint := h.toNat
              attr := e.attr, ro := !e.w, c := clk })
          s.retire)

end Sys2Proof.Machine
end

