-- ==== Sys2Proof/Machine/Port.lean ====
section
/-!
DEFINITION. The LM port: the trace ring (R111, R112), full/empty instructions and their waiters (R162 to R164).
-/
namespace Sys2Proof.Machine

/-! ### Full/empty operations (R162, R163) -/

/-- Whether the condition of a full/empty operation holds at a word. -/
def State.feReady (s : State) (a : Nat) (op : FeOp) : Bool :=
  match op with
  | .ldf _ => s.full a
  | .ldfe _ => s.full a
  | .sde _ _ => !(s.full a)

/-- The register that a full/empty operation writes. -/
def FeOp.target : FeOp → Option RegRef
  | .ldf d => if d = 0 then none else some (.g d)
  | .ldfe d => if d = 0 then none else some (.g d)
  | .sde _ _ => none

/-- Performs a full/empty operation whose condition holds, for a context (R162): one port step. Poison is consumed by a read
(R357), and the write of a context of another core is traced (R112). The value read for a context that has ended goes nowhere. -/
def State.feDo (s : State) (id uid a : Nat) (op : FeOp) : State :=
  let core := (lmCore? a).getD 0
  let off := (a - globalBase) % 0x8000
  let live := (s.ctx id).uid == uid
  let read (s : State) (d : Nat) : State :=
    if !live then s
    else if s.poisoned a 8 then s.machineCheck id (BitVec.ofNat 64 a)
    else s.onCtx id fun c => (c.deliver (.zx 8) d (s.lmRead core off 8)).arrivedMaybe (op.target)
  match op with
  | .ldf d => read s d
  | .ldfe d => (read s d).setFull a false
  | .sde v bad =>
    let s := if coreOf id = core then s.lmWrite core off 8 v.toNat else s.tracedWrite core off 8 v.toNat (coreOf id) 1
    (if bad then s.setPoison a true else s).setFull a true

/-- Serves the earliest waiter of a word whose condition holds (R163); a waiter's entry frees. -/
def State.serveOne (s : State) (a : Nat) : Option State :=
  match s.net.waiters.findIdx? fun w => w.addr == wordOf a && s.feReady w.addr w.op with
  | none => none
  | some i =>
    match s.net.waiters[i]? with
    | none => none
    | some w =>
      let s := { s with net := { s.net with waiters := s.net.waiters.eraseIdx i } }
      some ((s.unitFreed (.lmPort ((lmCore? w.addr).getD 0))).feDo w.ctx w.uid w.addr w.op)

/-- Serves waiters of a word until none can perform: each is tested against the state the one before leaves (R163). -/
def State.serveWaiters (s : State) (a : Nat) : Nat → State
  | 0 => s
  | k + 1 =>
    match s.serveOne a with
    | some s' => State.serveWaiters s' a k
    | none => s

/-- Sets a word's full/empty bit and serves its waiters in the same port step (R163). -/
def State.setFullServe (s : State) (a : Nat) (full : Bool) : State :=
  (s.setFull a full).serveWaiters a s.net.waiters.length

/-- Waiters at the port of a core. -/
def State.waitersAt (s : State) (core : Nat) : Nat :=
  (s.net.waiters.filter fun w => decide (lmCore? w.addr = some core)).length

/-- A full/empty operation of a context reaches a port (R163, R164): it performs, waits, or is refused when every waiter entry
is in use or held; `true` says it was not refused. -/
def State.feArrive (s : State) (id uid a : Nat) (op : FeOp) (acq : Bool) (seq part : Nat) (launch : Option Nat) (word : IWord) : Bool × State :=
  let core := (lmCore? a).getD 0
  let (ok, s) := s.offer (.lmPort core) id (32 - s.waitersAt core)
  if !ok then (false, s)
  else if s.feReady a op then
    let s := s.feDo id uid a op
    (true, s.serveWaiters a s.net.waiters.length)
  else
    let w : Waiter := { addr := wordOf a, op := op, acq := acq, ctx := id, uid := uid, part := part, launch := launch, seq := seq, word := word }
    (true, { s with net := { s.net with waiters := s.net.waiters ++ [w] } })

/-- The target of a full/empty instruction (R162): memory raises PROT before the alignment check. -/
def State.feTarget (s : State) (kind : AccessKind) (a : Word) (run : State → Nat → Nat → State) : State :=
  match placeOf s.homeCore a with
  | .memory => s.trap .prot a a
  | _ => s.withTarget kind a 8 run (fun s _ => s.trap .prot a a)

/-- LDF, LDFE and SDE of a word the core reaches at once: they perform, wait at the port with the destination pending, or are
kept at the core and offered again (R163, R164). -/
def State.feIssue (s : State) (core off : Nat) (op : FeOp) (acq : Bool) : State :=
  let id := s.cur
  let a := lmAddr core off
  if s.acquiring id (s.scopeOf id a 0) || s.lmHeld id core a 8 true then s
  else
    let seq := (s.core s.execCore).reqSeq
    let s := s.onHere fun c => c.awaitMaybe op.target
    let c := s.here
    match s.feArrive id c.uid a op acq seq c.partNo c.launch s.wordHere with
    | (true, s) => (s.onCore s.execCore fun q => { q with reqSeq := q.reqSeq + 1 }).retire
    | (false, s) => ((s.send (.feOffer a op acq)).onLast fun f => { f with offered := s.gtrOf (tileOf s.execCore) }).retire

/-- LDF (R162, R163). -/
def execLdf (d a : Reg) (o : BitVec 1) (x : BitVec 8) (s : State) : Answer :=
  .next (s.feTarget .load (s.address a x 8) fun s core off => s.feIssue core off (.ldf d.toNat) (o == 1))

/-- LDFE (R162, R163). -/
def execLdfe (d a : Reg) (o : BitVec 1) (x : BitVec 8) (s : State) : Answer :=
  .next (s.feTarget .load (s.address a x 8) fun s core off => s.feIssue core off (.ldfe d.toNat) (o == 1))

/-- SDE (R162, R163): to another core's LM it is sent to the port. A release waits at the narrowest scope of the word
(R105, R162). -/
def execSde (d a : Reg) (o : BitVec 1) (x : BitVec 8) (s : State) : Answer :=
  .next (s.feTarget .store (s.address a x 8) fun s core off =>
    let w := lmAddr core off
    let sc := s.scopeOf s.cur w 0
    if core = s.homeCore then
      if o == 1 && (s.unperformed s.cur sc (s.core s.execCore).reqSeq || s.pushing s.cur (s.core s.execCore).reqSeq) then s
      else if s.acquiring s.cur (s.scopeOf s.cur w 0) || s.lmHeld s.cur core w 8 true then s
      else (s.onHere fun c => if o == 1 then c.recordPushes else c).feIssue core off (.sde (s.rdG d)) false
    else if s.acquiring s.cur sc || s.feHeld s.cur core || decide (16 ≤ s.storeBuffer s.execCore) then s
    else (s.send (.lmWrite w (.sde (s.rdG d)) (o == 1) sc)).retire)

/-- The trace entry of a FESET from another core. FESET writes no byte and the spec gives no value for the size field: the model's 3 (log 57). -/
def State.traceFeset (s : State) (exec core off : Nat) (full : Bool) : State :=
  if exec = core then s else s.traceWrite core exec (if full then 3 else 2) 3 (off / 8 * 8) (s.lmRead core (off / 8 * 8) 8)

/-- FESET of either kind (R162): the bit is set and the data unchanged. -/
def State.feset (s : State) (a : Reg) (x : BitVec 8) (full : Bool) : State :=
  s.feTarget .store (s.address a x 8) fun s core off =>
    let w := lmAddr core off
    if s.acquiring s.cur (s.scopeOf s.cur w 0) || s.lmHeld s.cur core w 8 false then s
    else if core = s.homeCore then ((s.traceFeset s.execCore core off full).setFullServe w full).retire
    else if 16 ≤ s.storeBuffer s.execCore then s
    else (s.send (.lmWrite w (.feset full) false 0)).retire

/-- FESET.e (R162). -/
def execFesetE (a : Reg) (x : BitVec 8) (s : State) : Answer := .next (s.feset a x false)

/-- FESET.f (R162). -/
def execFesetF (a : Reg) (x : BitVec 8) (s : State) : Answer := .next (s.feset a x true)

end Sys2Proof.Machine
end

