-- ==== Sys2Proof/Machine/Ring.lean ====
section
/-!
DEFINITION. Ring descriptors (R28, R29) and the ring instructions (R169 to R172).
-/
namespace Sys2Proof.Machine

/-- TAIL of a descriptor (R28). -/
def ringTail (w : Word) : Nat := bitsOf w 48 16

/-- HEAD of a descriptor (R28). -/
def ringHead (w : Word) : Nat := bitsOf w 32 16

/-- Slot size in bytes (R28). -/
def ringSlotSize (w : Word) : Nat := 8 * 2 ^ bitsOf w 28 4

/-- Slot count (R28). -/
def ringSlots (w : Word) : Nat := 2 ^ bitsOf w 24 4

/-- LM offset of slot 0 (R28). -/
def ringBase (w : Word) : Nat := bitsOf w 0 16

/-- Filled count (R29). -/
def ringFilled (w : Word) : Nat := (ringTail w + 65536 - ringHead w) % 65536

/-- Free count (R29): the slot count minus the filled count. -/
def ringFree (w : Word) : Nat := ringSlots w - ringFilled w

/-- Whether a descriptor is valid for a core (R29). -/
def Core.ringValid (c : Core) (w : Word) : Bool :=
  decide (bitsOf w 28 4 ≤ 5) && decide (bitsOf w 24 4 ≤ 8) && decide (ringBase w % ringSlotSize w = 0) &&
  c.inScratch (ringBase w) (ringSlots w * ringSlotSize w) && decide (ringFilled w ≤ ringSlots w)

/-- Ring q of a core (R28). -/
def Core.ring (c : Core) (q : Nat) : Word := c.rings.getD q 0

/-- A descriptor with another HEAD. -/
def withHead (w : Word) (h : Nat) : Word :=
  BitVec.ofNat 64 (w.toNat / 2 ^ 48 * 2 ^ 48 + h % 65536 * 2 ^ 32 + w.toNat % 2 ^ 32)

/-- A descriptor with another TAIL. -/
def withTail (w : Word) (t : Nat) : Word := BitVec.ofNat 64 (t % 65536 * 2 ^ 48 + w.toNat % 2 ^ 48)

/-- LM offset of slot i counted from a pointer (R29). -/
def ringSlotAt (w : Word) (ptr i : Nat) : Nat := ringBase w + (ptr + i) % ringSlots w * ringSlotSize w

/-- What RWAIT and RROOM find in a descriptor (R170): RINGFAULT, the count they wait for, or that they wait. -/
inductive RingTest where
  | fault
  | met (count : Nat)
  | wait
  deriving DecidableEq, Repr

/-- The test of RWAIT and RROOM (R170): RINGFAULT for an invalid descriptor or a count above the slot count; the filled or free count once it reaches k. -/
def Core.ringTest (c : Core) (q k : Nat) (room : Bool) : RingTest :=
  let w := c.ring q
  let count := if room then ringFree w else ringFilled w
  if !(c.ringValid w) || decide (ringSlots w < k) then .fault else if k ≤ count then .met count else .wait

/-- A waiting RWAIT or RROOM tests a descriptor that has changed (R170). -/
def State.retestRing (s : State) (id q k d : Nat) (room : Bool) : State :=
  match (s.core (s.homeOf id)).ringTest q k room with
  | .fault => (s.onCtx id Ctx.wakeUp).trapLater id .ringFault 0 (BitVec.ofNat 64 k) (s.ctx id).pc
  | .met count => s.onCtx id fun c => (c.wakeUp.wrG d (BitVec.ofNat 64 count)).retireAt false (c.pc + 4)
  | .wait => s

/-- A change of a ring's descriptor makes every RWAIT and RROOM on it test again (R170). -/
def State.wakeRing (s : State) (core q : Nat) : State :=
  s.ctxs.foldl
    (fun (s : State) x =>
      if (s.ctx x.1).st = .waiting ∧ s.homeOf x.1 = core then
        match (s.ctx x.1).wait with
        | .rwait r k d => if r = q then s.retestRing x.1 q k d false else s
        | .rroom r k d => if r = q then s.retestRing x.1 q k d true else s
        | _ => s
      else s) s

/-- Writes a descriptor and lets every RWAIT and RROOM on it test again (R170); slots that become free are units of the ring
(R200). -/
def State.setRing (s : State) (core q : Nat) (w : Word) : State :=
  (s.onCore core fun c => { c with rings := c.rings.set q w }).wakeRing core q

/-- RWAIT and RROOM (R170): RINGFAULT for an invalid descriptor or a count above the slot count; otherwise the context waits
until the filled or free count reaches k and then receives the count. A ring is part of the home-core LM, so an acquire holds every ring instruction back (R103, R104). -/
def State.ringWait (s : State) (d a : Reg) (q n : Nat) (room : Bool) : State :=
  let k := (s.rdG a).toNat + n
  if s.acquiring s.cur 0 then s else
  match (s.core s.homeCore).ringTest q k room with
  | .fault => s.trap .ringFault 0 (BitVec.ofNat 64 k)
  | .met count => s.finishG d (BitVec.ofNat 64 count)
  | .wait => s.onHere fun x => { x with st := .waiting, wait := if room then .rroom q k d.toNat else .rwait q k d.toNat }

/-- RADVH and RADVT (R171): check and update are one step, made once the context's earlier accesses to the ring's LM have
performed. -/
def State.ringAdvance (s : State) (d a : Reg) (q n : Nat) (tail : Bool) : State :=
  let core := s.homeCore
  let c := s.core core
  let w := c.ring q
  let k := (s.rdG a).toNat + n
  if s.acquiring s.cur 0 then s
  else if !(c.ringValid w) || decide ((if tail then ringFree w else ringFilled w) < k) then
    s.trap .ringFault 0 (BitVec.ofNat 64 k)
  else if s.lmHeld s.cur core 0 0 true then s
  else
    let p := ((if tail then ringTail w else ringHead w) + k) % 65536
    (s.setRing core q (if tail then withTail w p else withHead w p)).finishG d (BitVec.ofNat 64 p)

/-- RWAIT (R170). -/
def execRwait (d a : Reg) (q : BitVec 3) (n : BitVec 9) (s : State) : Answer := .next (s.ringWait d a q.toNat n.toNat false)

/-- RROOM (R170). -/
def execRroom (d a : Reg) (q : BitVec 3) (n : BitVec 9) (s : State) : Answer := .next (s.ringWait d a q.toNat n.toNat true)

/-- RADVH (R171). -/
def execRadvh (d a : Reg) (q : BitVec 3) (n : BitVec 9) (s : State) : Answer :=
  .next (let t := s.ringAdvance d a q.toNat n.toNat false
    if (t.core s.homeCore).rings = (s.core s.homeCore).rings then t
    else t.unitsFreed (.ring s.homeCore q.toNat) ((s.rdG a).toNat + n.toNat))

/-- RADVT (R171). -/
def execRadvt (d a : Reg) (q : BitVec 3) (n : BitVec 9) (s : State) : Answer := .next (s.ringAdvance d a q.toNat n.toNat true)

/-- Runs RLD or RST at the offset of slot i (R172), after the descriptor, the slot and the offset have been checked. -/
def State.ringAccess (s : State) (t : BitVec 1) (size q i o : Nat) (run : State → Nat → State) : State :=
  let c := s.core s.homeCore
  let w := c.ring q
  if s.acquiring s.cur 0 then s
  else if !(c.ringValid w) || decide (ringSlots w ≤ i) || decide (ringSlotSize w < o * size + size) then
    s.trap .ringFault 0 (BitVec.ofNat 64 i)
  else run s (ringSlotAt w (if t = 1 then ringTail w else ringHead w) i + o * size)

/-- RLD (R172). -/
def execRld (d : Reg) (t w : BitVec 1) (q : BitVec 3) (i o : BitVec 8) (s : State) : Answer :=
  let size := if w = 0 then 8 else 16
  .next (s.allow (.rld d t w q i o) (if w = 0 then [] else [d]) false fun s =>
    s.ringAccess t size q.toNat i.toNat o.toNat fun s off =>
      s.loadLm (if w = 0 then .zx 8 else .v128) d.toNat s.homeCore off false 0)

/-- RST (R172). In a deterministic partition a second context that writes the ring in one phase raises RACE (R121). -/
def execRst (d : Reg) (t w : BitVec 1) (q : BitVec 3) (i o : BitVec 8) (s : State) : Answer :=
  let size := if w = 0 then 8 else 16
  .next (s.allow (.rst d t w q i o) (if w = 0 then [] else [d]) false fun s =>
    s.ringAccess t size q.toNat i.toNat o.toNat fun s off =>
      let core := s.homeCore
      let me := (s.phaseOf s.here.partNo, s.here.launch.getD 0, s.here.cr.tid.toNat % 2 ^ 32)
      let store (s : State) : State :=
        s.storeLm core off size (if w = 0 then BitVec.ofNat 128 (s.rdG d).toNat else s.rdV d) 0 0
      if s.detHere then
        match (s.core core).ringWriter.get q.toNat with
        | some x =>
          if x.1 = me.1 ∧ x ≠ me then
            s.trap .race (BitVec.ofNat 64 (lmAddr core off)) (Who.raceValue (.thread x.2.1 x.2.2))
          else store (s.onCore core fun c => { c with ringWriter := c.ringWriter.set q.toNat me })
        | none => store (s.onCore core fun c => { c with ringWriter := c.ringWriter.set q.toNat me })
      else store s)

end Sys2Proof.Machine
end

