-- ==== Sys2Proof/Machine/Control.lean ====
section
/-!
DEFINITION. The control registers: reading and presenting (R77 to R81), and what deterministic partitions forbid (R95).
-/
namespace Sys2Proof.Machine

/-- The energy headroom H of a partition on a tile, in milliwatts, rounded down and saturated (R191, R194). -/
def headroomOf (e : Energy) : Word :=
  let h := (e.target - e.estimate) / 1000
  let h := if h < -2147483648 then -2147483648 else if 2147483647 < h then 2147483647 else h
  BitVec.ofNat 64 (h % 4294967296).toNat

/-- GTRS of a die (R149): LOCK [15], EXT [14], BOUND [11:0]. -/
def State.gtrsOf (s : State) (d : Nat) : Word :=
  let x := s.die d
  BitVec.ofNat 64 ((if x.locked then 2 ^ 15 else 0) + (if s.mgmt.ext then 2 ^ 14 else 0) + x.boundNow)

/-- The value of a control register, zero-extended (R77, R78). Per-core registers are those of the home core; XLIST is that
of the executing core. -/
def State.crRead (s : State) (n : Nat) : Word :=
  let c := s.here
  let r := c.cr
  let k := s.core s.homeCore
  let die := tileOf s.execCore
  match n with
  | 0x000 => r.tid
  | 0x001 => BitVec.ofNat 64 s.execCore
  | 0x002 => if isWCore s.execCore then 3 else 1
  | 0x003 => r.domain.setWidth 64
  | 0x004 => r.part.setWidth 64
  | 0x008 => BitVec.ofNat 64 ((s.die die).cycle / 640)
  | 0x009 => BitVec.ofNat 64 (s.gtrOf die)
  | 0x00A => s.gtrsOf die
  | 0x00B => (s.lclkOf s.cur).setWidth 64
  | 0x010 => r.fflags.setWidth 64
  | 0x011 => r.ftrapen.setWidth 64
  | 0x012 => r.frm.setWidth 64
  | 0x020 => r.trapvec
  | 0x021 => r.trappc
  | 0x022 => r.trapcause.setWidth 64
  | 0x023 => r.trapaddr
  | 0x024 => r.trapval
  | 0x030 => r.xferid
  | 0x031 => r.xien.setWidth 64
  | 0x038 => r.pset.setWidth 64
  | 0x039 => k.pquota.setWidth 64
  | 0x03A => r.pres
  | 0x040 => r.bounceq.setWidth 64
  | 0x041 => r.bounces.setWidth 64
  | 0x042 => k.mboxd.setWidth 64
  | 0x043 => k.hlimit.setWidth 64
  | 0x048 => k.traceb
  | 0x049 => k.tracen.setWidth 64
  | 0x050 => headroomOf (s.energy.getD (die * 16 + c.partNo) {})
  | 0x051 => r.jobst
  | _ => if 0x060 ≤ n ∧ n ≤ 0x067 then k.ring (n - 0x060) else 0

/-- A presented ring descriptor or trace descriptor with its reserved bits [23:16] or its own taken out. -/
def ringBits (v : Word) : Word := v &&& 0xFFFFFFFFFF00FFFF

/-- TRACEB: EN [23], LOG [19:16], BASE [15:0] (R111). -/
def traceBits (v : Word) : Word := v &&& 0x00000000008FFFFF

/-- Changes the control registers of the executing context. -/
def State.onCr (s : State) (f : CtxCr → CtxCr) : State := s.onHere fun c => c.onCr f

/-- Writes MBOXD; slots that a raise adds are units that free (R80, R196). A hold that is still running when a lowered MBOXD takes its slot away runs on to its lapse, and slots that
free later are held for the next source: R196 keeps the list and is silent on the hold (log 63). -/
def State.writeMboxd (s : State) (core v : Nat) : State :=
  if v = 0 ∨ 8 < v then s
  else
    let old := (s.core core).mboxd.toNat
    let s := s.onCore core fun c => { c with mboxd := BitVec.ofNat 4 v }
    let added (box : FMap Msg) : Nat := ((List.range 8).filter fun i => decide (old ≤ i) && decide (i < v) && (box.get i).isNone).length
    let k := s.core core
    (s.unitsFreed (.mailbox core .lo) (added k.boxLo)).unitsFreed (.mailbox core .hi) (added k.boxHi)

/-- Presents a value to a control register (R78, R80): an RO register ignores it, and a value that R80 names leaves the whole
register unchanged. -/
def State.present (s : State) (n : Nat) (v : Word) : State :=
  let core := s.homeCore
  match n with
  | 0x010 => s.onCr fun r => { r with fflags := v.setWidth 5 }
  | 0x011 => s.onCr fun r => { r with ftrapen := v.setWidth 5 }
  | 0x012 => if 5 ≤ (v.setWidth 3 : BitVec 3).toNat then s else s.onCr fun r => { r with frm := v.setWidth 3 }
  | 0x020 => s.onCr fun r => { r with trapvec := v &&& 0xFFFFFFFFFFFFFFFC }
  | 0x021 => s.onCr fun r => { r with trappc := v &&& 0xFFFFFFFFFFFFFFFC }
  | 0x031 => s.onCr fun r => { r with xien := v.setWidth 1 }
  | 0x038 => s.onCr fun r => { r with pset := v.setWidth 41 }
  | 0x039 => if 48 < (v.setWidth 6 : BitVec 6).toNat then s else s.onCore core fun c => { c with pquota := v.setWidth 6 }
  | 0x040 =>
    if v.getLsbD 3 && !((s.core core).ringValid ((s.core core).ring (v.toNat % 8))) then s
    else s.onCr fun r => { r with bounceq := v.setWidth 4 }
  | 0x041 => s.onCr fun r => { r with bounces := v.setWidth 32 }
  | 0x042 => s.writeMboxd core (v.toNat % 16)
  | 0x043 =>
    if s.inHandler || decide ((v.setWidth 32 : BitVec 32).toNat < 256) then s
    else s.onCore core fun c => { c with hlimit := v.setWidth 32 }
  | 0x048 => s.onCore core fun c => { c with traceb := traceBits v }
  | 0x049 => s.onCore core fun c => { c with tracen := v.setWidth 32 }
  | _ => if 0x060 ≤ n ∧ n ≤ 0x067 then s.setRing core (n - 0x060) (ringBits v) else s

/-- Registers whose value depends on timing or refusals (R95). -/
def timingCr (n : Nat) : Bool := [0x001, 0x008, 0x009, 0x00A, 0x00B, 0x050, 0x049, 0x041, 0x03A].contains n

/-- One step of CRR, CRW, CRS or CRC (R78, R79): the whole old value in g[d] and, except for CRR, a value presented. Reading LCLK
stores it back raised to LF (R127). -/
def State.controlStep (s : State) (i : Instr) (reads : Bool) (d : Reg) (n : BitVec 12) (value : Option (Word → Word)) : State :=
  if s.detHere && timingCr n.toNat && reads then s.detForbid i
  else
    let old := s.crRead n.toNat
    let s := if n = 0x00B then s.drift s.cur else s
    let s := match value with
      | none => s
      | some f => s.present n.toNat (f old)
    s.finishG d old

/-- CRR (R78); it always reads, so it is forbidden for the registers of R95 even with d = 0. -/
def execCrr (d : Reg) (n : BitVec 12) (s : State) : Answer :=
  .next (s.controlStep (.crr d n) true d n none)

/-- CRW (R78). -/
def execCrw (d a : Reg) (n : BitVec 12) (s : State) : Answer :=
  .next (s.controlStep (.crw d a n) (d != 0) d n (some fun _ => s.rdG a))

/-- CRS (R78). -/
def execCrs (d a : Reg) (n : BitVec 12) (s : State) : Answer :=
  .next (s.controlStep (.crs d a n) (d != 0) d n (some fun old => old ||| s.rdG a))

/-- CRC (R78). -/
def execCrc (d a : Reg) (n : BitVec 12) (s : State) : Answer :=
  .next (s.controlStep (.crc d a n) (d != 0) d n (some fun old => old &&& ~~~(s.rdG a)))

end Sys2Proof.Machine
end

