-- ==== Sys2Proof/Machine/System.lean ====
section
/-!
DEFINITION. Thread and system instructions (R82 to R94), the states of a launch as its threads come and go (R181, R185,
R190), and moving a thread between the cores of a cluster (R17, R73, R198).
-/
namespace Sys2Proof.Machine

/-! ### States of a launch (R181) -/

/-- Open to Placed and Placed to Draining, where they are due, and back to Open when a SPAWN has added a thread (R181). A spawned thread that waits for the phase barrier
(R84) keeps its launch from draining. -/
def Launch.settle (l : Launch) : Launch :=
  let l := if l.st = .placed ∧ l.nextNumber < l.threads then { l with st := .open_ } else l
  let l := if l.st = .open_ ∧ l.threads ≤ l.nextNumber then { l with st := .placed } else l
  if l.st = .placed ∧ l.live = 0 ∧ l.due = 0 then { l with st := .draining } else l

/-- Raises a launch's completion clock (R185). -/
def Launch.raiseClock (l : Launch) (v : Stamp) : Launch := { l with clock := maxStamp l.clock v }

/-- Whether a thread of a launch has its home at a core. -/
def State.homedHere (s : State) (p slot core : Nat) : Bool :=
  s.ctxs.any fun q => !(isHandler q.1) && q.2.st != .free && q.2.home == core && q.2.launch == some slot && q.2.partNo == p

/-- Whether a copy or matrix job of a launch on a core has not ended (R181): a copy until it is DONE or FAILED, a job until it retires. -/
def Core.works (c : Core) (p slot : Nat) : Bool :=
  c.copies.any (fun x => decide (1 ≤ x.2.status ∧ x.2.status ≤ 3) && x.2.launch == some slot && x.2.part == p) ||
  c.jobs.any fun j => j.launch == some slot && j.part == p

/-- STRIDE of MST and MLDT (R295, R297). -/
def optStride (w : Word) : Nat := bitsOf w 16 16

/-- Byte offset of source element (r, c) of MLDT from its address (R297). -/
def mldtOffset (opts : Word) (r c : Nat) : Nat :=
  r * optStride opts + 8 * ((bitsOf opts 8 8 + c / 4) ^^^ (r &&& bitsOf opts 2 3)) + 2 * (c % 4)

/-- All source offsets of MLDT. -/
def mldtOffsets (opts : Word) : List Nat := (List.range 256).map fun x => mldtOffset opts (x / 16) (x % 16)

/-- The least source offset of MLDT. -/
def mldtLow (opts : Word) : Nat := (mldtOffsets opts).foldl Nat.min ((mldtOffsets opts).headD 0)

/-- Cores whose LM a job of a core reads (R282, R297): its own for its panels, and for MLDT the one that holds its sources. -/
def Job.readsAt (j : Job) (own core : Nat) : Bool :=
  match j.kind with
  | .mldt addr opts _ => lmCore? (addr.toNat + mldtLow opts) == some core
  | .mma _ _ _ _ _ => own == core
  | _ => false

/-- Whether a copy that has not ended reads its core's LM: a source or a block table there, or a source that a table names (R220, R222). -/
def CopyRec.readsLm (x : CopyRec) (core : Nat) : Bool :=
  let inLm (a : Word) : Bool := match placeOf core a with
    | .lm _ _ => true
    | _ => false
  let bt := bitsOf (x.block.getD 3 0) 6 2
  decide (1 ≤ x.status ∧ x.status ≤ 3) && (bt == 1 || inLm (x.block.getD 0 0) || (bt != 0 && inLm (x.block.getD 7 0)))

/-- Whether a copy or matrix job still reads the LM of a core, or works there for a launch (R85): of any launch of the partition, at the core, or an MLDT that a core of the cluster
has queued. -/
def State.workHere (s : State) (p slot core : Nat) : Bool :=
  (s.core core).works p slot || (s.core core).copies.any (fun x => x.2.part == p && x.2.readsLm core) ||
  (List.range 8).any fun k => (s.core (clusterOf core * 8 + k)).jobs.any fun j => j.part == p && j.readsAt (clusterOf core * 8 + k) core

/-- Lets the footprints of a launch on a core go when no thread, copy or job of it is left there (R85, R190). -/
def State.releasePins (s : State) (p slot core : Nat) : State :=
  if s.homedHere p slot core || s.workHere p slot core then s
  else s.onCore core fun c => { c with pins := c.pins.filter fun x => !(x.launch == slot && x.part == p) }

/-- Lets go the footprints on a core, of every launch of a partition, that only work which has ended kept (R85). -/
def State.letPins (s : State) (p core : Nat) : State :=
  (((s.core core).pins.filter fun x => x.part == p).map fun x => x.launch).foldl (fun (s : State) slot => s.releasePins p slot core) s

/-! ### Moving between the cores of a cluster (R73, R198) -/

/-- The lowest free thread context of a core. -/
def State.freeThread (s : State) (core : Nat) : Option Nat :=
  (([0, 1, 2, 3] : List Nat).find? fun n => (s.ctx (core * 8 + n)).st = .free).map (core * 8 + ·)

/-- A part of a GAMO whose context has another id now. -/
def GamoPart.renamed (x : GamoPart) (a u b : Nat) : GamoPart := if x.ctx = a ∧ x.uid = u then { x with ctx := b } else x

/-- A flight whose context has another id now. -/
def Flight.renamed (f : Flight) (a u b : Nat) : Flight :=
  let f := if f.ctx = a ∧ f.uid = u then { f with ctx := b } else f
  match f.kind with
  | .atomic q => { f with kind := .atomic { q with parts := q.parts.map fun x => x.renamed a u b } }
  | .atomicResult q r => { f with kind := .atomicResult { q with parts := q.parts.map fun x => x.renamed a u b } r }
  | _ => f

/-- Everything that names a context by its id names it by another one (R376). -/
def State.renameCtx (s : State) (a b : Nat) : State :=
  let n := s.net
  let u := (s.ctx a).uid
  { s with net := { n with
      flights := n.flights.map fun f => f.renamed a u b
      lost := n.lost.map fun f => f.renamed a u b
      waiters := n.waiters.map fun w => if w.ctx = a ∧ w.uid = u then { w with ctx := b } else w
      gathers := n.gathers.map fun g => if g.ctx = a ∧ g.uid = u then { g with ctx := b } else g
      gamo := n.gamo.map fun e => { e with parts := e.parts.map fun x => x.renamed a u b } } }

/-- Moves a context to a free place; its registers, control registers and LCLK, after drift, go with it (R73, R127), and its spin table is cleared (R130). -/
def State.moveCtx (s : State) (a b : Nat) (f : Ctx → Ctx) : State :=
  let c := s.ctx a
  ((s.renameCtx a b).setCtx a {}).setCtx b (f { c with spin := [], clocks := [], cr := { c.cr with lclk := s.lclkOf a } })

/-- Replaces the migration FIFO of a cluster (R198). -/
def State.setFifo (s : State) (cluster : Nat) (ids : List Nat) : State :=
  { s with migFifo := if ids = [] then s.migFifo.del cluster else s.migFifo.set cluster ids }

/-- Moves the thread at the head of a cluster's migration FIFO to the W-core, once it has drained and a W-core context is free; it waits to migrate
(R73, R198). -/
def State.migrateHead (s : State) (cluster : Nat) : State :=
  match s.migFifo.getD cluster [] with
  | [] => s
  | a :: rest =>
    match s.freeThread (cluster * 8 + 7) with
    | none => s
    | some b =>
      if (s.ctx a).st = .migrationWaiting ∧ s.drained a = true then
        (s.setFifo cluster rest).moveCtx a b fun c =>
          { c with st := .ready, migrated := true, migSince := s.gtrOf (tileOf b), migCount := 0 }
      else s

/-- Where a thread returns to from the W-core (R73): the lowest free context of its home core, else of the lowest L-core of the
cluster that has one. -/
def State.returnPlace (s : State) (id : Nat) : Option Nat :=
  let cl := clusterOf (coreOf id)
  match s.freeThread (s.ctx id).home with
  | some b => some b
  | none => ((List.range 7).filterMap fun k => s.freeThread (cl * 8 + k)).head?

/-- Returns a thread to an L-core if there is room, and lets the next of the FIFO in (R73, R198). -/
def State.returnFromW (s : State) (id : Nat) : State :=
  match s.returnPlace id with
  | none => s
  | some b => (s.moveCtx id b fun c => { c with migrated := false, migCount := 0 }).migrateHead (clusterOf (coreOf id))

/-! ### Thread instructions -/

/-- YIELD (R86, R94): the round-robin goes on with the next ready thread; no register changes. -/
def execYield (s : State) : Answer := .next s.retire

/-- HOME (R87). -/
def execHome (d : Reg) (s : State) : Answer := .next (s.finishG d (BitVec.ofNat 64 s.homeCore))

/-- WAITT (R88, R94). -/
def execWaitt (a : Reg) (s : State) : Answer :=
  .next (if s.inHandler then s.illegal (.waitt a)
    else if (s.rdG a).toNat ≤ s.gtrOf (tileOf s.execCore) then s.retire
    else s.onHere fun c => { c with st := .waiting, wait := .waitt (s.rdG a) })

/-- LCLKUP (R89, R94): LCLK rises to g[a][39:0], at most to the stamp horizon; g[d] gets the old value. -/
def execLclkup (d a : Reg) (s : State) : Answer :=
  .next (if s.detHere && d != 0 then s.detForbid (.lclkup d a)
    else
      let old := s.lclkOf s.cur
      let h := s.horizon s.here.partNo (tileOf s.execCore)
      let v : Stamp := (s.rdG a).setWidth 40
      let v := if later v h then h else v
      (s.raiseLclk s.cur v).finishG d (old.setWidth 64))

/-- Writes of a context to its home core's LM that have not performed (R93). -/
def State.ownLmWrites (s : State) (id : Nat) : Bool :=
  let mine (a : Nat) : Bool := decide (lmCore? a = some (s.homeOf id))
  (s.flightsOf id).any (fun f => match f.kind with
    | .lmWrite a _ _ _ => mine a
    | .feOffer a (.sde _ _) _ => mine a
    | _ => false) ||
  (s.waitersOf id).any fun w => match w.op with
    | .sde _ _ => mine w.addr
    | _ => false

/-- IFLUSH (R93). -/
def execIflush (s : State) : Answer :=
  .next (if s.ownLmWrites s.cur then s else (s.onCore s.execCore fun c => { c with fetch := [] }).retire)

/-- TRAP (R91): BREAK with the code in TRAPVAL and TRAPPC = PC + 4. -/
def execTrap (c : BitVec 5) (s : State) : Answer :=
  .next (s.trapOf s.cur .brk s.here.pc (c.setWidth 64) (s.here.pc + 4))

/-- ERET (R92, R94). -/
def execEret (s : State) : Answer :=
  .next (if s.inHandler || !(s.here.nested) then s.illegal .eret else s.onHere fun c => c.leaveTrap)

/-- Most threads a launch may hold (R83, R184). -/
def Launch.maxThreads (l : Launch) : Nat := if l.group = 0 then 2 ^ 32 - 1 else 2 ^ 24 - 1

/-- Whether an address is a self-window address of a core's scratch. -/
def Core.scratchEntry (c : Core) (e : Word) : Bool :=
  decide (selfBase + 0x400 ≤ e.toNat) && decide (e.toNat < selfBase + c.scratchEnd)

/-- Adds a thread to a launch (R83): at once with the next NUMBER, or in a deterministic partition at the phase barrier (R84). -/
def State.addSpawn (s : State) (p slot number : Nat) (x : Spawned) : State :=
  if s.isDet p then s.onPart p fun q => { q.onLaunch slot fun l => { l with due := l.due + 1 } with phaseSpawns := q.phaseSpawns ++ [(slot, number, x)] }
  else s.onLaunch p slot fun l =>
    { l with threads := l.threads + 1, spawned := l.spawned ++ [{ x with number := l.threads }] }.settle

/-- SPAWN (R83, R84, R94). What counts is the threads that the launch holds: in a deterministic partition that number is fixed at the start of the phase, and the threads that are due
at its end do not count yet. -/
def execSpawn (d a b : Reg) (s : State) : Answer :=
  let e := s.rdG a
  let c := s.here
  .next (if s.inHandler then s.illegal (.spawn d a b)
    else if e.toNat % 4 ≠ 0 then s.trap .misalign e e
    else if !((s.core s.homeCore).scratchEntry e) then s.trap .prot e e
    else if s.unperformed s.cur 3 (s.core s.execCore).reqSeq || s.pushing s.cur (s.core s.execCore).reqSeq then s
    else
      let slot := c.launch.getD 0
      match s.launch? c.partNo slot with
      | none => s.finishG d 1
      | some l =>
        if l.maxThreads ≤ l.threads then s.finishG d 1
        else
          let s := s.drift s.cur
          (s.addSpawn c.partNo slot (c.cr.tid.toNat % 2 ^ 32)
            { number := 0, entry := e, arg := s.rdG b, tid := c.cr.tid, lclk := s.lclkOf s.cur }).finishG d 0)

/-- A word that decodes to no instruction (R42): ILLEGAL with TRAPADDR = PC and TRAPVAL the word. -/
def execIllegalInstruction (word : IWord) (s : State) : Answer :=
  .next (s.trap .illegal s.here.pc (word.setWidth 64))

end Sys2Proof.Machine
end

