-- ==== Sys2Proof/Machine/Atomic.lean ====
section
/-!
DEFINITION. Atomics (R173 to R177): what the instruction does when it issues. The home or the owning core performs it.
-/
namespace Sys2Proof.Machine

/-- Sends an atomic of the executing context to memory (R102, R158, R174): it holds behind an acquire and at a full store buffer, and
goes with LCLK after drift. -/
def State.sendAtomic (s : State) (q : AtomReq) (after : Ctx → Ctx) : State :=
  let id := s.cur
  if s.acquiring id (s.scopeOf id q.addr q.attr) || decide (16 ≤ s.storeBuffer s.execCore) then s
  else
    let s := (s.drift id).onHere fun c => c.clearSpin (sectorOf q.addr)
    let s := s.send (.atomic { q with l := s.lclkOf id })
    (s.onHere fun c => after (c.awaitMaybe (if q.d = 0 then none else some (.g q.d)))).retire

/-- Sends an atomic to the port of an LM (R175). -/
def State.sendLmAtomic (s : State) (q : AtomReq) (core : Nat) : State :=
  let id := s.cur
  if s.acquiring id (s.scopeOf id q.addr 0) || s.lmHeld id core q.addr q.size true || decide (16 ≤ s.storeBuffer s.execCore) then s
  else
    let s := s.send (.atomic q)
    (s.onHere fun c => c.awaitMaybe (if q.d = 0 then none else some (.g q.d))).retire

/-- Whether an atomic is forbidden in a deterministic partition (R120). -/
def amoForbidden (op : Nat) (d : Reg) : Bool := op == 10 || (decide (op ≤ 7) && d != 0)

/-- An atomic instruction (R173): ord 1 and 3 acquire, 2 and 3 release (R40). -/
def State.atomic (s : State) (i : Instr) (op : Nat) (d a b : Reg) (o sc : BitVec 2) (z : BitVec 1) : State :=
  if s.detHere && amoForbidden op d then s.detForbid i
  else
    let size := if z = 0 then 4 else 8
    let addr := s.rdG a
    let q (at_ : Nat) (attr : Nat) : AtomReq :=
      { op := .amo op, addr := at_, size := size, b := s.rdG b, cmp := s.rdG d, d := d.toNat, acq := o.toNat % 2 == 1, rel := decide (2 ≤ o.toNat)
        sc := sc.toNat, attr := attr, l := 0 }
    s.withTarget .atomic addr size
      (fun s core off => s.sendLmAtomic (q (lmAddr core off) 0) core)
      (fun s e => s.sendAtomic (q addr.toNat e.attr) fun c => c)

/-- AADD (R173). -/
def execAadd (d a b : Reg) (o s : BitVec 2) (z : BitVec 1) (st : State) : Answer :=
  .next (st.atomic (.aadd d a b o s z) 0 d a b o s z)

/-- AAND (R173). -/
def execAand (d a b : Reg) (o s : BitVec 2) (z : BitVec 1) (st : State) : Answer :=
  .next (st.atomic (.aand d a b o s z) 1 d a b o s z)

/-- AOR (R173). -/
def execAor (d a b : Reg) (o s : BitVec 2) (z : BitVec 1) (st : State) : Answer :=
  .next (st.atomic (.aor d a b o s z) 2 d a b o s z)

/-- AXOR (R173). -/
def execAxor (d a b : Reg) (o s : BitVec 2) (z : BitVec 1) (st : State) : Answer :=
  .next (st.atomic (.axor d a b o s z) 3 d a b o s z)

/-- AMIN (R173). -/
def execAmin (d a b : Reg) (o s : BitVec 2) (z : BitVec 1) (st : State) : Answer :=
  .next (st.atomic (.amin d a b o s z) 4 d a b o s z)

/-- AMAX (R173). -/
def execAmax (d a b : Reg) (o s : BitVec 2) (z : BitVec 1) (st : State) : Answer :=
  .next (st.atomic (.amax d a b o s z) 5 d a b o s z)

/-- AMINU (R173). -/
def execAminu (d a b : Reg) (o s : BitVec 2) (z : BitVec 1) (st : State) : Answer :=
  .next (st.atomic (.aminu d a b o s z) 6 d a b o s z)

/-- AMAXU (R173). -/
def execAmaxu (d a b : Reg) (o s : BitVec 2) (z : BitVec 1) (st : State) : Answer :=
  .next (st.atomic (.amaxu d a b o s z) 7 d a b o s z)

/-- ASWAP (R173). -/
def execAswap (d a b : Reg) (o s : BitVec 2) (z : BitVec 1) (st : State) : Answer :=
  .next (st.atomic (.aswap d a b o s z) 8 d a b o s z)

/-- ACAS (R173): it compares with g[d] as it stood at issue. -/
def execAcas (d a b : Reg) (o s : BitVec 2) (z : BitVec 1) (st : State) : Answer :=
  .next (st.atomic (.acas d a b o s z) 9 d a b o s z)

/-- AFADD (R173); always forbidden in a deterministic partition (R120). -/
def execAfadd (d a b : Reg) (o s : BitVec 2) (z : BitVec 1) (st : State) : Answer :=
  .next (st.atomic (.afadd d a b o s z) 10 d a b o s z)

end Sys2Proof.Machine
end

