-- ==== Sys2Proof/Config.lean ====
section
/-!
DEFINITION. What one implementation fixes and the manual leaves open, as constants without a body: no proof can see
their values, so what is proved holds for every value.
-/
namespace Sys2Proof

/-- Entries of the park buffer of a home slice (R161 gives no number; log 10). -/
opaque Config.parkEntries : Nat

/-- The free value of the n-th result that the manual fixes and the model does not determine (log 9). -/
opaque Config.freeValue : Nat → Word

/-- The Zwion port, by collective domain, that leads to the device of a rank (R341 gives no routing; log 25). -/
opaque Config.collPort : Nat → Nat → Nat

/-- SHA-512 of a text (R327, R328; log 13). -/
opaque Config.digest : List Byte → List Byte

/-- A P-521 signature of a text by the device identity key (R328; log 13). -/
opaque Config.sign : List Byte → List Byte

/-- A P-521 signature of a text by the measurement key, which the digest of the accepted firmware gives (R328; log 13). -/
opaque Config.signMeasured : List Byte → List Byte → List Byte

/-- The certificate chain of slot 0: vendor root, device identity and measurement key certificates (R328; log 13). The measurement key is the one that the digest of the accepted
firmware gives. -/
opaque Config.certificate : List Byte → List Byte

/-- The device's key share in answer to a requester's share (R328; log 13). -/
opaque Config.keyShare : List Byte → List Byte

/-- The boot ROM (1) and the Primrose firmware (2) as texts (R329; log 13). -/
opaque Config.measured : Nat → List Byte

end Sys2Proof
end

