-- ==== Sys2Proof/Machine/Float.lean ====
section
/-!
DEFINITION. Floating-point formats, special values, rounding and the arithmetic on encodings (R231, R234 to R239, R243,
R274). An encoding is a Nat below 2^width; an exact value is a sign, a Nat significand and a power of two.
-/
namespace Sys2Proof.Machine

/-! ### Formats (R231) -/

/-- The floating formats of R231 but E8M0, which has neither sign nor fraction. -/
inductive FloatFmt where
  | f64
  | f32
  | f16
  | bf16
  | e4m3
  | e5m2
  | e3m2
  | e2m3
  | e2m1
  deriving DecidableEq, Repr

/-- Fraction bits (R231). -/
def FloatFmt.frac : FloatFmt → Nat
  | .f64 => 52
  | .f32 => 23
  | .f16 => 10
  | .bf16 => 7
  | .e4m3 => 3
  | .e5m2 => 2
  | .e3m2 => 2
  | .e2m3 => 3
  | .e2m1 => 1

/-- Exponent bits (R231). -/
def FloatFmt.exp : FloatFmt → Nat
  | .f64 => 11
  | .f32 => 8
  | .f16 => 5
  | .bf16 => 8
  | .e4m3 => 4
  | .e5m2 => 5
  | .e3m2 => 3
  | .e2m3 => 2
  | .e2m1 => 2

/-- Bias (R231). -/
def FloatFmt.bias : FloatFmt → Nat
  | .f64 => 1023
  | .f32 => 127
  | .f16 => 15
  | .bf16 => 127
  | .e4m3 => 7
  | .e5m2 => 15
  | .e3m2 => 3
  | .e2m3 => 1
  | .e2m1 => 1

/-- Bits of an encoding (R231). -/
def FloatFmt.width (t : FloatFmt) : Nat := 1 + t.exp + t.frac

/-- Lane width in a v register (R260). -/
def FloatFmt.lane : FloatFmt → Nat
  | .f64 => 64
  | .f32 => 32
  | .f16 => 16
  | .bf16 => 16
  | .e4m3 => 8
  | .e5m2 => 8
  | .e3m2 => 8
  | .e2m3 => 8
  | .e2m1 => 4

/-- Formats with infinities, and with NaNs that have an all-ones exponent (R231). -/
def FloatFmt.ieee : FloatFmt → Bool
  | .f64 => true
  | .f32 => true
  | .f16 => true
  | .bf16 => true
  | .e5m2 => true
  | .e4m3 => false
  | .e3m2 => false
  | .e2m3 => false
  | .e2m1 => false

/-- The sign bit's weight. -/
def FloatFmt.signBit (t : FloatFmt) : Nat := 2 ^ (t.exp + t.frac)

/-- Encoding of +∞ in a format that has one (R231). -/
def FloatFmt.infinity (t : FloatFmt) : Nat := (2 ^ t.exp - 1) * 2 ^ t.frac

/-- Encoding of the largest finite value (R231). -/
def FloatFmt.largest (t : FloatFmt) : Nat :=
  if t.ieee then t.infinity - 1 else if t = .e4m3 then 0x7E else t.signBit - 1

/-- The quiet bit (R234). -/
def FloatFmt.quiet (t : FloatFmt) : Nat := 2 ^ (t.frac - 1)

/-- The default NaN (R234). -/
def FloatFmt.defaultNaN (t : FloatFmt) : Nat := if t = .e4m3 then 0x7F else t.infinity + t.quiet

/-! ### Values -/

/-- What an encoding stands for: a NaN, an infinity, or (−1)^neg × m × 2^e. -/
inductive Num where
  | nan (signalling : Bool)
  | inf (neg : Bool)
  | fin (neg : Bool) (m : Nat) (e : Int)
  deriving DecidableEq, Repr

/-- Reads an encoding (R231, R234). -/
def unpack (t : FloatFmt) (x : Nat) : Num :=
  let neg := decide (t.signBit ≤ x)
  let mag := x % t.signBit
  let ex := mag / 2 ^ t.frac
  let fr := mag % 2 ^ t.frac
  if t.ieee && ex == 2 ^ t.exp - 1 then
    if fr = 0 then .inf neg else .nan (decide (fr < t.quiet))
  else if t = .e4m3 && mag == 0x7F then .nan false
  else if ex = 0 then .fin neg fr (1 - (t.bias : Int) - (t.frac : Int))
  else .fin neg (2 ^ t.frac + fr) ((ex : Int) - (t.bias : Int) - (t.frac : Int))

/-- NaN encodings. -/
def isNaN (t : FloatFmt) (x : Nat) : Bool :=
  match unpack t x with
  | .nan _ => true
  | _ => false

/-- Signalling NaN encodings (R234). -/
def isSignalling (t : FloatFmt) (x : Nat) : Bool :=
  match unpack t x with
  | .nan sig => sig
  | _ => false

/-- The sign of an encoding. -/
def signOf (t : FloatFmt) (x : Nat) : Bool := decide (t.signBit ≤ x)

/-- Puts a sign on a magnitude. -/
def withSign (t : FloatFmt) (neg : Bool) (mag : Nat) : Nat := if neg then t.signBit + mag else mag

/-! ### Flags and modes (R40, R77, R240) -/

/-- FFLAGS: [4] NV, [3] DZ, [2] OF, [1] UF, [0] NX (R77). -/
abbrev FpFlags := BitVec 5

/-- NV. -/
def flagNV : FpFlags := 16
/-- DZ. -/
def flagDZ : FpFlags := 8
/-- OF and NX, as overflow raises them (R237). -/
def flagOF : FpFlags := 5
/-- UF. -/
def flagUF : FpFlags := 2
/-- NX. -/
def flagNX : FpFlags := 1

/-- The rounding modes (R236). -/
inductive Rounding where
  | rne
  | rtz
  | rdn
  | rup
  | rna
  deriving DecidableEq, Repr

/-- The mode of an rm field, with FRM for `.dyn` (R40, R236). -/
def roundingOf (rm frm : BitVec 3) : Rounding :=
  let m := if rm = 7 then frm else rm
  if m = 0 then .rne else if m = 1 then .rtz else if m = 2 then .rdn else if m = 3 then .rup else .rna

/-- An encoding with the flags that it raised. -/
abbrev Rounded := Nat × FpFlags

/-! ### Rounding (R236 to R239) -/

/-- m / 2^sh rounded to an integer in a mode (R236). -/
def roundShift (mode : Rounding) (neg : Bool) (m sh : Nat) : Nat :=
  let q := m / 2 ^ sh
  let r := m % 2 ^ sh
  if r = 0 then q
  else match mode with
    | .rtz => q
    | .rdn => if neg then q + 1 else q
    | .rup => if neg then q else q + 1
    | .rna => if 2 ^ sh ≤ 2 * r then q + 1 else q
    | .rne => if 2 ^ sh < 2 * r ∨ (2 ^ sh = 2 * r ∧ q % 2 = 1) then q + 1 else q

/-- m × 2^e as a multiple of 2^q: the rounded multiple, and whether it is inexact. -/
def roundAt (mode : Rounding) (neg : Bool) (m : Nat) (e q : Int) : Nat × Bool :=
  if q ≤ e then (m * 2 ^ (e - q).toNat, false)
  else
    let sh := (q - e).toNat
    (roundShift mode neg m sh, decide (m % 2 ^ sh ≠ 0))

/-- What an overflow delivers (R237, R239). -/
def overflowTo (t : FloatFmt) (mode : Rounding) (neg : Bool) : Nat :=
  if t.ieee then
    match mode with
    | .rtz => withSign t neg t.largest
    | .rdn => if neg then withSign t true t.infinity else t.largest
    | .rup => if neg then withSign t true t.largest else t.infinity
    | .rne => withSign t neg t.infinity
    | .rna => withSign t neg t.infinity
  else withSign t neg t.largest

/-- RoundTo of a non-zero exact value (−1)^neg × m × 2^e (R236 to R239). The encoding is built with the exponent range
unbounded above, so it passes the largest finite one exactly when the rounded magnitude does. -/
def roundTo (t : FloatFmt) (mode : Rounding) (neg : Bool) (m : Nat) (e : Int) : Rounded :=
  if m = 0 then (withSign t neg 0, 0)
  else
    let top : Int := e + (Nat.log2 m : Int)
    let qu : Int := top - (t.frac : Int)
    let emin : Int := 1 - (t.bias : Int)
    let q : Int := if qu < emin - (t.frac : Int) then emin - (t.frac : Int) else qu
    let unbounded := (roundAt mode neg m e qu).1
    let tiny := decide (qu + (Nat.log2 unbounded : Int) < emin)
    let (r, inexact) := roundAt mode neg m e q
    let bits := if r < 2 ^ t.frac then r
      else (q + (t.frac : Int) + (t.bias : Int)).toNat * 2 ^ t.frac + (r - 2 ^ t.frac)
    if t.largest < bits then (overflowTo t mode neg, flagOF)
    else (withSign t neg bits,
      (if inexact then flagNX else 0) ||| (if inexact && tiny then flagUF else 0))

/-- The sign of an exact zero sum (R235). -/
def zeroSum (t : FloatFmt) (mode : Rounding) (n1 n2 : Bool) : Nat :=
  withSign t (if n1 == n2 then n1 else mode == .rdn) 0

/-- RoundTo of the exact sum of two finite values (R235, R236). -/
def roundSum (t : FloatFmt) (mode : Rounding) (n1 : Bool) (m1 : Nat) (e1 : Int) (n2 : Bool) (m2 : Nat) (e2 : Int) : Rounded :=
  let e : Int := if e1 ≤ e2 then e1 else e2
  let a : Int := (m1 * 2 ^ (e1 - e).toNat : Nat)
  let b : Int := (m2 * 2 ^ (e2 - e).toNat : Nat)
  let v := (if n1 then -a else a) + (if n2 then -b else b)
  if v = 0 then
    (if m1 = 0 ∧ m2 = 0 then zeroSum t mode n1 n2 else withSign t (mode == .rdn) 0, 0)
  else roundTo t mode (decide (v < 0)) v.natAbs e

/-! ### NaN results (R234) -/

/-- The result when an operand is a NaN: the first NaN quieted, NV if any operand signals; none otherwise. -/
def nanResult (t : FloatFmt) (ops : List Nat) : Option Rounded :=
  match ops.find? (isNaN t) with
  | none => none
  | some x =>
    let quieted := if t.ieee && (x / t.quiet) % 2 == 0 then x + t.quiet else x
    some (quieted, if ops.any (isSignalling t) then flagNV else 0)

/-- An invalid operation: the default NaN, with NV. -/
def invalid (t : FloatFmt) : Rounded := (t.defaultNaN, flagNV)

/-! ### Arithmetic (R235, R243) -/

/-- Turns the sign of an encoding. -/
def negate (t : FloatFmt) (x : Nat) : Nat := if signOf t x then x - t.signBit else x + t.signBit

/-- a + b on operands that are not NaNs. -/
def addNum (t : FloatFmt) (mode : Rounding) (a b : Nat) : Rounded :=
  match unpack t a, unpack t b with
  | .inf n1, .inf n2 => if n1 == n2 then (a, 0) else invalid t
  | .inf _, _ => (a, 0)
  | _, .inf _ => (b, 0)
  | .fin n1 m1 e1, .fin n2 m2 e2 => roundSum t mode n1 m1 e1 n2 m2 e2
  | _, _ => invalid t

/-- a + b (R235, R243). -/
def fpAdd (t : FloatFmt) (mode : Rounding) (a b : Nat) : Rounded :=
  (nanResult t [a, b]).getD (addNum t mode a b)

/-- a − b (R235, R243). -/
def fpSub (t : FloatFmt) (mode : Rounding) (a b : Nat) : Rounded :=
  (nanResult t [a, b]).getD (addNum t mode a (negate t b))

/-- a × b (R235, R243). -/
def fpMul (t : FloatFmt) (mode : Rounding) (a b : Nat) : Rounded :=
  (nanResult t [a, b]).getD <|
    match unpack t a, unpack t b with
    | .inf n1, .inf n2 => (withSign t (n1 != n2) t.infinity, 0)
    | .inf n1, .fin n2 m _ => if m = 0 then invalid t else (withSign t (n1 != n2) t.infinity, 0)
    | .fin n1 m _, .inf n2 => if m = 0 then invalid t else (withSign t (n1 != n2) t.infinity, 0)
    | .fin n1 m1 e1, .fin n2 m2 e2 => roundTo t mode (n1 != n2) (m1 * m2) (e1 + e2)
    | _, _ => invalid t

/-- A quotient of significands as an exact enough value: enough quotient bits, and a last bit that is 1 when the
division leaves a remainder. -/
def quotient (m1 m2 : Nat) (e : Int) : Nat × Int :=
  let k := 64 + Nat.log2 m2
  let n := m1 * 2 ^ k
  (2 * (n / m2) + (if n % m2 = 0 then 0 else 1), e - (k : Int) - 1)

/-- a ÷ b (R235, R243). -/
def fpDiv (t : FloatFmt) (mode : Rounding) (a b : Nat) : Rounded :=
  (nanResult t [a, b]).getD <|
    match unpack t a, unpack t b with
    | .inf n1, .fin n2 _ _ => (withSign t (n1 != n2) t.infinity, 0)
    | .fin n1 _ _, .inf n2 => (withSign t (n1 != n2) 0, 0)
    | .fin n1 m1 e1, .fin n2 m2 e2 =>
      if m2 = 0 then (if m1 = 0 then invalid t else (withSign t (n1 != n2) t.infinity, flagDZ))
      else
        let (m, e) := quotient m1 m2 (e1 - e2)
        roundTo t mode (n1 != n2) m e
    | _, _ => invalid t

/-- Integer square root by bits: the greatest r with r² ≤ n, searching bits below 2^k. -/
def isqrt (n : Nat) : Nat → Nat → Nat
  | 0, r => r
  | k + 1, r => if (r + 2 ^ k) * (r + 2 ^ k) ≤ n then isqrt n k (r + 2 ^ k) else isqrt n k r

/-- √a (R235, R243). -/
def fpSqrt (t : FloatFmt) (mode : Rounding) (a : Nat) : Rounded :=
  (nanResult t [a]).getD <|
    match unpack t a with
    | .inf neg => if neg then invalid t else (a, 0)
    | .fin neg m e =>
      if m = 0 then (a, 0)
      else if neg then invalid t
      else
        let odd := e % 2 ≠ 0
        let n := m * 2 ^ (if odd then 129 else 128)
        let e' : Int := (if odd then e - 129 else e - 128) / 2
        let r := isqrt n (Nat.log2 n / 2 + 1) 0
        roundTo t mode false (2 * r + (if r * r = n then 0 else 1)) (e' - 1)
    | _ => invalid t

/-- ±(a × b) ± d with one rounding; `np` turns the product's sign and `nd` the addend's (R243). A NaN operand is taken
as it stands, in the order a, b, d (R234); ∞ × 0 raises NV also beside a NaN addend (R235). -/
def fpFma (t : FloatFmt) (mode : Rounding) (np nd : Bool) (a b d : Nat) : Rounded :=
  let bad := match unpack t a, unpack t b with
    | .inf _, .fin _ m _ => m == 0
    | .fin _ m _, .inf _ => m == 0
    | _, _ => false
  match nanResult t [a, b, d] with
  | some (x, fl) => (x, if bad then fl ||| flagNV else fl)
  | none =>
    if bad then invalid t
    else
      let d' := if nd then negate t d else d
      let inf (n1 n2 : Bool) : Rounded :=
        let neg := (n1 != n2) != np
        match unpack t d' with
        | .inf n3 => if n3 == neg then (withSign t neg t.infinity, 0) else invalid t
        | _ => (withSign t neg t.infinity, 0)
      match unpack t a, unpack t b with
      | .inf n1, .inf n2 => inf n1 n2
      | .inf n1, .fin n2 _ _ => inf n1 n2
      | .fin n1 _ _, .inf n2 => inf n1 n2
      | .fin n1 m1 e1, .fin n2 m2 e2 =>
        match unpack t d' with
        | .inf _ => (d', 0)
        | .fin n3 m3 e3 => roundSum t mode ((n1 != n2) != np) (m1 * m2) (e1 + e2) n3 m3 e3
        | .nan _ => invalid t
      | _, _ => invalid t

/-! ### Comparison, minimum, maximum, class (R235, R270) -/

/-- An exact comparison key of a finite or infinite encoding: sign and magnitude as an Int, zeros equal. -/
def orderKey (t : FloatFmt) (x : Nat) : Int :=
  if signOf t x then -((x - t.signBit : Nat) : Int) else (x : Int)

/-- The relations of FEQ, FLT, FLE by number 0, 1, 2, and their flags (R235). -/
def fpCompare (t : FloatFmt) (rel : Nat) (a b : Nat) : Bool × FpFlags :=
  if isNaN t a || isNaN t b then
    (false, if rel = 0 then (if isSignalling t a || isSignalling t b then flagNV else 0) else flagNV)
  else
    let x := orderKey t a
    let y := orderKey t b
    (if rel = 0 then decide (x = y) else if rel = 1 then decide (x < y) else decide (x ≤ y), 0)

/-- FMIN and FMAX (R235). -/
def fpMinMax (t : FloatFmt) (max : Bool) (a b : Nat) : Rounded :=
  let fl : FpFlags := if isSignalling t a || isSignalling t b then flagNV else 0
  match isNaN t a, isNaN t b with
  | true, true => (t.defaultNaN, fl)
  | true, false => (b, fl)
  | false, true => (a, fl)
  | false, false =>
    let x := orderKey t a
    let y := orderKey t b
    if x = y then (if signOf t a == max then b else a, 0)
    else (if decide (x < y) == max then b else a, 0)

/-- FCLASS as a bit number (R270). -/
def fpClass (t : FloatFmt) (x : Nat) : Nat :=
  match unpack t x with
  | .nan sig => if sig then 8 else 9
  | .inf neg => if neg then 0 else 7
  | .fin neg m _ =>
    if m = 0 then (if neg then 3 else 4)
    else if m < 2 ^ t.frac then (if neg then 2 else 5)
    else (if neg then 1 else 6)

/-! ### Conversion (R234, R239, R274) -/

/-- A NaN of format `s` as a NaN of an infinity-bearing format `t`: sign and the most significant payload bits kept,
quiet bit set; an E4M3 NaN has no payload (R234). -/
def convertNaN (t s : FloatFmt) (x : Nat) : Nat :=
  let fr := x % 2 ^ s.frac
  let placed := if s = .e4m3 then 0 else if s.frac ≤ t.frac then fr * 2 ^ (t.frac - s.frac) else fr / 2 ^ (s.frac - t.frac)
  let quieted := if (placed / t.quiet) % 2 = 0 then placed + t.quiet else placed
  withSign t (signOf s x) (t.infinity + quieted)

/-- From a floating format to another (R239, R274). -/
def convertFloat (t s : FloatFmt) (mode : Rounding) (x : Nat) : Rounded :=
  match unpack s x with
  | .nan sig =>
    if t.ieee then (convertNaN t s x, if sig then flagNV else 0)
    else if t = .e4m3 then (withSign t (signOf s x) 0x7F, if sig then flagNV else 0)
    else (0, flagNV)
  | .inf neg => if t.ieee then (withSign t neg t.infinity, 0) else (withSign t neg t.largest, flagNV)
  | .fin neg m e => roundTo t mode neg m e

/-- A non-zero exact value to E8M0 (R239): a power of two 2^k with the rounding that R239 gives. -/
def roundScale (mode : Rounding) (m : Nat) (e : Int) : Rounded :=
  let l := Nat.log2 m
  let k : Int := e + (l : Int)
  let exact := m == 2 ^ l
  let up := match mode with
    | .rtz => false
    | .rdn => false
    | .rup => !exact
    | .rne => decide (3 * 2 ^ l ≤ 2 * m)
    | .rna => decide (3 * 2 ^ l ≤ 2 * m)
  let k' := if up then k + 1 else k
  if k' < -127 then (0, flagUF ||| flagNX)
  else if 127 < k' then (0xFE, flagOF)
  else ((k' + 127).toNat, if exact then 0 else flagNX)

/-- To E8M0 from a floating format (R239). -/
def convertToScale (s : FloatFmt) (mode : Rounding) (x : Nat) : Rounded :=
  match unpack s x with
  | .fin false m e => if m = 0 then (0xFF, flagNV) else roundScale mode m e
  | _ => (0xFF, flagNV)

/-- From E8M0 to a floating format (R234, R274). -/
def convertFromScale (t : FloatFmt) (mode : Rounding) (x : Nat) : Rounded :=
  if x = 0xFF then
    (if t.ieee || t = .e4m3 then (t.defaultNaN, 0) else (0, flagNV))
  else roundTo t mode false 1 ((x : Int) - 127)

/-- An exact value to an integer of w bits (R239): the rounded integer modulo 2^w, saturated with NV. -/
def roundToInt (signed : Bool) (w : Nat) (mode : Rounding) (neg : Bool) (m : Nat) (e : Int) : Rounded :=
  let (r, inexact) := roundAt mode neg m e 0
  let v : Int := if neg then -(r : Int) else (r : Int)
  let lo : Int := if signed then -((2 ^ (w - 1) : Nat) : Int) else 0
  let hi : Int := if signed then ((2 ^ (w - 1) : Nat) : Int) - 1 else ((2 ^ w : Nat) : Int) - 1
  if v < lo then ((lo % ((2 ^ w : Nat) : Int)).toNat, flagNV)
  else if hi < v then (hi.toNat, flagNV)
  else ((v % ((2 ^ w : Nat) : Int)).toNat, if inexact then flagNX else 0)

/-- The bound of an integer format of a sign, or its largest value for a NaN (R239). -/
def intBound (signed : Bool) (w : Nat) (neg : Bool) : Nat :=
  if neg then (if signed then 2 ^ (w - 1) else 0) else (if signed then 2 ^ (w - 1) - 1 else 2 ^ w - 1)

/-- From a floating format to an integer of w bits (R239). -/
def convertToInt (s : FloatFmt) (signed : Bool) (w : Nat) (mode : Rounding) (x : Nat) : Rounded :=
  match unpack s x with
  | .nan _ => (intBound signed w false, flagNV)
  | .inf neg => (intBound signed w neg, flagNV)
  | .fin neg m e => roundToInt signed w mode neg m e

/-- The value of a w-bit integer encoding. -/
def intValue (signed : Bool) (w : Nat) (x : Nat) : Int :=
  if signed && decide (2 ^ (w - 1) ≤ x) then (x : Int) - ((2 ^ w : Nat) : Int) else (x : Int)

/-- A kind of operand of FCVT and VCVT (R56). -/
inductive ConvFmt where
  | float (t : FloatFmt)
  | scale
  | int (signed : Bool) (w : Nat)
  deriving DecidableEq, Repr

/-- The format of a code of R56. -/
def convFmt (c : BitVec 5) : ConvFmt :=
  match c.toNat with
  | 0 => .float .f64
  | 1 => .float .f32
  | 2 => .float .f16
  | 3 => .float .bf16
  | 4 => .float .e4m3
  | 5 => .float .e5m2
  | 6 => .float .e3m2
  | 7 => .float .e2m3
  | 8 => .float .e2m1
  | 9 => .scale
  | 16 => .int true 64
  | 17 => .int false 64
  | 18 => .int true 32
  | 19 => .int false 32
  | 20 => .int true 16
  | 21 => .int false 16
  | 22 => .int true 8
  | _ => .int false 8

/-- Lane width of a conversion operand (R260). -/
def ConvFmt.lane : ConvFmt → Nat
  | .float t => t.lane
  | .scale => 8
  | .int _ w => w

/-- Bits of a conversion operand that count (R260, R261): the others are ignored. -/
def ConvFmt.width : ConvFmt → Nat
  | .float t => t.width
  | .scale => 8
  | .int _ w => w

/-- Converts one element (R274); the pairs that R274 excludes are not well-formed words. -/
def convert (t s : ConvFmt) (mode : Rounding) (x : Nat) : Rounded :=
  match t, s with
  | .float t, .float s => convertFloat t s mode x
  | .float t, .scale => convertFromScale t mode x
  | .float t, .int sg w =>
    let v := intValue sg w x
    roundTo t mode (decide (v < 0)) v.natAbs 0
  | .scale, .float s => convertToScale s mode x
  | .scale, .int sg w =>
    let v := intValue sg w x
    if v ≤ 0 then (0xFF, flagNV) else roundScale mode v.natAbs 0
  | .int sg w, .float s => convertToInt s sg w mode x
  | .int sg w, .scale =>
    if x = 0xFF then (intBound sg w false, flagNV) else roundToInt sg w mode false 1 ((x : Int) - 127)
  | .scale, .scale => (x, 0)
  | .int _ _, .int _ _ => (x, 0)

end Sys2Proof.Machine
end

