-- ==== Sys2Proof/Machine/Groups.lean ====
section
/-!
DEFINITION. Group, wait and ticket instructions and GAMO (R203 to R211): what the instruction does when it issues. The home performs
them at the atomic unit.
-/
namespace Sys2Proof.Machine

/-- The target of an instruction that names a word in memory (R204): UNMAPPED by steps 1 and 2 of R154, MSGFAULT for an LM window
address, then as for an atomic. -/
def State.wordTarget (s : State) (kind : AccessKind) (a : Word) (size : Nat) (run : State → RightsEntry → State) : State :=
  match placeOf s.homeCore a with
  | .unmapped => s.trap .unmapped a a
  | .lm core _ => if s.enabled core then s.trap .msgFault a a else s.trap .unmapped a a
  | .memory => s.withTarget kind a size (fun s _ _ => s) run

/-- The phase group word of the executing context's partition (R117). -/
def State.phaseGroup? (s : State) : Option Nat := (s.part? s.here.partNo).map (·.phaseGroup)

/-- Whether an address is the phase group word of the executing deterministic partition. -/
def State.isPhaseGroup (s : State) (a : Word) : Bool := s.detHere && s.phaseGroup? == some a.toNat

/-- Whether a JOIN of a context is still to be answered: its rank entry is not yet recorded (R206). -/
def State.joining (s : State) (id : Nat) : Bool :=
  (s.flightsOf id).any fun f => match f.kind with
    | .atomic q => (match q.op with | .join _ => true | _ => false)
    | .atomicResult q _ => (match q.op with | .join _ => true | _ => false)
    | _ => false

/-- The rank-table entry of a group word (R207). -/
def Ctx.rankEntry? (c : Ctx) (a : Nat) : Option RankEntry := c.ranks.find? fun e => e.addr == a

/-- Narrowest scope of a memory word: system for plshared and host memory, else device (R103). -/
def State.wordScope (s : State) (a : Word) (e : RightsEntry) : Nat := s.scopeOf s.cur a.toNat e.attr

/-- JOIN (R206, R225). -/
def execJoin (d a b : Reg) (s : State) : Answer :=
  let rank := s.rdG b
  let addr := s.rdG a
  .next (if s.isPhaseGroup addr then s.detForbid (.join d a b)
    else if 0xFFFFFE < rank.toNat then s.trap .msgFault addr rank
    else s.wordTarget .atomic addr 8 fun s e => s.sendAtomic
      { op := .join rank.toNat, addr := addr.toNat, size := 8, b := 0, cmp := 0, d := d.toNat, acq := false, rel := false, sc := 0, attr := e.attr, l := 0 }
      fun c => c)

/-- LEAVE (R206, R225): the generation recorded at the JOIN goes with it and the rank entry is removed. -/
def execLeave (a : Reg) (s : State) : Answer :=
  let addr := s.rdG a
  .next (if s.isPhaseGroup addr then s.detForbid (.leave a)
    else s.wordTarget .atomic addr 8 fun s e =>
      if s.joining s.cur then s
      else s.sendAtomic
        { op := .leave ((s.here.rankEntry? addr.toNat).map (·.gen)), addr := addr.toNat, size := 8, b := 0, cmp := 0, d := 0, acq := false
          rel := false, sc := 0, attr := e.attr, l := 0 }
        fun c => { c with ranks := c.ranks.filter fun x => x.addr != addr.toNat })

/-- Copies of the executing thread that are not yet DONE (R225). -/
def State.copiesOut (s : State) : Bool :=
  (s.core s.homeCore).copies.any fun x => x.2.tid == s.here.cr.tid && decide (1 ≤ x.2.status ∧ x.2.status ≤ 3)

/-- BAR (R206, R225): a release at the word's scope whose context waits until the generation changes. -/
def execBar (d a : Reg) (s : State) : Answer :=
  let addr := s.rdG a
  .next (if s.inHandler then s.illegal (.bar d a)
    else s.wordTarget .atomic addr 8 fun s e =>
      if s.isPhaseGroup addr && s.copiesOut then s
      else s.sendAtomic
        { op := .bar, addr := addr.toNat, size := 8, b := 0, cmp := 0, d := d.toNat, acq := true, rel := true, sc := s.wordScope addr e
          attr := e.attr, l := 0 }
        fun c => { c with st := .waiting })

/-- CWAIT (R208, R225): an acquire load of the word, repeated by waits until it reaches the target. -/
def execCwait (d a b : Reg) (s : State) : Answer :=
  let addr := s.rdG a
  .next (if s.inHandler then s.illegal (.cwait d a b)
    else if s.detHere && d != 0 then s.detForbid (.cwait d a b)
    else s.wordTarget .atomic addr 8 fun s e => s.sendAtomic
      { op := .cwait (s.rdG b), addr := addr.toNat, size := 8, b := 0, cmp := 0, d := d.toNat, acq := true, rel := false, sc := s.wordScope addr e
        attr := e.attr, l := 0 }
      fun c => { c with st := .waiting })

/-- TICKET (R209, R225). -/
def execTicket (d a : Reg) (s : State) : Answer :=
  let addr := s.rdG a
  .next (if s.inHandler then s.illegal (.ticket d a)
    else if s.detHere then s.detForbid (.ticket d a)
    else s.wordTarget .atomic addr 8 fun s e => s.sendAtomic
      { op := .ticket, addr := addr.toNat, size := 8, b := 0, cmp := 0, d := d.toNat, acq := true, rel := false, sc := s.wordScope addr e
        attr := e.attr, l := 0 }
      fun c => { c with st := .waiting })

/-- SERVE (R209). -/
def execServe (a : Reg) (s : State) : Answer :=
  let addr := s.rdG a
  .next (s.wordTarget .atomic addr 8 fun s e => s.sendAtomic
    { op := .serve, addr := addr.toNat, size := 8, b := 0, cmp := 0, d := 0, acq := false, rel := true, sc := s.wordScope addr e, attr := e.attr, l := 0 }
    fun c => c)

/-- Puts a contribution into the combiner of a core's cluster (R210): a matching entry gathers it while its 32 cycles run, whatever the domain, else a free one of eight is
opened; none where all are in use. -/
def State.intoCombiner (s : State) (core p addr size attr : Nat) (part : GamoPart) : Option State :=
  let cl := clusterOf core
  let hits (g : GamoEntry) : Bool :=
    g.cluster == cl && g.part == p && g.addr == addr && g.size == size && g.returning == decide (part.d ≠ 0) &&
    decide ((s.die (tileOf core)).cycle / 640 < g.opened + 32)
  let put (xs : List GamoEntry) : State := { s with net := { s.net with gamo := xs } }
  if s.net.gamo.any hits then some (put (s.net.gamo.map fun g => if hits g then { g with parts := g.parts ++ [part] } else g))
  else if (s.net.gamo.filter fun g => g.cluster == cl).length < 8 then
    some (put (s.net.gamo ++ [{ cluster := cl, part := p, addr := addr, size := size, returning := decide (part.d ≠ 0)
                                opened := (s.die (tileOf core)).cycle / 640, attr := attr, domain := part.domain, parts := [part] }]))
  else none

/-- The AADD of one contribution alone. -/
def gamoAlone (addr size attr : Nat) (part : GamoPart) : AtomReq :=
  { op := .gamo, addr := addr, size := size, b := part.add, cmp := 0, d := part.d, acq := false, rel := false, sc := 0, attr := attr, l := part.l, parts := [part] }

/-- The contribution of a GAMO goes to the combiner, or as its own AADD (R210). -/
def State.combine (s : State) (addr size d : Nat) (add : Word) (e : RightsEntry) : State :=
  let id := s.cur
  let c := s.here
  let core := s.execCore
  let s := (s.drift id).onHere fun c => c.clearSpin (sectorOf addr)
  let part : GamoPart :=
    { ctx := id, uid := c.uid, d := d, add := add, l := s.lclkOf id, launch := c.launch, seq := (s.core core).reqSeq, domain := c.accessDomain }
  let s := match s.intoCombiner core c.partNo addr size e.attr part with
    | some t => t.onCore core fun q => { q with reqSeq := q.reqSeq + 1 }
    | none => s.send (.atomic (gamoAlone addr size e.attr part))
  (s.onHere fun c => c.awaitMaybe (if d = 0 then none else some (.g d))).retire

/-- GAMO of either size (R210, R211, R225). -/
def State.gamo (s : State) (i : Instr) (d a b : Reg) (size : Nat) : State :=
  let addr := s.rdG a
  if s.detHere && d != 0 then s.detForbid i
  else s.wordTarget .atomic addr size fun s e =>
    if s.acquiring s.cur (s.wordScope addr e) then s else s.combine addr.toNat size d.toNat (s.rdG b) e

/-- GAMO.d (R210). -/
def execGamoD (d a b : Reg) (s : State) : Answer := .next (s.gamo (.gamoD d a b) d a b 8)

/-- GAMO.w (R210). -/
def execGamoW (d a b : Reg) (s : State) : Answer := .next (s.gamo (.gamoW d a b) d a b 4)

end Sys2Proof.Machine
end

