-- ==== Sys2Proof/Machine/LaunchTable.lean ====
section
/-!
DEFINITION. Launch records and the launch table (R179, R180, R184, R212, R213, R305).
-/
namespace Sys2Proof.Machine

/-! ### The record (R212) -/

/-- A launch record with its footprint list, as read: doublewords 0 to 7, and those of the list, which is empty where FOOT names none that can
be read. -/
structure Record where
  words : List Word
  list : List Word
  deriving DecidableEq, Repr

/-- Doubleword i of the record. -/
def Record.word (r : Record) (i : Nat) : Word := r.words.getD i 0

/-- Doubleword i of the footprint list. -/
def Record.item (r : Record) (i : Nat) : Word := r.list.getD i 0

/-- Footprints named by a first doubleword: NFOOT + 1. -/
def footCount (w : Word) : Nat := bitsOf w 28 2 + 1

/-- Bytes of the footprint list of a record. -/
def listBytes (w : Word) : Nat := 16 + 16 * footCount w

/-- Footprint k of the record. -/
def Record.foot (r : Record) (k : Nat) : Foot :=
  { addr := (r.item (2 + 2 * k)).toNat, off := bitsOf (r.item (3 + 2 * k)) 0 16, len := bitsOf (r.item (3 + 2 * k)) 16 16 }

/-- The footprints of the record. -/
def Record.foots (r : Record) : List Foot := (List.range (footCount (r.word 0))).map r.foot

/-- CACHE of the record, which the footprints must leave free: scratch ends at 0x6000 − 4 KiB × CACHE. -/
def Record.scratchEnd (r : Record) : Nat := lmSize - bitsOf (r.word 0) 18 2 * 0x1000

/-- Whether an address names memory (R154). -/
def isMemory (a : Nat) : Bool := decide (a < selfBase)

/-- A word address of GROUP, GATE or DONE: zero, or memory aligned to 8 (R212). -/
def wordField (w : Word) : Bool := w == 0 || (isMemory w.toNat && decide (w.toNat % 8 = 0))

/-- Whether footprint k breaks its fields at list offset 0x18 + 16k: reserved bits, length, LM offset, which is 0x0400 for footprint 0, scratch, and overlap with an
earlier one. Of two that overlap the later one's field is the one that breaks R212, which the spec leaves open (log 49). -/
def Record.badRange (r : Record) (k : Nat) : Bool :=
  let f := r.foot k
  bitsOf (r.item (3 + 2 * k)) 32 32 != 0 || decide (f.len % 8 ≠ 0) || decide (f.len < 8) || decide (0x5C00 < f.len) || decide (f.off % 8 ≠ 0) ||
  decide (f.off < 0x400) || (k == 0 && f.off != 0x400) || decide (r.scratchEnd < f.off + f.len) ||
  (List.range k).any fun j => overlaps f.off f.len (r.foot j).off (r.foot j).len

/-- The fields of the first doubleword: reserved bits, POLICY, THREADS with a group, and ENTRY in scratch and in a footprint. -/
def Record.badHead (r : Record) : Bool :=
  let w := r.word 0
  let entry := bitsOf w 0 16
  bitsOf w 30 2 != 0 || bitsOf w 16 2 != 0 || bitsOf w 20 2 == 3 || (r.word 2 != 0 && decide (2 ^ 24 - 1 < bitsOf w 32 32)) ||
  decide (entry % 4 ≠ 0) || decide (entry < 0x400) || decide (r.scratchEnd < entry + 4) ||
  (r.list != [] && !(r.foots.any fun f => decide (f.off ≤ entry) && decide (entry + 4 ≤ f.off + f.len)))

/-- The fields of the record and its list that break R212, by byte offset. That a footprint or a list whose last byte lies beyond memory breaks its address field is the model's choice
(log 49). -/
def Record.badFields (r : Record) (domainOk : Bool) : List Nat :=
  (if r.badHead then [0x00] else []) ++ (if wordField (r.word 2) then [] else [0x10]) ++ (if wordField (r.word 3) then [] else [0x18]) ++
  (if wordField (r.word 5) then [] else [0x28]) ++ (if bitsOf (r.word 6) 16 48 == 0 && domainOk then [] else [0x30]) ++
  (if isMemory ((r.word 7).toNat + listBytes (r.word 0) - 1) && decide ((r.word 7).toNat % 16 = 0) then [] else [0x38]) ++
  if r.list = [] then []
  else
    (if bitsOf (r.word 0) 20 2 != 2 && r.item 0 != 0 then [64] else []) ++ (if r.item 1 != 0 then [72] else []) ++
    (List.range (footCount (r.word 0))).flatMap fun k =>
      (if isMemory (r.foot k).addr && isMemory ((r.foot k).addr + (r.foot k).len - 1) && decide ((r.foot k).addr % 8 = 0) then [] else [80 + 16 * k]) ++
      (if r.badRange k then [88 + 16 * k] else [])

/-- The byte offset of the first field that breaks R212. -/
def Record.firstBad (r : Record) (domainOk : Bool) : Option Nat := (r.badFields domainOk).head?

/-- The domain that a record names for a source (R212, R305): its own, or one of the same owner; an active one of the partition. -/
def State.recordDomain (s : State) (p : Nat) (own : Option Nat) (field : Nat) : Option Nat :=
  match own with
  | none => none
  | some d =>
    let named := if field = 0 then d else field
    match s.domains.get d, s.domains.get named with
    | some x, some y => if y.part = p ∧ (named = d ∨ x.owner = y.owner) then some named else none
    | _, _ => none

/-- The launch that a record describes (R181, R183, R212). Its completion clock begins at LF (R185). -/
def Record.launch (r : Record) (p domain : Nat) (parent : Word) (start lf : Stamp) (vf : Option Nat) : Launch :=
  let w := r.word 0
  { part := p, slot := 0, st := if r.word 3 = 0 then .open_ else .gated, threads := bitsOf w 32 32, entry := bitsOf w 0 16, args := r.word 1
    group := (r.word 2).toNat, gate := (r.word 3).toNat, gateVal := r.word 4, done := (r.word 5).toNat, domain := domain, cache := bitsOf w 18 2
    policy := bitsOf w 20 2, near := (r.item 0).toNat, eclass := bitsOf w 25 3, prio := bitsOf w 22 3, foots := r.foots, parent := parent
    start := start, clock := lf, vf := vf, entered := 0, lastPlaced := 0 }

/-! ### The table (R179, R180) -/

/-- The lowest free slot of a partition's table; one freed in the current phase of a deterministic partition is not free yet. -/
def Part.freeSlot (q : Part) : Option Nat :=
  (List.range 256).find? fun i => (q.launches.get i).isNone && !(q.phaseFreed.contains i)

/-- Free slots of a partition's table. -/
def Part.freeSlots (q : Part) : Nat := 256 - q.launches.length

/-- Enters a launch into a slot (R179, R181): with no thread it passes on at once (R182). -/
def Part.enter (q : Part) (slot now : Nat) (l : Launch) : Part :=
  { q with launches := q.launches.set slot { l with slot := slot, entered := q.entries, lastPlaced := now }.settle, entries := q.entries + 1 }

/-- Enters launches at a phase barrier in the order of the list, each into the lowest free slot (R180). What becomes of one that
finds no free slot the spec does not say: that it stays for the next barrier is the model's choice (log 63). -/
def Part.enterAll (q : Part) (now : Nat) : List (Nat × Launch) → Part
  | [] => q
  | (n, l) :: rest =>
    match q.freeSlot with
    | some slot => (q.enter slot now l).enterAll now rest
    | none => { q with phaseLaunches := q.phaseLaunches ++ [(n, l)] }.enterAll now rest

/-- Puts a pair into a list that rises by its first number, after those with the same number. -/
def insertBy {β : Type} (x : Nat × β) : List (Nat × β) → List (Nat × β)
  | [] => [x]
  | y :: ys => if x.1 < y.1 then x :: y :: ys else y :: insertBy x ys

/-- Sorts by the first number, keeping the order of equal ones (R84, R180). -/
def sortBy {β : Type} (xs : List (Nat × β)) : List (Nat × β) := xs.foldl (fun acc y => insertBy y acc) []

/-- Place of a launch or spawned thread among those that enter at a phase barrier: by the NUMBER of the thread it comes from (R84, R180), and among threads of
different launches with one NUMBER by their slots, which the spec leaves open (log 59). -/
def phaseKey (slot number : Nat) : Nat := number * 256 + slot % 256

/-- Adds the threads spawned in a phase to their launches (R84), with the next numbers. -/
def Part.addSpawns (q : Part) : List (Nat × Nat × Spawned) → Part
  | [] => q
  | (slot, _, x) :: rest =>
    (q.onLaunch slot fun l =>
      { l with threads := l.threads + 1, due := l.due - 1, spawned := l.spawned ++ [{ x with number := l.threads }] }.settle).addSpawns rest

/-- Source of a launch-port offer in the reserved-turn list: no context has this number. -/
def vfSource (vf : Nat) : Nat := 16777216 + vf

/-- Submits a launch to a partition's table (R179, R180, R213): its status is the slot, 0x100 for a full or held table, 0x200 in a deterministic
partition, where it enters at the phase barrier in the order of its key (R180). -/
def State.submit (s : State) (p src key : Nat) (l : Launch) : Nat × State :=
  match s.parts.get p with
  | none => (0x100, s)
  | some q =>
    if q.det then (0x200, s.onPart p fun q => { q with phaseLaunches := q.phaseLaunches ++ [(key, l)] })
    else
      match s.offer (.launchTable p) src q.freeSlots with
      | (false, s) => (0x100, s)
      | (true, s) =>
        match q.freeSlot with
        | none => (0x100, s)
        | some slot => (slot, s.onPart p fun q => q.enter slot (s.gtrOf sDie) l)

end Sys2Proof.Machine
end

