-- ==== Sys2Proof/Machine/HomeOps.lean ====
section
/-!
DEFINITION. What a home does (R98, R100 to R102, R124 to R126, R131, R134, R199, R205 to R211, R314, R331, R332): finding and translating an address,
granting copies, making versions, and the operations of the atomic unit.
-/
namespace Sys2Proof.Machine

/-! ### Host lines (R331, R332, R335) -/


/-- The key of a line of a host-bias page of device memory: it is known to the host by its own address (R335). -/
def biasKey (a : Nat) : Nat := 2 ^ 60 + sectorOf a

/-- The host address of a sector under a leaf with HOST = 1, of a page of 32 MiB or of 64 KiB (R312, R313). -/
def hostAddr (e : Word) (big : Bool) (a : Nat) : Nat := bitsOf e 12 36 * 4096 + sectorOf a % (if big then 2 ^ 25 else 65536)

/-- The host line that an access must go through at a slice: of a host-bias page, or of a page whose leaf has HOST = 1, the leaf being the one that the slice has translated it
under (R315, R331, R335). -/
def State.hostKey (s : State) (slice p a : Nat) : Option Nat :=
  if s.host.hostBias.contains (a / 4096) then some (biasKey a)
  else match s.leafAt slice p a with
    | some (e, big) => if bitsOf e 61 1 = 1 then some (hostAddr e big a) else none
    | none => none

/-- A line of the host-line store (R331). -/
def State.hostLine? (s : State) (hpa p : Nat) : Option HostLine := s.host.lines.find? fun l => l.hpa == hpa && l.part == p

/-- Replaces a line, which is then the most recently used. -/
def State.setHostLine (s : State) (l : HostLine) : State :=
  { s with host := { s.host with lines := l :: s.host.lines.filter fun m => !(m.hpa == l.hpa && m.part == l.part) } }

/-- Data goes to the host. -/
def State.sendHost (s : State) (x : HostAnswer) : State := { s with host := { s.host with sent := x :: s.host.sent } }

/-- Whether a line in a state answers a read or a write (R332). -/
def Mesi.allows (held : Mesi) (write : Bool) : Bool :=
  match held with
  | .m => true
  | .e => true
  | .s => !write
  | .i => false

/-- Makes room in the set of a host line: a free way, or one whose lease has expired and that waits for nothing; a line in M goes out as a dirty eviction with its data in the eviction
buffer (R332, R334). Which way goes the spec leaves open: the model takes a line in I first, else the least recently used. Nor does it say how a line in S or E leaves: the model lets
it go with no message to the host (log 64). -/
def State.hostRoom (s : State) (hpa : Nat) : Option State :=
  let inSet := s.host.lines.filter fun l => l.hpa / 64 % 4096 == hpa / 64 % 4096 && l.evicted.isNone
  let old := (inSet.reverse).filter fun l => decide (l.expiry + 128 ≤ s.gtrOf sDie) && l.pending == 0 && l.snoop.isNone
  if inSet.length < 16 then some s
  else match (old.find? fun l => l.mesi == .i) <|> old.head? with
    | none => none
    | some v =>
      if v.mesi = .m then
        some (s.setHostLine { v with mesi := .i, pending := 3, evicted := some (BitVec.ofNat 512 (s.mem.readNat v.va 64)) })
      else some { s with host := { s.host with lines := s.host.lines.filter (· != v) } }

/-- A host line is known by its host address (R331): where it was last reached by another virtual address, its bytes stand at that of the access from now on. -/
def State.hostAt (s : State) (l : HostLine) (a : Nat) : State :=
  if l.va = sectorOf a then s
  else
    let bad := (List.range 8).filter fun i => s.poison.contains (l.va + 8 * i)
    let s := (s.writeMem (sectorOf a) 64 (s.mem.readNat l.va 64)).setHostLine { l with va := sectorOf a }
    bad.foldl (fun (s : State) i => s.setPoison (sectorOf a + 8 * i) true) s

/-- Whether the host-line store can serve an access now; if not, its request goes to the host once: RdShared or RdOwn (R331, R332). A line with
a snoop held grants nothing more (R333). -/
def State.hostNeed (s : State) (p a hpa : Nat) (write : Bool) : Bool × State :=
  match s.hostLine? hpa p with
  | some l =>
    if l.snoop.isSome then (false, s)
    else if l.mesi.allows write && l.evicted.isNone then (true, s.hostAt l a)
    else if l.pending = 0 then (false, s.setHostLine { l with pending := if write then 2 else 1 })
    else (false, s)
  | none =>
    match s.hostRoom hpa with
    | none => (false, s)
    | some s => (false, s.setHostLine { hpa := hpa, va := sectorOf a, part := p, pending := if write then 2 else 1 })

/-! ### Arriving at the home -/

/-- What an access meets at its home before it performs. -/
inductive HomeFate where
  | ready (slice : Nat) (host : Option Nat)
  | held
  | absent (slice : Nat)
  | missing
  deriving DecidableEq, Repr

/-- A fault record for a page, made once (R350). -/
def State.reportFault (s : State) (sl p page : Nat) : State :=
  let r : FaultRec := { slice := sl, part := p, page := page }
  if s.net.faults.contains r then s else { s with net := { s.net with faults := s.net.faults ++ [r] } }

/-- Whether the logic die of an address's HBM stack refuses a transaction that was sent at a time (R313, R360). -/
def State.stackAbsent (s : State) (slice p a : Nat) (sent : Option Nat) : Bool :=
  match s.leafAt slice p a with
  | some (e, _) => bitsOf e 61 1 == 0 && s.refuses (32 + bitsOf e 48 5) sent
  | none => false

/-- An access reaches its home (R310, R314, R331): no region-map entry or no translation is missing, a page not present is reported, and an
access waits for a die that refuses transactions, a slice that has not set its stamps after a reset, a bias flip in progress or the host (R335, R360, R361). `sent` is when a
request on its way was sent; a new transaction has none. -/
def State.atHome (s : State) (p a : Nat) (write : Bool) (sent : Option Nat) : HomeFate × State :=
  match s.homeSlice p a with
  | none => (.missing, s)
  | some sl =>
    if s.refuses (sliceDie sl) sent || s.net.returning.contains sl then (.held, s)
    else match s.translateAt sl p a with
      | (.missing, s) => (.missing, s)
      | (.absent, s) => (.absent sl, s.reportFault sl p (pageOf a))
      | (.mapped _, s) =>
        if s.host.flipping.contains (a / 4096) || s.host.unbiasing == some (a / 4096) || s.stackAbsent sl p a sent then (.held, s)
        else match s.hostKey sl p a with
          | none => (.ready sl none, s)
          | some hpa =>
            match s.hostNeed p a hpa write with
            | (true, s) => (.ready sl (some hpa), s)
            | (false, s) => (.held, s)

/-- The die whose GTR and LF a home uses: the S-die for a host line (R127, R332). -/
def homeDie (sl : Nat) (host : Option Nat) : Nat := if host.isSome then sDie else sliceDie sl

/-- The attribute that counts at the home: a host line is plshared whatever the entry says (R331). -/
def homeAttr (host : Option Nat) (attr : Nat) : Nat := if host.isSome then attrPlshared else attr

/-! ### Reading at the home -/

/-- What a read leaves in the record, and whether a copy is handed out. -/
structure Granted where
  sec : SecRec
  give : Bool
  expiry : Option Nat
  deriving DecidableEq, Repr

/-- A read with request clock c (R98, R102, R124 to R126, R135). -/
def State.grant (s : State) (die p attr : Nat) (ro copyOut : Bool) (c : Stamp) (x : SecRec) : Granted :=
  if !copyOut || attr == attrUncached then { sec := holdRead c x, give := false, expiry := none }
  else if attr = attrPlshared then
    if (s.die die).locked then
      let e := s.gtrOf die + 2 * microsecond
      { sec := { holdRead c x with expiry := Nat.max x.expiry e }, give := true, expiry := some e }
    else { sec := holdRead c x, give := false, expiry := none }
  else if ro then
    { sec := { x with rts := maxStamp (maxStamp x.rts (s.lf p die + 2147483648)) c }, give := true, expiry := none }
  else { sec := if later c x.rts then newLease (s.lf p die) c x else x, give := true, expiry := none }

/-- The current version of a sector as a copy with the stamps of a record. -/
def State.version (s : State) (p a : Nat) (host : Option Nat) (x : SecRec) (expiry : Option Nat) : SecCopy :=
  { data := BitVec.ofNat 512 (s.mem.readNat (sectorOf a) 64), wts := x.wts, rts := x.rts, expiry := expiry
    hostSeq := host.map fun hpa => ((s.hostLine? hpa p).map fun l => l.seq.toNat).getD 0
    poison := BitVec.ofNat 8 (((List.range 8).map fun i => if s.poison.contains (sectorOf a + 8 * i) then 2 ^ i else 0).sum) }

/-- Puts a sector's record back: it is created by a change and otherwise only used (R122, R123). -/
def State.useSector (s : State) (sl p a : Nat) (old new : SecRec) : State :=
  if old = new ∧ (s.record? sl p a).isNone then s else s.setSector sl p a new

/-- Latest expiry granted on a host line (R332). -/
def State.hostExpiry (s : State) (host : Option Nat) (p e : Nat) : State :=
  match host with
  | none => s
  | some hpa =>
    match s.hostLine? hpa p with
    | some l => s.setHostLine { l with expiry := Nat.max l.expiry e }
    | none => s

/-- Whether some domain of a partition may write an address, so that its region is not read-only (R125; log 19). -/
def State.writable (s : State) (p a : Nat) : Bool :=
  s.domains.any fun d => d.2.part == p && d.2.rights.any fun e => e.2.w && decide (e.2.base ≤ a) && decide (a < e.2.base + 2 ^ e.2.log2size)

/-- A read performs at the home (R98); while the slice must first publish a new PUB it waits, and its stamp is sent (R134). `old` is the sector before the checks of
R119, `x` after them. `ro`: the entry under which the load was sent gives no W; the region counts as read-only while no domain may write it (R125). -/
def State.serveRead (s : State) (sl : Nat) (host : Option Nat) (p a attr : Nat) (ro copyOut : Bool) (c : Stamp) (old x : SecRec) :
    Except State ((SecCopy × Bool) × State) :=
  let g := s.grant (homeDie sl host) p (homeAttr host attr) (ro && !(s.writable p a)) copyOut c x
  if s.mayGrant sl g.sec.rts then
    .ok ((s.version p a host g.sec g.expiry, g.give), (s.useSector sl p a old g.sec).hostExpiry host p (g.expiry.getD 0))
  else .error (s.wantStamp sl g.sec.rts)

/-! ### Wakes sent by a home (R199) -/

/-- Sends a wake toward a port. -/
def State.sendWake (s : State) (p : Nat) (key : Key) (value : Word) (wts : Stamp) (port : Port) (unrecorded : Bool) : State :=
  s.sendFlight { kind := .wake key value wts port unrecorded, ctx := 0, uid := 0, part := p, domain := 0, launch := none, sentAt := s.gtr }

/-- The elevator router of a slice as a port. -/
def elevatorPort (sl : Nat) : Port := .router (elevatorX sl) (elevatorY sl)

/-- The value of a wait's word. -/
def State.wordAt (s : State) (a : Nat) : Word := BitVec.ofNat 64 (s.mem.readNat a 8)

/-- Sends one wake for each recorded word that a write of [a, a + n) has changed, and clears its record (R199). -/
def State.wakeChanged (before s : State) (sl p a n : Nat) (wts : Stamp) : State :=
  let hit (r : WaitRec) : Bool := r.slice == sl && r.part == p && match r.key with
    | .word k => overlaps k 8 a n && before.wordAt k != s.wordAt k
    | .page _ => false
  (s.net.waits.filter hit).foldl
    (fun s r => match r.key with
      | .word k => s.sendWake p r.key (s.wordAt k) wts (elevatorPort sl) false
      | .page _ => s)
    { s with net := { s.net with waits := s.net.waits.filter fun r => !(hit r) } }

/-! ### Making a version -/

/-- The stamp of a new version: past every lease of the current one (R100). -/
def writeStamp (l : Stamp) (x : SecRec) : Stamp := maxStamp l (x.rts + 1)

/-- Whether a write must wait for physical leases (R126, R332). -/
def State.leased (s : State) (sl : Nat) (host : Option Nat) (p attr : Nat) (x : SecRec) : Bool :=
  homeAttr host attr == attrPlshared && (decide (s.gtrOf (homeDie sl host) < x.expiry + 128) && decide (0 < x.expiry) ||
    match host with
    | some hpa => ((s.hostLine? hpa p).map fun l => decide (0 < l.expiry) && decide (s.gtrOf sDie < l.expiry + 128)).getD false
    | none => false)

/-- Whether a version may be stamped now: not past the horizon and not past PUB (R131, R134). -/
def State.mayStamp (s : State) (sl : Nat) (host : Option Nat) (p : Nat) (w : Stamp) : Bool :=
  !(later w (s.horizon p (homeDie sl host))) && s.mayGrant sl w

/-- A write that may not be stamped for PUB alone has its stamp sent (R134). -/
def State.wantWrite (s : State) (sl : Nat) (host : Option Nat) (p : Nat) (w : Stamp) : State :=
  if later w (s.horizon p (homeDie sl host)) then s else s.wantStamp sl w

/-- A write performs at the home (R100): the bytes, the new stamps, the host line in M (R332), and the wakes of the words it changes. -/
def State.makeVersion (s : State) (sl : Nat) (host : Option Nat) (p a n v : Nat) (w : Stamp) (x : SecRec) : State :=
  let t := (s.writeMem a n v).setSector sl p a (newVersion w x)
  let t := match host with
    | none => t
    | some hpa =>
      match t.hostLine? hpa p with
      | some l => t.setHostLine { l with mesi := .m }
      | none => t
  s.wakeChanged t sl p a n w

/-! ### The operations of the atomic unit (R173, R205 to R210) -/

/-- A group word in fields: GEN, ARRIVED, MEMBERS (R205). -/
def groupFields (w : Nat) : Nat × Nat × Nat := (w / 2 ^ 48 % 2 ^ 16, w / 2 ^ 24 % 2 ^ 24, w % 2 ^ 24)

/-- The word of group fields, normalised: the generation ends when every member has arrived (R205). -/
def groupWord (gen arrived members : Nat) : Nat :=
  if members ≤ arrived then (gen + 1) % 2 ^ 16 * 2 ^ 48 + members else gen * 2 ^ 48 + arrived * 2 ^ 24 + members

/-- GEN of a group word. -/
def groupGen (w : Nat) : Nat := w / 2 ^ 48 % 2 ^ 16

/-- JOIN, LEAVE and BAR on a word (R205, R206); none where the word does not change. -/
def groupStep (op : AtomOp) (w : Nat) : Option Nat :=
  let (gen, arr, mem) := groupFields w
  let arr := Nat.min arr mem
  match op with
  | .join _ => if mem = 2 ^ 24 - 1 then none else some (groupWord gen (arr + 1) (mem + 1))
  | .leave j =>
    if mem = 0 then none
    else some (groupWord gen (if j = some gen ∧ arr ≠ 0 then arr - 1 else arr) (mem - 1))
  | .bar => some (groupWord gen (arr + 1) mem)
  | _ => none

/-- The format of AFADD by size (R173). -/
def amoFloat (size : Nat) : FloatFmt := if size = 4 then .f32 else .f64

/-- The new value of an atomic of major 0x1E (R173); none for an ACAS that fails. -/
def amoStep (op size m b cmp : Nat) : Option Nat :=
  let w := 8 * size
  let b := b % 2 ^ w
  let sm := (BitVec.ofNat w m).toInt
  let sb := (BitVec.ofNat w b).toInt
  match op with
  | 0 => some ((m + b) % 2 ^ w)
  | 1 => some (m &&& b)
  | 2 => some (m ||| b)
  | 3 => some (m ^^^ b)
  | 4 => some (if sb < sm then b else m)
  | 5 => some (if sm < sb then b else m)
  | 6 => some (Nat.min m b)
  | 7 => some (Nat.max m b)
  | 8 => some b
  | 9 => if m = cmp % 2 ^ w then some b else none
  | _ => some (fpAdd (amoFloat size) .rne m b).1

/-- The new value of an operation on the old value of its word; none where it writes nothing (R102). -/
def AtomReq.step (q : AtomReq) (m : Nat) : Option Nat :=
  match q.op with
  | .amo op => amoStep op q.size m q.b.toNat q.cmp.toNat
  | .gamo => some ((m + (q.parts.map fun x => x.add.toNat).sum) % 2 ^ (8 * q.size))
  | .cwait _ => none
  | .ticket => some ((m / 2 ^ 32 + 1) % 2 ^ 32 * 2 ^ 32 + m % 2 ^ 32)
  | .serve => if m / 2 ^ 32 = m % 2 ^ 32 then none else some (m / 2 ^ 32 * 2 ^ 32 + (m % 2 ^ 32 + 1) % 2 ^ 32)
  | .kick => if m % 2 ^ 24 = 0 then some (groupWord (groupGen m) 0 0) else none
  | op => groupStep op m

/-- What R119 sees in an operation (R208, R225); none for BAR, for which the tables give no row, and for a step of the launch hardware (log 60). -/
def AtomReq.detAccess (q : AtomReq) : Option DetAccess :=
  match q.op with
  | .amo op => some (if op ≤ 7 then .commutative op q.size else if q.d = 0 then .store else .returning)
  | .gamo => some (.commutative 0 q.size)
  | .join _ => some .store
  | .leave _ => some .store
  | .serve => some .store
  | .cwait _ => some .load
  | _ => none

/-! ### Phases of a deterministic partition (R84, R117, R118, R180) -/


/-- Spawned threads and launches that waited for the phase barrier enter (R84, R180). -/
def Part.newPhase (q : Part) (now gen : Nat) : Part :=
  let spawns := (sortBy (q.phaseSpawns.map fun x => (phaseKey x.1 x.2.1, x))).map Prod.snd
  let waiting := sortBy q.phaseLaunches
  let q := { q with phase := gen, phaseFreed := [], phaseSpawns := [], phaseLaunches := [] }
  (q.addSpawns spawns).enterAll now waiting

/-- Threads that a launch of a partition's table holds beyond those that an earlier table counted: from and up to but without their NUMBERs. -/
def Launch.newThreads (l : Launch) (old : FMap Launch) : Nat × Nat :=
  match old.get l.slot with
  | some x => (if x.entered = l.entered then x.threads else 0, l.threads)
  | none => (0, l.threads)

/-- Counts the new threads of the launches of a table into MEMBERS, by rising slot, while it stands below its greatest value (R184); a launch keeps which of its threads were not
counted. The answer is MEMBERS and the launches. -/
def countMembers (old : FMap Launch) (members : Nat) : List (Nat × Launch) → Nat × List (Nat × Launch)
  | [] => (members, [])
  | (k, l) :: rest =>
    let (lo, hi) := l.newThreads old
    let take := Nat.min (hi - lo) (2 ^ 24 - 1 - members)
    let r := countMembers old (members + take) rest
    (r.1, (k, if lo + take < hi then { l with uncounted := l.uncounted ++ [(lo + take, hi)] } else l) :: r.2)

/-- A phase ends (R117): what waited enters and its threads are members of the phase group from the next generation, and each core of the partition
drops every copy of its cache region (R118). -/
def State.phaseEnd (s : State) (p gen : Nat) : State :=
  match s.parts.get p with
  | none => s
  | some q =>
    let r := q.newPhase (s.gtrOf sDie) gen
    let old := s.mem.readNat q.phaseGroup 8
    let counted := countMembers q.launches (old % 2 ^ 24) r.launches
    let s := s.writeMem q.phaseGroup 8 (old / 2 ^ 24 * 2 ^ 24 + counted.1)
    { s with
      net := { s.net with mparties := s.net.mparties.filter fun x => x.1 / 1024 / 2 ^ 52 != p }
      parts := s.parts.set p { r with launches := counted.2 }
      cores := s.cores.map fun c => if q.coversCore c.1 then (c.1, { c.2 with cache := [] }) else c }

/-- Ends the phase of a deterministic partition where an operation on its phase group word has changed the generation (R117). -/
def State.phaseCheck (s : State) (p a old new : Nat) : State :=
  match s.parts.get p with
  | some q => if q.det ∧ q.phaseGroup = a ∧ groupGen old ≠ groupGen new then s.phaseEnd p (groupGen new) else s
  | none => s

/-- The number under which the launch hardware of a partition sends its own steps from the S-die: no context has it. -/
def phaseCtx (p : Nat) : Nat := (sDie * 65536 + p) * 8 + 7

/-- The number under which a launch waits for its gate word (R181): no context has it. -/
def gateCtx (p slot : Nat) : Nat := (sDie * 65536 + 1024 + p * 256 + slot) * 8 + 7

/-- The launch slot, with its partition, that waits under a number. -/
def gateOf (id : Nat) : Nat × Nat := ((coreOf id - sDie * 65536 - 1024) / 256, (coreOf id - sDie * 65536 - 1024) % 256)

/-- The number under which a collective slot waits for its gate word (R342): no context has it. -/
def collCtx (p slot : Nat) : Nat := (sDie * 65536 + 8192 + p * 64 + slot) * 8 + 7

/-- Whether a number is that of a collective slot. -/
def isCollCtx (id : Nat) : Bool := decide (sDie * 65536 + 8192 ≤ coreOf id)

/-- The collective slot, with its partition, that waits under a number. -/
def collOf (id : Nat) : Nat × Nat := ((coreOf id - sDie * 65536 - 8192) / 64, (coreOf id - sDie * 65536 - 8192) % 64)

/-- The launch hardware's own step on a partition's phase group word (R225), on its way to the home, which performs it as any atomic. -/
def State.phaseStep (s : State) (p : Nat) (op : AtomOp) : State :=
  match s.parts.get p with
  | none => s
  | some q =>
    if !q.det then s
    else
      { s.sendFlight
          { kind := .atomic
              { op := op, addr := q.phaseGroup, size := 8, b := 0, cmp := 0, d := 0, acq := false, rel := false, sc := 0, attr := attrFull, l := s.lf p sDie }
            ctx := phaseCtx p, uid := 1, part := p, domain := 0, launch := none, seq := s.nextUid, sentAt := s.gtr }
        with nextUid := s.nextUid + 1 }

/-- The launch hardware makes the LEAVE of the phase group for a thread (R225, R346). -/
def State.phaseLeave (s : State) (p : Nat) : State := s.phaseStep p (.leave none)

/-- A deterministic partition whose phase group has no member stands at a phase barrier: what waits enters (R117, R180). -/
def State.phaseKick (s : State) (p : Nat) : State := s.phaseStep p .kick

/-! ### Reads that a mechanism makes as loads (R181, R190, R213, R222) -/

/-- What such a read finds. -/
inductive Fetched where
  | got (data : Nat) (wts : Stamp) (poison : Bool)
  | held
  | absent (a : Nat)
  | missing (a : Nat)
  | race (w : Who) (a : Nat)
  deriving DecidableEq, Repr

/-- A read of n bytes of one sector as a load of route home with request clock c: by a core's cache region where one is named, else by the home (R98);
`who` is checked under R119. -/
def State.fetchAt (s : State) (p : Nat) (core : Option Nat) (who : Option Who) (c : Stamp) (attr : Nat) (ro : Bool) (a n : Nat) : Fetched × State :=
  let own : Option SecCopy := match core with
    | none => none
    | some k => if mayCache attr 0 && !(s.isDet p) then
        match (s.core k).copy? p a with
        | some x => if s.usable (tileOf k) c x then some x else none
        | none => none
      else none
  match own with
  | some x => (.got (x.bytes a n) x.wts (x.poisonedAt a n), match core with
      | some k => s.onCore k fun q => q.touch p a
      | none => s)
  | none =>
    match s.atHome p a false none with
    | (.missing, s) => (.missing a, s)
    | (.absent _, s) => (.absent a, s)
    | (.held, s) => (.held, s)
    | (.ready sl host, s) =>
      let old := s.sector sl p a
      let checked : Except Who SecRec := match who with
        | some t => if s.isDet p then detCheck .load t (old.inPhase (s.phaseOf p)) else .ok old
        | none => .ok old
      match checked with
      | .error w => (.race w a, s)
      | .ok x =>
        match s.serveRead sl host p a attr ro core.isSome c old x with
        | .error s => (.held, s)
        | .ok ((v, give), s) =>
          (.got (v.bytes a n) v.wts (v.poisonedAt a n), match core with
            | some k => if give && mayCache attr 0 then s.onCore k fun q => q.fillCopy p a v false else s
            | none => s)

/-- Reads k doublewords from an address, one after another; stops at the first that is not answered. -/
def State.fetchWords (s : State) (p : Nat) (core : Option Nat) (who : Option Who) (c : Stamp) (attr : Nat) (ro : Bool) (a : Nat) :
    Nat → (Except Fetched (List Word × Stamp × Bool)) × State
  | 0 => (.ok ([], c, false), s)
  | k + 1 =>
    match s.fetchAt p core who c attr ro a 8 with
    | (.got v w poison, s) =>
      match State.fetchWords s p core who c attr ro (a + 8) k with
      | (.ok (vs, w', poison'), s) => (.ok (BitVec.ofNat 64 v :: vs, maxStamp w w', poison || poison'), s)
      | (.error f, s) => (.error f, s)
    | (f, s) => (.error f, s)

end Sys2Proof.Machine
end

