-- ==== Sys2Proof/Machine/Requests.lean ====
section
/-!
DEFINITION. Loads on their way (R98, R99, R118, R124 to R126, R129, R138 to R142, R155 to R160, R167, R168, R348), PUB (R134) and the sweep (R132). A step of this
file acts on a flight by its place in the list; where its conditions do not hold, it changes nothing (log 4).
-/
namespace Sys2Proof.Machine

/-! ### Failures and page faults of flights (R160, R345, R348, R350) -/

/-- The copy that sent a flight, by its core and sequence: a copy's flights carry its sequence + 1 (R222). -/
def State.copyOf? (s : State) (f : Flight) : Option CopyRec := if isXu f.ctx then (s.core (coreOf f.ctx)).copies.get (f.uid - 1) else none

/-- Changes a copy record. -/
def State.onCopy (s : State) (core seq : Nat) (g : CopyRec → CopyRec) : State :=
  match (s.core core).copies.get seq with
  | some x => s.onCore core fun k => { k with copies := k.copies.set seq (g x) }
  | none => s

/-- The thread context that issued a copy, while it is live (R223). -/
def State.copyOwner (s : State) (x : CopyRec) : Option Nat :=
  (s.ctxs.find? fun c => !(isHandler c.1) && c.2.st != .free && c.2.uid == x.uid).map Prod.fst

/-- A copy's job-queue entry is freed (R223): one of those that bear its id, since an id comes again after 256 copies. -/
def Core.freeEntry (k : Core) (id : Word) (uid : Nat) : Core := { k with copyEntries := k.copyEntries.erase (id, uid) }

/-- Charges a failure of what a context has issued to its launch (R345); where there is none, a handler that still runs is stopped and its mailbox slot freed, and the record has NL = 1. -/
def State.chargeIssuer (s : State) (launch : Option Nat) (p ctx uid : Nat) (r : AbortRec) : State :=
  match launch with
  | some slot => s.orderAbort p slot r
  | none =>
    let s := if (s.ctx ctx).uid = uid ∧ isHandler ctx = true then s.endHandler ctx else s
    s.logAbort p { r with noLaunch := true, slot := 0 }

/-- A copy that has not ended ends as DONE or FAILED (R85, R223): with a HANDLER its completion is pending for a live thread, which keeps its entry, or is recorded in the launch of an
exited one. -/
def State.endCopy (s : State) (core seq status : Nat) : State :=
  match (s.core core).copies.get seq with
  | none => s
  | some x =>
    if x.status < 1 ∨ 3 < x.status then s else
    let handler := x.block.getD 2 0
    let owner := if handler = 0 then none else s.copyOwner x
    let s := (s.lift x.charge).onCopy core seq fun x => { x with status := status, parked := none, charge := none }
    let s := if owner.isSome then s else s.onCore core fun k => k.freeEntry x.id x.uid
    match owner with
    | some id => s.onCtx id fun c => { c with comps := c.comps ++ [(x.id, handler, x.w)] }
    | none =>
      match x.launch with
      | some slot => if handler = 0 then s else s.onLaunch x.part slot fun l => { l with orphanComps := l.orphanComps ++ [x.id] }
      | none => s

/-- A copy that has not ended fails (R222): its issuer's launch aborts; VAL holds the transfer id unless another value is given. -/
def State.failCopy (s : State) (core seq kind a : Nat) (val : Option Word) : State :=
  match (s.core core).copies.get seq with
  | none => s
  | some x =>
    if x.status < 1 ∨ 3 < x.status then s
    else (s.endCopy core seq 5).chargeIssuer x.launch x.part x.ctx x.uid { kind := kind, tid := x.tid, addr := BitVec.ofNat 64 a, val := val.getD x.id }

/-- Charges an imprecise failure to the launch of a flight (R160, R345): PC is 0 and ADDR the failing address. A handler charged to no launch is
stopped. -/
def State.failFlight (s : State) (f : Flight) (kind a : Nat) : State :=
  let r : AbortRec := { kind := kind, tid := if s.alive f then (s.ctx f.ctx).cr.tid else 0, addr := BitVec.ofNat 64 a }
  if isXu f.ctx then s.failCopy (coreOf f.ctx) (f.uid - 1) kind a none else s.chargeIssuer f.launch f.part f.ctx f.uid r

/-- Sends a wait of a context (R199): it starts at the router of the context's cluster. -/
def State.sendWait (s : State) (id : Nat) (key : Key) (target : Word) : State :=
  let c := s.ctx id
  let now := s.gtrOf (tileOf (coreOf id))
  let s := s.onCtx id fun c => { c with waitSent := now, unrecorded := false }
  s.sendFlight
    { kind := .wait key key.address target 0 (.core (coreOf id)), ctx := id, uid := c.uid, part := c.partNo, domain := c.accessDomain
      launch := c.launch, sentAt := now }

/-- A context leaves the migration FIFO of its cluster: its W word is executed again, and joins the FIFO then (R73, R348). -/
def State.leaveFifo (s : State) (id : Nat) : State :=
  let cl := clusterOf (coreOf id)
  let ids := s.migFifo.getD cl []
  if ids.contains id then s.setFifo cl (ids.filter (· != id)) else s

/-- A context waits for a page (R348): it is fault-waiting and sends the wait of R350. -/
def State.faultWait (s : State) (id a : Nat) : State :=
  ((s.leaveFifo id).onCtx id fun c => { c with st := .faultWaiting, wait := .page a }).sendWait id (.page (pageOf a)) 0

/-- Whether an access of a context waits for a page or is being performed again after one (R348). -/
def State.faulting (s : State) (id : Nat) : Bool :=
  let again (x : GamoPart) : Bool := x.ctx == id && x.uid == (s.ctx id).uid && x.fault
  ((s.flightsOf id).any fun f => match f.kind with
    | .load q => q.fault != 0
    | .loadReply q _ => q.fault != 0
    | .atomic q => q.fault != 0
    | .atomicResult q _ => q.fault != 0
    | _ => false) ||
  (s.net.gamo.any fun e => e.parts.any again) || (s.net.flights ++ s.net.lost).any fun f => match f.kind with
    | .atomic q => q.parts.any again
    | .atomicResult q _ => q.parts.any again
    | _ => false

/-- A fault-waiting context with no faulting access left issues again (R348). -/
def State.faultOver (s : State) (id : Nat) : State :=
  if (s.ctx id).st = .faultWaiting ∧ s.faulting id = false then s.onCtx id fun c => { c with st := .ready, wait := .none } else s

/-- Takes RACE for a context whose memory access at PC − 4 conflicts (R118, R119, R344): the destination is no longer pending. -/
def State.raceAt (s : State) (f : Flight) (d : Option RegRef) (a : Nat) (w : Who) : State :=
  if s.alive f then
    let s := (s.leaveFifo f.ctx).onCtx f.ctx fun c => { c.arrivedMaybe d with st := .ready, wait := .none }
    s.trapLater f.ctx .race (BitVec.ofNat 64 a) w.raceValue ((s.ctx f.ctx).pc - 4)
  else if isXu f.ctx then s.failCopy (coreOf f.ctx) (f.uid - 1) 8 a none
  else s

/-! ### Loads -/

/-- Whether a stamp lies in a range, both ends included. -/
def stampIn (lo hi c : Stamp) : Bool := !(later lo c) && !(later c hi)

/-- Whether LCLK of a context has held a value since it sent the request with a sequence number (R98). -/
def State.clockHeld (s : State) (id seq : Nat) (c : Stamp) : Bool :=
  stampIn (s.ctx id).cr.lclk (s.lclkOf id) c || (s.ctx id).clocks.any fun x => decide (seq < x.1) && stampIn x.2.1 x.2.2 c

/-- Clocks that a load may perform at: a value LCLK held between issue and performance (R98); of LEASE and PREF, LCLK at issue (R167, R168). -/
def State.clockOk (s : State) (f : Flight) (q : LoadReq) (c : Stamp) : Bool :=
  if q.fmt == .lease || q.fmt == .pref || !(s.alive f) then c == q.c else !(later q.c c) && s.clockHeld f.ctx f.seq c

/-- The clock at which a load performs where nothing else is said: the latest it may (R98). -/
def State.loadClock (s : State) (f : Flight) (q : LoadReq) : Stamp :=
  if q.fmt == .lease || q.fmt == .pref || !(s.alive f) then q.c else s.lclkOf f.ctx

/-- Later loads of a context that overlap a store perform at or after its stamp, and later loads of the sector of a load at or after its time (R99, R107). -/
def State.bumpLoads (s : State) (id uid seq a n : Nat) (w : Stamp) : State :=
  s.setFlights (s.net.flights.map fun g => match g.kind with
    | .load q =>
      if g.ctx = id ∧ g.uid = uid ∧ seq ≤ g.seq ∧ q.fmt ≠ .pref ∧ overlaps q.addr q.fmt.size a n then { g with kind := .load { q with c := maxStamp q.c w } } else g
    | _ => g)

/-- Whether a load takes dew answers: LEASE takes none (R136, R167). -/
def State.takesDew (s : State) (f : Flight) (q : LoadReq) : Bool := q.fmt != .lease && mayDew (s.isDet f.part) q.attr q.rc

/-- A dew copy that may answer at a clock (R139). -/
def State.dewHit (s : State) (f : Flight) (q : LoadReq) (c : Stamp) (r : Nat × Nat) : Option SecCopy :=
  match s.dewCopy? r.1 r.2 f.part q.addr with
  | some x => if later c x.rts then none else some x
  | none => none

/-- Whether a load of a flight may perform now: in order, and not before an earlier load of the sector or an overlapping store of its context (R99,
R115). -/
def State.mayLoad (s : State) (n : Nat) (f : Flight) (q : LoadReq) : Bool :=
  q.fault != 1 && s.inOrder n && (q.fmt == .pref || !(s.alive f) || !(s.sectorBusy f.ctx f.seq q.addr q.fmt.size))

/-- The party of a flight in R119: its thread, or the issuer of the copy that sent it (R225). -/
def State.detWho (s : State) (f : Flight) : Option Who :=
  if !(s.isDet f.part) then none
  else match s.copyOf? f with
    | some x => some (.thread (x.launch.getD 0) (x.tid.toNat % 2 ^ 32))
    | none => if s.alive f then some (s.whoIs f.ctx) else none

/-- HOME_LOAD: flight n passes routers of its path at request clock c, none of which has a copy for it (R139): up to a router on the way, at a clock that it does not fall below
afterwards, or to the home, where it performs (R98). A PREF of an absent page is dropped without a fault record (R168). -/
def execHomeLoad (n : Nat) (c : Stamp) (passed : Nat) (s : State) : Answer :=
  .next (match s.flight? n with
    | some f => match f.kind with
      | .load q =>
        let path := s.pathOf f q.rc q.addr
        let dewInWay := s.takesDew f q && ((path.take passed).drop q.hop).any fun r => (s.dewHit f q c r).isSome
        if !(s.mayLoad n f q) || !(s.clockOk f q c) || dewInWay then s
        else if passed < path.length then (if passed ≤ q.hop then s else s.putFlight n { f with kind := .load { q with hop := passed, c := c } })
        else match s.atHome f.part q.addr false (some f.sentAt) with
          | (.missing, s) => if q.fmt = .pref then s.dropFlight n else s.answer n f (.loadReply q .noTranslation)
          | (.absent _, t) =>
            if q.fmt = .pref then ({ t with net := { t.net with faults := s.net.faults } }).dropFlight n else t.answer n f (.loadReply q .pageAbsent)
          | (.held, s) => s
          | (.ready sl host, s) =>
            let old := s.sector sl f.part q.addr
            let checked := match s.detWho f with
              | some t => detCheck .load t (old.inPhase (s.phaseOf f.part))
              | none => .ok old
            match checked with
            | .error w => s.answer n f (.loadReply q (.race w.raceValue))
            | .ok x =>
              match s.serveRead sl host f.part q.addr q.attr q.ro true c old x with
              | .error s => s
              | .ok ((v, give), s) => s.answer n f (.loadReply { q with c := c } (.copy v true path.length give))
      | _ => s
    | none => s)

/-- DEW_ANSWER: the first copy that a load passes answers it (R98, R139): the core's own cache region, where it got one since the load issued, else the dew
stores along the path. -/
def execDewAnswer (n : Nat) (c : Stamp) (s : State) : Answer :=
  .next (match s.flight? n with
    | some f => match f.kind with
      | .load q =>
        if !(s.mayLoad n f q) || !(s.clockOk f q c) then s
        else
          let own := if mayCache q.attr q.hint && q.fmt != .lease && s.alive f then
              match (s.core (coreOf f.ctx)).copy? f.part q.addr with
              | some x => if s.ownHit f.ctx c x then some x else none
              | none => none
            else none
          match own with
          | some x => (s.onCore (coreOf f.ctx) fun k => k.touch f.part q.addr).answer n f (.loadReply { q with c := c } (.copy x false 0 false))
          | none =>
            if !(s.takesDew f q) then s
            else
              let path := s.pathOf f q.rc q.addr
              match (path.drop q.hop).findIdx? fun r => (s.dewHit f q c r).isSome with
              | none => s
              | some j =>
                let i := q.hop + j
                let r := path.getD i (0, 0)
                match s.dewHit f q c r with
                | none => s
                | some x => (s.touchDew r.1 r.2 f.part q.addr).answer n f (.loadReply { q with c := c } (.copy x false i true))
      | _ => s
    | none => s)

/-- The marks of the thread and phase that fill a copy (R118). -/
def State.fillMark (s : State) (f : Flight) : Option (Nat × Nat × Nat) :=
  if s.alive f then some ((f.launch.getD 0), ((s.ctx f.ctx).cr.tid.toNat % 2 ^ 32), s.phaseOf f.part) else none

/-- A reply on its way back (R138, R140, R141): it condenses in the dew stores it passes and fills the core's cache region. -/
def State.condense (s : State) (f : Flight) (q : LoadReq) (x : SecCopy) (hop : Nat) (give : Bool) : State :=
  let det := s.isDet f.part
  let s := if give && x.expiry.isNone && mayCondense det q.attr q.rc q.hint then
      s.depositAlong ((s.pathOf f q.rc q.addr).take hop) f.part q.addr x
    else s
  if give && mayCache q.attr q.hint then
    s.onCore (coreOf f.ctx) fun k => k.fillCopy f.part q.addr { x with filledBy := s.fillMark f } false
  else s

/-- The result of a load in its context (R155 to R157, R167, R357). -/
def State.finishLoad (s : State) (f : Flight) (q : LoadReq) (x : SecCopy) (atHome : Bool) : State :=
  let id := f.ctx
  match q.fmt with
  | .pref => s
  | .lease => s.onCtx id fun c => (c.deliver .lease q.d (if x.shared q.attr then 0 else x.rts.toNat)).arrivedMaybe (q.fmt.target q.d)
  | fmt =>
    if x.poisonedAt q.addr fmt.size then s.machineCheck id (BitVec.ofNat 64 q.addr)
    else
      let s := (s.absorbVersion id q.attr q.addr x atHome).bumpLoads id f.uid (f.seq + 1) (sectorOf q.addr) 64 (maxStamp q.c x.wts)
      s.onCtx id fun c => (c.deliver fmt q.d (x.bytes q.addr fmt.size)).arrivedMaybe (fmt.target q.d)

/-- Whether a reply brings a plshared copy whose physical expiry has come before it arrived: no holder may use it (R126, R336), and the load goes to its home again (log 62). -/
def State.staleReply (s : State) (f : Flight) (x : SecCopy) : Bool := x.expiry.isSome && !(s.usable (tileOf (coreOf f.ctx)) 0 x)

/-- A load of LM that the agenda sent late reads its port and writes its register (R110, R156; log 7); poison is consumed (R357). -/
def State.portLoad (s : State) (f : Flight) (fmt : LoadFmt) (d a : Nat) : State :=
  if !(s.alive f) then s
  else if s.poisoned a fmt.size then s.machineCheck f.ctx (BitVec.ofNat 64 a)
  else s.onCtx f.ctx fun c => (c.deliver fmt d (s.lmRead ((lmCore? a).getD 0) ((a - globalBase) % 0x8000) fmt.size)).arrivedMaybe (fmt.target d)

/-- LOAD_REPLY: the answer of flight n reaches its core (R138, R156). PAGE makes the context fault-wait (R348), a missing translation aborts the launch
(R160), and a conflict raises RACE at the load (R119). -/
def execLoadReply (n : Nat) (s : State) : Answer :=
  .next (match s.flight? n with
    | some f => match f.kind with
      | .loadReply q a =>
        if !(s.inOrder n) then s
        else match a with
          | .copy x atHome hop give =>
            if s.staleReply f x then s.putFlight n { f with kind := .load { q with hop := 0 } }
            else
              let s := (s.condense f q x hop give).dropFlight n
              if s.alive f then (s.finishLoad f q x atHome).faultOver f.ctx else s
          | .pageAbsent =>
            if s.alive f then (s.putFlight n { f with kind := .load { q with fault := 1 } }).faultWait f.ctx q.addr else s.dropFlight n
          | .noTranslation => (s.dropFlight n).failFlight f 17 q.addr
          | .race w =>
            let s := s.dropFlight n
            if s.alive f then
              let s := (s.leaveFifo f.ctx).onCtx f.ctx fun c => { c.arrivedMaybe (q.fmt.target q.d) with st := .ready, wait := .none }
              s.trapLater f.ctx .race (BitVec.ofNat 64 q.addr) w ((s.ctx f.ctx).pc - 4)
            else s
      | .lmLoad fmt d a _ _ => if s.inOrder n then (s.dropFlight n).portLoad f fmt d a else s
      | _ => s
    | none => s)

/-- PURGE_ACK: the acknowledgement of a purge returns and PPURGE performs (R142). -/
def execPurgeAck (n : Nat) (s : State) : Answer :=
  .next (match s.flight? n with
    | some f => match f.kind with
      | .purge _ _ => if s.inOrder n then s.dropFlight n else s
      | _ => s
    | none => s)

/-- PUB_PUBLISH: the S-die acknowledges the stamp that a slice has sent as its new PUB, and the operation that waits for it goes on (R134). -/
def execPubPublish (slice : Nat) (value : Stamp) (s : State) : Answer :=
  .next (if s.net.wanted.get slice = some value then
      { s with net := { s.net with
        wanted := s.net.wanted.del slice, pub := if later value (s.net.pub.getD slice 0) then s.net.pub.set slice value else s.net.pub } }
    else s)

/-- Raises a stamp to a floor (R132). -/
def raiseTo (floor v : Stamp) : Stamp := if later floor v then floor else v

/-- Drops the copies whose lease has ended before LF (R132). -/
def CopyLine.sweep (lf : Stamp) (l : CopyLine) : CopyLine := { l with sectors := l.sectors.filter fun x => !(later lf x.2.rts) }

/-- HOME_SWEEP: stamps before LF − 2^38 rise to it, and copies that no load can use are dropped (R132); so are physical expiries that nothing can still wait for, whatever
BOUND (R126, R335). Without Main nothing sweeps (R368). -/
def execHomeSweep (s : State) : Answer :=
  .next
    (if s.mgmt.main = false then s else
     let floor (p die : Nat) : Stamp := s.lf p die - 274877906944
     { s with
       net := { s.net with
         recs := s.net.recs.map fun r => { r with sectors := r.sectors.map fun x =>
           let f := floor r.part (sliceDie r.slice)
           (x.1, { x.2 with wts := raiseTo f x.2.wts, rts := raiseTo f x.2.rts }) }
         mstamps := s.net.mstamps.map fun m => (m.1, raiseTo (floor (m.1 / 2 ^ 50) (sliceDie (m.1 % 1024))) m.2)
         mwiped := s.net.mwiped.map fun m => (m.1, raiseTo (floor m.1 sDie) m.2)
         mreturned := s.net.mreturned.map fun m => (m.1, raiseTo (floor (m.1 / 1024) (sliceDie (m.1 % 1024))) m.2)
         mexpiry := s.net.mexpiry.filter fun m => decide (s.gtrOf (sliceDie (m.1 % 1024)) < m.2 + 128 + 0xFFF), sweptAt := s.gtr
         dew := (s.net.dew.map fun d => { d with body := d.body.sweep (s.lf d.body.part (tileOf (coreAt d.x d.y 0))) }).filter
           fun d => !(d.body.sectors.isEmpty) }
       cores := s.cores.map fun c => (c.1, { c.2 with
         cache := (c.2.cache.map fun l => l.sweep (s.lf l.part (tileOf c.1))).filter fun l => !(l.sectors.isEmpty) }) })

end Sys2Proof.Machine
end

