-- ==== Sys2Proof/Machine/Writes.lean ====
section
/-!
DEFINITION. Stores and atomics on their way (R100 to R102, R105, R110, R119, R126, R131, R158 to R161, R174, R175, R359) and pushes (R143 to R146).
-/
namespace Sys2Proof.Machine

/-! ### At the home -/

/-- Keeps an answer for its sequence number, among the last 16 of the source core at the slice (R359); those of its copy unit apart, as long as they are waited for. -/
def State.keepAnswer (s : State) (sl : Nat) (f : Flight) (k : FKind) : State :=
  let agent := isAgent f.ctx
  let mine (x : SeqAnswer) : Bool := x.slice == sl && x.core == coreOf f.ctx && x.agent == agent
  let due (x : SeqAnswer) : Bool := (s.net.flights ++ s.net.lost).any fun g => isAgent g.ctx && coreOf g.ctx == x.core && g.seq == x.seq
  let old := s.net.answers.filter mine
  let a : SeqAnswer := { slice := sl, core := coreOf f.ctx, incarnation := f.incarnation, seq := f.seq, answer := k, agent := agent }
  { s with net := { s.net with
      answers := a :: (if agent then old.filter due else old.take 15) ++ s.net.answers.filter fun x => !(mine x) } }

/-- The answer that a home slice keeps for a sequence number of a source (R359). -/
def State.keptAnswer (s : State) (sl source : Nat) (f : Flight) : Option FKind :=
  (s.net.answers.find? fun x =>
    x.slice == sl && x.core == source && x.agent == isAgent f.ctx && x.incarnation == f.incarnation && x.seq == f.seq).map fun x => x.answer

/-- Entries of a slice's park buffer in use (R161). -/
def State.parkedAt (s : State) (sl : Nat) : Nat :=
  (s.net.flights.filter fun f => match f.kind with
    | .store q => q.parked && s.homeSlice f.part q.addr == some sl
    | .atomic q => q.parked && s.homeSlice f.part q.addr == some sl
    | _ => false).length

/-- The address of a write that waits at its home: parked, for the horizon or leases (R126, R131, R161), or to raise the rts of the version that it pushes (R144). -/
def Flight.parkedAddr (f : Flight) : Option Nat :=
  match f.kind with
  | .store q => if q.parked || q.held != 0 then some q.addr else none
  | .atomic q => if q.parked || q.held == 1 || q.held == 2 || q.held == 4 then some q.addr else none
  | .pushDue q _ _ => some q.addr
  | _ => none

/-- Whether a write waits at its home for a sector of a partition: later writes of the sector wait behind it (R161). -/
def State.parkedBefore (s : State) (p a : Nat) : Bool :=
  s.net.flights.any fun f => f.part == p && match f.parkedAddr with
    | some b => sectorOf b == sectorOf a
    | none => false

/-- Whether a write that was parked waits still behind another of its sector at the home: one that was parked before it, or copies of a push (R144, R161). -/
def State.parkedBehind (s : State) (n : Nat) (p a : Nat) : Bool :=
  (s.setFlights (s.net.flights.take n)).parkedBefore p a ||
  s.net.flights.any fun f => f.part == p && match f.kind with
    | .pushDue q _ _ => sectorOf q.addr == sectorOf a
    | _ => false

/-- Whether an earlier store of a core to the page of an address stands refused (R161, R362: the source is the core). -/
def State.refusedBefore (s : State) (f : Flight) (a : Nat) : Bool :=
  s.net.flights.any fun g => coreOf g.ctx == coreOf f.ctx && isXu g.ctx == isXu f.ctx && g.part == f.part && decide (g.seq < f.seq) && match g.kind with
    | .store q => q.refused && pageOf q.addr == pageOf a
    | .atomic q => q.held == 3 && pageOf q.addr == pageOf a
    | _ => false

/-- Whether an earlier access of a run of a context to a sector is unperformed, so that a write must wait (R99, R101, R107). A plshared copy on its way back may arrive too late, and its
load is then performed again (R126; log 62): a write waits for it. -/
def State.writeBehind (s : State) (id uid before a : Nat) : Bool :=
  (s.gamosBy id uid before).any (fun g => sectorOf g.1 == sectorOf a) ||
  (s.flightsBy id uid).any fun f => decide (f.seq < before) && match f.kind with
    | .load q => q.fmt != .pref && sectorOf q.addr == sectorOf a
    | .loadReply q (.copy x _ _ _) => x.expiry.isSome && q.fmt != .pref && sectorOf q.addr == sectorOf a
    | .loadReply q _ => q.fmt != .pref && sectorOf q.addr == sectorOf a
    | .store q => sectorOf q.addr == sectorOf a
    | .atomic q => sectorOf q.addr == sectorOf a
    | _ => false

/-- The clock that a write carries to its stamp: a release's is the thread's LCLK + 1 (R100, R105). -/
def State.writeClock (s : State) (f : Flight) (rel : Bool) (l : Stamp) : Stamp :=
  if rel then maxStamp l (if s.alive f then s.lclkOf f.ctx else l) + 1 else l

/-- The record of a release: push counts go into PRES (R105, R146). A release that is sent records when it performs, all counts that the context has then: which of two releases records
the push of a store placed between them is the model's choice (log 64). -/
def State.recordRelease (s : State) (f : Flight) (rel : Bool) : State :=
  if rel && s.alive f then s.onCtx f.ctx fun c => c.recordPushes else s

/-! ### Pushes (R143 to R146) -/

/-- Receivers of a PSET value, as core indices (R143). -/
def psetCores (v : BitVec 41) : List Nat :=
  let n := v.toNat
  (List.range (n / 2 ^ 25 % 256 + 1)).flatMap fun j =>
    (List.range (n / 2 ^ 17 % 256 + 1)).flatMap fun i =>
      ((List.range 8).filter fun k => (n / 2 ^ 33).testBit k).map fun k => coreAt (n % 512 + i) (n / 512 % 256 + j) k

/-- Whether a push store sends copies: a PSET that was valid at issue and an attribute that allows pushes (R135, R144). -/
def StoreReq.pushes (q : StoreReq) (host : Option Nat) : Bool :=
  q.push && q.psetOk && (homeAttr host q.attr == attrFull || homeAttr host q.attr == attrL1)

/-- A push acknowledgement goes to the thread (R146). -/
def State.sendPushAck (s : State) (f : Flight) (a delivered refused : Nat) (skipped : Bool) : State :=
  s.sendFlight { f with kind := .pushAck a delivered refused skipped, sentAt := s.gtr }

/-- The copies of a push store (R144), and what the home gathers for it. A core of a disabled cluster is answered as a refusal. -/
def State.pushCopies (s : State) (f : Flight) (q : StoreReq) (sl : Nat) (copy : SecCopy) : State :=
  let cores := psetCores q.pset
  let live := cores.filter fun k => s.enabled k
  if live = [] then s.sendPushAck f q.addr 0 cores.length false
  else
    let g := s.net.nextGather
    let s := { s with net := { s.net with
      nextGather := g + 1
      gathers := s.net.gathers ++
        [{ id := g, slice := sl, addr := q.addr, ctx := f.ctx, uid := f.uid, left := live.length, refused := cores.length - live.length }] } }
    live.foldl (fun s k => s.sendFlight { f with kind := .push (lineOf q.addr) (sectorNo q.addr) copy k g, sentAt := s.gtr }) s

/-- Before the first copy is sent, the home raises the version's rts to the end of the copies' interval (R144). The version is the current one: every later write of the sector waits
(State.parkedBefore). -/
def State.raiseRts (s : State) (sl p a : Nat) (top : Stamp) : State :=
  let x := s.sector sl p a
  s.setSector sl p a { x with rts := maxStamp x.rts top }

/-- The home's part of a push store after it has performed (R144): the copies, once PUB allows the end of their interval (R134), or the acknowledgement that none was
sent. Nothing here delays the store or its acknowledgement. -/
def State.pushAfter (s : State) (f : Flight) (q : StoreReq) (sl : Nat) (host : Option Nat) (v : SecCopy) (top : Stamp) : State :=
  if !q.push then s
  else if !(q.pushes host) then s.sendPushAck f q.addr 0 0 true
  else if s.isDet f.part then s.sendPushAck f q.addr 0 (psetCores q.pset).length true
  else if s.mayGrant sl top then (s.raiseRts sl f.part q.addr top).pushCopies f q sl { v with rts := top }
  else (s.wantStamp sl top).sendFlight { f with kind := .pushDue q v top, sentAt := s.gtr }

/-! ### Stores -/

/-- Carries the poison of a store's data into the words it writes (R357). -/
def State.carryPoison (s : State) (a : Nat) (p : BitVec 2) : State :=
  let s := if p.getLsbD 0 then s.setPoison a true else s
  if p.getLsbD 1 then s.setPoison (a + 8) true else s

/-- A store performs at its home (R100, R144). Where it must wait for the horizon or for leases, the answer is why: 1 the horizon, 2 leases; where the slice must first publish
a new PUB, the stamp is sent (R134). -/
def State.storeAt (s : State) (n : Nat) (f : Flight) (q : StoreReq) (sl : Nat) (host : Option Nat) (x : SecRec) : Except Nat State :=
  let w := writeStamp (s.writeClock f q.rel q.l) x
  let limit := s.horizon f.part (homeDie sl host)
  if s.leased sl host f.part q.attr x then .error 2
  else if later w limit then .error 1
  else if !(s.mayGrant sl w) then .ok (s.wantStamp sl w)
  else
    let s := ((s.recordRelease f q.rel).makeVersion sl host f.part q.addr q.size q.data.toNat w x).carryPoison q.addr f.poison
    let v := s.version f.part q.addr host (newVersion w x) none
    let s := s.keepAnswer sl f (.storeAck q v)
    .ok ((s.answer n f (.storeAck q v)).pushAfter f q sl host v (minStamp (w + 64) limit))

/-- A store reaches its home and finds its page mapped: the check of R119 and the store (R100). -/
def State.storeReady (s : State) (n : Nat) (f : Flight) (q : StoreReq) (sl : Nat) (host : Option Nat) : State :=
  let old := s.sector sl f.part q.addr
  let checked := match s.detWho f with
    | some t => detCheck .store t (old.inPhase (s.phaseOf f.part))
    | none => .ok old
  match checked with
  | .error w => (s.dropFlight n).raceAt f none q.addr w
  | .ok x =>
    match s.storeAt n f q sl host x with
    | .ok s => s
    | .error why => s.putFlight n { f with kind := .store { q with held := why } }

/-- A copy is parked (R222): it sends the wait of R350. -/
def State.parkCopy (s : State) (core seq a : Nat) : State :=
  match (s.core core).copies.get seq with
  | none => s
  | some x =>
    let now := s.gtrOf (tileOf core)
    (s.onCopy core seq fun x => { x with status := 3, parked := some a, waitSent := now, unrecorded := false }).sendFlight
      { kind := .wait (.page (pageOf a)) (pageOf a * 65536) 0 0 (.core core), ctx := xuCtx core, uid := seq + 1, part := x.part, domain := x.domain
        launch := x.launch, sentAt := now }

/-- A home that parks an element store tells the copy at once (R222). -/
def State.copyParks (s : State) (f : Flight) (a : Nat) : State :=
  match s.copyOf? f with
  | some x => if x.status = 2 then s.parkCopy (coreOf f.ctx) (f.uid - 1) a else s
  | none => s

/-- A store that meets an absent page: parked while the park buffer has room, else refused (R161, R200). -/
def State.parkStore (s : State) (n : Nat) (f : Flight) (q : StoreReq) (sl : Nat) : State :=
  let full := { f with kind := .store { q with refused := true }, offered := s.gtrOf (sliceDie sl) }
  if s.refusedBefore f q.addr then s.putFlight n full
  else match s.offer (.park sl) f.ctx (Config.parkEntries - s.parkedAt sl) with
    | (true, s) => (s.putFlight n { f with kind := .store { q with parked := true, refused := false } }).copyParks f q.addr
    | (false, s) => s.putFlight n full

/-- A store arrives at its home (R100, R160, R161); one that has performed already is answered again (R359). -/
def State.storeArrives (s : State) (n : Nat) (f : Flight) (q : StoreReq) : State :=
  match s.atHome f.part q.addr true (some f.sentAt) with
  | (.missing, s) => (s.dropFlight n).failFlight f 17 q.addr
  | (.held, s) => s
  | (.absent sl, s) => s.parkStore n f q sl
  | (.ready sl host, s) =>
    match s.keptAnswer sl (coreOf f.ctx) f with
    | some k => s.answer n f k
    | none => if s.refusedBefore f q.addr then s.parkStore n f q sl else s.storeReady n f q sl host

/-- The copies of a push store that has performed, once the slice may grant the end of their interval (R134, R144). -/
def State.pushNow (s : State) (n : Nat) (f : Flight) (q : StoreReq) (v : SecCopy) (top : Stamp) : State :=
  match s.homeSlice f.part q.addr with
  | none => (s.dropFlight n).sendPushAck f q.addr 0 (psetCores q.pset).length false
  | some sl =>
    if s.mayGrant sl top then ((s.dropFlight n).raiseRts sl f.part q.addr top).pushCopies f q sl { v with rts := top } else s.wantStamp sl top

/-- HOME_STORE: store n reaches its home in order (R100, R101), or one that was parked there performs in its place (R161, R350); or the copies of one that has performed are sent (R144). -/
def execHomeStore (n : Nat) (s : State) : Answer :=
  .next (match s.flight? n with
    | some f => match f.kind with
      | .store q =>
        if q.held = 4 then (if s.parkedBehind n f.part q.addr then s else s.storeArrives n f { q with held := 0 })
        else if q.parked || q.refused || q.held != 0 || !(s.inOrder n) || s.parkedBefore f.part q.addr ||
            (!(isAgent f.ctx) && s.writeBehind f.ctx f.uid f.seq q.addr) || (q.rel && s.releaseHeld f q.sc) then s
        else s.storeArrives n f q
      | .pushDue q v top => s.pushNow n f q v top
      | _ => s
    | none => s)

/-- Raises the completion clock of a flight's launch (R185). -/
def State.raiseLaunch (s : State) (p : Nat) (slot : Option Nat) (w : Stamp) : State :=
  match slot with
  | some k => s.onLaunch p k fun l => l.raiseClock w
  | none => s


/-- STORE_ACK: an acknowledgement arrives (R97, R158): LCLK rises and, without .nl, a resident line takes the new version. An acknowledgement from an LM port can return the
imprecise store error of R20. -/
def execStoreAck (n : Nat) (s : State) : Answer :=
  .next (match s.flight? n with
    | some f => match f.kind with
      | .storeAck q v =>
        if !(s.inOrder n) then s
        else
          let s := (s.dropFlight n).raiseLaunch f.part f.launch v.wts
          let copy := { v with rts := v.wts, expiry := if v.shared q.attr then some 0 else none }
          let s := if !q.nl && q.attr != attrUncached && ((s.core (coreOf f.ctx)).cacheLine? f.part q.addr).isSome then
              s.onCore (coreOf f.ctx) fun k => k.fillCopy f.part q.addr copy false
            else s
          let s := if isXu f.ctx then s.onCopy (coreOf f.ctx) (f.uid - 1) fun x => { x with w := if x.w = 0 then v.wts else maxStamp x.w v.wts } else s
          if s.alive f then (s.raiseLclk f.ctx v.wts).bumpLoads f.ctx f.uid 0 q.addr q.size v.wts else s
      | .lmAck a imprecise =>
        if !(s.inOrder n) then s
        else if imprecise then (s.dropFlight n).failFlight f 16 a
        else s.dropFlight n
      | _ => s
    | none => s)

/-! ### Atomics -/

/-- Whether an atomic returns a value: a page that is not present is then taken as PAGE (R160, R204). -/
def AtomReq.returns (q : AtomReq) : Bool :=
  q.d != 0 || match q.op with
    | .bar => true
    | .cwait _ => true
    | .ticket => true
    | _ => false

/-- The dispenser of a ticket word: taken at a TICKET while its slice has one of 64 free, freed when SERVING = NEXT (R209). -/
def State.dispense (s : State) (sl a : Nat) (taken : Bool) (new : Nat) : State :=
  let d := s.net.dispensers
  let d := if taken && !(d.contains (a, sl)) && decide ((d.filter fun x => x.2 == sl).length < 64) then d ++ [(a, sl)] else d
  { s with net := { s.net with dispensers := if new / 2 ^ 32 = new % 2 ^ 32 then d.filter (· != (a, sl)) else d } }

/-- The dispenser's part of an operation on a ticket word. -/
def State.dispenseFor (s : State) (q : AtomReq) (sl new : Nat) : State :=
  match q.op with
  | .ticket => s.dispense sl q.addr true new
  | .serve => s.dispense sl q.addr false new
  | _ => s

/-- The clock of an atomic: of a combined GAMO the latest of its participants (R210). -/
def AtomReq.clock (q : AtomReq) : Stamp := q.parts.foldl (fun v x => maxStamp v x.l) q.l

/-- An atomic performs at the atomic unit (R102, R205 to R210): a read and a write as one step, or a read alone. -/
def State.atomAt (s : State) (n : Nat) (f : Flight) (q : AtomReq) (sl : Nat) (host : Option Nat) (old x : SecRec) : Except Nat State :=
  let m := s.mem.readNat q.addr q.size
  let word (v : Nat) : Word := BitVec.ofNat 64 v
  match q.step m with
  | none =>
    match s.serveRead sl host f.part q.addr q.attr false false q.clock old x with
    | .error s => .ok s
    | .ok ((v, _), s) =>
      let s := (s.recordRelease f q.rel).dispenseFor q sl m
      let k : FKind := .atomicResult q (.done (word m) (word m) (some v.wts))
      .ok ((s.keepAnswer sl f k).answer n f k)
  | some new =>
    let w := writeStamp (s.writeClock f q.rel q.clock) x
    if s.leased sl host f.part q.attr x then .error 2
    else if later w (s.horizon f.part (homeDie sl host)) then .error 1
    else if !(s.mayGrant sl w) then .ok (s.wantStamp sl w)
    else
      let s := ((s.recordRelease f q.rel).makeVersion sl host f.part q.addr q.size new w x).dispenseFor q sl new
      let k : FKind := .atomicResult q (.done (word m) (word new) (some w))
      .ok (((s.keepAnswer sl f k).answer n f k).phaseCheck f.part q.addr m new)

/-- The conflict check of R119 that applies to an atomic; JOIN and LEAVE of the phase group have none (R225). -/
def State.detAtom (s : State) (f : Flight) (q : AtomReq) : Option DetAccess :=
  match s.parts.get f.part with
  | some p =>
    if !p.det then none
    else match q.op with
      | .join _ | .leave _ => if p.phaseGroup = q.addr then none else q.detAccess
      | _ => q.detAccess
  | none => none

/-- An atomic whose page is mapped: the check of R119 and the operation; poison is consumed (R357). -/
def State.atomReady (s : State) (n : Nat) (f : Flight) (q : AtomReq) (sl : Nat) (host : Option Nat) : State :=
  let old := s.sector sl f.part q.addr
  let checked := match s.detAtom f q, s.detWho f with
    | some k, some t => detCheck k t (old.inPhase (s.phaseOf f.part))
    | _, _ => .ok old
  match checked with
  | .error w =>
    if s.alive f && q.op != .gamo then (s.dropFlight n).raceAt f (if q.d = 0 then none else some (.g q.d)) q.addr w
    else s.answer n f (.atomicResult q (.race w.raceValue))
  | .ok x =>
    if s.poisoned q.addr q.size then
      let s := s.dropFlight n
      if s.alive f then s.machineCheck f.ctx (BitVec.ofNat 64 q.addr) else s.failFlight f 13 q.addr
    else match s.atomAt n f q sl host old x with
      | .ok s => s
      | .error why => s.putFlight n { f with kind := .atomic { q with held := why } }

/-- An atomic that meets an absent page: PAGE where it returns a value, else it is parked (R160, R204, R211). -/
def State.atomAbsent (s : State) (n : Nat) (f : Flight) (q : AtomReq) (sl : Nat) : State :=
  let refused : Flight := { f with kind := .atomic { q with held := 3 }, offered := s.gtrOf (sliceDie sl) }
  if q.returns then s.answer n f (.atomicResult q .pageAbsent)
  else if s.refusedBefore f q.addr then s.putFlight n refused
  else match s.offer (.park sl) f.ctx (Config.parkEntries - s.parkedAt sl) with
    | (true, s) => s.putFlight n { f with kind := .atomic { q with parked := true } }
    | (false, s) => s.putFlight n refused

/-- An atomic arrives at its home; one that has performed already is answered again (R359). -/
def State.atomArrives (s : State) (n : Nat) (f : Flight) (q : AtomReq) : State :=
  match s.atHome f.part q.addr true (some f.sentAt) with
  | (.missing, s) => s.answer n f (.atomicResult q .noTranslation)
  | (.held, s) => s
  | (.absent sl, s) => s.atomAbsent n f q sl
  | (.ready sl host, s) =>
    match s.keptAnswer sl (coreOf f.ctx) f with
    | some k => s.answer n f k
    | none => if !q.returns && s.refusedBefore f q.addr then s.atomAbsent n f q sl else s.atomReady n f q sl host

/-- Whether an atomic must wait for earlier accesses: of its context, or of the participants of a combined GAMO (R99, R105). -/
def State.atomHeld (s : State) (f : Flight) (q : AtomReq) : Bool :=
  s.parkedBefore f.part q.addr ||
  (if q.parts = [] then
    (!(isAgent f.ctx) && s.writeBehind f.ctx f.uid f.seq q.addr) || (q.rel && s.releaseHeld f q.sc)
  else q.parts.any fun x => s.writeBehind x.ctx x.uid x.seq q.addr)

/-- HOME_ATOMIC: an atomic or a group, wait or ticket operation performs at its home (R102, R174). -/
def execHomeAtomic (n : Nat) (s : State) : Answer :=
  .next (match s.flight? n with
    | some f => match f.kind with
      | .atomic q =>
        if q.held = 4 then (if s.parkedBehind n f.part q.addr then s else s.atomArrives n f { q with held := 0 })
        else if globalBase ≤ q.addr || q.parked || q.held != 0 || q.fault == 1 || !(s.inOrder n) || s.atomHeld f q then s
        else s.atomArrives n f q
      | _ => s
    | none => s)

/-- HORIZON_WAIT_END: a write that waited at its home for LF performs (R131). -/
def execHorizonWaitEnd (n : Nat) (s : State) : Answer :=
  .next (match s.flight? n with
    | some f => match f.kind with
      | .store q => if q.held = 1 then s.storeArrives n f { q with held := 0 } else s
      | .atomic q => if q.held = 1 then s.atomArrives n f { q with held := 0 } else s
      | _ => s
    | none => s)

/-- PLSHARED_WRITE_RELEASE: a write that waited at its home for physical leases performs (R126, R332). -/
def execPlsharedWriteRelease (n : Nat) (s : State) : Answer :=
  .next (match s.flight? n with
    | some f => match f.kind with
      | .store q => if q.held = 2 then s.storeArrives n f { q with held := 0 } else s
      | .atomic q => if q.held = 2 then s.atomArrives n f { q with held := 0 } else s
      | _ => s
    | none => s)

/-! ### Results of atomics -/

/-- The value an atomic of major 0x1E returns (R173). -/
def amoValue (op size : Nat) (m : Word) : Word :=
  if size = 8 then m
  else if op = 6 ∨ op = 7 ∨ op = 10 then (m.setWidth 32 : BitVec 32).setWidth 64
  else (m.setWidth 32 : BitVec 32).signExtend 64

/-- The GEN and rank that BAR returns (R206). -/
def barValue (gen : Nat) (c : Ctx) (a : Nat) : Word :=
  BitVec.ofNat 64 (gen + ((c.ranks.find? fun e => e.addr == a).map (·.rank)).getD 0xFFFFFF * 2 ^ 16)

/-- Whether the condition of a wait holds for a value of its word (R206, R208, R209). -/
def Wait.holds (k : Wait) (v : Word) : Bool :=
  match k with
  | .bar _ gen _ => groupGen v.toNat != gen
  | .cwait _ target _ => decide (target.toNat ≤ v.toNat)
  | .ticket _ t _ => v.toNat % 2 ^ 32 == t
  | _ => false

/-- What a wait writes when its condition holds: the register and its value. -/
def Wait.result (k : Wait) (c : Ctx) (v : Word) : Nat × Word :=
  match k with
  | .bar a _ d => (d, barValue (groupGen v.toNat) c a)
  | .cwait _ _ d => (d, v)
  | .ticket _ t d => (d, BitVec.ofNat 64 t)
  | _ => (0, 0)

/-- The address of the word that a context waits on. -/
def Wait.word? : Wait → Option Nat
  | .bar a _ _ => some a
  | .cwait a _ _ => some a
  | .ticket a _ _ => some a
  | _ => Option.none

/-- The address whose page a context waits for outside its accesses on their way (R190, R348). -/
def Wait.pageAddr : Wait → Option Nat
  | .page a => some a
  | _ => Option.none

/-- The target that a wait carries (R199): that of CWAIT; a BAR or TICKET is told of every change. -/
def Wait.target : Wait → Word
  | .cwait _ t _ => t
  | _ => 0

/-- A context takes a value of its word: with the condition met it acquires the version, writes its register and is ready (R104, R206, R208, R209);
otherwise it waits and sends a wait (R199). -/
def State.takeWord (s : State) (id : Nat) (k : Wait) (v : Word) (wts : Stamp) : State :=
  if k.holds v then
    let r := k.result (s.ctx id) v
    (s.raiseLclk id wts).onCtx id fun c => { (c.wrG r.1 r.2).arrived (.g r.1) with st := .ready, wait := .none, unrecorded := false }
  else
    (s.onCtx id fun c => { c with st := .waiting, wait := k }).sendWait id (.word (k.word?.getD 0)) k.target

/-- Adds an entry to a rank table (R207). -/
def Ctx.recordRank (c : Ctx) (e : RankEntry) : Ctx := { c with ranks := (e :: c.ranks.filter fun x => x.addr != e.addr).take 4 }

/-- Order of the participants of a combined GAMO: executing core, context number, arrival (R210, R376); context ids rise in that order. -/
def gamoBefore (x y : GamoPart × Nat) : Bool := decide (x.1.ctx < y.1.ctx) || (x.1.ctx == y.1.ctx && decide (x.2 < y.2))

/-- The value of a participant: M and the contributions ordered before it (R210). -/
def gamoValue (size : Nat) (m : Word) (parts : List (GamoPart × Nat)) (me : GamoPart × Nat) : Word :=
  let before := (parts.filter fun x => gamoBefore x me).map fun x => x.1.add.toNat
  amoValue 0 size (BitVec.ofNat 64 ((m.toNat + before.sum) % 2 ^ (8 * size)))

/-- Every participant of a combined GAMO gets its value and LCLK rises to the version's wts (R210, R211); its later loads of the bytes perform no earlier (R99, R102). -/
def State.finishGamo (s : State) (p : Nat) (q : AtomReq) (m : Word) (w : Stamp) : State :=
  let parts := q.parts.zipIdx
  parts.foldl
    (fun s x =>
      let s := s.raiseLaunch p x.1.launch w
      if (s.ctx x.1.ctx).uid = x.1.uid then
        ((s.raiseLclk x.1.ctx w).bumpLoads x.1.ctx x.1.uid 0 q.addr q.size w).onCtx x.1.ctx fun c =>
          if x.1.d = 0 then c else (c.wrG x.1.d (gamoValue q.size m parts x)).arrived (.g x.1.d)
      else s) s

/-- The result of an atomic that performed, in its context (R174, R206 to R209). -/
def State.finishAtomic (s : State) (id : Nat) (q : AtomReq) (old new : Word) (w : Stamp) : State :=
  let write (s : State) (v : Word) : State := s.onCtx id fun c => if q.d = 0 then c else (c.wrG q.d v).arrived (.g q.d)
  match q.op with
  | .amo op => write s (amoValue op q.size old)
  | .gamo => s
  | .join rank => (write s old).onCtx id fun c => c.recordRank { addr := q.addr, rank := rank, gen := groupGen old.toNat }
  | .leave _ => s
  | .serve => s
  | .kick => s
  | .bar => s.takeWord id (.bar q.addr (groupGen old.toNat) q.d) new w
  | .cwait t => s.takeWord id (.cwait q.addr t q.d) old w
  | .ticket => s.takeWord id (.ticket q.addr (old.toNat / 2 ^ 32) q.d) old w

/-- Whether PAGE of an atomic makes its context fault-wait, and the flight that waits for the page (R348, R211: each participant of a GAMO its own). -/
def State.atomFaults (s : State) (n : Nat) (f : Flight) (q : AtomReq) : State :=
  if q.parts = [] then
    if s.alive f then (s.putFlight n { f with kind := .atomic { q with fault := 1 } }).faultWait f.ctx q.addr else s.dropFlight n
  else
    q.parts.foldl
      (fun s x =>
        if (s.ctx x.ctx).uid = x.uid then
          (s.sendFlight { f with
            kind := .atomic { q with parts := [{ x with fault := false }], d := x.d, b := x.add, l := x.l, fault := 1 }
            ctx := x.ctx, uid := x.uid, launch := x.launch, domain := x.domain, seq := x.seq, sentAt := s.gtr }).faultWait x.ctx q.addr
        else s) (s.dropFlight n)

/-- Charges the failure of a combined GAMO to the launch of one participant (R160, R211). -/
def State.failPart (s : State) (f : Flight) (x : GamoPart) (kind a : Nat) : State :=
  s.failFlight { f with ctx := x.ctx, uid := x.uid, launch := x.launch } kind a

/-- ATOMIC_RESULT: the result of an atomic arrives (R97, R160, R174). -/
def execAtomicResult (n : Nat) (s : State) : Answer :=
  .next (match s.flight? n with
    | some f => match f.kind with
      | .atomicResult q a =>
        if !(s.inOrder n) then s
        else match a with
          | .done old new wts =>
            let s := s.dropFlight n
            let s := match wts with
              | some w => s.raiseLaunch f.part f.launch w
              | none => s
            if q.parts ≠ [] then
              let s := s.finishGamo f.part q old (wts.getD 0)
              q.parts.foldl (fun s x => if (s.ctx x.ctx).uid = x.uid then s.faultOver x.ctx else s) s
            else if s.alive f then
              let s := match wts with
                | some w => (s.raiseLclk f.ctx w).bumpLoads f.ctx f.uid 0 q.addr q.size w
                | none => s
              (s.finishAtomic f.ctx q old new (wts.getD 0)).faultOver f.ctx
            else s
          | .pageAbsent => s.atomFaults n f q
          | .noTranslation =>
            let s := s.dropFlight n
            if q.parts = [] then s.failFlight f 17 q.addr
            else q.parts.foldl (fun s x => s.failPart f x 17 q.addr) s
          | .race w =>
            q.parts.foldl
              (fun s x => if (s.ctx x.ctx).uid = x.uid then
                  (s.onCtx x.ctx fun c => c.arrivedMaybe (if x.d = 0 then none else some (.g x.d))).trapLater x.ctx .race (BitVec.ofNat 64 q.addr) w
                    ((s.ctx x.ctx).pc - 4)
                else s) (s.dropFlight n)
      | _ => s
    | none => s)

/-! ### LM ports -/

/-- Offset in its LM of an address of the global window. -/
def lmOffset (a : Nat) : Nat := (a - globalBase) % 0x8000

/-- Whether the built-in handler of an atomic may run at a core (R25, R175, R195): its turn is that of a high-priority arrival, after those that wait. -/
def State.atomicTurn (s : State) (core : Nat) : Bool :=
  (s.ctx (core * 8 + 5)).st == .free && (s.core core).orderHi == [] &&
  (if s.active (core * 8 + 4) then !((s.ctx (core * 8 + 4)).onceSuspended) else s.turnsTaken core)

/-- A low-priority handler that the atomic has suspended is not suspended again in this run (R195). -/
def State.afterAtomic (s : State) (core : Nat) : State :=
  if s.active (core * 8 + 4) then s.onCtx (core * 8 + 4) fun c => { c with onceSuspended := true } else s

/-- LM_ATOMIC: an atomic runs in the owner's high-priority handler context at its turn (R25, R175): one port step that writes nothing else. -/
def execLmAtomic (n : Nat) (s : State) : Answer :=
  .next (match s.flight? n with
    | some f => match f.kind with
      | .atomic q =>
        let core := (lmCore? q.addr).getD 0
        let off := lmOffset q.addr
        if q.addr < globalBase || !(s.inOrder n) || s.refuses (tileOf core) (some f.sentAt) || !(s.atomicTurn core) || (q.rel && s.releaseHeld f q.sc) then s
        else if core ≠ coreOf f.ctx ∧ core ≠ f.home ∧ (off < 0x400 ∨ (s.core core).scratchEnd ≤ off) then s.answer n f (.lmAck q.addr true)
        else if s.poisoned q.addr q.size then
          let s := s.dropFlight n
          if s.alive f then s.machineCheck f.ctx (BitVec.ofNat 64 q.addr) else s.failFlight f 13 q.addr
        else
          let m := s.lmRead core off q.size
          let s := (s.recordRelease f q.rel).afterAtomic core
          let s := match q.step m with
            | none => s
            | some new =>
              s.portStore (coreOf f.ctx) core off q.size new
          s.answer n f (.atomicResult q (.done (BitVec.ofNat 64 m) (BitVec.ofNat 64 m) none))
      | _ => s
    | none => s)

/-- Performs a write of a flight at an LM port (R110 to R112, R162). -/
def State.portWrite (s : State) (f : Flight) (a : Nat) (w : LmWrite) : State :=
  let core := (lmCore? a).getD 0
  let off := lmOffset a
  match w with
  | .store n v => s.portStore (coreOf f.ctx) core off n v.toNat
  | .sde _ => s
  | .feset full => (s.traceFeset (coreOf f.ctx) core off full).setFullServe a full

/-- REMOTE_LM_STORE: a store, SDE or FESET reaches its LM port (R20, R110, R162 to R164): the mailbox area and cache region of another core give the imprecise store error;
an SDE that finds every waiter entry in use is refused and kept at its core. -/
def execRemoteLmStore (n : Nat) (s : State) : Answer :=
  .next (match s.flight? n with
    | some f => match f.kind with
      | .lmWrite a w rel sc =>
        let core := (lmCore? a).getD 0
        let off := lmOffset a
        if !(s.inOrder n) || s.refuses (tileOf core) (some f.sentAt) || (rel && s.releaseHeld f sc) then s
        else if coreOf f.ctx ≠ core ∧ f.home ≠ core ∧ (off < 0x400 ∨ (s.core core).scratchEnd ≤ off) then s.answer n f (.lmAck a true)
        else
          let s := s.recordRelease f rel
          let s := if f.skip && s.alive f then s.onCtx f.ctx fun c => { c with pushSkipped := true } else s
          match w with
          | .sde v =>
            match s.feArrive f.ctx f.uid a (.sde v (f.poison != 0)) false f.seq f.part f.launch f.word with
            | (true, s) => s.dropFlight n
            | (false, s) => s.putFlight n { f with kind := .feOffer a (.sde v (f.poison != 0)) false, offered := s.gtrOf (tileOf (coreOf f.ctx)) }
          | w => ((s.portWrite f a w).carryPoison a f.poison).answer n f (.lmAck a false)
      | _ => s
    | none => s)

/-! ### Push copies (R145, R146) -/

/-- The current domain of a core: that of its lowest occupied thread context (R307). -/
def State.coreDomain (s : State) (core : Nat) : Option Nat :=
  (([0, 1, 2, 3] : List Nat).find? fun n => (s.ctx (core * 8 + n)).st != .free).map fun n => (s.ctx (core * 8 + n)).cr.domain.toNat

/-- Whether a core accepts a pushed copy (R145); the PLB is refilled as for an access (R307). -/
def State.acceptsPush (s : State) (core p a : Nat) : Bool × State :=
  if (s.core core).cacheSize = 0 then (false, s)
  else match s.coreDomain core with
    | none => (false, s)
    | some d =>
      match s.plbLookup core d a with
      | (none, s) => (false, s)
      | (some e, s) =>
        let c := s.core core
        let resident := (c.cacheLine? p a).isSome
        (e.p && (resident || (decide ((c.cache.filter fun l => l.push).length < c.pquota.toNat) && c.makeRoom.isSome)), s)

/-- PUSH_RECEIVE: a pushed copy arrives (R145): it is filled, or refused. -/
def execPushReceive (n : Nat) (s : State) : Answer :=
  .next (match s.flight? n with
    | some f => match f.kind with
      | .push line sec copy dest g =>
        if !(s.inOrder n) || s.refuses (tileOf dest) (some f.sentAt) then s
        else
          let a := line + 64 * sec
          let (ok, s) := s.acceptsPush dest f.part a
          let s := if ok then s.onCore dest fun c => c.fillCopy f.part a copy true else s
          s.answer n f (.pushAnswer g dest ok)
      | _ => s
    | none => s)

/-- The home gathers the answer of one receiver of a push store; the last one sends the push acknowledgement (R146). -/
def State.gathered (s : State) (f : Flight) (g : Nat) (ok : Bool) : State :=
  match s.net.gathers.find? fun x => x.id == g with
  | none => s
  | some x =>
    let x := { x with
      left := x.left - 1, delivered := x.delivered + (if ok then 1 else 0), refused := x.refused + (if ok then 0 else 1) }
    let rest := s.net.gathers.filter fun y => y.id != g
    if x.left = 0 then ({ s with net := { s.net with gathers := rest } }).sendFlight { f with kind := .pushAck x.addr x.delivered x.refused false }
    else { s with net := { s.net with gathers := x :: rest } }

/-- PUSH_ANSWER: the home gathers an answer; the last one sends the push acknowledgement (R146). -/
def execPushAnswer (n : Nat) (s : State) : Answer :=
  .next (match s.flight? n with
    | some f => match f.kind with
      | .pushAnswer g _ ok => if !(s.inOrder n) then s else (s.dropFlight n).gathered f g ok
      | _ => s
    | none => s)

/-- What a context counts when a push acknowledgement is lost: each copy as refused, and a skipped store as such (R146, R358). -/
def Ctx.pushLost (c : Ctx) (delivered refused : Nat) (skipped : Bool) : Ctx :=
  { c with pushRefused := c.pushRefused + delivered + refused, pushSkipped := c.pushSkipped || skipped }

/-- PUSH_ACK: the core adds an acknowledgement to the context's counts (R146). -/
def execPushAck (n : Nat) (s : State) : Answer :=
  .next (match s.flight? n with
    | some f => match f.kind with
      | .pushAck _ d r skipped =>
        if !(s.inOrder n) then s else
        let s := s.dropFlight n
        if s.alive f then s.onCtx f.ctx fun c =>
            { c with pushDelivered := c.pushDelivered + d, pushRefused := c.pushRefused + r, pushSkipped := c.pushSkipped || skipped }
        else s
      | _ => s
    | none => s)

end Sys2Proof.Machine
end

