-- ==== Sys2Proof/Machine/Waiting.lean ====
section
/-!
DEFINITION. Waits and wakes (R24, R88, R199), page faults and their resolution (R315, R348 to R350), refused offers (R161, R164, R200, R201) and the combiner
window of GAMO (R210).
-/
namespace Sys2Proof.Machine

/-! ### Squall tables (R199) -/

/-- The entry of a router for a key and partition. -/
def State.squall? (s : State) (x y p : Nat) (key : Key) : Option SquallEntry :=
  s.net.squall.find? fun e => e.x == x && e.y == y && e.part == p && decide (e.key = key)

/-- Replaces an entry of a router. -/
def State.setSquall (s : State) (e : SquallEntry) : State :=
  { s with net := { s.net with
      squall := e :: s.net.squall.filter fun d => !(d.x == e.x && d.y == e.y && d.part == e.part && decide (d.key = e.key)) } }

/-- The path of a wait: XY from its cluster's router to the elevator of the key's home (R137, R199). -/
def State.waitPath (s : State) (f : Flight) (key : Key) : List (Nat × Nat) := s.pathOf f 0 key.address

/-- OnWait (R199) at a router: the new entry, if it changes, and whether the wait goes on. -/
def onWait (found : Option SquallEntry) (free : Bool) (x y p : Nat) (key : Key) (target : Word) (port : Port) (expiry : Nat) :
    Option SquallEntry × Bool :=
  match found with
  | some e =>
    let e := { e with children := if e.children.contains port then e.children else e.children ++ [port] }
    if target.toNat < e.min.toNat then (some { e with min := target }, true) else (some e, false)
  | none =>
    if free then (some { x := x, y := y, part := p, key := key, children := [port], min := target, expiry := expiry }, true)
    else (none, true)

/-- SQUALL_WAIT: wait n reaches the next router of its path (R199). -/
def execSquallWait (n : Nat) (s : State) : Answer :=
  .next (match s.flight? n with
    | some f => match f.kind with
      | .wait key a target hop port =>
        match (s.waitPath f key)[hop]? with
        | none => s
        | some (x, y) =>
          if !(s.inOrder n) then s
          else
            let free := decide ((s.net.squall.filter fun e => e.x == x && e.y == y).length < 16)
            let expiry := s.gtrOf (tileOf (coreAt x y 0)) + 64 * microsecond
            let (e, on) := onWait (s.squall? x y f.part key) free x y f.part key target port expiry
            let s := match e with
              | some e => s.setSquall e
              | none => s
            if on then s.putFlight n { f with kind := .wait key a target (hop + 1) (.router x y) } else s.dropFlight n
      | _ => s
    | none => s)

/-- SQUALL_WAKE: wake n reaches a router (R199): it goes to every child of the entry, which is freed; with no entry it is lost. -/
def execSquallWake (n : Nat) (s : State) : Answer :=
  .next (match s.flight? n with
    | some f => match f.kind with
      | .wake key v wts (.router x y) unrec =>
        if !(s.inOrder n) then s
        else match s.squall? x y f.part key with
        | none => s.dropFlight n
        | some e =>
          let s := s.dropFlight n
          let s := { s with net := { s.net with squall := s.net.squall.filter (· != e) } }
          e.children.foldl (fun s port => s.sendWake f.part key v wts port unrec) s
      | _ => s
    | none => s)

/-- SQUALL_ENTRY_EXPIRY: an entry whose expiry has passed is freed without a wake (R199). -/
def execSquallEntryExpiry (n : Nat) (s : State) : Answer :=
  .next (match s.net.squall[n]? with
    | some e =>
      if e.expiry ≤ s.gtrOf (tileOf (coreAt e.x e.y 0)) then { s with net := { s.net with squall := s.net.squall.eraseIdx n } } else s
    | none => s)

/-- The port of the agent that sent a wait: its core, its slot of the launch table, or its collective slot (R181, R199, R342). -/
def Flight.waiterPort (f : Flight) : Port :=
  if numberOf f.ctx ≠ 7 then .core (coreOf f.ctx) else if isCollCtx f.ctx then .coll (collOf f.ctx).2 else .table ((f.launch).getD 0)

/-- An answer at once to a wait (R199): through the entries that recorded it, and to the waiter itself, so that a full table costs no progress. -/
def State.answerWait (s : State) (f : Flight) (sl : Nat) (key : Key) (v : Word) (wts : Stamp) (unrec : Bool) : State :=
  let s := if (s.squall? (elevatorX sl) (elevatorY sl) f.part key).isSome then s.sendWake f.part key v wts (elevatorPort sl) unrec else s
  s.sendWake f.part key v wts f.waiterPort unrec

/-- Whether the gate of the launch, or collective, that sent a wait has a value of its word (R181, R342). -/
def Flight.gateMet (f : Flight) (target v : Word) : Bool := numberOf f.ctx == 7 && decide (target.toNat ≤ v.toNat)

/-- Records a key with waiters at a home, or answers unrecorded when 256 are recorded (R199). -/
def State.recordWait (s : State) (f : Flight) (sl : Nat) (key : Key) (v : Word) (wts : Stamp) : State :=
  let r : WaitRec := { slice := sl, part := f.part, key := key }
  if s.net.waits.contains r then s
  else if (s.net.waits.filter fun w => w.slice == sl).length < 256 then { s with net := { s.net with waits := s.net.waits ++ [r] } }
  else s.answerWait f sl key v wts true

/-- A wait for a word at its home (R199, R208): answered at once if its condition holds, which counts as a read of the word, else recorded, or answered unrecorded. -/
def State.wordWait (s : State) (n : Nat) (f : Flight) (sl : Nat) (key : Key) (w : Nat) (target : Word) : State :=
  let v := s.wordAt w
  let x := s.sector sl f.part w
  if f.gateMet target v then (s.dropFlight n).answerWait f sl key v x.wts false
  else if s.alive f && (s.ctx f.ctx).wait.word? == some w && (s.ctx f.ctx).wait.holds v then
    let y := holdRead (s.lclkOf f.ctx) x
    if s.mayGrant sl y.rts then ((s.dropFlight n).setSector sl f.part w y).answerWait f sl key v x.wts false else s.wantStamp sl y.rts
  else (s.dropFlight n).recordWait f sl key v x.wts

/-- HOME_WAIT_RECORD: wait n has passed its last router and reaches the home (R199, R350): it is answered at once if its condition holds, else recorded, or answered
unrecorded. A word is read as any access reads it, from the host's line where its page is the host's (R331, R335); on a page that is not present the wait is recorded. -/
def execHomeWaitRecord (n : Nat) (s : State) : Answer :=
  .next (match s.flight? n with
    | some f => match f.kind with
      | .wait key a target hop _ =>
        match s.homeSlice f.part a with
        | none => s.dropFlight n
        | some sl =>
          if hop < (s.waitPath f key).length || !(s.inOrder n) then s
          else match key with
            | .page page =>
              if s.net.faults.any fun r => r.part == f.part && r.page == page then (s.dropFlight n).recordWait f sl key 0 0
              else (s.dropFlight n).answerWait f sl key 1 0 false
            | .word w => match s.atHome f.part w false (some f.sentAt) with
              | (.ready _ _, t) => t.wordWait n f sl key w target
              | (.held, t) => t
              | (.missing, t) => t.dropFlight n
              | (.absent _, _) => (s.dropFlight n).recordWait f sl key (s.wordAt w) (s.sector sl f.part w).wts
      | _ => s
    | none => s)

/-! ### Wakes at the waiters -/

/-- Contexts of a core that wait on a word for a partition. -/
def State.waitersFor (s : State) (core p a : Nat) : List Nat :=
  ((List.range 6).map (core * 8 + ·)).filter fun id => (s.ctx id).st == .waiting && (s.ctx id).partNo == p && (s.ctx id).wait.word? == some a

/-- A wake reaches one waiter: its condition is tested again (R199); an unrecorded answer that does not meet it is followed by another wait after 4 µs. -/
def State.wakeOne (s : State) (v : Word) (wts : Stamp) (unrec : Bool) (id : Nat) : State :=
  if unrec && !((s.ctx id).wait.holds v) then
    s.onCtx id fun c => { c with unrecorded := true, waitSent := s.gtrOf (tileOf (coreOf id)) }
  else s.takeWord id (s.ctx id).wait v wts

/-- A wake reaches a slot of the launch table (R181, R199): the launch that waits there reads its gate word again; an unrecorded answer is followed by another wait after 4 µs. -/
def State.wakeGate (s : State) (p slot : Nat) (key : Key) (v : Word) (unrec : Bool) : State :=
  s.onLaunch p slot fun l =>
    if l.st ≠ .gated ∨ l.gateSent.isNone = true then l
    else match key with
      | .word a =>
        if l.gate ≠ a then l
        else if unrec ∧ v.toNat < l.gateVal.toNat then { l with gateUnrecorded := true, gateSent := some (s.gtrOf sDie) }
        else { l with gateSent := none }
      | .page g =>
        if pageOf l.gate ≠ g then l
        else if v = 0 then { l with gateUnrecorded := true, gateSent := some (s.gtrOf sDie) }
        else if v = 1 then { l with gateSent := none } else l

/-- A gated launch that has waited a time with no wake reads its gate word again, and waits again where it is not met (R199); of those answered unrecorded where asked. -/
def State.resendGate (s : State) (id age : Nat) (unrec : Bool) : State :=
  let g := gateOf id
  s.onLaunch g.1 g.2 fun l =>
    match l.gateSent with
    | some t => if l.st = .gated ∧ (l.gateUnrecorded = true ∨ unrec = false) ∧ t + age ≤ s.gtrOf sDie then { l with gateSent := none } else l
    | none => l

/-- A wake reaches a collective slot (R199, R342): it reads its gate word again; an unrecorded answer is followed by another wait after 4 µs, and a page that is denied ends every rank
FAULT. -/
def CollSlot.wake (c : CollSlot) (key : Key) (v : Word) (unrec : Bool) (now : Nat) : CollSlot :=
  let gate := (c.desc.getD 4 0).toNat
  let again : CollSlot := { c with gateUnrecorded := true, gateSent := some now }
  if c.gateSent.isNone then c
  else match key with
    | .word a => if gate ≠ a then c else if unrec ∧ v.toNat < (c.desc.getD 5 0).toNat then again else { c with gateSent := none }
    | .page g =>
      if pageOf gate ≠ g then c
      else if v = 0 then again
      else if v = 1 then { c with gateSent := none }
      else { c with gateSent := none, due := some (4, bitsOf (c.desc.getD 0 0) 8 8, 0, [], 4) }

/-- A collective slot that exists changed. -/
def State.onColl (s : State) (p slot : Nat) (f : CollSlot → CollSlot) : State :=
  s.onPart p fun q => match q.colls.get slot with
    | some c => { q with colls := q.colls.set slot (f c) }
    | none => q

/-- A collective slot that has waited for its gate a time with no wake reads it again, and waits again where it is not met (R199); of those answered unrecorded where asked. -/
def State.resendColl (s : State) (id age : Nat) (unrec : Bool) : State :=
  let g := collOf id
  s.onColl g.1 g.2 fun c =>
    match c.gateSent with
    | some t => if (c.gateUnrecorded = true ∨ unrec = false) ∧ t + age ≤ s.gtrOf sDie then { c with gateSent := none } else c
    | none => c

/-- What waits in the S-die for a gate under a number waits again. -/
def State.resendAtTable (s : State) (id age : Nat) (unrec : Bool) : State := if isCollCtx id then s.resendColl id age unrec else s.resendGate id age unrec

/-- WAIT_WAKE: wake n reaches a core (R199): every context of the core that waits on the word takes it; or a slot of the launch table, or a collective slot (R181, R342). -/
def execWaitWake (n : Nat) (s : State) : Answer :=
  .next (match s.flight? n with
    | some f => match f.kind with
      | .wake (.word a) v wts (.core core) unrec =>
        if !(s.inOrder n) then s
        else (s.waitersFor core f.part a).foldl (fun s id => s.wakeOne v wts unrec id) (s.dropFlight n)
      | .wake (.word a) v _ (.table slot) unrec => if !(s.inOrder n) then s else (s.dropFlight n).wakeGate f.part slot (.word a) v unrec
      | .wake (.word a) v _ (.coll slot) unrec => if !(s.inOrder n) then s else (s.dropFlight n).onColl f.part slot fun c => c.wake (.word a) v unrec (s.gtrOf sDie)
      | _ => s
    | none => s)

/-- Addresses whose page a context waits for. -/
def State.faultPages (s : State) (id : Nat) : List Nat :=
  ((s.flightsOf id).filterMap fun f => match f.kind with
    | .load q => if q.fault = 1 then some (pageOf q.addr) else none
    | .atomic q => if q.fault = 1 then some (pageOf q.addr) else none
    | _ => none) ++
  match (s.ctx id).st, (s.ctx id).wait with
  | .staging, .page a => [pageOf a]
  | .faultWaiting, .page a => if s.faulting id then [] else [pageOf a]
  | _, _ => []

/-- Sends the waits of a context again (R199, R350). -/
def State.resendWaits (s : State) (id : Nat) : State :=
  match (s.ctx id).wait.word? with
  | some a => s.sendWait id (.word a) (s.ctx id).wait.target
  | none => (s.faultPages id).foldl (fun s p => s.sendWait id (.page p) 0) s

/-- Parked copies of a core whose last wait was sent a time ago; of those answered unrecorded where asked (R199, R222). -/
def State.staleCopies (s : State) (core age : Nat) (unrec : Bool) : List (Nat × Nat) :=
  (s.core core).copies.filterMap fun x =>
    if x.2.status = 3 ∧ (x.2.unrecorded || !unrec) ∧ x.2.waitSent + age ≤ s.gtrOf (tileOf core) then x.2.parked.map fun a => (x.1, a) else none

/-- Parked copies of a core send their waits again (R199, R222). -/
def State.resendCopies (s : State) (core age : Nat) (unrec : Bool) : State :=
  (s.staleCopies core age unrec).foldl (fun s x => s.parkCopy core x.1 x.2) s

/-- Whether a context waits by squall waits. -/
def State.squallWaiting (s : State) (id : Nat) : Bool := ((s.ctx id).st == .waiting && (s.ctx id).wait.word?.isSome) || s.faultPages id != []

/-- WAIT_REPOLL: a waiter that has received no wake for 64 µs sends its wait again (R199). -/
def execWaitRepoll (ctx : Nat) (s : State) : Answer :=
  .next (if numberOf ctx = 7 then s.resendAtTable ctx (64 * microsecond) false
    else if isXu ctx then s.resendCopies (coreOf ctx) (64 * microsecond) false
    else if s.squallWaiting ctx && decide ((s.ctx ctx).waitSent + 64 * microsecond ≤ s.gtrOf (tileOf (coreOf ctx))) then s.resendWaits ctx else s)

/-- UNRECORDED_RESEND: a waiter answered unrecorded sends its wait again after 4 µs (R199). -/
def execUnrecordedResend (ctx : Nat) (s : State) : Answer :=
  .next (if numberOf ctx = 7 then s.resendAtTable ctx (4 * microsecond) true
    else if isXu ctx then s.resendCopies (coreOf ctx) (4 * microsecond) true
    else if s.squallWaiting ctx && (s.ctx ctx).unrecorded && decide ((s.ctx ctx).waitSent + 4 * microsecond ≤ s.gtrOf (tileOf (coreOf ctx))) then
      s.resendWaits ctx
    else s)

/-- WAITT_EXPIRY: the GTR reaches the value that WAITT waits for (R88). -/
def execWaittExpiry (ctx : Nat) (s : State) : Answer :=
  .next (match (s.ctx ctx).st, (s.ctx ctx).wait with
    | .waiting, .waitt v => if v.toNat ≤ s.gtrOf (tileOf (coreOf ctx)) then s.onCtx ctx Ctx.wakeUp else s
    | _, _ => s)

/-! ### Page faults (R315, R348 to R350) -/

/-- Whether a word is a level 4 leaf for a partition (R312, R313). -/
def leafFor (e : Word) (p : Nat) : Bool := walkEntry 4 e == some (.leaf e) && bitsOf e 56 4 == p

/-- A table entry of levels 1 to 3 that leads on (R313). -/
def tableEntry : Word := 0x8000000000000000

/-- Writes zeros over a range of memory, without poison (R324). -/
def State.wipeMemory (s : State) (a n : Nat) : State :=
  { s with mem := s.mem.wipe a n, poison := s.poison.filter fun w => !(decide (a ≤ w) && decide (w < a + n)) }

/-- Whether an entry keeps the data of a page: a valid leaf, or one that is not present (R313, R316); an entry that leads on to a table keeps none itself. -/
def keepsData (e : Word) : Bool := if bitsOf e 63 1 = 1 then bitsOf e 62 1 == 1 else bitsOf e 53 3 == 1

/-- Whether a new leaf of a page is for data that the old one kept: both of one partition (R324). -/
def sameOwner (old new : Word) : Bool := keepsData old && keepsData new && bitsOf old 56 4 == bitsOf new 56 4

/-- Raises the memory stamps of k 1 MiB regions from an address, at each home of a partition, to the LF of a wipe (R123, R324). -/
def State.wipeStamps (s : State) (p a k : Nat) : State :=
  match (s.parts.get p).bind fun q => (q.region? a).map q.homeList with
  | none => s
  | some sls => sls.foldl (fun (s : State) sl => (List.range k).foldl (fun (s : State) i =>
      let b := a + i * 2 ^ 20
      { s with net := { s.net with mstamps := s.net.mstamps.set (stampKey p sl b) (maxStamp (s.memStamp p sl b) (s.lf p (sliceDie sl))) } }) s) s

/-- The state keeps the bytes of a host line at an address that reached it; these are beyond every address, for a line that none reaches. -/
def asideOf (l : HostLine) : Nat := 2 ^ 61 + l.part * 2 ^ 57 + l.hpa

/-- The host lines that the state keeps in a range, which is wiped: they are the host's data, and stay. -/
def State.hostAside (s : State) (a n : Nat) : State :=
  (s.host.lines.filter fun l => decide (a ≤ l.va) && decide (l.va < a + n) && decide (l.hpa < 2 ^ 57)).foldl (fun (s : State) l => s.hostAt l (asideOf l)) s

/-- Wipes a page whose PART changes, or that is unmapped (R324): zeros, and the memory stamps of its regions for a partition. -/
def State.wipePage (s : State) (p a n : Nat) : State := ((s.hostAside a n).wipeMemory a n).wipeStamps p (a / 2 ^ 20 * 2 ^ 20) (Nat.max 1 (n / 2 ^ 20))

/-- Whether a slice still holds a translation of a page, of 64 KiB or 512 times that (R314, R315). -/
def State.cached (s : State) (page large : Nat) : Bool := s.net.trans.any fun t => t.page / large == page / large

/-- Wipes what has waited for it and what no slice holds a translation of any more (R315, R324). -/
def State.wipeDue (s : State) : State :=
  let held (x : Nat × Nat × Nat) : Bool := s.net.trans.any fun t => decide (x.1 ≤ t.page * 65536) && decide (t.page * 65536 < x.1 + x.2.1)
  (s.net.unwiped.filter fun x => !(held x)).foldl (fun (s : State) x => s.wipePage x.2.2 x.1 x.2.1)
    { s with net := { s.net with unwiped := s.net.unwiped.filter held } }

/-- Where the data of a page stand that is not present, after its leaf has been written over an old one (R316). -/
def placesAfter (places : FMap Word) (key : Nat) (old leaf : Word) : FMap Word :=
  if !(sameOwner old leaf) || bitsOf leaf 63 1 == 1 then places.del key
  else if bitsOf old 63 1 = 1 then places.set key old
  else places

/-- Wipes a page for a partition; while a slice holds a translation of it, its data are kept until the last purge (R315, R324). -/
def State.wipeOrWait (s : State) (a n owner : Nat) : State :=
  if s.cached (a / 65536) (n / 65536) then { s with net := { s.net with unwiped := s.net.unwiped ++ [(a, n, owner)] } } else s.wipePage owner a n

/-- Whether a level 3 entry leads on to a table of 64 KiB pages (R312, R313). -/
def leadsOn (level : Nat) (e : Word) : Bool := level == 3 && bitsOf e 63 1 == 1 && bitsOf e 62 1 == 0

/-- A leaf of 32 MiB takes the place of the table below it: each page that the table mapped keeps its data only where the leaf is for data of the same partition (R324, R325). -/
def State.dropTable (s : State) (a : Nat) (leaf : Word) : State :=
  let below (key : Nat) : Bool := key / 2 ^ 56 == 4 && key % 2 ^ 56 / 512 == a / 2 ^ 25
  let lost := s.pte.filter fun x => below x.1 && keepsData x.2 && !(sameOwner x.2 leaf)
  let s := lost.foldl (fun (s : State) x => s.wipeOrWait (x.1 % 2 ^ 56 * 65536) 65536 (bitsOf (if keepsData leaf then leaf else x.2) 56 4)) s
  { s with pte := s.pte.filter fun x => !(below x.1), net := { s.net with places := s.net.places.filter fun x => !(below x.1) } }

/-- Writes the leaf of a page of a level, 3 or 4 (R312, R315): a level above that leads nowhere gets a table. Data of another owner, and of a page that is unmapped, are wiped; while a slice holds
the old entry they are kept, and the last purge wipes (TRANSLATION_PURGE). -/
def State.writeLeaf (s : State) (level page : Nat) (leaf : Word) : State :=
  let large := if level = 3 then 512 else 1
  let size := 65536 * large
  let a := page * 65536 / size * size
  let old := s.pte.getD (pteKey level a) 0
  let owner := bitsOf (if keepsData leaf then leaf else old) 56 4
  let s := { s with net := { s.net with places := placesAfter s.net.places (pteKey level a) old leaf } }
  let s := if level = 3 then s.dropTable a leaf else s
  let s := if sameOwner old leaf || leadsOn level old then s else s.wipeOrWait a size owner
  let above (t : FMap Word) (l : Nat) : FMap Word := if bitsOf (t.getD (pteKey l a) 0) 63 1 = 0 then t.set (pteKey l a) tableEntry else t
  { s with pte := (((List.range (level - 1)).map (· + 1)).foldl above s.pte).set (pteKey level a) leaf }

/-- Whether a part of a range has still to be wiped (R311, R325). -/
def State.unwipedIn (s : State) (a n : Nat) : Bool := s.net.unwiped.any fun x => overlaps a n x.1 x.2.1

/-- Whether a steward may write a leaf over the old one (R315, R316): a valid leaf only once no slice holds the old entry and what was to be wiped is (R325), and one that is not
valid not within 1 ms of the page's last resolved fault (R350). The leaf of a 64 KiB page is not written while a page of 32 MiB stands above it: the steward unmaps that first (log 65). -/
def State.mayWrite (s : State) (level page : Nat) (leaf : Word) : Bool :=
  let large := if level = 3 then 512 else 1
  if level = 4 ∧ keepsData (s.pte.getD (pteKey 3 (page * 65536)) 0) = true then false
  else if bitsOf leaf 63 1 = 1 then !(s.cached page large) && !(s.unwipedIn (page / large * large * 65536) (65536 * large))
  else !(s.net.kept.any fun x => x.1 / large == page / large && decide (s.gtrOf sDie < x.2))

/-- The first write parked on a page of a partition. -/
def State.firstParked (s : State) (p page : Nat) : Option Nat :=
  s.net.flights.findIdx? fun f => f.part == p && match f.kind with
    | .store q => q.parked && pageOf q.addr == page
    | .atomic q => q.parked && pageOf q.addr == page
    | _ => false

/-- Performs the parked writes of a page in arrival order (R350); their park entries free. One that must still wait, for another of its sector, a stamp or the host, keeps its place at
the home (R161). -/
def State.unpark (s : State) (p page sl : Nat) : Nat → State
  | 0 => s
  | k + 1 =>
    match s.firstParked p page with
    | none => s
    | some n =>
      match s.flight? n with
      | none => s
      | some f =>
        let s := s.unitFreed (.park ((s.homeSlice p ((f.parkedAddr).getD 0)).getD sl))
        let s := match f.kind with
          | .store q =>
            let t := s.putFlight n { f with kind := .store { q with parked := false, held := 4 } }
            if s.parkedBehind n p q.addr then t else t.storeArrives n f { q with parked := false }
          | .atomic q =>
            let t := s.putFlight n { f with kind := .atomic { q with parked := false, held := 4 } }
            if s.parkedBehind n p q.addr then t else t.atomArrives n f { q with parked := false }
          | _ => s
        State.unpark s p page sl k

/-- Discards the parked writes of a denied page; each aborts its issuer's launch (R350). -/
def State.denyParked (s : State) (p page sl : Nat) : Nat → State
  | 0 => s
  | k + 1 =>
    match s.firstParked p page with
    | none => s
    | some n =>
      match s.flight? n with
      | none => s
      | some f =>
        let s := ((s.unitFreed (.park ((s.homeSlice p ((f.parkedAddr).getD 0)).getD sl))).dropFlight n).failFlight f 17 ((f.parkedAddr).getD 0)
        State.denyParked s p page sl k

/-- Launches of a partition whose gate word or completion word lies in a denied page (R181, R185). -/
def State.denyLaunches (s : State) (p page : Nat) : State :=
  match s.parts.get p with
  | none => s
  | some q => q.launches.foldl
      (fun s x =>
        let l := x.2
        if l.st = .gated ∧ pageOf l.gate = page then s.orderAbort p x.1 { kind := 17, addr := BitVec.ofNat 64 l.gate }
        else if l.st = .draining ∧ l.done ≠ 0 ∧ pageOf l.done = page then s.orderAbort p x.1 { kind := 17, addr := BitVec.ofNat 64 l.done }
        else s) s

/-- Clears a fault record and sends the page's wake, from each home that has recorded a wait for it (R350). -/
def State.closeFault (s : State) (r : FaultRec) (v : Word) : State :=
  let mine (w : WaitRec) : Bool := w.part == r.part && decide (w.key = .page r.page)
  (s.net.waits.filter mine).foldl (fun (s : State) w => s.sendWake r.part (.page r.page) v 0 (elevatorPort w.slice) false)
    { s with net := { s.net with
      faults := s.net.faults.filter fun x => !(x.part == r.part && x.page == r.page), waits := s.net.waits.filter fun w => !(mine w) } }

/-- One millisecond in units of GTR (R35). -/
def millisecond : Nat := 16000000

/-- The steward keeps a page present for 1 ms after a map (R350). -/
def State.keepPresent (s : State) (page : Nat) : State := { s with net := { s.net with kept := s.net.kept.set page (s.gtrOf sDie + millisecond) } }

/-- A page with a fault record is mapped now: its parked writes perform, and the wake has value 1 (R350). -/
def State.mapFault (s : State) (r : FaultRec) : State :=
  ((s.unpark r.part r.page r.slice s.net.flights.length).closeFault r 1).keepPresent r.page

/-- A page is denied: its parked writes are discarded, and the wake has value 2 (R350). -/
def State.denyFault (s : State) (r : FaultRec) : State :=
  ((s.denyParked r.part r.page r.slice s.net.flights.length).denyLaunches r.part r.page).closeFault r 2

/-- The leaf of where the data of a page stand: its own, or the last valid one before the page was made not present (R316). -/
def State.pagePlace (s : State) (level a : Nat) : Option Word :=
  let e := s.pte.getD (pteKey level a) 0
  if bitsOf e 63 1 = 1 then some e else s.net.places.get (pteKey level a)

/-- Whether data that stand at one leaf have to be moved to stand at another: from host memory or to it (R316). Between HBM stacks they read the same. -/
def dataMoves (old leaf : Word) : Bool :=
  sameOwner old leaf && (bitsOf old 61 1 == 1 || bitsOf leaf 61 1 == 1) && !(bitsOf old 61 1 == bitsOf leaf 61 1 && bitsOf old 12 36 == bitsOf leaf 12 36)

/-- PAGE_RESOLVE: a steward maps a page that has a fault record, or denies it (R350). To move its data from host memory or to it is a migration (R316). -/
def execPageResolve (part page : Nat) (leaf : Option Word) (s : State) : Answer :=
  .next (match s.net.faults.find? fun r => r.part == part && r.page == page with
    | none => s
    | some r =>
      match leaf with
      | some e => if leafFor e part && s.mayWrite 4 page e && !((s.pagePlace 4 (page * 65536)).any fun o => dataMoves o e) then (s.writeLeaf 4 page e).mapFault r else s
      | none => s.denyFault r)

/-- The GAMOs of a context that have waited for a page are executed again, and combine again (R210, R211). -/
def State.gamosAgain (s : State) (id page : Nat) : State :=
  let due (f : Flight) : Option AtomReq :=
    match f.kind with
    | .atomic q => if f.ctx = id ∧ f.uid = (s.ctx id).uid ∧ q.op = .gamo ∧ q.fault = 1 ∧ pageOf q.addr = page then some q else none
    | _ => none
  let waiting := s.net.flights.filter fun f => (due f).isSome
  let s := s.setFlights (s.net.flights.filter fun f => (due f).isNone)
  waiting.foldl (fun (s : State) f => match due f with
    | some q => q.parts.foldl (fun (s : State) x =>
        let x := { x with fault := true }
        match s.intoCombiner (coreOf id) f.part q.addr q.size q.attr x with
        | some t => t
        | none => s.sendFlight { f with kind := .atomic (gamoAlone q.addr q.size q.attr x), sentAt := s.gtrOf (tileOf (coreOf id)) }) s
    | none => s) s

/-- A page wake reaches one context (R348, R350): with value 1 its faulting accesses are performed again, with value 2 its launch aborts; 0 was unrecorded. -/
def State.wakeFault (s : State) (page : Nat) (v : Word) (id : Nat) : State :=
  let u := (s.ctx id).uid
  if v = 2 then
    let s := (s.flightsOf id).foldl
      (fun s f => match f.kind with
        | .load q => if q.fault = 1 ∧ pageOf q.addr = page then s.failFlight f 17 q.addr else s
        | .atomic q => if q.fault = 1 ∧ pageOf q.addr = page then s.failFlight f 17 q.addr else s
        | _ => s) s
    if (s.ctx id).st = .staging ∨ ((s.ctx id).st = .faultWaiting ∧ s.faulting id = false) then
      let a := (s.ctx id).wait.pageAddr.getD (page * 65536)
      let r : AbortRec := { kind := 17, tid := (s.ctx id).cr.tid, addr := BitVec.ofNat 64 a }
      match (s.ctx id).launch with
      | some slot => s.orderAbort (s.ctx id).partNo slot r
      | none => s.chargeFailure id r
    else s
  else if v = 1 then
    let s := s.gamosAgain id page
    let s := s.setFlights (s.net.flights.map fun f =>
      if f.ctx = id ∧ f.uid = u then
        match f.kind with
        | .load q => if q.fault = 1 ∧ pageOf q.addr = page then { f with kind := .load { q with fault := 2 } } else f
        | .atomic q => if q.fault = 1 ∧ pageOf q.addr = page then { f with kind := .atomic { q with fault := 2 } } else f
        | _ => f
      else f)
    if (s.ctx id).st = .staging then s.onCtx id fun c => { c with wait := .none } else s.faultOver id
  else s.onCtx id fun c => { c with unrecorded := true, waitSent := s.gtrOf (tileOf (coreOf id)) }

/-- Contexts of a core that wait for a page for a partition. -/
def State.pageWaiters (s : State) (core p page : Nat) : List Nat :=
  ((List.range 6).map (core * 8 + ·)).filter fun id => (s.ctx id).partNo == p && (s.faultPages id).contains page

/-- Whether a core has a copy parked on a page for a partition (R222). -/
def State.copyParkedOn (s : State) (core p page : Nat) : Bool :=
  (s.core core).copies.any fun x => x.2.status == 3 && x.2.part == p && x.2.parked.map pageOf == some page

/-- FAULT_WAKE: page wake n reaches a core (R348, R350). A copy parked on the page takes the same wake by COPY_RESUME. -/
def execFaultWake (n : Nat) (s : State) : Answer :=
  .next (match s.flight? n with
    | some f => match f.kind with
      | .wake (.page page) v _ (.core core) _ =>
        if !(s.inOrder n) then s
        else
          let ids := s.pageWaiters core f.part page
          let s' := if s.copyParkedOn core f.part page && v != 0 then s else s.dropFlight n
          ids.foldl (fun s id => s.wakeFault page v id) s'
      | .wake (.page page) v _ (.table slot) unrec => if !(s.inOrder n) then s else (s.dropFlight n).wakeGate f.part slot (.page page) v unrec
      | .wake (.page page) v _ (.coll slot) unrec => if !(s.inOrder n) then s else (s.dropFlight n).onColl f.part slot fun c => c.wake (.page page) v unrec (s.gtrOf sDie)
      | _ => s
    | none => s)

/-! ### Refused offers (R161, R164, R200) -/

/-- Whether a flight is a write that its home has refused. -/
def Flight.writeRefused (f : Flight) : Bool :=
  match f.kind with
  | .store q => q.refused
  | .atomic q => q.held == 3
  | _ => false

/-- Whether a refused write may be offered again: after every earlier one of its source that is due (R161), and not while another write of its sector waits at the home. -/
def State.offersNext (s : State) (f : Flight) (a : Nat) : Bool :=
  !(s.parkedBefore f.part a) && !(s.net.flights.any fun g => g.writeRefused && coreOf g.ctx == coreOf f.ctx && isXu g.ctx == isXu f.ctx && decide (g.seq < f.seq) &&
    decide (g.offered + microsecond ≤ s.gtrOf (tileOf (coreOf f.ctx))))

/-- REFUSED_OFFER_RETRY: a refused offer is made again 1 µs after the last (R200), refused stores of a core in their issue order (R161). -/
def execRefusedOfferRetry (n : Nat) (s : State) : Answer :=
  .next (match s.flight? n with
    | some f =>
      let now := s.gtrOf (tileOf (coreOf f.ctx))
      let again : Flight := { f with offered := now }
      if now < f.offered + microsecond then s
      else match f.kind with
        | .store q => if q.refused && s.offersNext f q.addr then (s.putFlight n again).storeArrives n again { q with refused := false } else s
        | .atomic q => if q.held == 3 && s.offersNext f q.addr then (s.putFlight n again).atomArrives n again { q with held := 0 } else s
        | .feOffer a op acq =>
          if s.refuses (tileOf ((lmCore? a).getD 0)) (some f.sentAt) then s
          else match s.feArrive f.ctx f.uid a op acq f.seq f.part f.launch f.word with
          | (true, s) => s.dropFlight n
          | (false, s) => s.putFlight n { f with offered := s.gtrOf (tileOf (coreOf f.ctx)) }
        | _ => s
    | none => s)

/-- RESERVED_HOLD_LAPSE: holds of a resource whose time has passed go to the next sources (R200). -/
def execReservedHoldLapse (n : Nat) (s : State) : Answer :=
  .next (match s.net.turns[n]? with
    | some t => s.setTurns (s.settled t.res)
    | none => s)

/-! ### The combiner window (R210) -/

/-- GAMO_WINDOW_END: 32 C-die cycles after it opened, combiner entry n sends one AADD of the sum and is freed (R210). -/
def execGamoWindowEnd (n : Nat) (s : State) : Answer :=
  .next (match s.net.gamo[n]? with
    | some e =>
      if (s.die (tileOf (e.cluster * 8))).cycle / 640 < e.opened + 32 then s
      else match e.parts with
        | [] => { s with net := { s.net with gamo := s.net.gamo.eraseIdx n } }
        | x :: _ =>
          ({ s with net := { s.net with gamo := s.net.gamo.eraseIdx n } }).sendFlight
            { kind := .atomic
                { op := .gamo, addr := e.addr, size := e.size, b := 0, cmp := 0, d := if e.returning then Nat.max x.d 1 else 0, acq := false, rel := false
                  sc := 0, attr := e.attr, l := x.l, parts := e.parts }
              ctx := x.ctx, uid := x.uid, part := e.part, domain := e.domain, launch := x.launch, seq := x.seq, sentAt := s.gtr
              incarnation := (s.die (tileOf (e.cluster * 8))).incarnation }
    | none => s)

end Sys2Proof.Machine
end

