-- ==== Sys2Proof/Machine/Messages.lean ====
section
/-!
DEFINITION. Active messages, SENDR and handlers (R19, R25, R115, R195, R196, R214 to R219).
-/
namespace Sys2Proof.Machine

/-! ### Sending (R214) -/

/-- The four quadwords of a payload as its 64 bytes: byte j is byte j mod 16 of register v + j / 16. -/
def State.payload (s : State) (v : BitVec 5) : BitVec 512 :=
  BitVec.ofNat 512 (((List.range 4).map fun i => (s.here.rdV (v.toNat + i)).toNat * 2 ^ (128 * i)).sum)

/-- The v registers that a message names. -/
def payloadRegs (v : BitVec 5) : List Reg := [v, v + 1, v + 2, v + 3]

/-- Whether g[b] of SEND names a handler address (R214). -/
def handlerAddress (b : Word) : Bool :=
  decide (b.toNat % 4 = 0) && decide (selfBase + 0x400 ≤ b.toNat) && decide (b.toNat ≤ selfBase + 0x5FFC)

/-- The checks of R214, in order: a trap with its value, or none. -/
def State.sendCheck (s : State) (kind : Nat) (a b : Word) : Option (Cause × Word) :=
  if 2 ^ 20 ≤ a.toNat then some (.msgFault, a)
  else if !(s.enabled a.toNat) then some (.msgFault, a)
  else if !(s.inPart s.here.partNo a.toNat) then some (.prot, a)
  else if kind ≤ 1 then (if handlerAddress b then none else some (.msgFault, b))
  else if 7 < b.toNat then some (.msgFault, b)
  else none

/-- SEND.lo, SEND.hi and SENDR (R214): the message carries LCLK, domain and the launch charged; g[d] is pending until the answer. SEND is forbidden in a deterministic
partition (R120), after the v registers have been found present (R42). -/
def State.sendMessage (s : State) (i : Instr) (kind : Nat) (d a b : Reg) (v : BitVec 5) : State :=
  s.allow i (payloadRegs v) false fun s =>
    if kind ≠ 2 ∧ s.detHere = true then s.detForbid i
    else match s.sendCheck kind (s.rdG a) (s.rdG b) with
    | some (c, x) => s.trap c s.here.pc x
    | none =>
      let s := s.drift s.cur
      let c := s.here
      let m : Msg :=
        { kind := kind, dest := (s.rdG a).toNat, target := s.rdG b, payload := s.payload v, tid := c.cr.tid, lclk := s.lclkOf s.cur
          domain := c.accessDomain, launch := c.launch, part := c.partNo }
      let s := s.send (.msg m d.toNat)
      (s.onHere fun c => c.awaitMaybe (if d = 0 then none else some (.g d.toNat))).retire

/-- SEND.lo (R214). -/
def execSendLo (d a b : Reg) (v : BitVec 5) (s : State) : Answer := .next (s.sendMessage (.sendLo d a b v) 0 d a b v)

/-- SEND.hi (R214). -/
def execSendHi (d a b : Reg) (v : BitVec 5) (s : State) : Answer := .next (s.sendMessage (.sendHi d a b v) 1 d a b v)

/-- SENDR (R214). -/
def execSendr (d a b : Reg) (v : BitVec 5) (s : State) : Answer := .next (s.sendMessage (.sendr d a b v) 2 d a b v)

/-- HRET (R195, R218): the handler ends, its slot frees, and its launch's clock takes its LCLK (R185); ILLEGAL in a thread. -/
def execHret (s : State) : Answer :=
  .next (if !(s.inHandler) then s.illegal .hret
    else (s.raiseLaunch s.here.partNo s.here.launch (s.lclkOf s.cur)).endHandler s.cur)

/-! ### Arrival (R215, R217) -/

/-- Free mailbox slots of a priority below MBOXD, lowest first (R195, R196). -/
def Core.freeBoxes (c : Core) (high : Bool) : List Nat :=
  (List.range 8).filter fun i => decide (i < c.mboxd.toNat) && ((if high then c.boxHi else c.boxLo).get i).isNone

/-- Offset of a mailbox slot (R19). -/
def slotOffset (high : Bool) (slot : Nat) : Nat := (if high then 0x200 else 0) + slot * 0x40

/-- Puts a message into a mailbox slot: it waits in arrival order (R195, R217). -/
def Core.putMessage (c : Core) (high : Bool) (slot : Nat) (m : Msg) : Core :=
  if high then { c with boxHi := c.boxHi.set slot m, orderHi := c.orderHi ++ [slot] }
  else { c with boxLo := c.boxLo.set slot m, orderLo := c.orderLo ++ [slot] }

/-- Slots that a priority accepts into now: none while its handler waits for a page (R349). -/
def State.boxUnits (s : State) (core : Nat) (high : Bool) : List Nat :=
  if (s.ctx (core * 8 + if high then 5 else 4)).st = .faultWaiting then [] else (s.core core).freeBoxes high

/-- A SEND reaches its core (R215, R217): the status and the state. -/
def State.deliverMessage (s : State) (src : Nat) (m : Msg) : Nat × State :=
  let high := m.kind == 1
  let c := s.core m.dest
  if selfBase + c.scratchEnd ≤ m.target.toNat then (4, s)
  else
    let free := s.boxUnits m.dest high
    match s.offer (.mailbox m.dest (if high then .hi else .lo)) src free.length with
    | (false, s) => (1, s)
    | (true, s) =>
      let slot := free.headD 0
      (0, (s.lmWrite m.dest (slotOffset high slot) 64 m.payload.toNat).onCore m.dest fun c => c.putMessage high slot m)

/-- Writes a payload into the slot at TAIL and raises TAIL, in one port step (R115, R217); logged as kind 4 (R112), by one entry for the slot, at its offset and with its first 8 bytes:
whether each word gets an entry the spec leaves open (log 57). -/
def State.deliverRing (s : State) (f : Flight) (m : Msg) (q : Nat) : State :=
  let w := (s.core m.dest).ring q
  let off := ringSlotAt w (ringTail w) 0
  let s := s.lmWrite m.dest off 64 m.payload.toNat
  let s := s.traceWrite m.dest (coreOf f.ctx) 4 3 off (m.payload.toNat % 2 ^ 64)
  s.setRing m.dest q (withTail w ((ringTail w + 1) % 65536))

/-- A SENDR reaches its core (R215): the status, in a deterministic partition the value of a RACE (R121), and the state. -/
def State.arriveRing (s : State) (f : Flight) (m : Msg) : Nat × Option (Word × Word) × State :=
  let q := m.target.toNat
  let c := s.core m.dest
  let w := c.ring q
  if !(c.ringValid w) || decide (ringSlotSize w < 64) then (4, none, s)
  else
    let me := (s.phaseOf f.part, m.launch.getD 0, m.tid.toNat % 2 ^ 32)
    let other := match c.ringWriter.get q with
      | some x => if x.1 = me.1 ∧ x ≠ me then some x else none
      | none => none
    match s.isDet f.part, other with
    | true, some x =>
      (0, some (BitVec.ofNat 64 (lmAddr m.dest (ringSlotAt w (ringTail w) 0)), Who.raceValue (.thread x.2.1 x.2.2)), s)
    | det, _ =>
      match s.offer (.ring m.dest q) f.ctx (ringFree w) with
      | (false, s) => (1, none, s)
      | (true, s) =>
        let s := if det then s.onCore m.dest fun c => { c with ringWriter := c.ringWriter.set q me } else s
        (0, none, s.deliverRing f m q)

/-- Whether a core answers messages of a partition ABSENT: the partition is pre-empted and its contexts are saved, or the core is no longer in it (R215, R363). -/
def State.absentCore (s : State) (p core : Nat) : Bool :=
  match s.parts.get p with
  | some q => q.st == .saved || !(q.coversCore core)
  | none => true

/-- A payload that was poisoned on its way leaves its 64 bytes poisoned (R356, R357). -/
def State.poisonBlock (s : State) (on : Bool) (a : Nat) : State :=
  if on then (List.range 8).foldl (fun s i => s.setPoison (a + 8 * i) true) s else s

/-- MESSAGE_ARRIVAL: message n reaches its core in the order of its class, and after what a release of its sender placed before it (R105, R115, R215). -/
def execMessageArrival (n : Nat) (s : State) : Answer :=
  .next (match s.flight? n with
    | some f => match f.kind with
      | .msg m d =>
        if !(s.inOrder n) || s.releaseBefore f || s.refuses (tileOf m.dest) (some f.sentAt) then s
        else if s.absentCore m.part m.dest then s.answer n f (.msgAnswer m d 2 none)
        else if m.kind = 2 then
          let w := (s.core m.dest).ring m.target.toNat
          let r := s.arriveRing f m
          (r.2.2.poisonBlock (f.poison != 0 && r.1 == 0 && r.2.1.isNone) (lmAddr m.dest (ringSlotAt w (ringTail w) 0))).answer n f (.msgAnswer m d r.1 r.2.1)
        else
          let high := m.kind == 1
          let slot := (s.boxUnits m.dest high).headD 0
          let r := s.deliverMessage f.ctx m
          (r.2.poisonBlock (f.poison != 0 && r.1 == 0) (lmAddr m.dest (slotOffset high slot))).answer n f (.msgAnswer m d r.1 none)
      | _ => s
    | none => s)

/-! ### The answer (R215, R216) -/

/-- Whether a context's bounce ring takes a record now (R215, R216). -/
def State.bounceReady (s : State) (id : Nat) : Bool :=
  let c := s.core (s.homeOf id)
  let q := (s.ctx id).cr.bounceq
  let w := c.ring (q.toNat % 8)
  q.getLsbD 3 && c.ringValid w && decide (0 < ringFree w) && decide (128 ≤ ringSlotSize w)

/-- The bytes of a bounce record (R216). -/
def bounceRecord (m : Msg) (gtr : Nat) : Nat :=
  (m.dest + m.kind * 2 ^ 20) + m.target.toNat * 2 ^ 64 + gtr * 2 ^ 128 + m.payload.toNat * 2 ^ 512

/-- Writes the bounce record of a refused message and raises TAIL, in one port step (R216). -/
def State.bounce (s : State) (id : Nat) (m : Msg) : State :=
  let core := s.homeOf id
  let q := (s.ctx id).cr.bounceq.toNat % 8
  let w := (s.core core).ring q
  (s.lmWrite core (ringSlotAt w (ringTail w) 0) 128 (bounceRecord m (s.gtrOf (tileOf (coreOf id))))).setRing core q
    (withTail w ((ringTail w + 1) % 65536))

/-- BOUNCES counts a refusal, saturating (R215). -/
def Ctx.countBounce (c : Ctx) : Ctx := c.onCr fun r => { r with bounces := if r.bounces = 0xFFFFFFFF then r.bounces else r.bounces + 1 }

/-- A status is written to g[d] (R214). -/
def Ctx.takeStatus (c : Ctx) (d status : Nat) : Ctx := if d = 0 then c else (c.wrG d (BitVec.ofNat 64 status)).arrived (.g d)

/-- MESSAGE_ANSWER: the answer of a message reaches its sender (R214 to R216). -/
def execMessageAnswer (n : Nat) (s : State) : Answer :=
  .next (match s.flight? n with
    | some f => match f.kind with
      | .msgAnswer m d status race =>
        if !(s.inOrder n) then s
        else
          let s := s.dropFlight n
          if !(s.alive f) then s
          else match race with
            | some (a, v) => (s.onCtx f.ctx fun c => c.arrivedMaybe (if d = 0 then none else some (.g d))).trapLater f.ctx .race a v ((s.ctx f.ctx).pc - 4)
            | none =>
              if status = 1 then
                let s := s.onCtx f.ctx Ctx.countBounce
                if s.bounceReady f.ctx then (s.bounce f.ctx m).onCtx f.ctx fun c => c.takeStatus d 1
                else s.onCtx f.ctx fun c => c.takeStatus d 3
              else s.onCtx f.ctx fun c => c.takeStatus d status
      | _ => s
    | none => s)

/-! ### Handlers (R25, R195, R217, R349) -/

/-- The TID of a handler context (R22, R217). -/
def handlerTid (p : Nat) : Word := BitVec.ofNat 64 (p * 2 ^ 60 + 2 ^ 51)

/-- PART of a context (R77). -/
def State.partReg (s : State) (p : Nat) : BitVec 5 := BitVec.ofNat 5 (p % 16 + if s.isDet p then 16 else 0)

/-- The state in which a handler starts (R217). -/
def State.handlerCtx (s : State) (core slot : Nat) (high : Bool) (m : Msg) : Ctx :=
  let q (i : Nat) : Quad := BitVec.ofNat 128 (m.payload.toNat / 2 ^ (128 * i))
  { st := .ready, pc := m.target
    g := [(3, m.tid), (4, BitVec.ofNat 64 m.payload.toNat), (5, BitVec.ofNat 64 (selfBase + slotOffset high slot))]
    v := [(0, q 0), (1, q 1), (2, q 2), (3, q 3)]
    cr := { tid := handlerTid m.part, part := s.partReg m.part, lclk := s.startClock core (maxStamp m.lclk (s.lf m.part (tileOf core))) }
    home := core, launch := m.launch, accessDomain := m.domain, slot := slot, uid := s.nextUid }

/-- Starts the handler of the message in the earliest waiting slot of a priority (R195, R217). -/
def State.startHandler (s : State) (core : Nat) (high : Bool) : State :=
  let c := s.core core
  match (if high then c.orderHi else c.orderLo) with
  | [] => s
  | slot :: rest =>
    match (if high then c.boxHi else c.boxLo).get slot with
    | none => s
    | some m =>
      let s := s.onCore core fun c => { (if high then { c with orderHi := rest } else { c with orderLo := rest }) with owed := [] }
      { s.setCtx (core * 8 + (if high then 5 else 4)) (s.handlerCtx core slot high m) with nextUid := s.nextUid + 1 }

/-- Whether the partition of the message that starts next on a core runs: none is started while it is pre-empted (R351). -/
def State.mailRuns (s : State) (core : Nat) (high : Bool) : Bool :=
  let c := s.core core
  match ((if high then c.orderHi else c.orderLo).head?).bind fun i => (if high then c.boxHi else c.boxLo).get i with
  | some m => s.partRuns m.part
  | none => true

/-- HANDLER_START (R25, R195, R217): a dormant handler context starts on its next message, once the thread turns owed have been taken; a high message before a low one, and
suspending a running low handler at most once in a run. -/
def execHandlerStart (core : Nat) (high : Bool) (s : State) : Answer :=
  let lo := core * 8 + 4
  let hi := core * 8 + 5
  .next (if !(s.mailRuns core high) then s
    else if high then
      if (s.ctx hi).st != .free then s
      else if s.active lo then
        if (s.ctx lo).onceSuspended then s
        else if (s.core core).orderHi = [] then s
        else (s.onCtx lo fun c => { c with suspended := true, onceSuspended := true }).startHandler core true
      else if s.turnsTaken core then s.startHandler core true else s
    else if (s.ctx lo).st != .free || s.active hi || (s.core core).orderHi != [] && (s.ctx hi).st == .free || !(s.turnsTaken core) then s
    else s.startHandler core false)

/-- HANDLER_OVERRUN (R195, R345): a handler that has run for more than HLIMIT cycles is stopped, its slot is freed, and HOVERRUN is charged. -/
def execHandlerOverrun (ctx : Nat) (s : State) : Answer :=
  let c := s.ctx ctx
  .next (if !(isHandler ctx) || c.st == .free || decide (c.hcount / 640 ≤ (s.core (coreOf ctx)).hlimit.toNat) then s
    else
      let r : AbortRec := { kind := 12, tid := c.cr.tid, pc := c.pc }
      let t := s.endHandler ctx
      match c.launch with
      | some slot => t.orderAbort c.partNo slot r
      | none => t.logAbort c.partNo { r with noLaunch := true })

end Sys2Proof.Machine
end

