-- ==== Sys2Proof/Machine/Launches.lean ====
section
/-!
DEFINITION. LAUNCH and EXIT (R85, R212, R213) and what the launch hardware does before a thread starts: gates (R181), aging and placement (R186 to
R189), admission (R192), staging and the auto-join (R183, R184, R190).
-/
namespace Sys2Proof.Machine

/-! ### LAUNCH and EXIT -/

/-- LAUNCH where a read of its record is not answered with data: a page that is not present makes the context wait and read again (R160, R348), a missing translation
aborts its launch (R160), and a conflict raises RACE (R119). -/
def State.launchUnread (s : State) (f : Fetched) : State :=
  match f with
  | .got _ _ _ => s
  | .held => s
  | .absent a => s.faultWait s.cur a
  | .missing a => s.chargeFailure s.cur { kind := 17, tid := s.here.cr.tid, addr := BitVec.ofNat 64 a }
  | .race w a => s.trap .race (BitVec.ofNat 64 a) w.raceValue

/-- Reads a record and its footprint list with a clock (R213); a FOOT that names no list leaves the list empty. PROT where the list may not be read. -/
def State.readRecord (s : State) (addr : Nat) (e : RightsEntry) (c : Stamp) : (Except (Fetched ⊕ Word) (Record × Stamp × Bool)) × State :=
  let p := s.here.partNo
  let core := s.execCore
  let who := some (s.whoIs s.cur)
  match s.fetchWords p (some core) who c e.attr (!e.w) addr 8 with
  | (.error f, s) => (.error (.inl f), s)
  | (.ok (ws, w, poison), s) =>
    let foot := (ws.getD 7 0).toNat
    let n := listBytes (ws.getD 0 0)
    if !(isMemory (foot + n - 1)) || decide (foot % 16 ≠ 0) then (.ok ({ words := ws, list := [] }, w, poison), s)
    else
      match s.plbLookup core s.here.accessDomain foot with
      | (none, s) => (.error (.inr (BitVec.ofNat 64 foot)), s)
      | (some g, s) =>
        match s.plbLookup core s.here.accessDomain (foot + n - 1) with
        | (none, s) => (.error (.inr (BitVec.ofNat 64 (foot + n - 1))), s)
        | (some h, s) =>
          if !g.r then (.error (.inr (BitVec.ofNat 64 foot)), s)
          else if !h.r then (.error (.inr (BitVec.ofNat 64 (foot + n - 1))), s)
          else match s.fetchWords p (some core) who c g.attr (!g.w) foot (n / 8) with
            | (.error f, s) => (.error (.inl f), s)
            | (.ok (xs, w', poison'), s) => (.ok ({ words := ws, list := xs }, maxStamp w w', poison || poison'), s)

/-- Sends a LAUNCH to the launch table; its status is to come (R213, R358). -/
def State.sendLaunch (s : State) (d : Reg) (r : Record) (dom : Nat) : State :=
  ((s.send (.launchReq d.toNat r.words r.list dom (s.lclkOf s.cur) s.here.cr.tid)).onHere fun c => c.awaitMaybe (if d = 0 then none else some (.g d.toNat))).retire

/-- LAUNCH once its record has been read (R212, R213): the launch table takes it and its status is written, at once, or, where the agenda has it so, when the messages arrive. -/
def State.launchRecord (s : State) (d : Reg) (addr : Word) (r : Record) : State :=
  let c := s.here
  let p := c.partNo
  let dom := s.recordDomain p (some c.accessDomain) (bitsOf (r.word 6) 0 16)
  match r.firstBad dom.isSome with
  | some off => s.trap .msgFault addr (BitVec.ofNat 64 off)
  | none =>
    if s.late then s.sendLaunch d r (dom.getD 0) else
    let l := r.launch p (dom.getD 0) c.cr.tid (s.lclkOf s.cur) (s.lf p sDie) none
    let (status, s) := s.submit p s.cur (phaseKey (c.launch.getD 0) (c.cr.tid.toNat % 2 ^ 32)) l
    (s.finishG d (BitVec.ofNat 64 status)).phaseKick p

/-- LAUNCH (R213, R225): it waits for earlier accesses within device scope and reads its record as loads of route home at LCLK. -/
def execLaunch (d a : Reg) (s : State) : Answer :=
  let addr := s.rdG a
  .next (s.wordTarget .load addr 64 fun s e =>
    if s.unperformed s.cur 2 (s.core s.execCore).reqSeq || s.acquiring s.cur (s.wordScope addr e) then s
    else
      let s := s.drift s.cur
      match s.readRecord addr.toNat e (s.lclkOf s.cur) with
      | (.error (.inl f), s) => s.launchUnread f
      | (.error (.inr x), s) => s.trap .prot x x
      | (.ok (r, w, poison), s) =>
        if poison then s.machineCheck s.cur addr else (s.raiseLclk s.cur w).launchRecord d addr r)

/-- Number under which the launch table keeps its answers, beside the home slices (R359). -/
def tableSlice : Nat := 1024

/-- A LAUNCH reaches the launch table (R213, R359): one that has been submitted is answered again; a partition that is pre-empted takes none (R351). -/
def State.launchArrives (s : State) (n : Nat) (f : Flight) (d : Nat) (r : Record) (dom : Nat) (start : Stamp) (parent : Word) : State :=
  match s.keptAnswer tableSlice (coreOf f.ctx) f with
  | some k => s.answer n f k
  | none =>
    if s.partRuns f.part = false then s
    else
      let (status, s) := s.submit f.part f.ctx (phaseKey (f.launch.getD 0) (parent.toNat % 2 ^ 32)) (r.launch f.part dom parent start (s.lf f.part sDie) none)
      let k : FKind := .launchStatus d status
      ((s.keepAnswer tableSlice f k).answer n f k).phaseKick f.part

/-- A LAUNCH arrives at the launch table, or its status at its core (R213, R358). -/
def State.launchArrive (s : State) (n : Nat) : State :=
  match s.flight? n with
  | some f => match f.kind with
    | .launchReq d ws xs dom start parent => if s.inOrder n then s.launchArrives n f d { words := ws, list := xs } dom start parent else s
    | .launchStatus d status =>
      if !(s.inOrder n) then s
      else
        let s := s.dropFlight n
        if s.alive f then s.onCtx f.ctx fun c => if d = 0 then c else (c.wrG d (BitVec.ofNat 64 status)).arrived (.g d) else s
    | _ => s
  | none => s

/-- A thread that ends lets the job-queue entries of its finished copies go (R223): of its entries, one for each copy that has not ended stays. -/
def Core.dropEntries (k : Core) (uid : Nat) : Core :=
  { k with copyEntries := (k.copyEntries.filter fun e => e.2 != uid) ++
      (k.copies.filter fun x => x.2.uid == uid && decide (1 ≤ x.2.status ∧ x.2.status ≤ 3)).map fun x => (x.2.id, uid) }

/-- Takes a thread out of its context (R85): the context is free, its launch counts it as exited with its clock, its pending
completions are recorded in the launch, and a freed W-core context takes the head of the FIFO. -/
def State.exitThread (s : State) (id : Nat) : State :=
  let c := s.ctx id
  let clk := s.lclkOf id
  let s := ((s.lift c.charge).setCtx id {}).onCore c.home fun k => k.dropEntries c.uid
  let s := match c.launch with
    | none => s
    | some slot =>
      (s.onLaunch c.partNo slot fun l =>
        ({ l with live := l.live - 1, orphanComps := l.orphanComps ++ c.comps.map Prod.fst }.raiseClock clk).settle).releasePins
          c.partNo slot c.home
  if isWCore (coreOf id) then s.migrateHead (clusterOf (coreOf id)) else s

/-- EXIT (R85, R94); in a deterministic partition the launch hardware makes the LEAVE of the phase group (R225). -/
def execExit (s : State) : Answer :=
  .next (if s.inHandler then s.illegal .exit else (s.exitThread s.cur).phaseLeave s.here.partNo)

/-! ### Gates and aging -/

/-- A gated launch sends a wait from the launch table (R181, R199): keyed by its gate word, with the gate value as target, or by the page of it. -/
def State.sendGate (s : State) (p slot : Nat) (key : Key) (target : Word) : State :=
  let s := s.onLaunch p slot fun l => { l with gateSent := some (s.gtrOf sDie), gateUnrecorded := false }
  s.sendFlight
    { kind := .wait key key.address target 0 (.table slot), ctx := gateCtx p slot, uid := 1, part := p, domain := 0, launch := some slot, sentAt := s.gtrOf sDie }

/-- GATE_OPEN (R181): a gated launch whose wait has been answered, or that has sent none, reads its gate word at the home. Where the word has reached its value, the launch opens, and
its clock takes the version's stamp (R183); else the launch waits by a squall wait (R199). A missing right or translation aborts it. Nothing opens while the partition is pre-empted
(R351). -/
def execGateOpen (part slot : Nat) (s : State) : Answer :=
  .next (match s.launch? part slot with
    | none => s
    | some l =>
      if l.st ≠ .gated ∨ s.partRuns part = false ∨ l.gateSent.isSome = true then s
      else
        let a := BitVec.ofNat 64 l.gate
        match s.rightsFor l.domain l.gate with
        | none => s.orderAbort part slot { kind := 4, addr := a }
        | some e =>
          if !e.r then s.orderAbort part slot { kind := 4, addr := a }
          else match s.fetchAt part none none (maxStamp l.start (s.lf part sDie)) e.attr (!e.w) l.gate 8 with
            | (.got v w poison, t) =>
              if poison then s.orderAbort part slot { kind := 13, addr := a }
              else if v < l.gateVal.toNat then s.sendGate part slot (.word l.gate) l.gateVal
              else t.onLaunch part slot fun l =>
                { l with st := .open_, start := maxStamp l.start w, lastPlaced := s.gtrOf sDie }.settle
            | (.missing _, _) => s.orderAbort part slot { kind := 17, addr := a }
            | (.absent _, t) => t.sendGate part slot (.page (pageOf l.gate)) 0
            | (.held, t) => t
            | (.race _ _, _) => s)


/-- LAUNCH_AGED (R186): an open launch has waited 1 ms since its last placement, or since it opened. -/
def execLaunchAged (part slot : Nat) (s : State) : Answer :=
  .next (match s.launch? part slot with
    | none => s
    | some l =>
      if l.st = .open_ ∧ l.lastPlaced + millisecond ≤ s.gtrOf sDie then s.onLaunch part slot fun l => { l with aged := true } else s)

/-! ### Admission (R191, R192) -/

/-- Charge of an energy class, in microwatts at 1.00 GHz (R192). -/
def classCharge (eclass : Nat) : Nat := [60, 120, 250, 500, 1000, 2000, 3000, 4000].getD eclass 0

/-- Headroom of a partition on a tile, in fortieths of a microwatt (R191, R192). -/
def State.headroom (s : State) (p tile : Nat) : Int :=
  let e := s.energy.getD (tile * 16 + p) {}
  40 * (e.target - e.estimate) - e.pending

/-- Whether a charge in microwatts at 1.00 GHz, scaled to the die's clock, is within the headroom (R192). -/
def State.admits (s : State) (p tile charge : Nat) : Bool := decide (((s.chargeOf p tile charge).amount : Int) ≤ s.headroom p tile)

/-! ### Placement (R186 to R189) -/

/-- Thread contexts of a core that are occupied. -/
def State.occupied (s : State) (core : Nat) : Nat :=
  (([0, 1, 2, 3] : List Nat).filter fun n => (s.ctx (core * 8 + n)).st != .free).length

/-- Whether the partition that runs on a core has an image saved from it (R21, R363): its parked launches come back there. -/
def State.hasImage (s : State) (core : Nat) : Bool :=
  s.saved.any fun x => x.1 % coreCount == core && (s.part? x.2.part).any fun q => q.st != .saved && q.coversCore core

/-- Whether a core has no context, footprint or migrated thread of its own. -/
def State.unused (s : State) (core : Nat) : Bool :=
  s.occupied core == 0 && !(s.handlerActive core) && (s.core core).pins == [] &&
  !(s.ctxs.any fun q => !(isHandler q.1) && q.2.st != .free && q.2.home == core)

/-- Whether a core is idle (R21). -/
def State.idle (s : State) (core : Nat) : Bool := s.unused core && !(s.hasImage core)

/-- Whether a footprint of a launch overlaps a range pinned for another launch (R187). -/
def Core.pinsClash (c : Core) (p slot : Nat) (foots : List Foot) : Bool :=
  c.pins.any fun x => !(x.launch == slot && x.part == p) && foots.any fun f => overlaps f.off f.len x.off x.len

/-- Whether a core is a candidate for a thread of a launch, headroom left out (R187). -/
def State.roomFor (s : State) (p : Nat) (l : Launch) (core : Nat) : Bool :=
  s.enabled core && s.inPart p core && (s.freeThread core).isSome && ((s.core core).cacheSize == l.cache || s.idle core) &&
  !((s.core core).pinsClash p l.slot l.foots)

/-- Whether a core is a candidate (R187). -/
def State.candidate (s : State) (p : Nat) (l : Launch) (core : Nat) : Bool :=
  s.roomFor p l core && s.admits p (tileOf core) (classCharge l.eclass)

/-- Cores of a partition in ascending order. -/
def Part.cores (q : Part) : List Nat :=
  ((List.range 131072).filter fun cl => q.coversCore (cl * 8)).flatMap fun cl => (List.range 8).map (cl * 8 + ·)

/-- The first of a list with the least key. -/
def firstLeast (key : Nat → Nat) : List Nat → Option Nat
  | [] => none
  | x :: xs =>
    match firstLeast key xs with
    | none => some x
    | some y => if key x ≤ key y then some x else some y

/-- A rising list that starts after a number and wraps round (R188). -/
def startAfter (last : Nat) (xs : List Nat) : List Nat := xs.filter (fun x => decide (last < x)) ++ xs.filter fun x => decide (x ≤ last)

/-- The core that a policy picks among candidates in ascending order (R188). For near:address without a home slice the spec names no core: the model takes
the first candidate after the last one chosen (log 57). -/
def State.pick (s : State) (p : Nat) (q : Part) (l : Launch) (cores : List Nat) : Option Nat :=
  match l.policy with
  | 1 => firstLeast (fun c => 4 - s.occupied c) cores
  | 2 =>
    match s.homeSlice p l.near with
    | some sl => firstLeast (fun c => gridSteps (routerX c) (routerY c) (elevatorX sl) (elevatorY sl)) (startAfter q.lastSpread cores)
    | none => firstLeast (fun _ => 0) (startAfter q.lastSpread cores)
  | _ => firstLeast s.occupied (startAfter q.lastSpread cores)

/-- The core of the fixed placement of a thread (R189). -/
def State.fixedCore (s : State) (q : Part) (number : Nat) : Option Nat :=
  let cores := q.cores.filter s.enabled
  cores[number % cores.length]?

/-- The core that the head thread of a launch would go to, by a test of candidates (R188, R189). -/
def State.chosenCore (s : State) (p : Nat) (q : Part) (l : Launch) (test : Nat → Bool) : Option Nat :=
  if q.det then (s.fixedCore q l.nextNumber).filter test else s.pick p q l (q.cores.filter test)

/-- The order in which open launches are served (R186). -/
def servedBefore (x y : Launch) : Bool :=
  if x.aged ≠ y.aged then x.aged else if x.prio ≠ y.prio then decide (y.prio < x.prio) else decide (x.entered < y.entered)

/-- Puts a launch into a list in the order of R186. -/
def insertServed (l : Launch) : List Launch → List Launch
  | [] => [l]
  | y :: ys => if servedBefore l y then l :: y :: ys else y :: insertServed l ys

/-- Open launches of a partition in the order of R186. -/
def Part.openLaunches (q : Part) : List Launch :=
  (q.launches.filter fun l => l.2.st == .open_ && !l.2.parked && decide (l.2.nextNumber < l.2.threads)).foldl (fun acc l => insertServed l.2 acc) []

/-- TID of a thread (R22). -/
def threadTid (p slot number : Nat) : Word := BitVec.ofNat 64 (p * 2 ^ 60 + slot * 2 ^ 52 + number)

/-- The context of the head thread of a launch as it is placed (R183, R83). -/
def State.headCtx (s : State) (p : Nat) (l : Launch) (core : Nat) : Ctx :=
  let x : Spawned := (l.spawned.find? fun x => x.number == l.nextNumber).getD
    { number := l.nextNumber, entry := BitVec.ofNat 64 (selfBase + l.entry), arg := l.args, tid := l.parent, lclk := l.start }
  { st := .staging, pc := x.entry, g := [(3, x.tid), (4, x.arg)]
    cr := { tid := threadTid p l.slot l.nextNumber, domain := BitVec.ofNat 16 l.domain, part := s.partReg p
            lclk := s.startClock core (maxStamp x.lclk (s.lf p (tileOf core))) }
    home := core, launch := some l.slot, accessDomain := l.domain, uid := s.nextUid }

/-- Pins the footprints of a launch on a core and sets its cache region size (R21, R187, R190). -/
def Core.takeLaunch (c : Core) (p : Nat) (l : Launch) : Core :=
  let c := if c.cacheSize = l.cache then c else { c with cacheSize := l.cache, cache := [] }
  if c.pins.any fun x => x.launch == l.slot && x.part == p then c
  else { c with pins := c.pins ++ l.foots.map fun f => { launch := l.slot, part := p, off := f.off, len := f.len } }

/-- Places the head thread of a launch in a context of a core (R187 to R190, R192). -/
def State.place (s : State) (p : Nat) (l : Launch) (core id : Nat) : State :=
  let c := s.chargeOf p (tileOf core) (classCharge l.eclass)
  let x := { s.headCtx p l core with charge := some c }
  let s := (s.setCtx id x).onCore core fun c => c.takeLaunch p l
  let s := s.onPart p fun q =>
    { q with lastSpread := if l.policy = 0 ∧ q.det = false then core else q.lastSpread }.onLaunch l.slot fun l =>
      { l with
        nextNumber := l.nextNumber + 1, live := l.live + 1, aged := false, waitedFrom := none, lastPlaced := s.gtrOf sDie
        spawned := l.spawned.filter fun x => x.number != l.nextNumber }.settle
  { s.takeCharge c with nextUid := s.nextUid + 1 }

/-- Offers the head threads of launches in order until one is placed (R186); a launch that waits for headroom alone notes since when (R193). -/
def State.placeFirst (s : State) (p : Nat) : List Launch → State
  | [] => s
  | l :: rest =>
    match s.parts.get p with
    | none => s
    | some q =>
      match s.chosenCore p q l (s.candidate p l) with
      | some core =>
        match s.freeThread core with
        | some id => s.place p l core id
        | none => s
      | none =>
        let s := if (s.chosenCore p q l (s.roomFor p l)).isSome then
            s.onLaunch p l.slot fun l => { l with waitedFrom := some (l.waitedFrom.getD (s.gtrOf sDie)) }
          else s.onLaunch p l.slot fun l => { l with waitedFrom := none }
        State.placeFirst s p rest

/-- THREAD_PLACE (R186 to R189): one thread of a running partition is placed. -/
def execThreadPlace (part : Nat) (s : State) : Answer :=
  .next (match s.parts.get part with
    | none => s
    | some q => if q.st = .running then s.placeFirst part q.openLaunches else s)

/-! ### Staging and the auto-join (R183, R184, R190) -/

/-- How a step of starting a thread ends. -/
inductive Staged where
  | done
  | held
  | wait (a : Nat)
  | abort (kind a : Nat)
  deriving DecidableEq, Repr

/-- Copies k words of a footprint into LM and sets them full (R190): rights are checked under the launch's domain (R307). -/
def State.stageWords (s : State) (p core dom : Nat) (c : Stamp) (needX : Bool) (a off : Nat) : Nat → Staged × State
  | 0 => (.done, s)
  | k + 1 =>
    match s.plbLookup core dom a with
    | (none, s) => (.abort 4 a, s)
    | (some e, s) =>
      if !e.r || (needX && !e.x) then (.abort 4 a, s)
      else match s.fetchAt p (some core) none c e.attr (!e.w) a 8 with
        | (.got v _ poison, s) =>
          if poison then (.abort 13 a, s)
          else State.stageWords ((s.lmWrite core off 8 v).setFullServe (lmAddr core off) true) p core dom c needX (a + 8) (off + 8) k
        | (.held, s) => (.held, s)
        | (.absent x, s) => (.wait x, s)
        | (.missing x, s) => (.abort 17 x, s)
        | (.race _ _, s) => (.held, s)

/-- Stages the footprints that are not staged on a core for a launch yet; the first needs X besides R (R190). -/
def State.stageFoots (s : State) (p slot core dom : Nat) (c : Stamp) (first : Bool) : List Foot → Staged × State
  | [] => (.done, s)
  | f :: fs =>
    let mine (x : Pin) : Bool := x.launch == slot && x.part == p && x.off == f.off
    if (s.core core).pins.any fun x => mine x && x.staged then State.stageFoots s p slot core dom c false fs
    else
      match s.stageWords p core dom c first f.addr f.off (f.len / 8) with
      | (.done, s) =>
        State.stageFoots (s.onCore core fun k => { k with pins := k.pins.map fun x => if mine x then { x with staged := true } else x })
          p slot core dom c false fs
      | r => r

/-- The auto-join of a thread (R183, R184): a JOIN with rank NUMBER made for it by the launch hardware. The phase group of a deterministic partition has
already counted it at the barrier (R225), unless MEMBERS then stood at its greatest value (R184); another group's word is checked as for a store (R119). -/
def State.autoJoin (s : State) (id : Nat) (a : Nat) : Staged × State :=
  let c := s.ctx id
  let p := c.partNo
  let rank := c.cr.tid.toNat % 2 ^ 32
  let enterRank (s : State) (gen : Nat) : State := s.onCtx id fun c => c.recordRank { addr := a, rank := rank, gen := gen }
  match s.plbLookup (coreOf id) c.accessDomain a with
  | (none, s) => (.abort 4 a, s)
  | (some e, s) =>
    if !(e.r && e.w) then (.abort 4 a, s)
    else match s.atHome p a true none with
      | (.missing, s) => (.abort 17 a, s)
      | (.absent _, s) => (.wait a, s)
      | (.held, s) => (.held, s)
      | (.ready sl host, s) =>
        let old := s.mem.readNat a 8
        let me : Who := .thread (c.launch.getD 0) rank
        if s.poisoned a 8 then (.abort 13 a, s)
        else if s.parkedBefore p a then (.held, s)
        else if s.isDet p && (s.part? p).any (fun q => q.phaseGroup == a) then
          if (s.launch? p (c.launch.getD 0)).any fun l => l.uncounted.any fun r => decide (r.1 ≤ rank) && decide (rank < r.2) then (.abort 11 a, s)
          else (.done, enterRank s (groupGen old))
        else match (if s.isDet p then detCheck .store me ((s.sector sl p a).inPhase (s.phaseOf p)) else .ok (s.sector sl p a)) with
          | .error _ => (.abort 8 a, s)
          | .ok x =>
            let w := writeStamp (s.lclkOf id) x
            if s.leased sl host p e.attr x || !(s.mayStamp sl host p w) then (.held, s.wantWrite sl host p w)
            else match groupStep (.join rank) old with
              | none => (.abort 11 a, s)
              | some new => (.done, enterRank ((s.makeVersion sl host p a 8 new w x).raiseLclk id w) (groupGen old))

/-- Ends a step of starting a thread that did not pass: it waits for a page, or its launch aborts (R190). -/
def State.notStarted (s : State) (id : Nat) (r : Staged) : State :=
  let c := s.ctx id
  match r with
  | .wait a => (s.onCtx id fun c => { c with wait := .page a }).sendWait id (.page (pageOf a)) 0
  | .abort kind a => s.orderAbort c.partNo (c.launch.getD 0) { kind := kind, tid := c.cr.tid, addr := BitVec.ofNat 64 a }
  | _ => s

/-- STAGING_DONE (R190): the footprints that a placed thread needs are staged, its auto-join is made, and it is ready; not while its partition is pre-empted (R351). -/
def execStagingDone (ctx : Nat) (s : State) : Answer :=
  let c := s.ctx ctx
  .next (match c.st, c.wait, s.launch? c.partNo (c.launch.getD 0) with
    | .staging, .none, some l =>
      if l.st = .aborted ∨ s.partRuns c.partNo = false then s
      else match s.stageFoots c.partNo l.slot (coreOf ctx) l.domain c.cr.lclk true l.foots with
        | (.done, s) =>
          match (if l.group = 0 then (Staged.done, s) else s.autoJoin ctx l.group) with
          | (.done, s) => s.onCtx ctx fun c => { c with st := .ready }
          | (r, s) => s.notStarted ctx r
        | (r, s) => s.notStarted ctx r
    | _, _, _ => s)

end Sys2Proof.Machine
end

