-- ==== Sys2Proof/Machine/Steward.lean ====
section
/-!
DEFINITION. The end of launches (R185, R338, R346, R347), and the events that move threads to and from the W-core (R73, R198) and enter a copy's
completion interrupt (R90, R223).
-/
namespace Sys2Proof.Machine

/-! ### Completion (R185) -/

/-- Whether something on its way belongs to a launch (R181). -/
def State.launchFlies (s : State) (p slot : Nat) : Bool :=
  (s.net.flights ++ s.net.lost).any (fun f => (f.launch == some slot && f.part == p) || match f.kind with
    | .atomic q => f.part == p && q.parts.any fun x => x.launch == some slot
    | .atomicResult q _ => f.part == p && q.parts.any fun x => x.launch == some slot
    | _ => false) ||
  s.net.waiters.any (fun w => w.launch == some slot && w.part == p) ||
  s.net.gamo.any fun e => e.part == p && e.parts.any fun x => x.launch == some slot

/-- Whether a message in a mailbox or a handler is charged to a launch (R185, R214). -/
def State.launchHandles (s : State) (p slot : Nat) : Bool :=
  s.ctxs.any (fun x => isHandler x.1 && x.2.st != .free && x.2.launch == some slot && x.2.partNo == p) ||
  s.cores.any fun c => (c.2.boxLo ++ c.2.boxHi).any fun m => m.2.launch == some slot && m.2.part == p

/-- Whether a copy or matrix job of a launch has not ended (R181). -/
def State.launchWorks (s : State) (p slot : Nat) : Bool := s.cores.any fun c => c.2.works p slot

/-- Whether an image holds something of a launch: a context, a copy or job, a message in a mailbox, or an access that was outstanding (R352, R354). -/
def SavedCore.holds (x : SavedCore) (slot : Nat) : Bool :=
  x.ctxs.any (fun c => c.st != .free && c.launch == some slot) || x.core.works x.part slot ||
  (x.core.boxLo ++ x.core.boxHi).any (fun m => m.2.launch == some slot && m.2.part == x.part) || x.replay.any fun f => f.launch == some slot

/-- Whether the images of a partition, or the records that its restore has still to take up, hold something of a launch (R351, R355). -/
def State.launchSaved (s : State) (p slot : Nat) : Bool :=
  s.saved.any (fun x => x.2.part == p && x.2.holds slot) || (s.part? p).any fun q => q.later.any fun r => r.2.launch == some slot

/-- Whether everything that a launch issued has completed (R181, R185). -/
def State.launchQuiet (s : State) (p slot : Nat) : Bool :=
  !(s.launchFlies p slot) && !(s.launchHandles p slot) && !(s.launchWorks p slot) && !(s.launchSaved p slot)

/-- Frees a slot of the launch table (R179, R180). -/
def State.freeLaunchSlot (s : State) (p slot : Nat) : State :=
  let s := s.onPart p fun q =>
    { q with launches := q.launches.del slot, phaseFreed := if q.det then q.phaseFreed ++ [slot] else q.phaseFreed }
  if s.isDet p then s else s.unitFreed (.launchTable p)

/-- Hands a completion entry of a VF's launch to the S-die: 1 complete, 2 aborted (R338). -/
def State.postFor (s : State) (p : Nat) (l : Launch) (code : Nat) : State :=
  match l.vf with
  | none => s
  | some v => s.onPart p fun q => { q with posts := q.posts ++ [(v, l.slot, code, s.gtrOf sDie)] }

/-- The VF of a launch, where it is being reset (R364): the launch posts no entry, and its messages and dispatched jobs keep the VF for the deadline. -/
def State.resetVf (s : State) (l : Launch) : Option Nat := l.vf.filter fun v => (s.host.vfs.getD v {}).resetAt.isSome

/-- Whether the S-die can keep one more completion entry of a partition: up to 256 wait and none is lost (R338). -/
def State.postRoom (s : State) (p : Nat) (l : Launch) : Bool :=
  l.vf.isNone || (s.resetVf l).isSome || (s.part? p).any fun q => decide (q.posts.length < 256)

/-- How the completion increment ends. -/
inductive Completion where
  | performed
  | held
  | abort (kind : Nat)
  deriving DecidableEq, Repr

/-- The release and the AADD on the completion word (R185): the release performs with the launch's clock, and the AADD with l = the release's wts. In a deterministic partition it
is neither checked nor recorded under R119, which speaks of the accesses of threads; that the launch hardware's write is none of them is the model's reading (log 64). -/
def State.completionAdd (s : State) (p : Nat) (l : Launch) : Completion × State :=
  if l.done = 0 then (.performed, s)
  else match s.rightsFor l.domain l.done with
    | none => (.abort 4, s)
    | some e =>
      if !(e.r && e.w) then (.abort 4, s)
      else match s.atHome p l.done true none with
        | (.missing, s) => (.abort 17, s)
        | (.absent _, s) => (.held, s)
        | (.held, s) => (.held, s)
        | (.ready sl host, s) =>
          let x := s.sector sl p l.done
          let w := writeStamp (maxStamp l.clock (s.lf p sDie) + 1) x
          if s.poisoned l.done 8 then (.abort 13, s)
          else if s.parkedBefore p l.done then (.held, s)
          else if s.leased sl host p e.attr x || !(s.mayStamp sl host p w) then (.held, s.wantWrite sl host p w)
          else
            let old := s.mem.readNat l.done 8
            (.performed, (s.makeVersion sl host p l.done 8 ((old + 1) % 2 ^ 64) w x).phaseCheck p l.done old ((old + 1) % 2 ^ 64))

/-- LAUNCH_COMPLETE (R185): a drained launch increments its completion word and its slot is freed. -/
def execLaunchComplete (part slot : Nat) (s : State) : Answer :=
  .next (match s.launch? part slot with
    | none => s
    | some l =>
      if l.st ≠ .draining ∨ s.launchQuiet part slot = false ∨ s.postRoom part l = false then s
      else match s.completionAdd part l with
        | (.performed, s) => (s.postFor part l 1).freeLaunchSlot part slot
        | (.held, s) => s
        | (.abort kind, s) => s.orderAbort part slot { kind := kind, addr := BitVec.ofNat 64 l.done })

/-! ### Completion queues of VFs (R337, R338) -/

/-- Entries of a VF's completion queue. -/
def Vf.queueSize (v : Vf) : Nat := 2 ^ (v.cqsize.toNat + 4)

/-- Whether a VF's completion queue has room. -/
def Vf.queueRoom (v : Vf) : Bool := (v.cqtail.toNat + 1) % v.queueSize != v.cqhead.toNat % v.queueSize

/-- Posts an entry at CQTAIL and raises vector 0 (R338). -/
def Vf.post (v : Vf) (slot code gtr : Nat) : Vf :=
  { v with
    queue := v.queue.set v.cqtail.toNat (BitVec.ofNat 64 (slot + code * 256), BitVec.ofNat 64 gtr)
    cqtail := BitVec.ofNat 20 ((v.cqtail.toNat + 1) % v.queueSize), msix := v.msix + 1 }

/-- COMPLETION_POST (R338): the first waiting entry whose queue has room is posted. -/
def execCompletionPost (part : Nat) (s : State) : Answer :=
  .next (match s.parts.get part with
    | none => s
    | some q =>
      match q.posts.findIdx? fun x => (s.host.vfs.getD x.1 {}).queueRoom with
      | none => s
      | some i =>
        let x := q.posts.getD i (0, 0, 0, 0)
        let s := s.onPart part fun q => { q with posts := q.posts.eraseIdx i }
        { s with host := { s.host with vfs := s.host.vfs.set x.1 ((s.host.vfs.getD x.1 {}).post x.2.1 x.2.2.1 x.2.2.2) } })

/-! ### Aborting a launch (R346) -/

/-- A message of an aborted launch counts toward no launch (R346); where a reset of the launch's VF aborts it, the message keeps the VF (R364). -/
def Msg.disown (m : Msg) (p slot : Nat) (vf : Option Nat) : Msg := if m.part = p ∧ m.launch = some slot then { m with launch := none, vf := vf } else m

/-- What stays of a flight when a launch of a partition is aborted: messages to handlers and LAUNCHes go on and count toward no launch; a combined GAMO keeps
the other launches' parts; all else of the launch is discarded. -/
def Flight.survive (f : Flight) (p slot : Nat) (vf : Option Nat) : Option Flight :=
  if f.part ≠ p then some f
  else
    let others (parts : List GamoPart) := parts.filter fun x => x.launch != some slot
    match f.kind with
    | .atomic q =>
      if q.parts = [] then (if f.launch = some slot then none else some f)
      else match others q.parts with
        | [] => none
        | x :: xs => some { f with kind := .atomic { q with parts := x :: xs }, ctx := x.ctx, uid := x.uid, launch := x.launch, seq := x.seq }
    | .atomicResult q a =>
      if q.parts = [] then (if f.launch = some slot then none else some f)
      else match others q.parts with
        | [] => none
        | x :: xs => some { f with kind := .atomicResult { q with parts := x :: xs } a, ctx := x.ctx, uid := x.uid, launch := x.launch, seq := x.seq }
    | .launchReq _ _ _ _ _ _ => some (if f.launch = some slot then { f with launch := none } else f)
    | .msg m d =>
      if f.launch ≠ some slot then some f
      else if m.kind = 2 then none
      else some { f with kind := .msg (m.disown p slot vf) d, launch := none }
    | _ => if f.launch = some slot then none else some f


/-- Slices at whose park buffer writes of a launch wait (R161). -/
def State.parkedOf (s : State) (p slot : Nat) : List Nat :=
  s.net.flights.filterMap fun f =>
    if f.part = p ∧ f.launch = some slot then match f.kind with
      | .store q => if q.parked then s.homeSlice p q.addr else none
      | .atomic q => if q.parked && q.parts.all (fun x => x.launch == some slot) then s.homeSlice p q.addr else none
      | _ => none
    else none

/-- Discards what a launch has on its way (R346); park entries free. -/
def State.discardFlights (s : State) (p slot : Nat) (vf : Option Nat) : State :=
  let sls := s.parkedOf p slot
  let s := { s with net := { s.net with
    flights := s.net.flights.filterMap fun f => f.survive p slot vf
    lost := s.net.lost.filterMap fun f => f.survive p slot vf
    waiters := s.net.waiters.filter fun w => !(w.launch == some slot && w.part == p)
    gathers := s.net.gathers.filter fun g => !((s.ctx g.ctx).uid == g.uid && (s.ctx g.ctx).launch == some slot && (s.ctx g.ctx).partNo == p)
    gamo := (s.net.gamo.map fun e => if e.part = p then { e with parts := e.parts.filter fun x => x.launch != some slot } else e).filter
      fun e => e.parts != [] } }
  sls.foldl (fun s sl => s.unitFreed (.park sl)) s

/-- A core without the jobs that a test picks: their status is UNKNOWN (R346, R364). -/
def Core.dropJobs (c : Core) (gone : Job → Bool) : Core :=
  let ids := (c.jobs.filter gone).filterMap fun j => j.id
  { c with jobs := c.jobs.filter fun j => !(gone j), jobStatus := c.jobStatus.map fun x => if ids.contains x.1 then (x.1, 0) else x }

/-- The jobs that a test picks leave every queue: their charges end, and JWAITs on them test again (R192, R293, R346). -/
def State.dropJobs (s : State) (gone : Job → Bool) : State :=
  let ids (core : Nat) : List Nat := ((s.core core).jobs.filter gone).filterMap fun j => j.id
  let charges := s.cores.flatMap fun c => (c.2.jobs.filter gone).map fun j => j.charge
  let s' := charges.foldl State.lift { s with cores := s.cores.map fun (c : Nat × Core) => (c.1, c.2.dropJobs gone) }
  s'.wakeWhere fun x c => c.wait.job?.any (ids (s.homeOf x)).contains

/-- Whether a job is a launch's and has not been dispatched (R346). -/
def Job.undispatched (j : Job) (p slot : Nat) : Bool := j.launch == some slot && j.part == p && !j.running

/-- What a core keeps of a launch that is aborted (R346), its jobs that have not been dispatched dropped already: dispatched jobs run to retirement, copies are FAILED, messages count toward
no launch, and pins and entries are freed, with those of the completions still to be taken by its threads, by their numbers `dead`. -/
def Core.abortLaunch (c : Core) (p slot : Nat) (vf : Option Nat) (dead : List Nat) : Core :=
  { c with
    jobs := c.jobs.map fun j => if j.launch == some slot && j.part == p then { j with launch := none, disowned := true, vf := vf } else j
    copies := c.copies.map fun x =>
      if x.2.launch = some slot ∧ x.2.part = p then
        (x.1, { x.2 with launch := none, charge := none, status := if 1 ≤ x.2.status ∧ x.2.status ≤ 3 then 5 else x.2.status })
      else x
    copyEntries := c.copyEntries.filter fun e =>
      !(dead.contains e.2) && !(c.copies.any fun x => x.2.id == e.1 && x.2.uid == e.2 && x.2.launch == some slot && x.2.part == p)
    boxLo := c.boxLo.map fun m => (m.1, m.2.disown p slot vf)
    boxHi := c.boxHi.map fun m => (m.1, m.2.disown p slot vf)
    pins := c.pins.filter fun x => !(x.launch == slot && x.part == p) }

/-- An image of which a launch is aborted while it is saved (R346, R351): its contexts are gone, with the mailbox slots of its handlers, no job runs, and what it had outstanding is
discarded. -/
def SavedCore.abortLaunch (x : SavedCore) (slot : Nat) (vf : Option Nat) : SavedCore :=
  let mine (c : Ctx) : Bool := c.st != .free && c.launch == some slot
  let free (k : Core) (n : Nat) : Core := match x.ctxs[n]? with
    | some c => if mine c then k.freeSlot (n == 5) c.slot else k
    | none => k
  { x with
    core := free (free ((x.core.dropJobs fun j => j.launch == some slot && j.part == x.part).abortLaunch x.part slot vf ((x.ctxs.filter mine).map fun c => c.uid)) 4) 5
    ctxs := x.ctxs.map fun c => if mine c then {} else c
    replay := x.replay.filterMap fun f => f.survive x.part slot vf }

/-- Launches of which an image holds something (R351, R363). -/
def SavedCore.launches (x : SavedCore) : List Nat := (List.range 256).filter x.holds

/-- Whether an image holds no context, job, copy, message or access: its LM alone. -/
def SavedCore.bare (x : SavedCore) : Bool :=
  x.launches == [] && x.core.jobs == [] && x.core.boxLo == [] && x.core.boxHi == [] && x.ctxs.all fun c => c.st == .free

/-- The images of a partition, and the records that its restore has still to take up, without an aborted launch; a parked image that holds no work any more goes (R363). -/
def State.abortSaved (s : State) (p slot : Nat) (vf : Option Nat) : State :=
  let left := s.saved.map fun (x : Nat × SavedCore) => if x.2.part = p then (x.1, x.2.abortLaunch slot vf) else x
  let s := { s with saved := left.filter fun x => !(x.2.part == p && x.2.parked && x.2.bare) }
  s.onPart p fun q => { q with later := q.later.filterMap fun r => (r.2.survive p slot vf).map fun f => (r.1, f) }

/-- Contexts of a launch. -/
def State.ctxsOf (s : State) (p slot : Nat) : List Nat :=
  (s.ctxs.filter fun x => x.2.st != .free && x.2.launch == some slot && x.2.partNo == p).map Prod.fst

/-- The charges of a launch's threads and copies that still apply (R192). -/
def State.chargesOf (s : State) (p slot : Nat) : List Charge :=
  (s.ctxs.filterMap fun x => if x.2.launch = some slot ∧ x.2.partNo = p then x.2.charge else none) ++
  s.cores.flatMap fun c => c.2.copies.filterMap fun x => if x.2.launch = some slot ∧ x.2.part = p then x.2.charge else none

/-- Frees a context of a launch that is aborted (R346). -/
def State.freeAborted (s : State) (id : Nat) : State :=
  if isHandler id then s.endHandler id
  else
    let cl := clusterOf (coreOf id)
    let s := s.setCtx id {}
    if (s.migFifo.getD cl []).contains id then s.setFifo cl ((s.migFifo.getD cl []).filter (· != id)) else s

/-- Makes the LEAVE of the phase group for k threads, one after another (R346). -/
def State.phaseLeaves (s : State) (p : Nat) : Nat → State
  | 0 => s
  | k + 1 => State.phaseLeaves (s.phaseLeave p) p k

/-- Aborts a launch (R346): its charges (R192), contexts, work on its way, jobs and copies, pins, the phase group, the record and the slot, in this order. No entry is posted where the VF
is being reset (R364). Footprints of other launches that only its copies and jobs kept are let go (R85). -/
def State.abortLaunch (s : State) (p : Nat) (l : Launch) (r : AbortRec) : State :=
  let slot := l.slot
  let vf := s.resetVf l
  let ids := s.ctxsOf p slot
  let left := l.threads - (l.nextNumber - l.live) - (l.uncounted.map fun r => r.2 - r.1).sum
  let s := ((s.chargesOf p slot).foldl (fun (s : State) c => s.lift (some c)) s).discardFlights p slot vf
  let dead := ids.map fun id => (s.ctx id).uid
  let worked := (s.cores.filter fun c => c.2.works p slot).map Prod.fst
  let s := (ids.foldl State.freeAborted s).dropJobs fun j => j.undispatched p slot
  let s := { s with cores := s.cores.map fun (c : Nat × Core) => (c.1, c.2.abortLaunch p slot vf dead) }.abortSaved p slot vf
  let s := worked.foldl (fun (s : State) core => (List.range 8).foldl (fun (s : State) k => s.letPins p (clusterOf core * 8 + k)) s) s
  let s := (ids.filter fun id => isWCore (coreOf id)).foldl (fun s id => s.migrateHead (clusterOf (coreOf id))) s
  let s := s.onPart p fun q => { q with phaseSpawns := q.phaseSpawns.filter fun x => x.1 != slot }
  let s := if s.isDet p then s.phaseLeaves p left else s
  let s := s.logAbort p { r with slot := slot }
  (if vf.isSome then s else s.postFor p l 2).freeLaunchSlot p slot

/-- LAUNCH_ABORT (R346): the steward aborts a launch that a failure has ordered to abort. -/
def execLaunchAbort (part slot : Nat) (s : State) : Answer :=
  .next (match s.launch? part slot with
    | none => s
    | some l =>
      match l.pendingAbort with
      | none => s
      | some r => if s.postRoom part l then s.abortLaunch part l r else s)

/-! ### Moving to and from the W-core (R73, R198) -/

/-- MIGRATE_TO_W_CORE (R73, R198): the thread at the head of a cluster's FIFO moves to a free W-core context. -/
def execMigrateToWCore (cluster : Nat) (s : State) : Answer := .next (s.migrateHead cluster)

/-- MIGRATE_RETURN (R73): a migrated thread whose count has reached 256 returns to an L-core context, before its next instruction and once it has drained. -/
def execMigrateReturn (ctx : Nat) (s : State) : Answer :=
  let c := s.ctx ctx
  .next (if c.migrated && decide (256 ≤ c.migCount) && c.st == .ready && s.drained ctx then s.returnFromW ctx else s)

/-! ### Copy-completion interrupts (R90, R223) -/

/-- Whether a context takes a pending completion at its next instruction boundary: XIEN = 1 and no pending entry (R90). -/
def Ctx.takesCompletion (c : Ctx) : Bool := c.st == .ready && c.cr.xien == 1 && !c.nested && c.comps != []


/-- Takes the oldest pending completion (R90, R223): LCLK rises to W, the interrupt is entered and the copy's job-queue entry is freed. -/
def State.takeCompletion (s : State) (id : Nat) : State :=
  let c := s.ctx id
  match c.comps with
  | [] => s
  | (x, h, w) :: rest =>
    ((s.raiseLclk id w).onCtx id fun c => { c with comps := rest }.enterInterrupt x h).onCore c.home fun k => k.freeEntry x c.uid

/-- COPY_COMPLETION_INTERRUPT (R90, R223): a thread takes a completion, with none of its results still to come. -/
def execCopyCompletionInterrupt (ctx : Nat) (s : State) : Answer :=
  let c := s.ctx ctx
  .next (if c.takesCompletion && c.pend == [] && !(isHandler ctx) then s.takeCompletion ctx else s)

end Sys2Proof.Machine
end

