-- ==== Sys2Proof/Machine/Copies.lean ====
section
/-!
DEFINITION. Copies (R220 to R225): XPUSH, XSTAT and the copy unit of a cluster.
-/
namespace Sys2Proof.Machine

/-! ### The parameter block (R220) -/

/-- log2 of the element size. -/
def copyEsz (b : List Word) : Nat := bitsOf (b.getD 3 0) 0 4

/-- DIMS. -/
def copyDims (b : List Word) : Nat := bitsOf (b.getD 3 0) 4 2 + 1

/-- BT: 0 none, 1 source, 2 destination. -/
def copyBt (b : List Word) : Nat := bitsOf (b.getD 3 0) 6 2

/-- The block size. -/
def copyBlock (b : List Word) : Nat := 2 ^ (bitsOf (b.getD 3 0) 8 4 + 8)

/-- COUNTk. -/
def copyCount (b : List Word) (k : Nat) : Nat := bitsOf (b.getD 4 0) (16 * k) 16

/-- Stride of dimension k on a side, 0 source, 1 destination; dimension 0 is contiguous. -/
def copyStride (b : List Word) (side k : Nat) : Nat := if k = 0 then 1 else bitsOf (b.getD (5 + side) 0) (21 * (k - 1)) 21

/-- Elements of the whole copy. -/
def copyTotal (b : List Word) : Nat := ((List.range (copyDims b)).map (copyCount b)).foldl (· * ·) 1

/-- Index of an element along dimension k. -/
def copyIndex (b : List Word) (e k : Nat) : Nat := e / ((List.range k).map (copyCount b)).foldl (· * ·) 1 % copyCount b k

/-- 2^ESZ times the terms of the dimensions below m on a side. -/
def copyTerms (b : List Word) (side e m : Nat) : Nat := 2 ^ copyEsz b * ((List.range m).map fun k => copyIndex b e k * copyStride b side k).sum

/-- Whether strides and reserved bits of a side break R220; on the side of the block table the last dimension has stride 0. -/
def copyBadStrides (b : List Word) (side : Nat) : Bool :=
  let d := copyDims b
  bitsOf (b.getD (5 + side) 0) 63 1 != 0 || ((List.range 4).any fun k => decide (d ≤ k) && copyStride b side k != 0) ||
  (copyBt b == side + 1 && decide (1 < d) && copyStride b side (d - 1) != 0)

/-- Whether the base of a side breaks R220: its alignment, and with a block table the span against the block size. -/
def copyBadBase (b : List Word) (side : Nat) : Bool :=
  let base := (b.getD side 0).toNat
  let d := copyDims b
  let span := ((List.range (d - 1)).map fun k => (copyCount b k - 1) * copyStride b side k).sum
  decide (base % 2 ^ copyEsz b ≠ 0) || (copyBt b == side + 1 && decide (copyBlock b < base + 2 ^ copyEsz b * (1 + span)))

/-- Whether HANDLER breaks R220. -/
def Core.badHandler (c : Core) (b : List Word) : Bool :=
  let h := b.getD 2 0
  h != 0 && !(c.scratchEntry h && decide (h.toNat % 4 = 0))

/-- Whether a base or table address is one that a copy of a core may name: memory, or an LM that a test admits (R220, R221). -/
def State.copyPlace (s : State) (core : Nat) (a : Word) (lm : Nat → Bool) : Bool :=
  match placeOf core a with
  | .memory => true
  | .lm k _ => s.enabled k && lm k
  | .unmapped => false

/-- Whether SRC, DST or TABLE, by its doubleword of the block, names a place that the copy may not use (R220, R221): on the side of the block table the base is an offset. -/
def State.copyBadPlace (s : State) (p core : Nat) (b : List Word) (i : Nat) : Bool :=
  let own (k : Nat) : Bool := k == core
  match i with
  | 0 => copyBt b != 1 && !(s.copyPlace core (b.getD 0 0) own)
  | 1 => copyBt b != 2 && !(s.copyPlace core (b.getD 1 0) fun k => k == core || s.inPart p k)
  | _ => copyBt b != 0 && !(s.copyPlace core (b.getD 7 0) own)

/-- Byte offset of the first field of a block that breaks R220 or R221. -/
def State.copyBadField (s : State) (p core : Nat) (b : List Word) : Option Nat :=
  let ctl := b.getD 3 0
  let d := copyDims b
  ((if copyBadBase b 0 || s.copyBadPlace p core b 0 then [0x00] else []) ++ (if copyBadBase b 1 || s.copyBadPlace p core b 1 then [0x08] else []) ++
   (if (s.core core).badHandler b then [0x10] else []) ++
   (if bitsOf ctl 32 32 != 0 || bitsOf ctl 12 4 != 0 || decide (13 < bitsOf ctl 8 4) || copyBt b == 3 || decide (4 < copyEsz b) ||
        (bitsOf ctl 8 4 != 0 && copyBt b == 0) then [0x18] else []) ++
   (if (List.range 4).any fun k => (copyCount b k == 0) == decide (k < d) then [0x20] else []) ++
   (if copyBadStrides b 0 then [0x28] else []) ++ (if copyBadStrides b 1 then [0x30] else []) ++
   (if (b.getD 7 0 != 0 && copyBt b == 0) || decide ((b.getD 7 0).toNat % 8 ≠ 0) || s.copyBadPlace p core b 2 then [0x38] else [])).head?

/-! ### XPUSH and XSTAT -/

/-- Entries of a cluster's job queue in use (R197). -/
def State.queueUsed (s : State) (cluster : Nat) : Nat := ((List.range 8).map fun k => (s.core (cluster * 8 + k)).entries).sum

/-- Whether the cluster's job queue has an entry for a core: 16 in all, at most 4 for each core, and round-robin among those that wait (R197). -/
def State.queueRoom (s : State) (core : Nat) : Bool :=
  let used := s.queueUsed (clusterOf core)
  decide ((s.core core).entries < 4) && decide (used < 16) && s.inTurn (clusterOf core * 2) (core % 8) (16 - used)

/-- The executing thread waits for an entry of the job queue, for its home core. -/
def State.awaitQueue (s : State) (core : Nat) : State := s.claimHere (clusterOf core * 2) (core % 8)

/-- The executing thread takes an entry of the job queue. -/
def State.takeQueue (s : State) (core : Nat) : State := s.serve (clusterOf core * 2) (core % 8) s.cur

/-- The transfer id of R221. -/
def transferId (tag seq core number : Nat) : Word := BitVec.ofNat 64 (tag + seq * 2 ^ 16 + core * 2 ^ 24 + number * 2 ^ 44)

/-- Submits a copy (R221): the record of the next sequence number, which holds an entry of the job queue. -/
def State.submitCopy (s : State) (core : Nat) (b : List Word) : Word × State :=
  let c := s.here
  let seq := (s.core core).xseq.toNat
  let id := transferId (bitsOf (b.getD 3 0) 16 16) seq core (numberOf s.cur)
  let x : CopyRec :=
    { id := id, block := b, status := 1, tid := c.cr.tid, ctx := s.cur, uid := c.uid, launch := c.launch, part := c.partNo, domain := c.accessDomain
      lclk := s.lclkOf s.cur }
  (id, s.onCore core fun k => { k with xseq := k.xseq + 1, copies := k.copies.set seq x, copyEntries := k.copyEntries ++ [(id, c.uid)] })

/-- Whether a core's record of a sequence number is in use: QUEUED, RUNNING or PARKED (R221). -/
def Core.copyBusy (c : Core) (seq : Nat) : Bool :=
  match c.copies.get seq with
  | some x => decide (1 ≤ x.status ∧ x.status ≤ 3)
  | none => false

/-- XPUSH with its block (R221, R225). In a deterministic partition a HANDLER is forbidden; XFAULT comes before that where the block also breaks a rule, an order that the spec
leaves open (log 57). -/
def State.pushCopy (s : State) (i : Instr) (d : Reg) (a : Word) (core : Nat) (b : List Word) : State :=
  match s.copyBadField s.here.partNo core b with
  | some off => s.trap .xFault a (BitVec.ofNat 64 off)
  | none =>
    if b.getD 2 0 != 0 && s.inHandler then s.trap .xFault a 0x10
    else if b.getD 2 0 != 0 && s.detHere then s.detForbid i
    else if s.unperformed s.cur 2 (s.core s.execCore).reqSeq || s.acquiring s.cur 2 || (s.core core).copyBusy (s.core core).xseq.toNat then s
    else if !(s.queueRoom core) then s.awaitQueue core
    else
      let (id, s) := ((s.takeQueue core).drift s.cur).submitCopy core b
      s.finishG d id

/-- XPUSH (R221): the block is read from the home-core LM. -/
def execXpush (d a : Reg) (s : State) : Answer :=
  let addr := s.rdG a
  let core := s.homeCore
  .next (match placeOf core addr with
    | .lm k off =>
      if k ≠ core then s.trap .xFault addr 0
      else if addr.toNat % 64 ≠ 0 then s.trap .misalign addr addr
      else if (s.core core).scratchEnd ≤ off then s.trap .prot addr addr
      else if s.lmHeld s.cur core (lmAddr core off) 64 true then s
      else if s.poisoned (lmAddr core off) 64 then s.machineCheck s.cur addr
      else s.pushCopy (.xpush d a) d addr core ((List.range 8).map fun i => BitVec.ofNat 64 (s.lmRead core (off + 8 * i) 8))
    | _ => s.trap .xFault addr 0)

/-- The record that a transfer id names for the asking context (R224). -/
def State.askedCopy (s : State) (id : Word) : Option CopyRec :=
  match (s.core s.homeCore).copies.get (bitsOf id 16 8) with
  | some x => if x.id = id ∧ x.tid = s.here.cr.tid then some x else none
  | none => none

/-- XSTAT (R224, R225); DONE raises LCLK to W. -/
def execXstat (d a : Reg) (s : State) : Answer :=
  .next (if s.detHere then s.detForbid (.xstat d a)
    else match s.askedCopy (s.rdG a) with
      | none => s.finishG d 0
      | some x => (if x.status = 4 then s.raiseLclk s.cur x.w else s).finishG d (BitVec.ofNat 64 x.status))

/-! ### Dispatch (R192, R197, R222) -/

/-- The queued copy of a core that was submitted first. -/
def Core.nextCopy (c : Core) : Option (Nat × CopyRec) :=
  (firstLeast (fun q => 255 - (c.xseq.toNat + 255 - q) % 256) ((c.copies.filter fun x => x.2.status == 1).map Prod.fst)).bind
    fun q => (c.copies.get q).map fun x => (q, x)

/-- Charge of a copy, in microwatts (R192). -/
def copyCharge : Nat := 3000

/-- Whether a core's copy of a sequence number is its next: its previous copy is DONE, FAILED or PARKED, and its partition runs (R197, R351). -/
def State.copyReady (s : State) (core q : Nat) (x : CopyRec) : Bool :=
  (match (s.core core).copies.get ((q + 255) % 256) with
    | some y => y.status != 2 && y.status != 1
    | none => true) && s.partRuns x.part

/-- Whether a core's next copy may be dispatched: it is ready, and Isobar admits it. -/
def State.copyWaits (s : State) (core : Nat) : Bool :=
  match (s.core core).nextCopy with
  | some (q, x) => s.copyReady core q x && s.admits x.part (tileOf core) copyCharge
  | none => false

/-- The next copy of a core, where it waits for headroom alone (R192, R222). -/
def State.copyStarved (s : State) (core : Nat) : Option Nat :=
  match (s.core core).nextCopy with
  | some (q, x) => if s.copyReady core q x && !(s.admits x.part (tileOf core) copyCharge) then some q else none
  | none => none

/-- Since when something waits, or that it no longer does. -/
def noteWait (now : Nat) (waits : Bool) (since : Option Nat) : Option Nat :=
  if waits then some (since.getD now) else none

/-- Notes which copy of a core waits for headroom, and since when (R193). -/
def Core.noteCopies (c : Core) (now : Nat) (copy : Option Nat) : Core :=
  { c with copies := c.copies.map fun x => (x.1, { x.2 with waitedFrom := noteWait now (copy == some x.1) x.2.waitedFrom }) }

/-- The core of a cluster whose turn it is: the first after the one served last whose work waits (R197). -/
def nextTurn (cluster last : Nat) (waits : Nat → Bool) : Option Nat :=
  ((List.range 8).map fun k => cluster * 8 + (last + 1 + k) % 8).find? waits

/-- COPY_DISPATCH (R192, R197, R222): the next copy of a core is admitted and runs, or begins to wait for headroom (R193). -/
def execCopyDispatch (core : Nat) (s : State) : Answer :=
  let cl := clusterOf core
  let rr := s.rrJobs.getD cl (7, 7)
  .next (if nextTurn cl rr.2 s.copyWaits ≠ some core then
      (if (s.copyStarved core).isSome then s.onCore core fun c => c.noteCopies (s.gtrOf sDie) (s.copyStarved core) else s)
    else match (s.core core).nextCopy with
      | some (q, x) =>
        let s := { s with rrJobs := s.rrJobs.set cl (rr.1, core % 8) }
        let c := s.chargeOf x.part (tileOf core) copyCharge
        (s.takeCharge c).onCopy core q fun x => { x with status := 2, charge := some c }
      | none => s)

/-! ### Elements (R222) -/

/-- What a read of the copy unit finds. -/
inductive XuRead where
  | got (v : Nat) (poison : BitVec 2)
  | held
  | park (a : Nat)
  | fail (kind a : Nat) (val : Option Word)
  deriving DecidableEq, Repr

/-- Poison of the 8-byte words of a range, by place. -/
def State.poisonOf (s : State) (a n : Nat) : BitVec 2 :=
  BitVec.ofNat 2 ((if s.poison.contains (wordOf a) then 1 else 0) + if 8 < n ∧ s.poison.contains (wordOf a + 8) then 2 else 0)

/-- How a copy is named where it waits for a miss-table entry: its core and sequence number. -/
def CopyRec.claimKey (x : CopyRec) (core : Nat) : Nat := core * 256 + x.id.toNat / 2 ^ 16 % 256

/-- A read of n bytes by a copy of a core (R222): memory as a load of route home with hint .nl at the issuer's clock, which takes a miss-table entry of the cluster for this step
(R14, R197), LM at the home-core port. An LM of another core, which a block table can name, fails the copy (log 57). -/
def State.xuRead (s : State) (core : Nat) (x : CopyRec) (a : Word) (n : Nat) : XuRead × State :=
  match placeOf core a with
  | .unmapped => (.fail 6 a.toNat none, s)
  | .lm k off =>
    if !(s.enabled k) then (.fail 6 a.toNat none, s)
    else if k ≠ core ∨ (s.core k).scratchEnd < off + n then (.fail 4 a.toNat none, s)
    else (.got (s.lmRead k off n) (s.poisonOf (lmAddr k off) n), s)
  | .memory =>
    match s.plbLookup core x.domain a.toNat with
    | (none, s) => (.fail 4 a.toNat none, s)
    | (some e, s) =>
      if !e.r then (.fail 4 a.toNat none, s)
      else if !(s.missRoomAt core 8) then (.held, s.claim { res := missRes core, pos := 8, key := x.claimKey core, uid := x.id.toNat, pc := 0 })
      else
        let s := s.takeMiss core 8 (x.claimKey core)
        match s.atHome x.part a.toNat false none with
        | (.missing, s) => (.fail 17 a.toNat none, s)
        | (.absent _, s) => (.park a.toNat, s)
        | (.held, s) => (.held, s)
        | (.ready sl host, s) =>
          let old := s.sector sl x.part a.toNat
          let me : Who := .thread (x.launch.getD 0) (x.tid.toNat % 2 ^ 32)
          match (if s.isDet x.part then detCheck .load me (old.inPhase (s.phaseOf x.part)) else .ok old) with
          | .error _ => (.fail 8 a.toNat none, s)
          | .ok y =>
            match s.serveRead sl host x.part a.toNat e.attr (!e.w) true x.lclk old y with
            | .error s => (.held, s)
            | .ok ((v, _), s) => (.got (v.bytes a.toNat n) (s.poisonOf a.toNat n), s)

/-- Address of an element on a side (R220), with its block table entry. -/
def State.copyAddr (s : State) (core : Nat) (x : CopyRec) (side e : Nat) : XuRead × State :=
  let b := x.block
  let base := (b.getD side 0).toNat
  let d := copyDims b
  if copyBt b ≠ side + 1 then (.got ((base + copyTerms b side e d) % 2 ^ 64) 0, s)
  else
    let entry := (b.getD 7 0) + BitVec.ofNat 64 (8 * copyIndex b e (d - 1))
    match s.xuRead core x entry 8 with
    | (.got v p, s) =>
      if p ≠ 0 then (.fail 13 entry.toNat none, s)
      else if v % copyBlock b ≠ 0 then (.fail 15 entry.toNat (some (BitVec.ofNat 64 v)), s)
      else (.got ((v + base + copyTerms b side e (d - 1)) % 2 ^ 64) 0, s)
    | r => r

/-- A write of an element into an LM (R20, R33, R113, R222): the word is set full in the same port step. -/
def State.xuLmWrite (s : State) (core : Nat) (x : CopyRec) (a k off n v : Nat) (poison : BitVec 2) : Except (Nat × Nat) State :=
  if !(s.enabled k) then .error (6, a)
  else if k ≠ core ∧ !(s.inPart x.part k) then .error (4, a)
  else if off < 0x400 ∨ (s.core k).scratchEnd < off + n then .error (16, a)
  else
    let s := (s.lmWrite k off n v).carryPoison (lmAddr k off) poison
    let s := s.setFullServe (lmAddr k off) true
    .ok (if 8 < n then s.setFullServe (lmAddr k off + 8) true else s)

/-- A write of an element (R222): into an LM at its port, into memory as a plain store on its way to its home. -/
def State.xuWrite (s : State) (core seq : Nat) (x : CopyRec) (a : Word) (n v : Nat) (poison : BitVec 2) : Except (Nat × Nat) State :=
  match placeOf core a with
  | .unmapped => .error (6, a.toNat)
  | .lm k off => s.xuLmWrite core x a.toNat k off n v poison
  | .memory =>
    match s.plbLookup core x.domain a.toNat with
    | (none, _) => .error (4, a.toNat)
    | (some e, s) =>
      if !e.w then .error (4, a.toNat)
      else
        let c := s.core core
        .ok ((s.onCore core fun q => { q with reqSeq := q.reqSeq + 1 }).sendFlight
          { kind := .store
              { addr := a.toNat, size := n, data := BitVec.ofNat 128 v, rel := false, push := false, sc := 0, nl := false, attr := e.attr, l := x.lclk, pset := 0 }
            ctx := xuCtx core, uid := seq + 1, part := x.part, domain := x.domain, launch := x.launch, seq := c.reqSeq
            sentAt := s.gtrOf (tileOf core), incarnation := (s.die (tileOf core)).incarnation, poison := poison })

/-- Ends an element's read that brought no data: the copy is parked, fails, or tries again. -/
def State.xuStops (s : State) (core seq : Nat) (r : XuRead) : State :=
  match r with
  | .park a => s.parkCopy core seq a
  | .fail kind a val => s.failCopy core seq kind a val
  | _ => s

/-- COPY_ELEMENT (R222): an element that has not moved yet is read and written. -/
def execCopyElement (core seq element : Nat) (s : State) : Answer :=
  .next (match (s.core core).copies.get seq with
    | none => s
    | some x =>
      if x.status ≠ 2 ∨ s.partRuns x.part = false ∨ x.moved.contains element ∨ copyTotal x.block ≤ element then s
      else
        let n := 2 ^ copyEsz x.block
        match s.copyAddr core x 0 element with
        | (.got src _, s) =>
          match s.copyAddr core x 1 element with
          | (.got dst _, s) =>
            match s.xuRead core x (BitVec.ofNat 64 src) n with
            | (.got v poison, s) =>
              match s.xuWrite core seq x (BitVec.ofNat 64 dst) n v poison with
              | .ok s => s.onCopy core seq fun x => { x with moved := element :: x.moved }
              | .error (kind, a) => s.failCopy core seq kind a none
            | (r, s) => s.xuStops core seq r
          | (r, s) => s.xuStops core seq r
        | (r, s) => s.xuStops core seq r)

/-! ### Parking and completion (R222, R223) -/

/-- Copies of a core parked on a page for a partition. -/
def State.copiesParked (s : State) (core p page : Nat) : List Nat :=
  ((s.core core).copies.filter fun x => x.2.status == 3 && x.2.part == p && x.2.parked.map pageOf == some page).map Prod.fst

/-- A page wake reaches a parked copy (R222, R350): with value 1 it runs again, with value 2 it fails; 0 was unrecorded. -/
def State.wakeCopy (s : State) (core : Nat) (v : Word) (seq : Nat) : State :=
  if v = 1 then s.onCopy core seq fun x => { x with status := 2, parked := none }
  else if v = 2 then s.failCopy core seq 17 ((((s.core core).copies.get seq).bind fun x => x.parked).getD 0) none
  else s.onCopy core seq fun x => { x with unrecorded := true, waitSent := s.gtrOf (tileOf core) }

/-- COPY_RESUME (R222): page wake n reaches a core with copies parked on the page; contexts of the core take the same wake by FAULT_WAKE. -/
def execCopyResume (n : Nat) (s : State) : Answer :=
  .next (match s.flight? n with
    | some f => match f.kind with
      | .wake (.page page) v _ (.core core) _ =>
        if !(s.inOrder n) || !(s.copyParkedOn core f.part page) then s
        else
          let seqs := s.copiesParked core f.part page
          let s' := if s.pageWaiters core f.part page = [] ∨ v = 0 then s.dropFlight n else s
          seqs.foldl (fun s q => s.wakeCopy core v q) s'
      | _ => s
    | none => s)

/-- Whether stores of a copy are still to be acknowledged (R223). -/
def State.copyStores (s : State) (core seq : Nat) : Bool :=
  (s.net.flights ++ s.net.lost).any fun f => f.ctx == xuCtx core && f.uid == seq + 1 && match f.kind with
    | .wait _ _ _ _ _ => false
    | _ => true

/-- COPY_DONE (R85, R223): every element has moved and every store is acknowledged; footprints that only the copy kept are let go. -/
def execCopyDone (core seq : Nat) (s : State) : Answer :=
  .next (match (s.core core).copies.get seq with
    | none => s
    | some x =>
      if x.status ≠ 2 ∨ x.moved.length < copyTotal x.block ∨ s.copyStores core seq = true then s
      else
        (s.endCopy core seq 4).letPins x.part core)

end Sys2Proof.Machine
end

