-- ==== Sys2Proof/Machine/Flags.lean ====
section
/-!
DEFINITION. The flags of floating-point instructions and FPE (R240 to R242), and floating values in f registers (R232,
R261).
-/
namespace Sys2Proof.Machine

/-- The OR of the flags of all lanes (R240). -/
def allFlags (lanes : List FpFlags) : FpFlags := lanes.foldl (fun x y => x ||| y) 0

/-- Bit 8 + i for each lane i that raised an enabled flag (R241). -/
def trapLanes (enabled : FpFlags) : List FpFlags → Nat → Nat
  | [], _ => 0
  | fl :: rest, i => (if fl &&& enabled = 0 then 0 else 2 ^ i) + trapLanes enabled rest (i + 1)

/-- TRAPVAL of an FPE: [4:0] every flag raised, [23:8] the lanes that raised an enabled one (R241). -/
def fpeValue (enabled : FpFlags) (lanes : List FpFlags) : Word :=
  BitVec.ofNat 64 ((allFlags lanes).toNat + trapLanes enabled lanes 8)

/-- ORs flags into FFLAGS of the executing context (R240). -/
def State.orFlags (s : State) (fl : FpFlags) : State :=
  s.onHere fun c => c.onCr fun r => { r with fflags := r.fflags ||| fl }

/-- Ends an instruction that raised flags, by lane (R240, R241): with no enabled flag raised it writes its destination
and retires; otherwise it takes FPE and writes none. FFLAGS gets every flag in both cases. -/
def State.finishFp (s : State) (w : Bool) (lanes : List FpFlags) (write : State → State) : State :=
  let enabled := s.here.cr.ftrapen
  let all := allFlags lanes
  if all &&& enabled = 0 then
    let s := write (s.orFlags all)
    if w then s.retireW else s.retire
  else if s.here.pend != [] then s
  else (s.orFlags all).trap .fpe s.here.pc (fpeValue enabled lanes)

/-- The mode of an rm field in the executing context: FRM at issue for `.dyn` (R81, R236). -/
def State.mode (s : State) (rm : BitVec 3) : Rounding := roundingOf rm s.here.cr.frm

/-- An encoding as an f register holds it: every bit above its width is one (R261). -/
def boxed (t : FloatFmt) (x : Nat) : Word := BitVec.ofNat 64 (2 ^ 64 - 2 ^ t.width + x % 2 ^ t.width)

/-- The encoding read from an f register: an FP32 value that is not boxed reads as 0x7FC00000 (R232); of a narrower
one the bits above its width are ignored (R261). -/
def unboxed (t : FloatFmt) (x : Word) : Nat :=
  if t = .f32 ∧ x.toNat / 2 ^ 32 ≠ 2 ^ 32 - 1 then 0x7FC00000 else x.toNat % 2 ^ t.width

/-- The precision of a k field of majors 0x3A and 0x3B: 0 is .d, 1 is .s (R54). -/
def precisionOf (p : BitVec 1) : FloatFmt := if p = 0 then .f64 else .f32

/-- Reads an operand of a format from an f register (R232, R261). -/
def State.rdFp (s : State) (t : FloatFmt) (r : Reg) : Nat := unboxed t (s.rdF r)

/-- A scalar instruction with one rounded result in f[d] (R269). -/
def State.fpTo (s : State) (w : Bool) (t : FloatFmt) (d : Reg) (r : Rounded) : State :=
  s.finishFp w [r.2] fun s => s.wrF d (boxed t r.1)

end Sys2Proof.Machine
end

