-- ==== Sys2Proof/Machine/Panels.lean ====
section
/-!
DEFINITION. Operand panels of the matrix engine and its sums (R231 to R233, R245 to R256, R280 to R285), as functions of bytes.
-/
namespace Sys2Proof.Machine

/-! ### Elements and panels (R52, R283) -/

/-- Element types of the matrix engine (R283). -/
inductive Elem where
  | float (t : FloatFmt)
  | ex8
  | mx (t : FloatFmt)
  | oi (w : Nat)
  deriving DecidableEq, Repr

/-- A and B elements of a pair code (R52). -/
def pairElems (pair : Nat) : Elem × Elem :=
  match pair with
  | 0 => (.float .f16, .float .f16)
  | 1 => (.float .bf16, .float .bf16)
  | 2 => (.float .e4m3, .float .e4m3)
  | 3 => (.float .e4m3, .float .e5m2)
  | 4 => (.float .e5m2, .float .e4m3)
  | 5 => (.float .e5m2, .float .e5m2)
  | 6 => (.ex8, .ex8)
  | 7 => (.mx .e4m3, .mx .e4m3)
  | 8 => (.mx .e3m2, .mx .e3m2)
  | 9 => (.mx .e2m3, .mx .e2m3)
  | 10 => (.mx .e2m1, .mx .e2m1)
  | 11 => (.oi 8, .oi 8)
  | 12 => (.oi 4, .oi 8)
  | _ => (.oi 4, .oi 4)

/-- KIND of a pair (R280): 1 FP32, 2 INT32. -/
def pairKind (pair : Nat) : BitVec 2 := if pair ≤ 10 then 1 else 2

/-- Bits of an element (R233). -/
def Elem.width : Elem → Nat
  | .float t => t.width
  | .ex8 => 8
  | .mx t => t.width
  | .oi w => w

/-- Bytes of a group of 32 elements (R283). -/
def Elem.groupBytes (x : Elem) : Nat := 4 * x.width

/-- Whether a panel has a meta byte for each group (R283). -/
def Elem.hasMeta : Elem → Bool
  | .mx _ => true
  | .oi _ => true
  | .float _ => false
  | .ex8 => false

/-- Largest size of a panel in bytes (R283, R284). -/
def Elem.panelBytes : Elem → Nat
  | .ex8 => 796
  | x => 16 * x.groupBytes + if x.hasMeta then 16 else 0

/-- A panel as the engine takes it in: the 32 elements of each of 16 groups, their meta bytes, and which elements count. -/
structure Panel where
  groups : List (List Nat)
  metas : List Nat
  maps : List Nat
  deriving DecidableEq, Repr

/-- Little-endian number in a list of bytes. -/
def leNat : List Byte → Nat
  | [] => 0
  | b :: bs => b.toNat + 256 * leNat bs

/-- Byte x of a list; bytes past the end are zero. -/
def byteOf (bs : List Byte) (x : Nat) : Nat := (bs.getD x 0).toNat

/-! ### EX8 (R246 to R250) -/

/-- A code word: symbol, length in bits, code. -/
abbrev CodeWord := Nat × Nat × Nat

/-- The four prefix codes (R248). -/
def ex8Table (t : Nat) : List CodeWord :=
  match t with
  | 0 => (List.range 16).map fun d => (d, 4, d)
  | 1 => [(0, 2, 0b00), (1, 3, 0b100), (2, 5, 0b11010), (3, 6, 0b111000), (4, 6, 0b111001), (5, 6, 0b111010), (6, 6, 0b111011), (7, 6, 0b111100),
          (8, 6, 0b111101), (9, 6, 0b111110), (10, 7, 0b1111110), (11, 7, 0b1111111), (12, 5, 0b11011), (13, 4, 0b1100), (14, 3, 0b101), (15, 2, 0b01)]
  | 2 => [(0, 1, 0b0), (1, 4, 0b1100), (2, 6, 0b111010), (3, 7, 0b1111000), (4, 7, 0b1111001), (5, 7, 0b1111010), (6, 7, 0b1111011), (7, 7, 0b1111100),
          (8, 7, 0b1111101), (9, 7, 0b1111110), (10, 8, 0b11111110), (11, 8, 0b11111111), (12, 6, 0b111011), (13, 5, 0b11100), (14, 4, 0b1101), (15, 2, 0b10)]
  | _ => [(0, 3, 0b000), (1, 3, 0b001), (2, 4, 0b1010), (3, 5, 0b11000), (4, 5, 0b11001), (5, 5, 0b11010), (6, 5, 0b11011), (7, 5, 0b11100),
          (8, 5, 0b11101), (9, 6, 0b111110), (10, 6, 0b111111), (11, 5, 0b11110), (12, 4, 0b1011), (13, 3, 0b010), (14, 3, 0b011), (15, 3, 0b100)]

/-- n bits of a stream from a bit position, most significant bit first (R247). -/
def streamBits (bs : List Byte) (pos : Nat) : Nat → Nat
  | 0 => 0
  | n + 1 => byteOf bs (pos / 8) / 2 ^ (7 - pos % 8) % 2 * 2 ^ n + streamBits bs (pos + 1) n

/-- Reads k tokens from a bit position: the distances and the position after the last (R247). -/
def ex8Tokens (tbl : List CodeWord) (bs : List Byte) (pos : Nat) : Nat → List Nat × Nat
  | 0 => ([], pos)
  | k + 1 =>
    match tbl.find? fun c => streamBits bs pos c.2.1 == c.2.2 with
    | some c =>
      let r := ex8Tokens tbl bs (pos + c.2.1) k
      (c.1 :: r.1, r.2)
    | none => ([], pos)

/-- Decodes one EX8 block (R246, R247, R250): its 32 E4M3 bytes and its length; none where it is malformed. -/
def ex8Block (bs : List Byte) : Option (List Nat × Nat) :=
  let h := byteOf bs 0
  let (ds, last) := ex8Tokens (ex8Table (h / 64)) (bs.drop 17) 0 32
  let pad := (8 - last % 8) % 8
  if h % 4 ≠ 0 ∨ streamBits (bs.drop 17) last pad ≠ 0 then none
  else
    let one (j d : Nat) : Nat :=
      let sm := byteOf bs (1 + j / 2) / (if j % 2 = 0 then 1 else 16) % 16
      sm / 8 * 128 + (h / 4 % 16 + d) % 16 * 8 + sm % 8
    some (((List.range 32).zip ds).map fun x => one x.1 x.2, 17 + (last + pad) / 8)

/-- Decodes k blocks placed back to back: their elements and lengths. -/
def ex8Blocks (bs : List Byte) : Nat → Option (List (List Nat) × List Nat)
  | 0 => some ([], [])
  | k + 1 =>
    match ex8Block bs with
    | none => none
    | some (es, n) =>
      match ex8Blocks (bs.drop n) k with
      | some (gs, ns) => some (es :: gs, n :: ns)
      | none => none

/-- Decodes the 16 groups of an EX8 panel (R249, R250, R284). -/
def ex8Groups (bs : List Byte) : Option (List (List Nat)) :=
  match ex8Blocks (bs.drop 12) 16 with
  | none => none
  | some (gs, ns) =>
    if leNat (bs.take 4) = ns.sum ∧ leNat ((bs.drop 4).take 4) = 0 ∧ leNat ((bs.drop 8).take 4) = (ns.take 8).sum then some gs else none

/-! ### Reading a panel (R282 to R285) -/

/-- The 32 elements of a group, packed in ascending k (R233). -/
def groupElems (w : Nat) (bytes : List Byte) : List Nat := (List.range 32).map fun k => leNat bytes / 2 ^ (w * k) % 2 ^ w

/-- A panel of bytes without its bitmaps. -/
def densePanel (x : Elem) (bs : List Byte) (maps : List Nat) : Option Panel :=
  match x with
  | .ex8 => (ex8Groups bs).map fun gs => { groups := gs, metas := [], maps := maps }
  | x =>
    some
      { groups := (List.range 16).map fun g => groupElems x.width ((bs.drop (g * x.groupBytes)).take x.groupBytes)
        metas := if x.hasMeta then (List.range 16).map fun g => byteOf bs (16 * x.groupBytes + g) else []
        maps := maps }

/-- A panel of bytes, with its bitmaps where the job is MMASP (R285); none where it is malformed. -/
def readPanel (x : Elem) (sparse : Bool) (bs : List Byte) : Option Panel :=
  if sparse then densePanel x (bs.drop 64) ((List.range 16).map fun g => leNat ((bs.drop (4 * g)).take 4))
  else densePanel x bs ((List.range 16).map fun _ => 2 ^ 32 - 1)

/-! ### Block sums (R252 to R254) -/

/-- The float format that an element decodes to. -/
def Elem.fmt : Elem → FloatFmt
  | .float t => t
  | .ex8 => .e4m3
  | .mx t => t
  | .oi _ => .f32

/-- A product of two elements. -/
inductive Prod where
  | nan (signalling : Bool)
  | invalid
  | inf (neg : Bool)
  | fin (neg : Bool) (m : Nat) (e : Int)
  deriving DecidableEq, Repr

/-- The exact product of two values. -/
def product (a b : Num) : Prod :=
  match a, b with
  | .nan s, .nan t => .nan (s || t)
  | .nan s, _ => .nan s
  | _, .nan s => .nan s
  | .inf n, .inf k => .inf (n != k)
  | .inf n, .fin k m _ => if m = 0 then .invalid else .inf (n != k)
  | .fin n m _, .inf k => if m = 0 then .invalid else .inf (n != k)
  | .fin n m e, .fin k l f => .fin (n != k) (m * l) (e + f)

/-- The products of row i and column j that are formed (R252, R285). -/
def products (ta tb : FloatFmt) (a b : List Nat) (mask : Nat) : List Prod :=
  (((List.range 32).zip (a.zip b)).filter fun x => mask.testBit x.1).map fun x => product (unpack ta x.2.1) (unpack tb x.2.2)

/-- What special products make of the block (R254); none where there is none. -/
def specialSum (ps : List Prod) : Option Rounded :=
  let sig := ps.any fun p => match p with | .nan s => s | _ => false
  let anyNan := ps.any fun p => match p with | .nan _ => true | _ => false
  let bad := ps.any fun p => p == .invalid
  let pos := ps.any fun p => p == .inf false
  let neg := ps.any fun p => p == .inf true
  let nv := sig || bad || (pos && neg)
  if anyNan || nv then some (0x7FC00000, if nv then flagNV else 0)
  else if pos then some (FloatFmt.f32.infinity, 0)
  else if neg then some (withSign .f32 true FloatFmt.f32.infinity, 0)
  else none

/-- An exact product in units of 2^q, truncated toward zero, and whether the truncation dropped a non-zero part. -/
def truncAt (q : Int) (m : Nat) (e : Int) : Nat × Bool :=
  if q ≤ e then (m * 2 ^ (e - q).toNat, false)
  else (m / 2 ^ (q - e).toNat, decide (m % 2 ^ (q - e).toNat ≠ 0))

/-- The sum of finite products in units of 2^q, and whether anything was dropped. -/
def sumAt (q : Int) : List Prod → Int × Bool
  | [] => (0, false)
  | .fin neg m e :: ps =>
    let r := sumAt q ps
    let t := truncAt q m e
    ((if neg then r.1 - (t.1 : Int) else r.1 + (t.1 : Int)), r.2 || t.2)
  | _ :: ps => sumAt q ps

/-- The greatest of ⌊log2 |p|⌋ over non-zero products (R253). -/
def topExponent : List Prod → Option Int
  | [] => none
  | .fin _ m e :: ps =>
    match topExponent ps with
    | none => if m = 0 then none else some (e + (Nat.log2 m : Int))
    | some t => if m = 0 then some t else some (if t ≤ e + (Nat.log2 m : Int) then e + (Nat.log2 m : Int) else t)
  | _ :: ps => topExponent ps

/-- The block sum of finite products rounded to FP32 (R252); for BF16 in the window of R253. -/
def finiteSum (bf16 : Bool) (low : Int) (scale : Int) (ps : List Prod) : Rounded :=
  if bf16 then
    match topExponent ps with
    | none => (0, 0)
    | some top =>
      let q := top - 89
      let (v, sticky) := sumAt q ps
      let v4 := v * 4 + (if sticky then (if v < 0 then -1 else 1) else 0)
      if v4 = 0 then (0, 0) else roundTo .f32 .rne (decide (v4 < 0)) v4.natAbs (q - 2)
  else
    let v := (sumAt low ps).1
    if v = 0 then (0, 0) else roundTo .f32 .rne (decide (v < 0)) v.natAbs (low + scale)

/-- Weight below which no product of two formats has a bit. -/
def lowWeight (ta tb : FloatFmt) : Int := 2 - (ta.bias : Int) - (ta.frac : Int) - (tb.bias : Int) - (tb.frac : Int)

/-- BlockSum of entry (i, j) (R252 to R254). A scale 0xFF of an MX pair gives NaN whatever the bitmaps of MMASP skip: the model's reading of R252 beside R285 (log 57). -/
def blockSum (xa xb : Elem) (a b : Panel) (i j : Nat) : Rounded :=
  let ta := xa.fmt
  let tb := xb.fmt
  let ps := products ta tb (a.groups.getD i []) (b.groups.getD j []) (a.maps.getD i 0 &&& b.maps.getD j 0)
  let mx := xa.hasMeta
  let sa := a.metas.getD i 127
  let sb := b.metas.getD j 127
  if mx && (sa == 0xFF || sb == 0xFF) then (0x7FC00000, flagNV)
  else (specialSum ps).getD (finiteSum (ta == .bf16) (lowWeight ta tb) (if mx then (sa : Int) - 127 + ((sb : Int) - 127) else 0) ps)

/-- The exact block sum of an OI pair (R251, R255). -/
def oiSum (xa xb : Elem) (a b : Panel) (i j : Nat) : Int :=
  let za : Int := (a.metas.getD i 0 % 2 ^ xa.width : Nat)
  let zb : Int := (b.metas.getD j 0 % 2 ^ xb.width : Nat)
  let mask := a.maps.getD i 0 &&& b.maps.getD j 0
  (((List.range 32).zip ((a.groups.getD i []).zip (b.groups.getD j []))).map fun x =>
    if mask.testBit x.1 then ((x.2.1 : Int) - za) * ((x.2.2 : Int) - zb) else 0).sum

/-! ### Accumulation (R252, R255) -/

/-- An accumulator entry with what the job's status gathers: flags and SAT. -/
structure AccStep where
  value : Nat
  flags : FpFlags
  sat : Bool
  deriving DecidableEq, Repr

/-- acc + BlockSum in FP32; the engine keeps no NaN payload (R252, R254). -/
def addFloat (acc : Nat) (r : Rounded) : AccStep :=
  let s := fpAdd .f32 .rne acc r.1
  { value := if isNaN .f32 s.1 then 0x7FC00000 else s.1, flags := r.2 ||| s.2, sat := false }

/-- acc + block sum in INT32 with saturation (R255). -/
def addInt (acc : Nat) (v : Int) : AccStep :=
  let t := intValue true 32 acc + v
  let c : Int := if t < -2147483648 then -2147483648 else if 2147483647 < t then 2147483647 else t
  { value := (c % 4294967296).toNat, flags := 0, sat := decide (c ≠ t) }

/-- One block into one entry. -/
def accEntry (xa xb : Elem) (a b : Panel) (i j acc : Nat) : AccStep :=
  match xa with
  | .oi _ => addInt acc (oiSum xa xb a b i j)
  | _ => addFloat acc (blockSum xa xb a b i j)

/-- One block into the 256 entries of a tile. -/
def accBlock (xa xb : Elem) (a b : Panel) (tile : List Nat) : List AccStep :=
  ((List.range 256).zip tile).map fun x => accEntry xa xb a b (x.1 / 16) (x.1 % 16) x.2

/-- All blocks in ascending order: the tile, the flags and SAT (R252, R255). -/
def accumulate (xa xb : Elem) (tile : List Nat) : List (Panel × Panel) → List Nat × FpFlags × Bool
  | [] => (tile, 0, false)
  | (a, b) :: rest =>
    let r := accBlock xa xb a b tile
    let t := accumulate xa xb (r.map fun x => x.value) rest
    (t.1, r.foldl (fun f x => f ||| x.flags) t.2.1, t.2.2 || r.any fun x => x.sat)

/-! ### MST (R256, R295, R296) -/

/-- Destination formats of MST by their code, with the element size in bytes (R295). -/
def mstFormat (code : Nat) : Option (ConvFmt × Nat) :=
  match code with
  | 1 => some (.float .f32, 4)
  | 2 => some (.float .f16, 2)
  | 3 => some (.float .bf16, 2)
  | 4 => some (.float .e4m3, 1)
  | 5 => some (.float .e5m2, 1)
  | 18 => some (.int true 32, 4)
  | 22 => some (.int true 8, 1)
  | _ => none

/-- The entry of a tile as a value: FP32, or INT32 where KIND is 2. -/
def accNum (kind : BitVec 2) (x : Nat) : Num :=
  if kind = 2 then
    let v := intValue true 32 x
    .fin (decide (v < 0)) v.natAbs 0
  else unpack .f32 x

/-- The exact product of three values. -/
def product3 (a b c : Num) : Prod :=
  let asNum (p : Prod) : Num := match p with
    | .nan s => .nan s
    | .invalid => .nan true
    | .inf n => .inf n
    | .fin n m e => .fin n m e
  let sig := [a, b, c].any fun x => match x with | .nan s => s | _ => false
  let anyNan := [a, b, c].any fun x => match x with | .nan _ => true | _ => false
  if anyNan then .nan sig
  else
    let zero := [a, b, c].any fun x => match x with | .fin _ m _ => m == 0 | _ => false
    let inf := [a, b, c].any fun x => match x with | .inf _ => true | _ => false
    if zero && inf then .invalid else product (asNum (product a b)) c

/-- RoundTo(sA × sB × v, FMT, RNE) with the outcomes of R239 and R296. -/
def mstRound (t : ConvFmt) (p : Prod) : Rounded :=
  match t, p with
  | .float f, .nan sig => (f.defaultNaN, if sig then flagNV else 0)
  | .float f, .invalid => (f.defaultNaN, flagNV)
  | .float f, .inf neg => if f.ieee then (withSign f neg f.infinity, 0) else (withSign f neg f.largest, flagNV)
  | .float f, .fin neg m e => roundTo f .rne neg m e
  | .int s w, .nan _ => (intBound s w false, flagNV)
  | .int s w, .invalid => (intBound s w false, flagNV)
  | .int s w, .inf neg => (intBound s w neg, flagNV)
  | .int s w, .fin neg m e => roundToInt s w .rne neg m e
  | .scale, _ => (0, 0)

/-- The value and flags that MST stores for an entry (R296). -/
def mstValue (t : ConvFmt) (scale : Word) (kind : BitVec 2) (x : Nat) : Rounded :=
  mstRound t (product3 (unpack .f32 (scale.toNat % 2 ^ 32)) (unpack .f32 (scale.toNat / 2 ^ 32)) (accNum kind x))

end Sys2Proof.Machine
end

