-- ==== Sys2Proof/Machine/Engine.lean ====
section
/-!
DEFINITION. The matrix engine (R278 to R301): engine registers, submission of jobs, their dispatch and retirement, and their status.
-/
namespace Sys2Proof.Machine

/-! ### Engine registers (R278, R279, R294) -/

/-- SCALEn of a core (R279). -/
def Core.scale (c : Core) (n : Nat) : Word := c.scales.getD n 0x3F8000003F800000

/-- KINDn of a core (R279). -/
def Core.kind (c : Core) (n : Nat) : BitVec 2 := c.kinds.getD n 0

/-- An entry of a core's accumulators (R280). -/
def Core.accAt (c : Core) (tile i : Nat) : Nat := (c.acc.getD (tile * 256 + i) 0).toNat

/-- The 256 entries of a tile. -/
def Core.tile (c : Core) (tile : Nat) : List Nat := (List.range 256).map (c.accAt tile)

/-- Replaces a tile. -/
def Core.setTile (c : Core) (tile : Nat) (xs : List Nat) : Core :=
  { c with acc := ((List.range 256).zip xs).foldl (fun m x => m.set (tile * 256 + x.1) (BitVec.ofNat 32 x.2)) c.acc }

/-- An engine register (R279). -/
def Core.engineRead (c : Core) (e : Nat) : Word :=
  if e < 4 then c.scale e else if e < 8 then (c.kind (e - 4)).setWidth 64
  else if e = 8 then c.eseq.setWidth 64 else if e = 9 then c.last.setWidth 64 else 0

/-- Presents a value to an engine register (R279); KIND is not changed by 3, and RO registers not at all. -/
def Core.engineWrite (c : Core) (e : Nat) (v : Word) : Core :=
  if e < 4 then { c with scales := c.scales.set e v }
  else if e < 8 then (if (v.setWidth 2 : BitVec 2) = 3 then c else { c with kinds := c.kinds.set (e - 4) (v.setWidth 2) })
  else c

/-- EWR (R294): it waits for the core's queued instructions. -/
def execEwr (a : Reg) (e : BitVec 4) (s : State) : Answer :=
  .next (if (s.core s.homeCore).jobs = [] then (s.onCore s.homeCore fun c => c.engineWrite e.toNat (s.rdG a)).retire else s)

/-- ERD (R294). -/
def execErd (d : Reg) (e : BitVec 4) (s : State) : Answer :=
  .next (if (s.core s.homeCore).jobs = [] then s.finishG d ((s.core s.homeCore).engineRead e.toNat) else s)

/-! ### Job ids and status (R291, R292) -/

/-- A status word. -/
def statusWord (id code : Nat) (flags : FpFlags) (sat : Bool) : Word :=
  BitVec.ofNat 64 (id * 2 ^ 16 + (if sat then 2 ^ 13 else 0) + (flags &&& ~~~flagDZ).toNat * 2 ^ 8 + code)

/-- Sets the status of a job among the 256 most recent ids. -/
def Core.setStatus (c : Core) (id : Nat) (w : Word) : Core :=
  { c with jobStatus := c.jobStatus.map fun x => if x.1 = id then (id, w) else x }

/-- The status word of an id (R291, R293): 0 for UNKNOWN. All 64 bits of the register are compared, so one above 2^16 is no id (log 57). -/
def Core.statusOf (c : Core) (id : Word) : Word := ((c.jobStatus.find? fun x => x.1 == id.toNat).map Prod.snd).getD 0

/-- CODE of a status word. -/
def statusCode (w : Word) : Nat := w.toNat % 16

/-- JWAIT and JPOLL once the status is to be returned (R293): a completion is written to JOBST. -/
def State.takeJob (s : State) (d : Reg) (w : Word) : State :=
  let s := if 3 ≤ statusCode w then s.onCr fun r => { r with jobst := w } else s
  s.finishG d w

/-- JWAIT (R293, R301). -/
def execJwait (d a : Reg) (s : State) : Answer :=
  let id := s.rdG a
  let w := (s.core s.homeCore).statusOf id
  .next (if s.inHandler then s.illegal (.jwait d a)
    else if statusCode w = 1 ∨ statusCode w = 2 then s.onHere fun c => { c with st := .waiting, wait := .jwait id.toNat d.toNat }
    else s.takeJob d w)

/-- JPOLL (R293, R301). -/
def execJpoll (d a : Reg) (s : State) : Answer :=
  .next (if s.detHere then s.detForbid (.jpoll d a) else s.takeJob d ((s.core s.homeCore).statusOf (s.rdG a)))

/-! ### Submission (R114, R197, R288) -/

/-- Whether an LM store, SDE or FESET of a context to an LM of its cluster has not performed at its port (R114). -/
def State.clusterWrites (s : State) (id : Nat) : Bool :=
  let near (a : Nat) : Bool := match lmCore? a with
    | some k => clusterOf k == clusterOf (coreOf id)
    | none => false
  (s.flightsOf id).any (fun f => match f.kind with
    | .lmWrite a _ _ _ => near a
    | .feOffer a (.sde _ _) _ => near a
    | _ => false) ||
  (s.waitersOf id).any fun w => match w.op with
    | .sde _ _ => near w.addr
    | _ => false

/-- Submits a job of the executing context to its core's share of the queue, with the next id (R288, R291). -/
def State.submitJob (s : State) (d : Reg) (k : JobKind) : State :=
  let core := s.homeCore
  if s.clusterWrites s.cur then s
  else if !(s.queueRoom core) then s.awaitQueue core
  else
    let c := s.here
    let id := core % 8 * 2 ^ 13 + (s.core core).eseq.toNat
    let j : Job :=
      { id := some id, kind := k, ctx := s.cur, uid := c.uid, launch := c.launch, part := c.partNo, tid := c.cr.tid }
    ((s.takeQueue core).onCore core fun q => { q with
      eseq := q.eseq + 1, jobs := q.jobs ++ [j], jobStatus := ((id, statusWord id 1 0 false) :: q.jobStatus).take 256 }).finishG d (BitVec.ofNat 64 id)

/-- Fields of an operand descriptor (R286). -/
def descK (w : Word) : Nat := bitsOf w 8 7
/-- ACC. -/
def descAcc (w : Word) : Nat := bitsOf w 6 2
/-- BRING. -/
def descB (w : Word) : Nat := bitsOf w 3 3
/-- ARING. -/
def descA (w : Word) : Nat := bitsOf w 0 3

/-- Whether a descriptor breaks R286 or R288. -/
def badDesc (w : Word) : Bool := bitsOf w 15 49 != 0 || descK w == 0 || decide (64 < descK w) || descA w == descB w

/-- Bytes a panel of an element needs of its ring at submission (R284, R285, R288). -/
def panelNeed (sparse : Bool) (x : Elem) : Nat := x.panelBytes + if sparse then 64 else 0

/-- Whether ring q is valid and holds a number of bytes (R288). -/
def Core.ringHolds (c : Core) (q n : Nat) : Bool := c.ringValid (c.ring q) && decide (n ≤ ringSlots (c.ring q) * ringSlotSize (c.ring q))

/-- MMA and MMASP (R288, R300). -/
def State.matrixJob (s : State) (i : Instr) (sparse : Bool) (d a b : Reg) (pair : Nat) (f : Reg) : State :=
  s.allow i [f] false fun s =>
    let desc := s.rdG a
    let opts := s.rdG b
    let pc := s.here.pc
    let c := s.core s.homeCore
    let x := pairElems pair
    if badDesc desc then s.trap .illegal pc desc
    else if bitsOf opts 3 61 ≠ 0 then s.trap .illegal pc opts
    else if !(c.ringHolds (descA desc) (panelNeed sparse x.1)) then s.trap .ringFault pc (BitVec.ofNat 64 (descA desc))
    else if !(c.ringHolds (descB desc) (panelNeed sparse x.2)) then s.trap .ringFault pc (BitVec.ofNat 64 (descB desc))
    else s.submitJob d (.mma sparse pair desc opts (s.rdF f))

/-- MMA (R288). -/
def execMma (d a b : Reg) (p : BitVec 4) (c : BitVec 5) (s : State) : Answer :=
  .next (s.matrixJob (.mma d a b p c) false d a b p.toNat c)

/-- MMASP (R285, R288). -/
def execMmasp (d a b : Reg) (p : BitVec 4) (c : BitVec 5) (s : State) : Answer :=
  .next (s.matrixJob (.mmasp d a b p c) true d a b p.toNat c)

/-- MZERO (R291, R294): it takes a queue entry and gets no id. -/
def execMzero (c : BitVec 2) (s : State) : Answer :=
  let core := s.homeCore
  .next (if !(s.queueRoom core) then s.awaitQueue core
    else
      let j : Job :=
        { id := none, kind := .mzero c.toNat, ctx := s.cur, uid := s.here.uid, launch := s.here.launch, part := s.here.partNo, tid := s.here.cr.tid }
      ((s.takeQueue core).onCore core fun q => { q with jobs := q.jobs ++ [j] }).retire)

/-- The LM place of bytes [0, span) from an address, where they lie in the scratch of one LM of the executing cluster (R296): the core and offset. -/
def State.clusterScratch (s : State) (a : Word) (span : Nat) : Option (Nat × Nat) :=
  match placeOf s.homeCore a with
  | .lm k off => if s.enabled k && clusterOf k == clusterOf s.execCore && (s.core k).inScratch off span then some (k, off) else none
  | _ => none


/-- MST (R295, R296). -/
def execMst (d a b : Reg) (c : BitVec 2) (s : State) : Answer :=
  let opts := s.rdG b
  let addr := s.rdG a
  let stride := optStride opts
  .next (match mstFormat (bitsOf opts 0 8) with
    | none => s.trap .illegal s.here.pc opts
    | some (_, size) =>
      if bitsOf opts 32 32 ≠ 0 ∨ bitsOf opts 8 8 ≠ 0 ∨ stride % 8 ≠ 0 ∨ stride < 16 * size then s.trap .illegal s.here.pc opts
      else if addr.toNat % 8 ≠ 0 then s.trap .misalign addr addr
      else match s.clusterScratch addr (15 * stride + 16 * size) with
        | none => s.trap .prot addr addr
        | some (k, off) => s.submitJob d (.mst (BitVec.ofNat 64 (lmAddr k off)) opts c.toNat))


/-- MLDT (R297, R300). Where a source element fails the LM check, TRAPADDR and TRAPVAL are ga, as in R296: the spec leaves open whether they name the element (log 57). -/
def execMldt (d a b : Reg) (q : BitVec 3) (s : State) : Answer :=
  let opts := s.rdG b
  let addr := s.rdG a
  .next (if bitsOf opts 32 32 ≠ 0 ∨ bitsOf opts 5 3 ≠ 0 ∨ optStride opts % 8 ≠ 0 ∨ bitsOf opts 8 8 % 4 ≠ 0 then s.trap .illegal s.here.pc opts
    else if !((s.core s.homeCore).ringHolds q.toNat 1024) then s.trap .ringFault s.here.pc (q.setWidth 64)
    else if addr.toNat % 8 ≠ 0 then s.trap .misalign addr addr
    else
      let os := mldtOffsets opts
      let lo := mldtLow opts
      let hi := os.foldl Nat.max 0
      match s.clusterScratch (addr + BitVec.ofNat 64 lo) (hi + 2 - lo) with
      | none => s.trap .prot addr addr
      | some (k, off) => s.submitJob d (.mldt (BitVec.ofNat 64 (lmAddr k off - lo)) opts q.toNat))

/-! ### Reading panels from rings (R282, R284) -/

/-- Slots that a number of bytes takes. -/
def slotsFor (w : Word) (bytes : Nat) : Nat := (bytes + ringSlotSize w - 1) / ringSlotSize w

/-- Bytes from the start of slot o, counted from HEAD, in the LM of a core (R282). -/
def State.ringBytes (s : State) (core : Nat) (w : Word) (o n : Nat) : List Byte :=
  (List.range n).map fun x => s.mem.read (lmAddr core (ringSlotAt w (ringHead w) (o + x / ringSlotSize w) + x % ringSlotSize w))

/-- Bytes of the panel that starts at slot o (R283 to R285); none where its LEN is not in the ring yet. -/
def State.panelSize (s : State) (core : Nat) (w : Word) (x : Elem) (sparse : Bool) (o : Nat) : Option Nat :=
  let pre := if sparse then 64 else 0
  match x with
  | .ex8 =>
    if ringFilled w < o + slotsFor w (pre + 12) then none
    else some (pre + 12 + leNat ((s.ringBytes core w o (pre + 4)).drop pre))
  | x => some (pre + x.panelBytes)

/-- First slots and sizes of n panels from slot o, and the slot after the last; none where the filled slots do not cover them (R282, R289). -/
def State.panelPlaces (s : State) (core : Nat) (w : Word) (x : Elem) (sparse : Bool) (o : Nat) : Nat → Option (List (Nat × Nat) × Nat)
  | 0 => some ([], o)
  | n + 1 =>
    match s.panelSize core w x sparse o with
    | none => none
    | some size =>
      let next := o + slotsFor w size
      if ringFilled w < next then none
      else match State.panelPlaces s core w x sparse next n with
        | some (ps, last) => some ((o, size) :: ps, last)
        | none => none

/-- Panels of one operand as they stand in a ring: none where one is malformed. -/
def State.readPanels (s : State) (core : Nat) (w : Word) (x : Elem) (sparse : Bool) : List (Nat × Nat) → Option (List Panel)
  | [] => some []
  | (o, size) :: rest =>
    match readPanel x sparse (s.ringBytes core w o size), State.readPanels s core w x sparse rest with
    | some p, some ps => some (p :: ps)
    | _, _ => none

/-- Whether a word of the panels that a job reads, each given by its first slot and size, carries poison (R357). -/
def State.ringPoisoned (s : State) (core : Nat) (w : Word) (places : List (Nat × Nat)) : Bool :=
  places.any fun p => (List.range ((p.2 + 7) / 8)).any fun i =>
    s.poisoned (lmAddr core (ringSlotAt w (ringHead w) (p.1 + 8 * i / ringSlotSize w) + 8 * i % ringSlotSize w)) 8

/-! ### Dispatch (R192, R197, R289) -/

/-- Charge of a job, in microwatts at 1.00 GHz (R192). -/
def JobKind.charge : JobKind → Nat
  | .mma _ pair _ _ _ => if pair ≤ 1 then 16000 else if pair = 10 ∨ pair = 13 then 28000 else 26000
  | .mzero _ => 0
  | .mst _ _ _ => 2000
  | .mldt _ _ _ => 2000

/-- Descriptors that a job snapshots at dispatch (R289, R297). -/
def Core.snapshot (c : Core) (k : JobKind) : List Word :=
  match k with
  | .mma _ _ desc _ _ => [c.ring (descA desc), c.ring (descB desc)]
  | .mldt _ _ q => [c.ring q]
  | _ => []

/-- Whether the rings of a job let it run: filled for MMA, room for MLDT; an invalid ring holds nothing back, since it ends the job (R289, R297). -/
def State.ringsReady (s : State) (core : Nat) (k : JobKind) : Bool :=
  let c := s.core core
  match k with
  | .mma sparse pair desc _ _ =>
    let wa := c.ring (descA desc)
    let wb := c.ring (descB desc)
    !(c.ringValid wa) || !(c.ringValid wb) ||
    ((s.panelPlaces core wa (pairElems pair).1 sparse 0 (descK desc)).isSome && (s.panelPlaces core wb (pairElems pair).2 sparse 0 (descK desc)).isSome)
  | .mldt _ _ q => !(c.ringValid (c.ring q)) || decide (slotsFor (c.ring q) 1024 ≤ ringFree (c.ring q))
  | _ => true

/-- Whether the oldest job of a core waits for the engine alone: it is not running, its partition runs (R351), its rings are ready, and Isobar admits it. -/
def State.jobWaits (s : State) (core : Nat) : Bool :=
  match (s.core core).jobs with
  | [] => false
  | j :: _ => !j.running && s.partRuns j.part && s.ringsReady core j.kind && s.admits j.part (tileOf core) j.kind.charge

/-- Whether the oldest job of a core waits for headroom alone (R192). -/
def State.jobStarved (s : State) (core : Nat) : Bool :=
  match (s.core core).jobs with
  | [] => false
  | j :: _ => !j.running && s.partRuns j.part && s.ringsReady core j.kind && !(s.admits j.part (tileOf core) j.kind.charge)

/-- Notes whether the oldest job of a core waits for headroom, and since when (R193). -/
def Core.noteJob (c : Core) (now : Nat) (job : Bool) : Core :=
  { c with jobs := match c.jobs with
      | [] => []
      | j :: js => { j with waitedFrom := noteWait now job j.waitedFrom } :: js }

/-- JOB_DISPATCH (R192, R197, R289): the oldest job of a core is admitted, takes its snapshot and runs, or begins to wait for headroom (R193). -/
def execJobDispatch (core : Nat) (s : State) : Answer :=
  let cl := clusterOf core
  let rr := s.rrJobs.getD cl (7, 7)
  .next (if nextTurn cl rr.1 s.jobWaits ≠ some core then
      (if s.jobStarved core then s.onCore core fun c => c.noteJob (s.gtrOf sDie) true else s)
    else match (s.core core).jobs with
      | [] => s
      | j :: rest =>
        let s := { s with rrJobs := s.rrJobs.set cl (core % 8, rr.2) }
        let charge := s.chargeOf j.part (tileOf core) j.kind.charge
        (s.takeCharge charge).onCore core fun c =>
          let c := { c with jobs := { j with running := true, snap := c.snapshot j.kind, charge := some charge } :: rest }
          match j.id with
          | some id => c.setStatus id (statusWord id 2 0 false)
          | none => c)

/-! ### Retirement (R289, R294, R296, R297) -/

/-- What a job ends with: a status code, flags and SAT; or poison that it read (R357). -/
inductive JobEnd where
  | status (code : Nat) (flags : FpFlags) (sat : Bool)
  | poisoned
  deriving DecidableEq, Repr

/-- Pops slots of a ring: HEAD as it stands rises, and the freed slots are units of the ring (R200, R289). -/
def State.popRing (s : State) (core q n : Nat) : State :=
  let w := (s.core core).ring q
  (s.setRing core q (withHead w (ringHead w + n))).unitsFreed (.ring core q) n

/-- The LM as a job sees it (R299): the words that it has read ahead as it read them, and all else as it stands. -/
def State.viewOf (s : State) (j : Job) : State :=
  { s with
    mem := j.ahead.foldl (fun (m : Memory) x => m.writeNat x.1 8 x.2.toNat) s.mem
    poison := s.poison.filter fun w => !(j.ahead.any fun x => x.1 == w) }

/-- MMA and MMASP at retirement (R289); `v` is the state as the job reads it. -/
def State.runMma (s v : State) (core : Nat) (sparse : Bool) (pair : Nat) (desc opts scale : Word) (wa wb : Word) : JobEnd × State :=
  let c := s.core core
  let x := pairElems pair
  let t := descAcc desc
  if !(c.ringValid wa) || !(c.ringValid wb) then (.status 6 0 false, s)
  else if !opts.getLsbD 0 && c.kind t != 0 && c.kind t != pairKind pair then (.status 5 0 false, s)
  else match v.panelPlaces core wa x.1 sparse 0 (descK desc), v.panelPlaces core wb x.2 sparse 0 (descK desc) with
    | some (pa, na), some (pb, nb) =>
      if v.ringPoisoned core wa pa || v.ringPoisoned core wb pb then (.poisoned, s)
      else match v.readPanels core wa x.1 sparse pa, v.readPanels core wb x.2 sparse pb with
        | some as, some bs =>
          let r := accumulate x.1 x.2 (if opts.getLsbD 0 then (List.range 256).map fun _ => 0 else c.tile t) (as.zip bs)
          let s := s.onCore core fun c =>
            { c.setTile t r.1 with kinds := c.kinds.set t (pairKind pair), scales := c.scales.set t scale }
          let s := if opts.getLsbD 1 then s else s.popRing core (descA desc) na
          (.status 3 r.2.1 r.2.2, if opts.getLsbD 2 then s else s.popRing core (descB desc) nb)
        | _, _ => (.status 4 0 false, s)
    | _, _ => (.status 4 0 false, s)

/-- An engine write of an LM word, with its full bit, in one port step (R113). -/
def State.engineWrite (s : State) (a v : Nat) : State :=
  let core := (lmCore? a).getD 0
  (s.lmWrite core ((a - globalBase) % 0x8000) 8 v).setFullServe a true

/-- Values of a tile's entries as MST writes them, with their flags (R295). -/
def Core.mstValues (c : Core) (opts : Word) (tile : Nat) : List (Nat × FpFlags) :=
  match mstFormat (bitsOf opts 0 8) with
  | none => []
  | some (fmt, _) => (c.tile tile).map fun x => mstValue fmt (c.scale tile) (c.kind tile) x

/-- The words that MST writes, by address, row by row (R295, R296). -/
def Core.mstWords (c : Core) (addr : Nat) (opts : Word) (tile : Nat) : List (Nat × Nat) :=
  match mstFormat (bitsOf opts 0 8) with
  | none => []
  | some (_, size) =>
    let vals := c.mstValues opts tile
    let per := 8 / size
    (List.range 16).flatMap fun i => (List.range (2 * size)).map fun k =>
      (addr + i * optStride opts + 8 * k, ((List.range per).map fun j => (vals.getD (i * 16 + k * per + j) (0, 0)).1 * 2 ^ (8 * size * j)).sum)

/-- Offsets of the four source elements of a word that MLDT writes: of column x / 4, rows 4 · (x mod 4) on (R297). -/
def mldtSources (opts : Word) (x : Nat) : List Nat := (List.range 4).map fun j => mldtOffset opts (4 * (x % 4) + j) (x / 4)

/-- The words that MLDT writes, by address, from the sources as the job reads them; `w` is the snapshot of its ring (R297). -/
def State.mldtWords (v : State) (core addr : Nat) (opts w : Word) : List (Nat × Nat) :=
  let place (x : Nat) : Nat := ringSlotAt w (ringTail w) (x / ringSlotSize w) + x % ringSlotSize w
  (List.range 64).map fun x =>
    (lmAddr core (place (x / 4 * 64 + 32 * bitsOf opts 0 1 + 8 * (x % 4))),
     (((mldtSources opts x).map fun o => v.mem.readNat (addr + o) 2).zipIdx.map fun y => y.1 * 2 ^ (16 * y.2)).sum)

/-- The LM words that a running job writes, by address (R113); none where it ends with no write. -/
def State.jobWords (s : State) (core : Nat) (j : Job) : List (Nat × Nat) :=
  match j.kind with
  | .mst addr opts t => (s.core core).mstWords addr.toNat opts t
  | .mldt addr opts _ =>
    let w := j.snap.getD 0 0
    if (s.core core).ringValid w then (s.viewOf j).mldtWords core addr.toNat opts w else []
  | _ => []

/-- The words of a job that are not written yet, at its end. -/
def State.writeRest (s : State) (core : Nat) (j : Job) : State :=
  ((s.jobWords core j).zipIdx.filter fun x => !(j.put.contains x.2)).foldl (fun s x => s.engineWrite x.1.1 x.1.2) s

/-- MST at its turn (R295, R296). -/
def State.runMst (s : State) (core : Nat) (j : Job) (opts : Word) (tile : Nat) : JobEnd × State :=
  (.status 3 (((s.core core).mstValues opts tile).foldl (fun f x => f ||| x.2) 0) false, s.writeRest core j)

/-- MLDT at its turn (R297). -/
def State.runMldt (s : State) (core : Nat) (j : Job) (addr : Nat) (opts : Word) (q : Nat) : JobEnd × State :=
  let w := j.snap.getD 0 0
  if !((s.core core).ringValid w) then (.status 6 0 false, s)
  else if (mldtOffsets opts).any fun o => (s.viewOf j).poisoned (addr + o) 2 then (.poisoned, s)
  else
    let s := s.writeRest core j
    let cur := (s.core core).ring q
    (.status 3 0 false, if bitsOf opts 1 1 = 1 then s.setRing core q (withTail cur (ringTail cur + slotsFor w 1024)) else s)

/-- MZERO at retirement (R294). -/
def Core.zeroTile (c : Core) (tile : Nat) : Core :=
  { c with acc := c.acc.filter fun x => x.1 / 256 != tile, kinds := c.kinds.set tile 0 }

/-- In a deterministic partition an MLDT that appends is the producer of its ring in the phase, where none was before it: a SENDR or RST of another thread then raises RACE (R121, R301). -/
def State.producedBy (s : State) (core q : Nat) (j : Job) : State :=
  let me := (s.phaseOf j.part, j.launch.getD 0, j.tid.toNat % 2 ^ 32)
  match (s.core core).ringWriter.get q with
  | some x => if x.1 = me.1 then s else s.onCore core fun c => { c with ringWriter := c.ringWriter.set q me }
  | none => s.onCore core fun c => { c with ringWriter := c.ringWriter.set q me }

/-- What a running job does at retirement. An MLDT that has appended is the producer of its ring; one with ADV = 0, which leaves TAIL, is taken for none, which the spec leaves open
(log 57). -/
def State.runJob (s : State) (core : Nat) (j : Job) : JobEnd × State :=
  match j.kind with
  | .mma sparse pair desc opts scale => s.runMma (s.viewOf j) core sparse pair desc opts scale (j.snap.getD 0 0) (j.snap.getD 1 0)
  | .mzero t => (.status 3 0 false, s.onCore core fun c => c.zeroTile t)
  | .mst _ opts t => s.runMst core j opts t
  | .mldt addr opts q =>
    let (e, s) := s.runMldt core j addr.toNat opts q
    (e, if s.isDet j.part && bitsOf opts 1 1 == 1 && e == .status 3 0 false then s.producedBy core q j else s)

/-- A job that read poison charges MCHECK to its issuer's launch, or to a handler that is charged to none (R345, R357); a job of a launch that has been aborted charges nothing more
(R346). -/
def State.jobMachineCheck (s : State) (j : Job) : State :=
  let tid := if (s.ctx j.ctx).uid = j.uid then (s.ctx j.ctx).cr.tid else 0
  if j.disowned then s else s.chargeIssuer j.launch j.part j.ctx j.uid { kind := 13, tid := tid }

/-- A job leaves the queue: its charge ends (R192), its status is set, UNKNOWN where it read poison (R357), LAST names it, and JWAITs on it test again (R279, R289, R293). -/
def State.closeJob (s : State) (core : Nat) (j : Job) (e : JobEnd) : State :=
  let s := (s.lift j.charge).onCore core fun c =>
    let c := { c with jobs := c.jobs.drop 1 }
    match j.id, e with
    | some id, .status code fl sat => { c.setStatus id (statusWord id code fl sat) with last := BitVec.ofNat 16 id }
    | some id, .poisoned => { c.setStatus id 0 with last := BitVec.ofNat 16 id }
    | none, _ => c
  match j.id with
  | some id => s.wakeWhere fun x c => s.homeOf x == core && c.wait.job? == some id
  | none => s

/-- Footprints that only a job kept are let go, at its own core and, of an MLDT, at the one whose LM it read (R85, R297). -/
def State.jobPins (s : State) (core : Nat) (j : Job) : State :=
  let here := s.letPins j.part core
  match j.kind with
  | .mldt addr opts _ => here.letPins j.part ((lmCore? (addr.toNat + mldtLow opts)).getD core)
  | _ => here

/-- JOB_RETIRE (R85, R289): the running job of a core ends; footprints that only it kept are let go. -/
def execJobRetire (core : Nat) (s : State) : Answer :=
  .next (match (s.core core).jobs with
    | [] => s
    | j :: _ =>
      if !j.running then s
      else
        let (e, s) := if j.sick then (.poisoned, s) else s.runJob core j
        let s := s.closeJob core j e
        let s := if e = .poisoned then s.jobMachineCheck j else s
        (s.jobPins core j))

/-! ### Words of a running job, one by one (R113, R299) -/

/-- LM words that a running job reads: of its panels, or of its sources. -/
def State.operandWords (s : State) (core : Nat) (j : Job) : List Nat :=
  match j.kind with
  | .mma sparse pair desc _ _ =>
    let panels (w : Word) (x : Elem) : List Nat := match s.panelPlaces core w x sparse 0 (descK desc) with
      | some (ps, _) => ps.flatMap fun p => (List.range ((p.2 + 7) / 8)).map fun i =>
          lmAddr core (ringSlotAt w (ringHead w) (p.1 + 8 * i / ringSlotSize w) + 8 * i % ringSlotSize w)
      | none => []
    let x := pairElems pair
    panels (j.snap.getD 0 0) x.1 ++ panels (j.snap.getD 1 0) x.2
  | .mldt addr opts _ => (mldtOffsets opts).map fun o => wordOf (addr.toNat + o)
  | _ => []

/-- The running job of a core changed. -/
def State.onJob (s : State) (core : Nat) (f : Job → Job) : State :=
  s.onCore core fun c => { c with jobs := match c.jobs with
    | [] => []
    | j :: js => f j :: js }

/-- The running job of a core reads a word of its operands before it retires: it uses what it reads now (R299). -/
def State.jobRead (s : State) (core a : Nat) : State :=
  match (s.core core).jobs with
  | [] => s
  | j :: _ =>
    if j.running && (j.ahead.get a).isNone && ((s.viewOf j).operandWords core j).contains a then
      s.onJob core fun j => { j with ahead := j.ahead.set a (BitVec.ofNat 64 (s.mem.readNat a 8)), sick := j.sick || s.poisoned a 8 }
    else s

/-- The running job of a core writes one of the words it writes, by its place among them, before it retires (R113). A job that reads poison writes nothing, so one that writes has
read all of its operands before (R299, R357). -/
def State.jobWrite (s : State) (core i : Nat) : State :=
  match (s.core core).jobs with
  | [] => s
  | j :: _ =>
    if !j.running || j.put.contains i then s
    else
      let s := if j.put = [] then ((s.viewOf j).operandWords core j).foldl (fun (s : State) a => s.jobRead core a) s else s
      match (s.core core).jobs with
      | [] => s
      | j :: _ =>
        match (s.jobWords core j)[i]? with
        | some x => if j.sick then s else (s.engineWrite x.1 x.2).onJob core fun j => { j with put := i :: j.put }
        | none => s

end Sys2Proof.Machine
end

