-- ==== Sys2Proof/Machine/Energy.lean ====
section
/-!
DEFINITION. Isobar: power targets, estimates and C-die clocks (R191 to R194, R321, R369, R371), and the thermal clamps
and the trip (R370).
-/
namespace Sys2Proof.Machine

/-! ### Targets (R191, R321) -/

/-- Full-load power of one quadrant at 0.50 GHz, in microwatts: 3,400 W divided by 64 (R321). -/
def quadrantFloor : Nat := 53125000

/-- Quadrants of a partition on a tile (R10, R317). -/
def Part.quadrantsOn (q : Part) (tile : Nat) : Nat :=
  (([(0, 0), (64, 0), (0, 32), (64, 32)] : List (Nat × Nat)).filter fun d =>
    q.covers (tile % 4 * 128 + d.1) (tile / 4 * 64 + d.2)).length

/-- Whether a partition takes part in the division of the cap: it is not saved or ended (R321, R351). -/
def Part.holdsPower (q : Part) : Bool := q.st != .saved && q.st != .ended

/-- Sum of the weights of the running partitions (R321). -/
def State.weights (s : State) : Nat := ((s.parts.filter fun x => x.2.holdsPower).map fun x => x.2.weight).sum

/-- Dies of a tile: C-die, B-die and its two HBM logic dies (R11). -/
def tileDies (tile : Nat) : List Nat := [tile, 16 + tile, 32 + 2 * tile, 33 + 2 * tile]

/-- The highest sensor value of a die, in 1/16 °C. -/
def Die.hottest (d : Die) : Nat := (d.sensors.map Prod.snd).foldl Nat.max 0

/-- What is left of a target on a tile, in percent: 2 % less for each whole degree above 95 °C (R191). -/
def State.derating (s : State) (tile : Nat) : Nat :=
  let hot := (tileDies tile).foldl (fun m d => Nat.max m (s.die d).hottest) 0
  100 - 2 * ((hot - 95 * 16) / 16)

/-- Target of a partition on a tile at a cap in watts, in microwatts (R191, R321). -/
def State.targetOn (s : State) (cap : Nat) (q : Part) (tile : Nat) : Nat :=
  let n := q.quadrantsOn tile
  let floor := n * quadrantFloor
  let rest := (cap - 3400) * 1000000 * q.weight * n / (s.weights * (q.qw * q.qh))
  (floor + if q.holdsPower then rest else 0) * s.derating tile / 100

/-! ### Waiting for headroom (R193) -/


/-- The core at which the head thread of a launch waits for headroom alone: the one that its policy would choose with the headroom condition
left out (R193). -/
def State.starvedAt (s : State) (p : Nat) (q : Part) (l : Launch) : Option Nat :=
  match s.chosenCore p q l (s.candidate p l) with
  | some _ => none
  | none => s.chosenCore p q l (s.roomFor p l)

/-- Notes which open launches wait for headroom. -/
def State.noteLaunches (s : State) (now : Nat) : State :=
  s.parts.foldl (fun (s : State) x => x.2.openLaunches.foldl (fun (s : State) l =>
    s.onLaunch x.1 l.slot fun y => { y with waitedFrom := noteWait now (s.starvedAt x.1 x.2 l).isSome y.waitedFrom }) s) s

/-- Notes which work waits for headroom. -/
def State.noteWaits (s : State) : State :=
  let now := s.gtrOf sDie
  { s.noteLaunches now with cores := s.cores.map fun (x : Nat × Core) => (x.1, (x.2.noteJob now (s.jobStarved x.1)).noteCopies now (s.copyStarved x.1)) }


/-- Since when the work that waits for headroom on a die has waited (R193). -/
def State.waitsOn (s : State) (tile : Nat) : List Nat :=
  (s.parts.flatMap fun x => x.2.openLaunches.filterMap fun l =>
    match l.waitedFrom, s.starvedAt x.1 x.2 l with
    | some t, some core => if tileOf core = tile then some t else none
    | _, _ => none) ++
  s.cores.flatMap fun x =>
    if tileOf x.1 = tile then (x.2.jobs.filterMap fun j => j.waitedFrom) ++ x.2.copies.filterMap fun y => y.2.waitedFrom else []

/-- Whether some work on a die has waited for headroom for longer than a time (R193). -/
def State.waitedOver (s : State) (tile time : Nat) : Bool := (s.waitsOn tile).any fun t => decide (t + time < s.gtrOf sDie)

/-! ### Clocks (R193, R369, R371) -/

/-- One die changed. -/
def State.onDie (s : State) (d : Nat) (f : Die → Die) : State := { s with dies := s.dies.set d (f (s.die d)) }

/-- Lowers a C-die's clock by 25 MHz, down to 0.50 GHz. -/
def Die.slower (d : Die) : Die := { d with step := d.step - 1 }

/-- Whether any partition's estimate on a tile exceeds its target there (R369). -/
def State.overTarget (s : State) (tile : Nat) : Bool :=
  s.energy.any fun x => x.1 / 16 == tile && decide (x.2.target < x.2.estimate)

/-- Whether a clamp holds a C-die at 0.50 GHz: of a die of its tile or of the S-die (R370). -/
def State.isClamped (s : State) (tile : Nat) : Bool := (sDie :: tileDies tile).any fun d => (s.die d).clamped

/-- Sensor values that come with an estimate: key 256 + die * 16 + sensor (log 18). -/
def State.readSensors (s : State) (measured : List (Nat × Int)) : State :=
  measured.foldl (fun (s : State) m =>
    if 256 ≤ m.1 ∧ m.1 < 256 + 65 * 16 then
      s.onDie ((m.1 - 256) / 16) fun d => { d with sensors := d.sensors.set ((m.1 - 256) % 16) m.2.toNat }
    else s) s

/-- The measured value of a key; nothing measured is no power. -/
def measuredOf (m : List (Nat × Int)) (k : Nat) : Int := ((m.find? fun x => x.1 == k).map Prod.snd).getD 0

/-- Isobar's figures after an estimate: the target, what is measured, and no charge pending (R191). -/
def State.estimateOn (s : State) (cap : Nat) (measured : List (Nat × Int)) (p : Nat) (q : Part) (tile : Nat) : Energy :=
  { target := s.targetOn cap q tile, estimate := measuredOf measured (tile * 16 + p), pending := 0 }

/-- Estimates every partition on every tile where it has quadrants. -/
def State.estimateAll (s : State) (cap : Nat) (measured : List (Nat × Int)) : FMap Energy :=
  s.parts.foldl (fun m x => (List.range 16).foldl (fun m tile =>
    if x.2.quadrantsOn tile = 0 then m else FMap.set m (tile * 16 + x.1) (s.estimateOn cap measured x.1 x.2 tile)) m) []

/-- Whether a C-die's clock may rise (R193, R369, R370). -/
def State.mayRaise (s : State) (tile : Nat) : Bool :=
  !(s.waitedOver tile (10 * microsecond)) && !(s.overTarget tile) && !(s.isClamped tile) &&
  s.energy.all fun x => x.1 / 16 != tile || decide (40 * x.2.target < s.headroom (x.1 % 16) tile * 10)

/-- Notes the C-dies whose clocks may not rise now (R193). -/
def State.noteHot (s : State) : State :=
  (List.range 16).foldl (fun (s : State) t => if s.mayRaise t then s else s.onDie t fun d => { d with hotAt := s.gtrOf sDie }) s

/-- ISOBAR_ESTIMATE (R191, R193, R321, R369): 1 µs after the last estimate, with what the activity counters and sensors show. A cap that was set takes
effect, headroom is set anew, the clock of each die on whose tile an estimate exceeds its target falls by one step, and the work that waits for headroom is noted. -/
def execIsobarEstimate (measured : List (Nat × Int)) (s : State) : Answer :=
  .next (if s.mgmt.isobar = false ∨ s.gtrOf sDie < s.mgmt.lastEstimate + microsecond then s
    else
      let s := s.noteHot.readSensors measured
      let cap := s.mgmt.capNext
      let energy := s.estimateAll cap measured
      let total := (energy.map fun x => x.2.estimate).sum
      let s := { s with energy := energy, mgmt := { s.mgmt with cap := cap, lastEstimate := s.gtrOf sDie, powerEstimate := (total / 1000).toNat } }
      ((List.range 16).foldl (fun (s : State) t => if s.overTarget t then s.onDie t Die.slower else s) s).noteWaits.noteHot)

/-- WORK_AGED (R193): at an estimate at which work on a die has waited more than 100 µs for headroom, its clock falls by one step. -/
def execWorkAged (tile : Nat) (s : State) : Answer :=
  .next (if s.mgmt.isobar = true ∧ (s.die tile).lastAged ≠ s.mgmt.lastEstimate ∧ s.waitedOver tile (100 * microsecond) = true then
      s.onDie tile fun d => { d.slower with lastAged := s.mgmt.lastEstimate }
    else s)

/-- CLOCK_RAISE_CHECK (R193, R371): once in 10 µs, a die's clock rises by 25 MHz, up to 1.00 GHz, if all conditions hold, and have held throughout those 10 µs. -/
def execClockRaiseCheck (tile : Nat) (s : State) : Answer :=
  let now := s.gtrOf sDie
  .next (if s.mgmt.isobar = false ∨ 16 ≤ tile ∨ now < (s.die tile).lastRaise + 10 * microsecond then s
    else s.onDie tile fun d =>
      { d with
        lastRaise := now
        step := if s.mayRaise tile && decide (d.hotAt + 10 * microsecond ≤ now) then Nat.min 20 (d.step + 1) else d.step })

/-! ### Clamps (R370) -/

/-- A die is clamped: some C-dies go to 0.50 GHz at once. -/
def State.clamp (s : State) (die : Nat) (tiles : List Nat) : State :=
  tiles.foldl (fun s t => s.onDie t fun d => { d with step := 0 }) (s.onDie die fun d => { d with clamped := true })

/-- C_DIE_CLAMP (R370). -/
def execCDieClamp (tile degrees : Nat) (s : State) : Answer :=
  .next (if tile < 16 ∧ 105 ≤ degrees ∧ s.mgmt.main = true then s.clamp tile [tile] else s)

/-- Tile of a B-die or HBM logic die. -/
def baseTile (die : Nat) : Nat := if die < 32 then die - 16 else (die - 32) / 2

/-- BASE_DIE_CLAMP (R370): of a B-die or an HBM logic die. That the stacks' bandwidth is halved is timing (log 15). -/
def execBaseDieClamp (die degrees : Nat) (s : State) : Answer :=
  .next (if 16 ≤ die ∧ die < 64 ∧ 105 ≤ degrees ∧ s.mgmt.main = true then s.clamp die [baseTile die] else s)

/-- S_DIE_CLAMP (R370). That Zwion ports and the host-line store are slower is timing (log 15). -/
def execSDieClamp (degrees : Nat) (s : State) : Answer :=
  .next (if 105 ≤ degrees ∧ s.mgmt.main = true then s.clamp sDie (List.range 16) else s)

/-- CLAMP_LIFT (R370): every sensor of the die reads below 100 °C; the clock then rises under R193. -/
def execClampLift (die degrees : Nat) (s : State) : Answer :=
  .next (if degrees < 100 ∧ (s.die die).clamped = true then s.onDie die fun d => { d with clamped := false } else s)

/-! ### Losing Main (R368, R370, R375) -/

/-- What stays when Main is off: what Primrose and the S-die's service logic keep on Standby power and in fuses. Everything else is lost. -/
def State.powerOff (s : State) : State :=
  let m := s.mgmt
  { State.reset with
    agenda := s.agenda, nextUid := s.nextUid, free := s.free
    mgmt := { main := false, trip := m.trip, lifecycle := m.lifecycle, ownerKey := m.ownerKey, vendorRecorded := m.vendorRecorded
              wipePending := m.wipePending, minVersion := m.minVersion } }

/-- THERMAL_TRIP (R370): Main is disconnected, nothing is saved, and Primrose records the die. -/
def execThermalTrip (die degrees : Nat) (s : State) : Answer :=
  .next (if 110 ≤ degrees ∧ die < 65 ∧ s.mgmt.main = true then
      { s.powerOff with mgmt := { s.powerOff.mgmt with trip := some die } }
    else s)

/-- MAIN_UNDERVOLTAGE (R368): every die is held in reset until Main is back. -/
def execMainUndervoltage (s : State) : Answer := .next (if s.mgmt.main then s.powerOff else s)

/-- I3C_MAIN_OFF (R375). -/
def execI3cMainOff (s : State) : Answer := .next (if s.mgmt.main then s.powerOff else s)

end Sys2Proof.Machine
end

