-- ==== Sys2Proof/Machine/Time.lean ====
section
/-!
DEFINITION. How time passes (R34, R35, R195), and the exchanges that keep GTR together: of every die with the master (R148, R149), and of the master with a
source outside the module (R150, R340).
-/
namespace Sys2Proof.Machine

/-! ### Time (R34, R35, R195) -/

/-- A handler's count towards HLIMIT after a time: it runs unless it is suspended or waits for a page (R195, R349). -/
def Ctx.countTime (c : Ctx) (suspended : Bool) (units : Nat) : Ctx :=
  if c.st = .free ∨ c.st = .faultWaiting ∨ suspended = true then c else { c with hcount := c.hcount + units }

/-- What of a pending correction is slewed in while n units pass, at most 1/1,024 of the rate: the part done and the time left over (R148). -/
def slewed (pending : Int) (time n : Nat) : Int × Nat :=
  let k := Nat.min ((time + n) / 1024) pending.natAbs
  (if 0 ≤ pending then (k : Int) else -(k : Int), if k = pending.natAbs then 0 else (time + n) % 1024)

/-- Time between two exchanges, 8 µs (R148). -/
def exchangeTime : Nat := 8 * microsecond

/-- Lock after four exchanges in a row within 4 ns; lost after two in a row missed or outside. BOUND is 0x040 while locked, else what the die finds. -/
def Die.judge (d : Die) (good : Bool) (bound : BitVec 12) : Die :=
  let g := if good then Nat.min 4 (d.good + 1) else 0
  let m := if good then 0 else Nat.min 2 (d.missed + 1)
  let locked := if d.locked then decide (m < 2) else decide (4 ≤ g)
  { d with good := g, missed := m, locked := locked, bound := if locked then 0x040 else bound }

/-- An exchange that has not been made by the time the next one is due is missed (R148); of more than two, the last two say all. -/
def Die.overdue (d : Die) (now : Nat) : Die :=
  let k := (now - d.lastExchange) / exchangeTime - 1
  if k = 0 then d
  else
    let d := { d with lastExchange := d.lastExchange + k * exchangeTime }.judge false 0xFFF
    if k = 1 then d else d.judge false 0xFFF

/-- n units pass on a die: its cycles by its clock, and its replica (R34, R148). -/
def Die.pass (d : Die) (n rate : Nat) (master : Int) (now : Nat) : Die :=
  let x := slewed d.slew d.slewTime n
  { d with cycle := d.cycle + n * rate, offset := d.offset - master + x.1, slew := d.slew - x.1, slewTime := x.2 }.overdue now

/-- The rate of a die's clock, in 25 MHz: B-dies run at 1.25 GHz, C-dies at theirs (R4, R371). For the HBM logic dies the spec gives no rate; that they run at 1.00 GHz is the
model's choice, which nothing reads (log 63). -/
def State.rateOf (s : State) (d : Nat) : Nat := if 16 ≤ d ∧ d < 32 then 50 else 20 + (s.die d).step

/-- How far the master may move and leave every locked replica, where it stands and where it slews to, within 4 ns of it (R35): the least and the greatest move. -/
def State.masterRoom (s : State) : Int × Int :=
  s.dies.foldl (fun (r : Int × Int) x =>
    let d := x.2
    if d.locked then (max r.1 (max d.offset (d.offset + d.slew) - 64), min r.2 (min d.offset (d.offset + d.slew) + 64)) else r) (-(2 ^ 64 : Int), 2 ^ 64)

/-- What the master slews in while n units pass: like a replica's, and no faster than the locked replicas follow, so that what R35 says of two locked dies holds throughout;
the spec gives the master no rate (log 45). -/
def State.masterMoves (s : State) (n : Nat) : Int × Nat :=
  let x := slewed s.mgmt.slew s.mgmt.slewTime n
  let r := s.masterRoom
  let y := max (min 0 r.1) (min x.1 (max 0 r.2))
  (y, if y = x.1 then x.2 else 0)

/-- n units of GTR pass: the master and every replica advance, each die's cycles by its clock, and the counts of running handlers. A clock
that slews gains or loses on the others. The dies' clocks are nominal: that every die's cycles keep exactly to its rate in GTR time is the model's choice (log 63). -/
def State.pass (s : State) (n : Nat) : State :=
  let x := s.masterMoves n
  let now := ((s.gtr + n : Nat) + x.1 : Int).toNat
  { s with
    gtr := now
    mgmt := { s.mgmt with slew := s.mgmt.slew - x.1, slewTime := x.2 }
    dies := (List.range 65).foldl (fun m d => m.set d ((s.die d).pass n (s.rateOf d) x.1 now)) s.dies
    ctxs := s.ctxs.map fun x => if isHandler x.1 then (x.1, x.2.countTime (s.isSuspended x.1) (n * s.rateOf (tileOf (coreOf x.1)))) else x }

/-- n units of GTR pass. While Isobar runs, what waits for headroom as time goes on is noted, and so is every C-die on which a condition of R193 does not hold, before and after:
time passes nowhere else, so a condition that fails in between fails at one of the two. -/
def State.elapse (s : State) (n : Nat) : State := if s.mgmt.isobar then (s.noteHot.noteWaits.pass n).noteHot else s.pass n

/-! ### Exchanges (R148 to R150, R340) -/

/-- Whether a measured offset is within 4 ns (R148). -/
def inLock (m : Int) : Bool := decide (-64 ≤ m ∧ m ≤ 64)

/-- The replica's correction: its first exchange loads the master's value; until lock it steps forward; else it slews (R148). -/
def Die.correct (d : Die) (m : Int) : Die :=
  if !d.loaded then { d with loaded := true, offset := d.offset - m, slew := 0, slewTime := 0 }
  else if !d.locked && decide (m < 0) then { d with offset := d.offset - m, slew := 0, slewTime := 0 }
  else { d with slew := -m }


/-- Whether a two-way exchange can measure an offset: the path asymmetry is within the bound of 4 ns (R148). -/
def Die.canMeasure (d : Die) (m : Int) : Bool := inLock (m - d.offset)

/-- GTR_EXCHANGE (R35, R148, R149): a die measures its replica's offset from the master, in 1/16 ns, or misses the exchange. The exchange is good where the offset is within 4 ns as
measured and as it stands, both before this exchange's own correction: the spec leaves open whether before or after (log 57). -/
def execGtrExchange (die : Nat) (measured : Option Int) (bound : BitVec 12) (s : State) : Answer :=
  .next (if 65 ≤ die ∨ s.mgmt.main = false ∨ (s.die die).frosted = true ∨ s.gtr < (s.die die).lastExchange + exchangeTime then s
    else s.onDie die fun d =>
      let d := { d with lastExchange := s.gtr }
      match measured with
      | none => d.judge false bound
      | some m => if d.canMeasure m then (d.correct m).judge (inLock m && inLock (s.die die).offset) bound else s.die die)

/-- The master follows a source whose distance it has measured, by slewing (R148, R340). -/
def State.follow (s : State) (m : Int) : State := { s with mgmt := { s.mgmt with slew := -m, lastTime := s.gtr } }

/-- ZWION_TIME_EXCHANGE (R340): with Zwion port n as the source, every 8 µs. -/
def execZwionTimeExchange (port : Nat) (measured : Int) (s : State) : Answer :=
  .next (if s.mgmt.timeSource = 2 + port ∧ s.mgmt.lastTime + exchangeTime ≤ s.gtr then s.follow measured else s)

/-- PTM_TIME_EXCHANGE (R150, R340): with the host as the source. -/
def execPtmTimeExchange (measured : Int) (s : State) : Answer := .next (if s.mgmt.timeSource = 1 then s.follow measured else s)

end Sys2Proof.Machine
end

