-- ==== Sys2Proof/Machine/Wipes.lean ====
section
/-!
DEFINITION. Wiping (R324, R325), the mailbox that management commands go through (R373, R374), and the commands that only
report or set a value (R340, R369, R374).
-/
namespace Sys2Proof.Machine

/-! ### Wipes (R324) -/

/-- The core of a byte address of LM, among those a test names. -/
def inLmOf (test : Nat → Bool) (a : Nat) : Bool := match lmCore? a with
  | some c => test c
  | none => false

/-- What a core keeps through a wipe: its source id's sequence number (R358). -/
def Core.wiped (c : Core) : Core := { reqSeq := c.reqSeq }

/-- Whether a reserved turn is at a core that a test names. -/
def Res.atCore (test : Nat → Bool) : Res → Bool
  | .mailbox c _ => test c
  | .ring c _ => test c
  | .lmPort c => test c
  | .launchTable _ => false
  | .park _ => false

/-- Wipes cores and the routers of their clusters: LM words are 0 and full, and every other structure has its reset value (R324, R278). -/
def State.wipeCores (s : State) (test : Nat → Bool) : State :=
  { s with
    mem := s.mem.filter fun c => !(inLmOf test c.1)
    emptied := s.emptied.filter fun a => !(inLmOf test a)
    poison := s.poison.filter fun a => !(inLmOf test a)
    ctxs := s.ctxs.filter fun x => !(test (coreOf x.1))
    cores := s.cores.map fun (x : Nat × Core) => if test x.1 then (x.1, x.2.wiped) else x
    migFifo := s.migFifo.filter fun x => !(test (x.1 * 8))
    rrJobs := s.rrJobs.filter fun x => !(test (x.1 * 8))
    net := { s.net with
      waiters := s.net.waiters.filter fun w => !(inLmOf test w.addr)
      dew := s.net.dew.filter fun d => !(test (coreAt d.x d.y 0))
      squall := s.net.squall.filter fun e => !(test (coreAt e.x e.y 0))
      gamo := s.net.gamo.filter fun e => !(test (e.cluster * 8))
      claims := s.net.claims.filter fun c => !(test (c.res / 2 * 8)), served := s.net.served.filter fun x => !(test (x.1 / 2 * 8))
      turns := s.net.turns.filter fun t => !(t.res.atCore test) } }

/-- Removes a partition's tagged records from every slice, and sets its memory stamps to the LF of the wipe (R123, R324). -/
def State.wipeHomes (s : State) (p : Nat) : State :=
  { s with net := { s.net with
      recs := s.net.recs.filter fun r => r.part != p
      mstamps := s.net.mstamps.filter fun x => x.1 / 1024 / 2 ^ 40 != p
      mwiped := s.net.mwiped.set p (s.lf p sDie)
      mreturned := s.net.mreturned.filter fun x => x.1 / 1024 != p
      mexpiry := s.net.mexpiry.filter fun x => x.1 / 1024 / 2 ^ 52 != p, mparties := s.net.mparties.filter fun x => x.1 / 1024 / 2 ^ 52 != p
      waits := s.net.waits.filter fun w => w.part != p
      faults := s.net.faults.filter fun r => r.part != p
      trans := s.net.trans.filter fun t => t.part != p
      squall := s.net.squall.filter fun e => e.part != p
      dew := s.net.dew.filter fun d => d.body.part != p } }

/-- Whether a memory address lies in an HBM page of a partition (R313). -/
def State.pageOfPart (s : State) (p a : Nat) : Bool :=
  decide (a < selfBase) && match s.walk a with
  | .leaf e => bitsOf e 56 4 == p && bitsOf e 61 1 == 0
  | _ => false

/-- Whether a memory address lies in a page of a partition that is not present, with its data kept in HBM (R313, R316): where they stand, not the leaf, says so. -/
def State.keptOfPart (s : State) (p a : Nat) : Bool :=
  decide (a < selfBase) && (([3, 4] : List Nat).any fun l =>
    let e := s.pte.getD (pteKey l a) 0
    bitsOf e 63 1 == 0 && bitsOf e 53 3 == 1 && bitsOf e 56 4 == p && bitsOf ((s.pagePlace l a).getD e) 61 1 == 0)

/-- Writes zeros into every HBM page of a partition, present or not (R324); data of its pages that host memory keeps are no page's any more. -/
def State.wipePages (s : State) (p : Nat) : State :=
  let mine (a : Nat) : Bool := s.pageOfPart p a || s.keptOfPart p a
  { s with
    mem := s.mem.filter fun c => !(mine c.1), poison := s.poison.filter fun a => !(mine a)
    net := { s.net with places := s.net.places.filter fun x => bitsOf x.2 56 4 != p } }

/-- The whole-module wipe (R324): LM, routers, homes and HBM. -/
def State.wipeModule (s : State) : State :=
  let s := s.wipeCores fun _ => true
  { s with
    mem := [], emptied := [], poison := []
    net := { s.net with
      flights := [], lost := [], recs := [], mstamps := [], mwiped := (List.range 16).foldl (fun m p => m.set p (s.lf p sDie)) [], waits := []
      faults := [], trans := [], kept := [], mreturned := [], mexpiry := [], mparties := [], wanted := [], gathers := [], dispensers := [], turns := [], unwiped := [], places := [] }
    parts := [], domains := [], pte := [], energy := [], saved := [] }

/-! ### The mailbox (R373) -/

/-- Puts words into MBDATA from its first byte on. That each item of a command's input is one 8-byte word is the model's choice (log 40). -/
def Mgmt.put (m : Mgmt) (ws : List Word) : Mgmt := { m with mbdata := ws ++ m.mbdata.drop ws.length }

/-- Ends a command: BUSY is 0, CODE is set, and MBDATA holds the output (R373). -/
def State.mbEnd (s : State) (code : BitVec 7) (out : List Word) : State :=
  { s with mgmt := { s.mgmt.put out with busy := false, code := code, length := BitVec.ofNat 32 (8 * out.length) } }

/-- A GO with a command (R373): ignored while BUSY; CODE 2 before step 9, but for the commands that run at any time. -/
def State.command (s : State) (always : Bool) (input : List Word) (run : State → State) : State :=
  if !s.mgmt.main || s.mgmt.busy then s
  else
    let s := { s with mgmt := s.mgmt.put input }
    if s.mgmt.step != 9 && !always then s.mbEnd 2 [] else run s

/-- A number as a word of MBDATA. -/
def mbWord (n : Nat) : Word := BitVec.ofNat 64 n

/-! ### Reports and settings (R374) -/

/-- BOOTSTAT (R372). -/
def Mgmt.bootstat (m : Mgmt) : Word := BitVec.ofNat 64 (m.detail.toNat * 65536 + m.error.toNat * 256 + m.step.toNat)

/-- The highest value of sensor i on the dies of a tile (R191, R374). R374 does not index the 16 × 16 values of GET_STATUS: that they are tile by sensor number, over the tile's C-die, B-die
and HBM logic dies and without the S-die's, is the model's choice (log 40). -/
def State.sensorOn (s : State) (tile i : Nat) : Nat := (tileDies tile).foldl (fun m d => Nat.max m ((s.die d).sensors.getD i 0)) 0

/-- What GET_STATUS reports (R374): the cap is the one last set (R375). -/
def State.status (s : State) : List Word :=
  [s.mgmt.bootstat, mbWord s.mgmt.capNext, mbWord s.mgmt.powerEstimate] ++ (List.range 256).map fun k => mbWord (s.sensorOn (k / 16) (k % 16))

/-- GET_STATUS (R374). -/
def execGetStatus (s : State) : Answer := .next (s.command true [] fun s => s.mbEnd 0 s.status)

/-- The baseboard controller reads status over I3C: BOOTSTAT, the cap, the power estimate and the sensor values, also while Main is off (R375). -/
def State.i3cRead (s : State) : State := { s with mgmt := { s.mgmt with i3cData := s.status } }

/-- Management writes an 8-byte word of MBDATA without a command (R373). A write while a command is in progress is taken as well, which the spec leaves open (log 40). -/
def State.mailboxData (s : State) (i : Nat) (v : Word) : State :=
  if s.mgmt.main && decide (i < 512) then
    { s with mgmt := { s.mgmt with mbdata := s.mgmt.mbdata.take i ++ List.replicate (i - s.mgmt.mbdata.length) 0 ++ [v] ++ s.mgmt.mbdata.drop (i + 1) } }
  else s

/-- Whether a cap is allowed (R369). -/
def capAllowed (watts : Nat) : Bool := decide (4000 ≤ watts ∧ watts ≤ 7500)

/-- The cap that Isobar takes at its next estimate (R369). -/
def State.setCap (s : State) (watts : Nat) : State := { s with mgmt := { s.mgmt with capNext := watts } }

/-- SET_CAP (R369, R375): from the mailbox, or over I3C at any time. -/
def execSetCap (watts : Nat) (oob : Bool) (s : State) : Answer :=
  .next (if oob then (if capAllowed watts then s.setCap watts else s)
    else s.command false [mbWord watts] fun s => if capAllowed watts then (s.setCap watts).mbEnd 0 [] else s.mbEnd 1 [])

/-- GET_CLOCKS (R371, R374). -/
def execGetClocks (s : State) : Answer :=
  .next (s.command false [] fun s => s.mbEnd 0 ((List.range 16).map fun t => mbWord (s.die t).step))

/-- Bit of a cluster in the disable map: tile * 8,192 + y * 128 + x (R374). -/
def disableBit (cluster : Nat) : Nat := cluster / 8192 * 8192 + cluster % 64 * 128 + cluster % 8192 / 64

/-- READ_DISABLE_MAP (R374). -/
def execReadDisableMap (page : Nat) (s : State) : Answer :=
  .next (s.command false [mbWord page] fun s =>
    if 4 ≤ page then s.mbEnd 4 []
    else s.mbEnd 0 ((List.range 512).map fun w =>
      mbWord (((s.disabled.map disableBit).filter fun b => b / 64 == page * 512 + w).map fun b => 2 ^ (b % 64)).sum))

/-- READ_ERRORS (R356, R374). -/
def execReadErrors (s : State) : Answer :=
  .next (s.command true [] fun s => s.mbEnd 0 ((List.range 65).map fun d => mbWord (s.die d).errors))

/-- A record of the abort log as R347 lays it out. -/
def AbortRec.words (r : AbortRec) : List Word :=
  [mbWord (r.kind * 2 ^ 24 + (if r.noLaunch then 256 else 0) + r.slot), r.tid, r.pc, r.addr, r.val, mbWord r.gtr, 0, 0]

/-- READ_ABORT_LOG (R347, R374): the newest record first; a place never written is zero. -/
def execReadAbortLog (part : Nat) (s : State) : Answer :=
  .next (s.command false [mbWord part] fun s =>
    match s.parts.get part with
    | none => s.mbEnd 1 []
    | some q => s.mbEnd 0 ((q.aborts.flatMap AbortRec.words ++ List.replicate 512 0).take 512))

/-- TIME_SOURCE (R340). The numbers are the model's (log 40): 0 none, 1 host PTM, 2 + n Zwion port n. -/
def execTimeSource (source : Nat) (s : State) : Answer :=
  .next (s.command false [mbWord source] fun s =>
    if 10 ≤ source then s.mbEnd 4 []
    else ({ s with mgmt := { s.mgmt with timeSource := source, ext := source != 0, slew := 0, slewTime := 0, lastTime := s.gtr } }).mbEnd 0 [])

/-- UNKNOWN_OPCODE (R373, R374). -/
def execUnknownOpcode (opcode : BitVec 16) (s : State) : Answer :=
  let known : List Nat := [0x01, 0x02, 0x03, 0x04, 0x10, 0x11, 0x12, 0x13, 0x14, 0x15, 0x18, 0x19, 0x1A, 0x20, 0x21, 0x28, 0x30, 0x31, 0x38, 0x40, 0x41, 0x7F]
  .next (if known.contains opcode.toNat then s else s.command false [] fun s => s.mbEnd 3 [])

/-! ### The life cycle (R326, R327) -/

/-- The states by number. -/
def lifeCode : BitVec 2 → LifeCycle
  | 0 => .blank
  | 1 => .provisioned
  | 2 => .deployed
  | _ => .returned

/-- The state that each leaves to (R326). -/
def LifeCycle.after : LifeCycle → LifeCycle
  | .blank => .provisioned
  | .provisioned => .deployed
  | .deployed => .returned
  | .returned => .blank

/-- The words of a number of 512 bits, low word first. -/
def wideWords (x : BitVec 512) : List Word := (List.range 8).map fun i => x.extractLsb' (64 * i) 64

/-- The word of a request that stands for its signature: whether it is good. -/
def signedWord (signed : Bool) : Word := if signed then 1 else 0

/-- LIFECYCLE (R326): a request signed by the key of the current state, to the state it leaves to, starts the wipe; the new state takes effect with its end. -/
def execLifecycle (target : BitVec 2) (signed : Bool) (key : BitVec 512) (s : State) : Answer :=
  .next (s.command false (target.setWidth 64 :: wideWords key ++ [signedWord signed]) fun s =>
    if signed && s.mgmt.lifecycle.after == lifeCode target then
      { s with mgmt := { s.mgmt with busy := true, nextLife := some (lifeCode target, key), wipePending := true } }
    else s.mbEnd 1 [])

/-- A transition takes effect: leaving BLANK records the owner key's digest, going back to BLANK clears it (R326). -/
def Mgmt.enterLife (m : Mgmt) (t : LifeCycle) (key : BitVec 512) : Mgmt :=
  let m := { m with lifecycle := t, nextLife := none, wipePending := false }
  match t with
  | .provisioned => { m with ownerKey := key, vendorRecorded := true }
  | .blank => { m with ownerKey := 0, vendorRecorded := false }
  | _ => m

/-- RAISE_COUNTER (R327): the owner's signed request raises the minimum to the accepted image's version. -/
def execRaiseCounter (signed : Bool) (s : State) : Answer :=
  .next (s.command false [signedWord signed] fun s =>
    if signed then ({ s with mgmt := { s.mgmt with minVersion := Nat.max s.mgmt.minVersion s.mgmt.fwVersion } }).mbEnd 0 [] else s.mbEnd 1 [])

/-- A change of rights ends with its domain (R304, R308). -/
def State.endLost (s : State) : State :=
  if s.mgmt.busy && decide (2 ^ 20 ≤ s.mgmt.busyPart ∧ s.mgmt.busyPart < 2 ^ 21) && (s.domains.get (s.mgmt.busyPart - 2 ^ 20)).isNone then s.mbEnd 1 [] else s

/-- Whether another partition than p, one that is not saved, has a core: the quadrant was wiped when it joined that partition (R318, R324). -/
def State.coreElsewhere (s : State) (p core : Nat) : Bool := s.parts.any fun x => x.1 != p && x.2.st != .saved && x.2.coversCore core

/-- WIPE (R324 to R326): the wipe that a life-cycle transition waits for, or that of an ended partition whose launches are all off it; its number, quadrants and
domains are then free. Quadrants that another partition has taken since it was saved are not wiped again. -/
def execWipe (part : Nat) (s : State) : Answer :=
  .next (match s.mgmt.nextLife with
    | some (t, key) => ({ s.wipeModule with mgmt := s.mgmt.enterLife t key }).mbEnd 0 []
    | none =>
      match s.parts.get part with
      | none => s
      | some q =>
        if q.st = .ended ∧ q.launches = [] ∧ q.posts = [] then
          let s := (((s.wipeCores fun c => q.coversCore c && !(s.coreElsewhere part c)).wipeHomes part).wipeDue).wipePages part
          State.endLost { s with
            parts := s.parts.del part, domains := s.domains.filter fun d => d.2.part != part
            energy := s.energy.filter fun x => x.1 % 16 != part
            net := { s.net with flights := s.net.flights.filter fun f => f.part != part, lost := s.net.lost.filter fun f => f.part != part } }
        else s)

end Sys2Proof.Machine
end

