-- ==== Sys2Proof/Machine/Bringup.lean ====
section
/-!
DEFINITION. Bring-up (R371, R372): the steps 1 to 9 and what restarts them.
-/
namespace Sys2Proof.Machine

/-- A failure stops the sequence at the step in progress (R372). -/
def State.bootFails (s : State) (code : BitVec 8) (detail : Nat) : State :=
  { s with mgmt := { s.mgmt with error := code, detail := BitVec.ofNat 16 detail, stopped := true } }

/-- A step of the sequence: it runs only while it is the step in progress, and the next one begins when it has ended (R372). -/
def State.bootStep (s : State) (step : BitVec 4) (failure : Option (BitVec 8 × Nat)) (work : State → State) : State :=
  if !s.mgmt.main || s.mgmt.stopped || s.mgmt.step != step then s
  else match failure with
    | some (code, detail) => s.bootFails code detail
    | none =>
      let s := work s
      { s with mgmt := { s.mgmt with step := step + 1 } }

/-- A failure code with the number of what failed. -/
def failedAt (code : BitVec 8) (failed : Option Nat) : Option (BitVec 8 × Nat) := failed.map fun n => (code, n)

/-- PRIMROSE_SELF_TEST: step 1. -/
def execPrimroseSelfTest (good : Bool) (s : State) : Answer :=
  .next (s.bootStep 1 (if good then none else some (0x01, 0)) id)

/-- FIRMWARE_VERIFY: step 2 (R327), with the image (its version and bytes) and whether its signature is good. -/
def execFirmwareVerify (signed : Bool) (image : Nat × List Byte) (s : State) : Answer :=
  .next (s.bootStep 2 (if !signed then some (0x02, 0) else if image.1 < s.mgmt.minVersion then some (0x03, 0) else none)
    fun s => { s with mgmt := { s.mgmt with fwVersion := image.1, fwImage := image.2 } })

/-- STEWARD_START: step 3. -/
def execStewardStart (failed : Option Nat) (s : State) : Answer := .next (s.bootStep 3 (failedAt 0x04 failed) id)

/-- HBM_TRAINING: step 4. -/
def execHbmTraining (failed : Option Nat) (s : State) : Answer := .next (s.bootStep 4 (failedAt 0x05 failed) id)

/-- The first tile with more than 128 clusters disabled (R1). -/
def overDisabled (clusters : List Nat) : Option Nat :=
  (List.range 16).find? fun t => decide (128 < (clusters.filter fun c => c / 8192 == t).length)

/-- DISABLE_MAP_LOAD: step 5 (R1). -/
def execDisableMapLoad (clusters : List Nat) (s : State) : Answer :=
  let list := (clusters.filter fun c => decide (c < 131072)).eraseDups
  .next (s.bootStep 5 (failedAt 0x06 (overDisabled list)) fun s => { s with disabled := list })

/-- MODULE_WIPE: step 6; a life-cycle wipe left pending is completed here (R324, R326). -/
def execModuleWipe (failed : Option Nat) (s : State) : Answer :=
  .next (s.bootStep 6 (failedAt 0x07 failed) fun s =>
    { s.wipeModule with mgmt := { s.mgmt with wipePending := false } })

/-- GTR_INITIAL_LOCK: step 7; every replica loads the master and locks (R148). -/
def execGtrInitialLock (failed : Option Nat) (s : State) : Answer :=
  .next (s.bootStep 7 (failedAt 0x08 failed) fun s =>
    (List.range 65).foldl (fun (s : State) d => s.onDie d fun x =>
      { x with offset := 0, slew := 0, slewTime := 0, loaded := true, locked := true, good := 4, missed := 0, bound := 0x040, lastExchange := s.gtr }) s)

/-- ISOBAR_START: step 8. The step has ended when READY begins. -/
def execIsobarStart (good : Bool) (s : State) : Answer :=
  .next (if !s.mgmt.main || s.mgmt.stopped || s.mgmt.step != 8 || s.mgmt.isobar then s
    else if good then { s with mgmt := { s.mgmt with isobar := true, cap := s.mgmt.capNext, lastEstimate := s.gtrOf sDie } }
    else s.bootFails 0x09 0)

/-- READY: step 9 begins once Isobar has started. -/
def execReady (s : State) : Answer := .next (if s.mgmt.isobar then s.bootStep 8 none id else s)

/-- A die that is reset while Main stays on: the sensors read on, and a clamp stands until they lift it (R370). -/
def Die.restarted (d : Die) (held : Bool) : Die := { sensors := d.sensors, clamped := d.clamped, step := if held then 0 else 20 }

/-- The sequence from step 1 on, with the cap last set; everything that Main carries is reset (R368, R372), and clamps stand (R370). -/
def State.restart (s : State) : State :=
  { s.powerOff with
    dies := s.dies.map fun (x : Nat × Die) => (x.1, x.2.restarted (decide (x.1 < 16) && s.isClamped x.1))
    mgmt := { s.powerOff.mgmt with main := true, cap := s.mgmt.cap, capNext := s.mgmt.capNext, trip := s.mgmt.trip } }

/-- MAIN_POWER_ON (R368, R370, R372): a trip recorded before this boot is reported and does not stop it. -/
def execMainPowerOn (s : State) : Answer :=
  .next (if s.mgmt.main then s
    else
      let s := s.restart
      match s.mgmt.trip with
      | some die => { s with mgmt := { s.mgmt with error := 0x0A, detail := BitVec.ofNat 16 die, trip := none } }
      | none => s)

/-- CXL_HOT_RESET (R372). -/
def execCxlHotReset (s : State) : Answer := .next (if s.mgmt.main then s.restart else s)

/-- RESET (R372, R374, R375): from the mailbox, or over I3C at any time. -/
def execReset (oob : Bool) (s : State) : Answer :=
  .next (if oob then (if s.mgmt.main then s.restart else s) else s.command false [] State.restart)

end Sys2Proof.Machine
end

