-- ==== Sys2Proof/Machine/Domains.lean ====
section
/-!
DEFINITION. Protection domains and their rights tables (R304 to R308), region maps (R309 to R311) and the steward's writes of the page table (R312 to
R316).
-/
namespace Sys2Proof.Machine

/-! ### Domains (R304) -/

/-- The lowest id from 1 on that names no active domain. -/
def State.freeDomain (s : State) : Option Nat := ((List.range 4097).map (· + 1)).find? fun i => (s.domains.get i).isNone

/-- Whether an owner may own a domain of a partition: the physical function, or a VF bound to it (R304, R323). -/
def Part.mayOwn (q : Part) : Option Nat → Bool
  | none => true
  | some v => q.vfs.contains v

/-- An owner as a command names it: 0 the physical function, 1 + n VF n. -/
def ownerWord (owner : Option Nat) : Word := match owner with
  | none => 0
  | some v => mbWord (v + 1)

/-- DOMAIN_CREATE (R304, R374): at most 4,096 domains are active; the output is the id. -/
def execDomainCreate (part : Nat) (owner : Option Nat) (s : State) : Answer :=
  .next (s.command false [ownerWord owner, mbWord part] fun s =>
    match s.parts.get part, s.freeDomain with
    | some q, some i =>
      if q.st ≠ .ended ∧ q.mayOwn owner = true ∧ s.domains.length < 4096 then
        ({ s with domains := s.domains.set i { part := part, owner := owner } }).mbEnd 0 [mbWord i]
      else s.mbEnd 1 []
    | _, _ => s.mbEnd 1 [])

/-- DOMAIN_RETIRE (R304, R374). What cores hold of the domain stays: PLB entries and contexts that name it go on, also for a domain that gets its id later. The spec is silent on
them, and that is the model's choice (log 41). -/
def execDomainRetire (id : Nat) (s : State) : Answer :=
  .next (s.command false [mbWord id] fun s =>
    if (s.domains.get id).isSome then ({ s with domains := s.domains.del id }).mbEnd 0 [] else s.mbEnd 1 [])

/-! ### Rights tables (R306, R308) -/

/-- An entry from its two words (R306). -/
def rightsOf (w0 w1 : Word) : RightsEntry :=
  { base := bitsOf w0 16 40 * 65536, log2size := bitsOf w1 0 6, attr := bitsOf w1 10 2
    p := w1.getLsbD 9, x := w1.getLsbD 8, w := w1.getLsbD 7, r := w1.getLsbD 6 }

/-- Whether the words of an entry in use are as R306 lays them out. -/
def rightsFormed (w0 w1 : Word) : Bool :=
  let n := bitsOf w1 0 6
  bitsOf w0 56 8 == 0 && bitsOf w0 0 16 == 0 && bitsOf w1 13 51 == 0 && decide (16 ≤ n ∧ n ≤ 55) && decide (bitsOf w0 16 40 * 65536 % 2 ^ n = 0)

/-- Whether two ranges with sizes that are powers of two overlap. -/
def rangesMeet (a n b m : Nat) : Bool := overlaps a (2 ^ n) b (2 ^ m)

/-- Cores of the contexts whose accesses a flight carries, with the domain under which each was checked: those of its parts, for a combined GAMO (R210, R308). -/
def Flight.checks (f : Flight) : List (Nat × Nat) :=
  let parts (xs : List GamoPart) : List (Nat × Nat) := if xs = [] then [(coreOf f.ctx, f.domain)] else xs.map fun x => (coreOf x.ctx, x.domain)
  match f.kind with
  | .store q => if q.parked then [] else [(coreOf f.ctx, f.domain)]
  | .atomic q => if q.parked then [] else parts q.parts
  | .atomicResult q _ => parts q.parts
  | _ => if f.accessed.isSome then [(coreOf f.ctx, f.domain)] else []

/-- Cores and domains of the accesses that have neither performed nor been parked at their homes (R308). -/
def State.checks (s : State) : List (Nat × Nat) :=
  (s.net.flights ++ s.net.lost).flatMap Flight.checks ++ s.net.gamo.flatMap fun e => e.parts.map fun x => (coreOf x.ctx, x.domain)

/-- Whether an access of a core that was checked under a domain has neither performed nor been parked at its home (R308). -/
def State.underDomain (s : State) (core d : Nat) : Bool := s.checks.contains (core, d)

/-- Cores that hold entries of a domain, or accesses checked under it (R307, R308). -/
def State.rightsCores (s : State) (d : Nat) : List Nat :=
  ((s.cores.map Prod.fst).filter (fun k => (s.core k).plb.any fun e => e.1 == d) ++ (s.checks.filter fun x => x.2 == d).map Prod.fst).eraseDups

/-- The number by which the mailbox is BUSY for a change of a domain's rights. -/
def rightsBusy (d : Nat) : Nat := 2 ^ 20 + d

/-- A domain's rights table is written; the command ends once every core has acknowledged the purge (R308). -/
def State.writeRights (s : State) (id : Nat) (d : Domain) (t : FMap RightsEntry) : State :=
  match s.rightsCores id with
  | [] => ({ s with domains := s.domains.set id { d with rights := t, shown := t } }).mbEnd 0 []
  | cores =>
    { s with
      domains := s.domains.set id { d with rights := t, purging := cores }
      mgmt := { s.mgmt with busy := true, busyPart := rightsBusy id } }

/-- A load of a range, or its answer on the way back, leaves no copy of a read-only region behind (R125). -/
def Flight.uncopied (f : Flight) (p a n : Nat) : Flight :=
  let inRange (q : LoadReq) : Bool := f.part == p && overlaps a (2 ^ n) (lineOf q.addr) 256
  match f.kind with
  | .load q => if inRange q then { f with kind := .load { q with ro := false } } else f
  | .loadReply q (.copy x atHome hop give) => if inRange q then { f with kind := .loadReply { q with ro := false } (.copy x atHome hop (give && !q.ro)) } else f
  | _ => f

/-- Drops every line of a range from every cache region and dew store of a partition (R125), and what would bring one. -/
def State.dropLines (s : State) (p a n : Nat) : State :=
  let stays (l : CopyLine) : Bool := !(l.part == p && overlaps a (2 ^ n) l.line 256)
  let bare (f : Flight) : Flight := f.uncopied p a n
  let s := { s with
    cores := s.cores.map fun (c : Nat × Core) => (c.1, { c.2 with cache := c.2.cache.filter stays })
    saved := s.saved.map fun (x : Nat × SavedCore) => (x.1, { x.2 with replay := x.2.replay.map bare })
    net := { s.net with dew := s.net.dew.filter (fun d => stays d.body), flights := s.net.flights.map bare, lost := s.net.lost.map bare } }
  s.onPart p fun q => { q with later := q.later.map fun (x : Nat × Flight) => (x.1, bare x.2) }

/-- Whether an entry gives a right to write where the domain had none: the region may have been read-only until now (R125; log 19). -/
def Domain.givesWrite (d : Domain) (e : RightsEntry) : Bool :=
  e.w && !(d.rights.any fun x => x.2.w && decide (x.2.base ≤ e.base) && decide (e.base + 2 ^ e.log2size ≤ x.2.base + 2 ^ x.2.log2size))

/-- A table with one entry, of an index and its two words, written or taken out (R306). -/
def entryWritten (t : FMap RightsEntry) (x : Nat × Word × Word) : FMap RightsEntry :=
  if x.2.2.getLsbD 12 then t.set x.1 (rightsOf x.2.1 x.2.2) else t.del x.1

/-- Whether some two entries of a table overlap (R306). -/
def tableOverlaps (t : FMap RightsEntry) : Bool := t.any fun x => t.any fun y => x.1 != y.1 && rangesMeet x.2.base x.2.log2size y.2.base y.2.log2size

/-- RIGHTS_WRITE (R306, R308, R374): entries of a domain's table, each written or taken out. A write that would make entries overlap is refused. Before one makes a
read-only region writable, every line of its range is dropped (R125). -/
def execRightsWrite (id : Nat) (index : List Nat) (word0 word1 : List Word) (s : State) : Answer :=
  let entries := index.zip (word0.zip word1)
  .next (s.command false (mbWord id :: entries.flatMap fun x => [mbWord x.1, x.2.1, x.2.2]) fun s =>
    match s.domains.get id with
    | none => s.mbEnd 1 []
    | some d =>
      let t := entries.foldl entryWritten d.rights
      if entries.any fun x => decide (256 ≤ x.1) || x.2.2.getLsbD 12 && !(rightsFormed x.2.1 x.2.2) then s.mbEnd 4 []
      else if tableOverlaps t then s.mbEnd 1 []
      else
        let given := (entries.filter fun x => x.2.2.getLsbD 12).map fun x => rightsOf x.2.1 x.2.2
        ((given.filter d.givesWrite).foldl (fun (s : State) e => s.dropLines d.part e.base e.log2size) s).writeRights id d t)

/-- A core's acknowledgement of a rights purge; with the last one the change is complete, and the command that made it ends (R308). -/
def State.ackRights (s : State) (core domain : Nat) : State :=
  match s.domains.get domain with
  | none => s
  | some d =>
    if !(d.purging.contains core) || s.underDomain core domain then s
    else match d.purging.filter (· != core) with
      | [] =>
        let s := { s with domains := s.domains.set domain { d with purging := [], shown := d.rights } }
        if s.mgmt.busy && s.mgmt.busyPart == rightsBusy domain then s.mbEnd 0 [] else s
      | rest => { s with domains := s.domains.set domain { d with purging := rest } }

/-- RIGHTS_PURGE (R308): a core drops every PLB entry of a domain, and acknowledges once what it checked under them has performed or is parked. -/
def execRightsPurge (core domain : Nat) (s : State) : Answer :=
  .next ((s.onCore core fun k => { k with plb := k.plb.filter fun e => e.1 != domain }).ackRights core domain)

/-! ### Region maps (R309, R311) -/

/-- An entry from its two words (R309). -/
def regionOf (w0 w1 : Word) : RegionEntry :=
  { base := bitsOf w0 25 31 * 2 ^ 25, log2size := bitsOf w1 20 6, hash := bitsOf w1 18 2, gran := bitsOf w1 16 2
    tiles := w1.setWidth 16 }

/-- Whether the words of an entry in use are as R309 lays them out, for a partition. -/
def Part.regionFormed (q : Part) (w0 w1 : Word) : Bool :=
  let e := regionOf w0 w1
  bitsOf w0 56 8 == 0 && bitsOf w0 0 25 == 0 && bitsOf w1 27 37 == 0 && decide (25 ≤ e.log2size ∧ e.log2size ≤ 55) && decide (e.hash ≤ 1) &&
  decide (e.base % 2 ^ e.log2size = 0) && e.tiles != 0 && (List.range 16).all fun t => !(e.tiles.getLsbD t) || decide (0 < q.quadrantsOn t)

/-- Whether a page of a range is mapped to a partition, or not present with its data kept (R311, R313, R324). -/
def State.pagesMapped (s : State) (p a n : Nat) : Bool :=
  s.pte.any fun x =>
    let level := x.1 / 2 ^ 56
    (level == 4 || level == 3) && keepsData x.2 && bitsOf x.2 56 4 == p &&
    overlaps a (2 ^ n) (x.1 % 2 ^ 56 * 2 ^ levelShift level) (2 ^ levelShift level)

/-- Whether a line of a range is in a cache region, a dew store or a record of a partition (R311). -/
def State.linesKept (s : State) (p a n : Nat) : Bool :=
  let inside (l : Nat) : Bool := decide (a ≤ l) && decide (l < a + 2 ^ n)
  s.cores.any (fun c => c.2.cache.any fun l => l.part == p && inside l.line) ||
  s.net.dew.any (fun d => d.body.part == p && inside d.body.line) || s.net.recs.any fun r => r.part == p && inside r.line

/-- Whether an entry may be removed or changed (R311). -/
def State.regionIdle (s : State) (p : Nat) (e : RegionEntry) : Bool :=
  !(s.pagesMapped p e.base e.log2size) && !(s.unwipedIn e.base (2 ^ e.log2size)) && !(s.linesKept p e.base e.log2size)

/-- REGION_MAP_WRITE (R309, R311): a steward adds, changes or removes an entry, or refuses one that breaks a rule. -/
def execRegionMapWrite (part index : Nat) (word0 word1 : Word) (s : State) : Answer :=
  .next (match s.parts.get part with
    | none => s
    | some q =>
      let put (t : FMap RegionEntry) : State := s.onPart part fun q => { q with regions := t }
      let e := regionOf word0 word1
      let oldIdle := match q.regions.get index with
        | some x => s.regionIdle part x
        | none => true
      if 64 ≤ index ∨ oldIdle = false then s
      else if word1.getLsbD 26 = false then put (q.regions.del index)
      else if q.regionFormed word0 word1 && !(s.pagesMapped part e.base e.log2size) &&
          q.regions.all (fun x => x.1 == index || !(rangesMeet e.base e.log2size x.2.base x.2.log2size)) then
        put (q.regions.set index e)
      else s)

/-! ### The page table (R312 to R316) -/

/-- TRANSLATION_PURGE (R315): a slice drops its entry of a page. The last drop of a page that has been unmapped, or whose PART has changed, wipes it: its data were kept until
then (R324). -/
def execTranslationPurge (slice page : Nat) (s : State) : Answer :=
  .next (State.wipeDue { s with net := { s.net with trans := s.net.trans.filter fun t => !(t.slice == slice && t.page == page) } })

/-- Whether every physical lease of a page's lines has expired (R126, R316). -/
def State.leasesOver (s : State) (page large : Nat) : Bool :=
  (s.net.recs.all fun r => r.line / 65536 / large != page / large || r.sectors.all fun x => decide (x.2.expiry ≤ s.gtrOf (sliceDie r.slice))) &&
  s.net.mexpiry.all fun x => x.1 / 1024 % 2 ^ 52 / 1024 / large != page / large || decide (x.2 ≤ s.gtrOf (sliceDie (x.1 % 1024)))

/-- The host lines of a page in host memory. -/
def State.hostPageLines (s : State) (leaf : Word) (big : Bool) (a n : Nat) : List HostLine :=
  s.host.lines.filter fun l => decide (hostAddr leaf big a ≤ l.hpa) && decide (l.hpa < hostAddr leaf big a + n)

/-- Whether nothing is outstanding, or leased, of host lines (R316, R332). -/
def State.linesQuiet (s : State) (ls : List HostLine) : Bool :=
  ls.all fun l => l.pending == 0 && l.snoop.isNone && decide (l.expiry + 128 ≤ s.gtrOf sDie || l.expiry = 0)

/-- The copy engines bring a page from host memory (R316): the lines that the module holds as they are there, and the others as the host has them; what the host holds is the
model's input, by number of the line, and a line not named is zero. -/
def State.pullPage (s : State) (old : Word) (big : Bool) (a n : Nat) (data : List (Nat × BitVec 512)) : State :=
  let base := hostAddr old big a
  let ls := (s.hostPageLines old big a n).filter fun l => l.mesi != .i
  let isHeld (x : Nat) : Bool := ls.any fun l => l.hpa - base == x / 64 * 64
  let s := ls.foldl (fun (s : State) l => s.hostAt l (a + (l.hpa - base))) s
  let fresh (x : Nat) : Bool := decide (a ≤ x) && decide (x < a + n) && !(isHeld (x - a))
  let s := { s with
    mem := s.mem.filter fun c => !(fresh c.1), poison := s.poison.filter fun w => !(fresh w)
    host := { s.host with lines := s.host.lines.filter fun l => !(decide (base ≤ l.hpa) && decide (l.hpa < base + n)) } }
  data.foldl (fun (s : State) d => if 64 * d.1 < n ∧ isHeld (64 * d.1) = false then { s with mem := s.mem.writeNat (a + 64 * d.1) 64 d.2.toNat } else s) s

/-- They take a page to host memory (R316). -/
def State.pushPage (s : State) (leaf : Word) (big : Bool) (a n : Nat) : State :=
  let base := hostAddr leaf big a
  let t := { s with host := { s.host with lines := s.host.lines.filter fun l => !(decide (base ≤ l.hpa) && decide (l.hpa < base + n)) } }
  (List.range (n / 64)).foldl (fun (t : State) i => t.sendHost
    { addr := base + 64 * i, data := BitVec.ofNat 512 (s.mem.readNat (a + 64 * i) 64), poison := (List.range 8).any fun w => s.poison.contains (a + 64 * i + 8 * w) }) t

/-- The data of a page move from its old place to its new one (R316). -/
def State.movePage (s : State) (old leaf : Word) (big : Bool) (a n : Nat) (data : List (Nat × BitVec 512)) : State :=
  let s := if bitsOf old 61 1 = 1 then s.pullPage old big a n data else s
  if bitsOf leaf 61 1 = 1 then s.pushPage leaf big a n else s

/-- Whether nothing is outstanding of the lines of a page in host memory that its data leave or come to (R316). -/
def State.mayMove (s : State) (old leaf : Word) (big : Bool) (a n : Nat) : Bool :=
  (bitsOf old 61 1 == 0 || s.linesQuiet (s.hostPageLines old big a n)) && (bitsOf leaf 61 1 == 0 || s.linesQuiet (s.hostPageLines leaf big a n))

/-- PAGE_MIGRATION (R315, R316): a steward writes the leaf of a page, as the first and the last step of a migration: not present, and the new place once every slice has purged
the old one, the leases are over and the data have moved. With a valid leaf the fault records of the page close and its wake is sent. Without Main no steward writes (R368). -/
def execPageMigration (page : Nat) (large : Bool) (leafAndData : Word × List (Nat × BitVec 512)) (s : State) : Answer :=
  let leaf := leafAndData.1
  let data := leafAndData.2
  let k := if large then 512 else 1
  let level := if large then 3 else 4
  let n := 65536 * k
  let a := page / k * k * 65536
  let old := (s.pagePlace level a).getD 0
  .next (if s.mgmt.main = false ∨ s.mayWrite level page leaf = false ∨ (bitsOf leaf 63 1 = 1 ∧ s.leasesOver page k = false) ∨
        (bitsOf leaf 63 1 = 1 ∧ dataMoves old leaf = true ∧ s.mayMove old leaf large a n = false) then s
    else
      let s := (if bitsOf leaf 63 1 = 1 ∧ dataMoves old leaf = true then s.movePage old leaf large a n data else s).writeLeaf level page leaf
      let open_ := s.net.faults.filter fun r => r.page / k == page / k && r.part == bitsOf leaf 56 4
      if bitsOf leaf 62 2 = 3 then open_.foldl State.mapFault s else s)

end Sys2Proof.Machine
end

