-- ==== Sys2Proof/Machine/Recovery.lean ====
section
/-!
DEFINITION. Checks and retries (R356, R357), lost control messages and sequence numbers (R358, R359), and patrol (R356).
-/
namespace Sys2Proof.Machine

/-! ### Lost messages (R356 to R358) -/

/-- Takes a flight out of the list of lost ones. -/
def State.dropLost (s : State) (n : Nat) : State := { s with net := { s.net with lost := s.net.lost.eraseIdx n } }

/-- A control message is lost: its sender's timer runs on (R356, R358). -/
def State.lose (s : State) (n : Nat) (f : Flight) : State :=
  let s := s.dropFlight n
  { s with net := { s.net with lost := s.net.lost ++ [f] } }

/-- Poison of a whole copy. -/
def SecCopy.poisonAll (x : SecCopy) : SecCopy := { x with poison := 0xFF }

/-- What the second failure on a link does to a flight: a payload is poisoned; a control message is lost. A lost answer to a push counts as refused,
and waits and wakes are sent again by the re-poll (R146, R199, R356, R358). -/
def State.linkFails (s : State) (n : Nat) (f : Flight) : State :=
  match f.kind with
  | .loadReply q (.copy x h hop give) => s.putFlight n { f with kind := .loadReply q (.copy x.poisonAll h hop give) }
  | .push line sec x dest g => s.putFlight n { f with kind := .push line sec x.poisonAll dest g }
  | .store q => s.putFlight n { f with poison := if q.size ≤ 8 then 1 else 3 }
  | .msg _ _ => s.putFlight n { f with poison := 3 }
  | .lmWrite a (.feset full) rel sc => s.lose n { f with kind := .lmWrite a (.feset full) rel sc }
  | .lmWrite _ (.store size _) _ _ => s.putFlight n { f with poison := if size ≤ 8 then 1 else 3 }
  | .lmWrite _ (.sde _) _ _ => s.putFlight n { f with poison := 1 }
  | .feOffer a (.sde v _) acq => s.putFlight n { f with kind := .feOffer a (.sde v true) acq }
  | .pushAnswer g core _ => s.putFlight n { f with kind := .pushAnswer g core false }
  | .wait _ _ _ _ _ => s.dropFlight n
  | .wake _ _ _ _ _ => s.dropFlight n
  | .pushDue _ _ _ => s
  | _ => s.lose n f

/-- The die that counts an error on the way of a flight: that of the core it belongs to. -/
def Flight.countDie (f : Flight) : Nat := tileOf (coreOf f.ctx)

/-- Counts a corrected error (R356). -/
def State.countError (s : State) (die : Nat) : State := s.onDie die fun d => { d with errors := d.errors + 1 }

/-- LINK_CRC_RETRY (R356): a CRC error on a link that flight n passes; the retry succeeds, or fails as well. -/
def execLinkCrcRetry (n : Nat) (again : Bool) (s : State) : Answer :=
  .next (match s.flight? n with
    | some f => if again then s.linkFails n f else s.countError f.countDie
    | none => s)

/-! ### Timers (R358) -/

/-- The reply timer, 20 µs (R358). -/
def replyTimer : Nat := 20 * microsecond

/-- Sends a fetch by sequence number for a lost flight (R358, R359). -/
def State.fetchSeq (s : State) (n : Nat) (f : Flight) (source : Nat) : State :=
  let now := s.gtrOf f.countDie
  let s := { s with net := { s.net with lost := s.net.lost.set n { f with sentAt := now } } }
  s.sendFlight { f with kind := .seqFetch f.seq source, sentAt := now }

/-- Sends a lost request again, under its sequence number. -/
def State.resend (s : State) (n : Nat) (f : Flight) : State := (s.dropLost n).sendFlight { f with sentAt := s.gtrOf f.countDie }

/-- The answer to a message was lost: status 3 is written to g[d] (R358). -/
def State.lostAnswer (s : State) (f : Flight) (d : Nat) : State := if s.alive f then s.onCtx f.ctx fun c => c.takeStatus d 3 else s

/-- REPLY_TIMEOUT (R358): the timer of the request behind lost flight n expires. -/
def execReplyTimeout (n : Nat) (s : State) : Answer :=
  .next (match s.net.lost[n]? with
    | none => s
    | some f =>
      if s.gtrOf f.countDie < f.sentAt + replyTimer then s
      else match f.kind with
        | .load q => s.resend n { f with kind := .load { q with hop := 0 } }
        | .loadReply q _ => s.resend n { f with kind := .load { q with hop := 0 } }
        | .feOffer _ _ _ => s.resend n f
        | .purge _ _ => s.resend n f
        | .pushAck _ d r skipped =>
          let s := s.dropLost n
          if s.alive f then s.onCtx f.ctx fun c => c.pushLost d r skipped else s
        | .msg _ d => (s.dropLost n).lostAnswer f d
        | .msgAnswer _ d _ _ => (s.dropLost n).lostAnswer f d
        | .seqFetch _ _ => s.dropLost n
        | _ => s.fetchSeq n f (coreOf f.ctx))

/-! ### Fetching by sequence number (R359) -/

/-- The request that a lost flight stands for. -/
def FKind.request : FKind → FKind
  | .storeAck q _ => .store q
  | .atomicResult q _ => .atomic q
  | k => k

/-- Whether a flight is a LAUNCH or its status. -/
def Flight.launching (f : Flight) : Bool :=
  match f.kind with
  | .launchReq _ _ _ _ _ _ => true
  | .launchStatus _ _ => true
  | _ => false

/-- The memory address that a request is checked at, and whether it needs R and W (R307). -/
def FKind.needs : FKind → Option (Nat × Bool × Bool)
  | .load q => some (q.addr, true, false)
  | .store q => some (q.addr, false, true)
  | .atomic q => some (q.addr, true, true)
  | _ => none

/-- Whether a domain gives what a request needs (R307): an LM is no matter of rights tables. -/
def State.stillAllowed (s : State) (domain : Nat) (need : Nat × Bool × Bool) : Bool :=
  decide (globalBase ≤ need.1) || (s.rightsFor domain need.1).any fun e => (!need.2.1 || e.r) && (!need.2.2 || e.w)

/-- Takes PROT for a context whose instruction at PC − 4 is performed again and no longer has its right (R307, R348). -/
def State.protAgain (s : State) (f : Flight) (d : Option RegRef) (a : Nat) : State :=
  if s.alive f then
    let s := (s.leaveFifo f.ctx).onCtx f.ctx fun c => { c.arrivedMaybe d with st := .ready, wait := .none }
    s.trapLater f.ctx .prot (BitVec.ofNat 64 a) (BitVec.ofNat 64 a) ((s.ctx f.ctx).pc - 4)
  else s

/-- What becomes of a request that a restore sends again, and that the rights of now bar: PROT where a faulting instruction is performed again, else the launch aborts with KIND 4; a
prefetch does nothing. The spec leaves this open (log 65). -/
def State.barred (s : State) (f : Flight) (a : Nat) : State :=
  match f.kind with
  | .load q => if q.fmt = .pref then s else if q.fault ≠ 0 then s.protAgain f (q.fmt.target q.d) a else s.failFlight f 4 a
  | .atomic q =>
    if q.parts ≠ [] then q.parts.foldl (fun s x => s.failPart f x 4 a) s
    else if q.fault ≠ 0 then s.protAgain f (if q.d = 0 then none else some (.g q.d)) a else s.failFlight f 4 a
  | _ => s.failFlight f 4 a

/-- A request that a restore sends again is checked as it is issued again (R307, R308, R354): an access checked before a change of rights, but not performed, does not outlive it. -/
def State.sendChecked (s : State) (f : Flight) : State :=
  match f.kind.needs with
  | none => s.sendFlight f
  | some need => if s.stillAllowed f.domain need then s.sendFlight f else s.barred f need.1

/-- SEQ_FETCH (R359): the home, or the launch table, answers a fetch as performed, with the answer it keeps, or as not received, and the request is sent again. What an LM
port has performed is answered again. -/
def execSeqFetch (n : Nat) (s : State) : Answer :=
  .next (match s.flight? n with
    | some f => match f.kind with
      | .seqFetch seq source =>
        match s.net.lost.findIdx? fun g => g.ctx == f.ctx && g.uid == f.uid && g.seq == seq && (g.accessed.isSome || g.launching) with
        | none => s.dropFlight n
        | some i =>
          match s.net.lost[i]? with
          | none => s.dropFlight n
          | some g =>
            if g.launching then
              (s.dropFlight n).resend i { g with kind := (s.keptAnswer tableSlice source g).getD g.kind }
            else match s.homePoint g.part ((g.accessed).getD 0) with
            | .slice sl =>
              if s.refuses (sliceDie sl) (some g.sentAt) || s.net.returning.contains sl then s
              else
                let s := s.dropFlight n
                match s.keptAnswer sl source g with
                | some k => s.resend i { g with kind := k }
                | none =>
                  let g := { g with kind := g.kind.request }
                  if g.recheck then (s.dropLost i).sendChecked { g with recheck := false, sentAt := s.gtrOf g.countDie } else s.resend i g
            | _ => (s.dropFlight n).resend i g
      | _ => s
    | none => s)

/-! ### Patrol and crossings (R356) -/

/-- The logic die of the HBM stack that holds an address (R11, R313). -/
def State.stackDie (s : State) (a : Nat) : Option Nat :=
  match s.walk a with
  | .leaf e => if bitsOf e 61 1 = 0 then some (32 + bitsOf e 48 5) else none
  | _ => none

/-- HBM_PATROL (R356): the patrol reads an 8-byte word with no error, one that is corrected and written back, or one that poisons it. -/
def execHbmPatrol (word errors : Nat) (s : State) : Answer :=
  .next (match s.stackDie word with
    | some d => if errors = 0 then s else if errors = 1 then s.countError d else s.setPoison (wordOf word) true
    | none => s)

end Sys2Proof.Machine
end

