-- ==== Sys2Proof/Machine/Preempt.lean ====
section
/-!
DEFINITION. Pre-emption, save and restore of a partition (R351 to R355): what is recorded, what an image holds, and how a
restore takes it up again.
-/
namespace Sys2Proof.Machine

/-! ### Draining (R351) -/

/-- Whether an id is that of a context, or of the copies, of a core of a partition. -/
def Part.ownsCtx (q : Part) (id : Nat) : Bool := q.coversCore (coreOf id)

/-- Whether a drain waits for a flight: a load, a store or an atomic on its way, an acknowledgement, a push or the answer of a message; not what waits for a page, a
condition at a port, or a copy (R351). -/
def Flight.drains (f : Flight) : Bool :=
  !(isXu f.ctx) && match f.kind with
  | .load q => q.fault == 0
  | .lmLoad _ _ _ _ _ => true
  | .loadReply _ _ => true
  | .store q => !q.parked
  | .storeAck _ _ => true
  | .atomic q => !q.parked && q.fault == 0
  | .atomicResult _ _ => true
  | .lmWrite _ _ _ _ => true
  | .lmAck _ _ => true
  | .purge _ _ => true
  | .pushAck _ _ _ _ => true
  | .pushDue _ _ _ => true
  | .msg _ _ => true
  | .msgAnswer _ _ _ _ => true
  | .launchReq _ _ _ _ _ _ => true
  | .launchStatus _ _ => true
  | _ => false

/-- Whether the drain of a partition is over: nothing that it waits for is outstanding, no push is, and no dispatched job runs (R351). -/
def State.drainOver (s : State) (q : Part) : Bool :=
  !((s.net.flights ++ s.net.lost).any fun f => q.ownsCtx f.ctx && f.drains) && !(s.net.gathers.any fun g => q.ownsCtx g.ctx) &&
  !(s.cores.any fun c => q.coversCore c.1 && c.2.jobs.any fun j => j.running)

/-- Whether a combiner of a partition still gathers (R210): it sends within 32 cycles, before any deadline. -/
def State.combining (s : State) (q : Part) : Bool := s.net.gamo.any fun e => q.coversCore (e.cluster * 8)

/-- A partition stops issuing and begins to drain (R351). -/
def State.startPreempt (s : State) (p time : Nat) : State :=
  s.onPart p fun q => { q with st := .draining (s.gtrOf sDie + time * microsecond) }

/-! ### What is recorded (R354) -/

/-- What a context counts for a push store whose copies have not been sent: each as refused, or, with no valid PSET, the store as skipped (R144, R146). -/
def Ctx.pushUnsent (c : Ctx) (q : StoreReq) : Ctx :=
  if !q.push then c
  else if q.psetOk then { c with pushRefused := c.pushRefused + (psetCores q.pset).length } else { c with pushSkipped := true }

/-- How save treats a flight: the record that it leaves, and whether it goes on by itself. A store or atomic at a home in memory goes on; one that waits for its page at the
core does not; a write to an LM is sent again with the restore. -/
def Flight.record (f : Flight) : Option Flight × Option Flight :=
  if isXu f.ctx then (none, none)
  else match f.kind with
  | .load _ => (some f, none)
  | .lmLoad _ _ _ _ _ => (some f, none)
  | .loadReply q _ => (some { f with kind := .load q }, none)
  | .store q =>
    let g := { f with kind := .store { q with push := false } }
    if globalBase ≤ q.addr then (some g, none) else (some g, some g)
  | .storeAck _ _ => (some f, none)
  | .atomic q => if globalBase ≤ q.addr ∨ q.fault = 1 then (some f, none) else (some f, some f)
  | .atomicResult _ _ => (some f, none)
  | .lmWrite _ _ _ _ => (some f, none)
  | .lmAck _ _ => (some f, none)
  | .feOffer _ _ _ => (some f, none)
  | .launchReq _ _ _ _ _ _ => (some f, some f)
  | .launchStatus _ _ => (some f, none)
  | .push _ _ _ _ _ => (none, some f)
  | .pushAnswer _ _ _ => (none, some f)
  | .purge _ _ => (none, some f)
  | _ => (none, none)

/-- What the context of a flight learns at save: pushes not acknowledged count as refused, and the answer of a message is lost (R146, R354, R358). -/
def State.settleFlight (s : State) (f : Flight) : State :=
  if !(s.alive f) then s
  else match f.kind with
  | .store q => s.onCtx f.ctx fun c => c.pushUnsent q
  | .pushDue q _ _ => s.onCtx f.ctx fun c => c.pushUnsent q
  | .pushAck _ d r skipped => s.onCtx f.ctx fun c => c.pushLost d r skipped
  | .msg _ d => s.onCtx f.ctx fun c => c.takeStatus d 3
  | .msgAnswer _ d _ _ => s.onCtx f.ctx fun c => c.takeStatus d 3
  | _ => s

/-- A waiter at a port as an offer of its context (R354). -/
def Waiter.offer (w : Waiter) (domain : Nat) : Flight :=
  { kind := .feOffer w.addr w.op w.acq, ctx := w.ctx, uid := w.uid, part := w.part, domain := domain, launch := w.launch, seq := w.seq, word := w.word }

/-- Records what the contexts of a partition have outstanding: the records, and the state without it. -/
def State.recordAll (s : State) (q : Part) : List Flight × State :=
  let mine := (s.net.flights ++ s.net.lost).filter fun f => q.ownsCtx f.ctx
  let s := mine.foldl State.settleFlight s
  let s := s.net.gathers.foldl (fun (s : State) g =>
    if q.ownsCtx g.ctx && (s.ctx g.ctx).uid == g.uid then
      s.onCtx g.ctx fun c => { c with pushRefused := c.pushRefused + g.left + g.delivered + g.refused }
    else s) s
  let waiters := (s.net.waiters.filter fun w => q.ownsCtx w.ctx).map fun w => w.offer (s.ctx w.ctx).accessDomain
  let parked := (s.net.flights.filter fun f => q.ownsCtx f.ctx && isXu f.ctx).filterMap fun f => match f.kind with
    | .store x => if x.parked then s.homeSlice f.part x.addr else none
    | _ => none
  let s := { s with net := { s.net with
    flights := s.net.flights.filterMap fun f => if q.ownsCtx f.ctx then f.record.2 else some f
    lost := s.net.lost.filter fun f => !(q.ownsCtx f.ctx)
    gathers := s.net.gathers.filter fun g => !(q.ownsCtx g.ctx)
    waiters := s.net.waiters.filter fun w => !(q.ownsCtx w.ctx) } }
  ((mine.filterMap fun f => f.record.1) ++ waiters, parked.foldl (fun s sl => s.unitFreed (.park sl)) s)

/-! ### Saving (R351, R352) -/

/-- Cores at the LM bytes and words of a list of addresses, each once where they follow one another. -/
def lmCores (as : List Nat) : List Nat :=
  as.foldl (fun l a => match lmCore? a with
    | some c => if l.head? = some c then l else c :: l
    | none => l) []

/-- Cores of a partition that hold anything, rising. -/
def State.heldCores (s : State) (q : Part) : List Nat :=
  ((s.cores.map Prod.fst ++ (s.ctxs.map fun x => coreOf x.1) ++ lmCores ((s.mem.map Prod.fst) ++ s.emptied ++ s.poison)).filter q.coversCore).foldl
    (fun l c => if l.contains c then l else insertRising l c) []

/-- A migrated thread goes back to an L-core of its cluster for the image (R351). -/
def State.unmigrate (s : State) (id : Nat) : State :=
  match s.returnPlace id with
  | some b => s.moveCtx id b fun c => { c with migrated := false, migCount := 0 }
  | none => s

/-- Whether some footprint of a launch is pinned on a core and not staged yet (R190). -/
def Core.staging (c : Core) (p slot : Nat) : Bool := c.pins.any fun x => x.part == p && x.launch == slot && !x.staged

/-- A core in its image: without its cache region, its fetch buffer and its PLB (R351, R352). Staging that has not finished is discarded (R190). -/
def Core.image (c : Core) : Core :=
  { c with
    cache := [], fetch := [], plb := [], owed := []
    jobs := c.jobs.map fun j => { j with charge := none, waitedFrom := none }
    copies := c.copies.map fun x => (x.1, { x.2 with charge := none, waitedFrom := none })
    pins := c.pins.map fun x => { x with staged := x.staged && !(c.staging x.part x.launch) } }

/-- A context in its image (R351, R353): its LCLK after drift (R127), without spin table and charge; a placed thread that has not started begins its staging again (R190). -/
def State.ctxImage (s : State) (id : Nat) : Ctx :=
  let c := s.ctx id
  if c.st = .free then c
  else
    { c with
      spin := [], clocks := [], charge := none, wait := if c.st = .staging then .none else c.wait
      cr := { c.cr with lclk := s.lclkOf id } }

/-- The image of a core (R352). -/
def State.imageOf (s : State) (p core : Nat) (records : List Flight) : SavedCore :=
  let here (a : Nat) : Bool := decide (lmCore? a = some core)
  { part := p, source := core, core := (s.core core).image
    ctxs := (List.range 6).map fun n => s.ctxImage (core * 8 + n)
    lm := (s.mem.filter fun c => here c.1).map fun c => (lmOffset c.1, c.2)
    empty := (s.emptied.filter here).map lmOffset, poison := (s.poison.filter here).map lmOffset
    replay := records.filter fun f => coreOf f.ctx == core, gtr := s.gtrOf (tileOf core), incarnation := (s.die (tileOf core)).incarnation }

/-- Saves a partition: records, images, release of charges, and the wipe of its cores (R351). -/
def State.savePart (s : State) (p : Nat) (q : Part) : State :=
  let away := (s.ctxs.filter fun x => q.ownsCtx x.1 && x.2.migrated).map Prod.fst
  let s := away.foldl State.unmigrate s
  let (records, s) := s.recordAll q
  let saved := (s.heldCores q).foldl (fun (m : FMap SavedCore) core => m.set (saveKey p core) (s.imageOf p core records)) s.saved
  let s := { s.wipeCores q.coversCore with saved := saved }
  let s := { s with energy := s.energy.map fun (x : Nat × Energy) => if x.1 % 16 = p then (x.1, { x.2 with pending := 0 }) else x }
  s.onPart p fun q => { q with st := .saved, savedAt := (List.range 16).map s.gtrOf }

/-! ### Restoring (R355) -/

/-- Whether a launch that an image names is still in the table. -/
def State.launchThere (s : State) (p : Nat) (launch : Option Nat) : Bool :=
  match launch with
  | none => true
  | some slot => (s.launch? p slot).isSome

/-- A context as it comes back: a migration-waiting thread does its W word again, and one whose launch has been aborted is free (R353, R355). -/
def State.ctxBack (s : State) (p : Nat) (c : Ctx) : Ctx :=
  if !(s.launchThere p c.launch) then {}
  else if c.st = .migrationWaiting then { c with st := .ready } else c

/-- A core as it comes back: jobs are queued again in order, and copies that were not DONE run again from their first element (R355). -/
def State.coreBack (s : State) (p core : Nat) (c : Core) : Core :=
  let now := s.core core
  { c with
    reqSeq := Nat.max c.reqSeq now.reqSeq
    jobs := (c.jobs.filter fun j => s.launchThere p j.launch).map fun j => { j with running := false, snap := [], ahead := [], sick := false, put := [] }
    copies := c.copies.map fun x =>
      if 1 ≤ x.2.status ∧ x.2.status ≤ 3 then
        (x.1, { x.2 with status := if s.launchThere p x.2.launch then 2 else 5, moved := [], parked := none, unrecorded := false })
      else x }

/-- Writes an image's LM back. -/
def State.lmBack (s : State) (core : Nat) (x : SavedCore) : State :=
  let s := x.lm.foldl (fun (s : State) b => { s with mem := s.mem.write (lmAddr core b.1) b.2 }) s
  let s := x.empty.foldl (fun (s : State) o => s.setFull (lmAddr core o) false) s
  x.poison.foldl (fun (s : State) o => s.setPoison (lmAddr core o) true) s

/-- Whether a recorded store or atomic is still on its way by itself. -/
def State.goesOn (s : State) (f : Flight) : Bool := s.net.flights.any fun g => g.ctx == f.ctx && g.uid == f.uid && g.seq == f.seq

/-- Completes or repeats what was outstanding (R354): fetches by the source of the record, loads with request clock max(C, LF), offers at ports, and faulting
instructions; loads and faulting instructions are checked as they are issued again (R308). -/
def State.replay (s : State) (source : Nat) (f : Flight) : State :=
  let now := s.gtrOf f.countDie
  let fetch (s : State) : State :=
    if s.goesOn f then s
    else
      let g := { f with recheck := true }
      ({ s with net := { s.net with lost := s.net.lost ++ [g] } }).fetchSeq s.net.lost.length g source
  match f.kind with
  | .load q =>
    s.sendChecked { f with
      kind := .load { q with c := maxStamp q.c (s.lf f.part f.countDie), fault := if q.fault = 0 then 0 else 2 }, sentAt := now }
  | .atomic q => if q.fault = 1 then s.sendChecked { f with kind := .atomic { q with fault := 2 }, sentAt := now }
    else if globalBase ≤ q.addr then s.sendFlight { f with sentAt := now } else fetch s
  | .store q => if globalBase ≤ q.addr then s.sendFlight { f with sentAt := now } else fetch s
  | .storeAck _ _ => fetch s
  | .launchReq _ _ _ _ _ _ => fetch s
  | .launchStatus _ _ => fetch s
  | .atomicResult q _ => if globalBase ≤ q.addr then s.sendFlight { f with sentAt := now } else fetch s
  | _ => s.sendFlight { f with sentAt := now, offered := 0 }

/-- Puts an image on a core: LM, the core's registers as given, and its contexts (R355). -/
def State.placeImage (s : State) (core : Nat) (x : SavedCore) (k : Core) : State :=
  let s := (s.lmBack core x).setCore core k
  (List.range 6).foldl (fun (s : State) n =>
    match x.ctxs[n]? with
    | some c => if c.st = .free then s else s.setCtx (core * 8 + n) (s.ctxBack x.part c)
    | none => s) s

/-- Puts one image back on its core. -/
def State.imageBack (s : State) (core : Nat) (x : SavedCore) : State := s.placeImage core x (s.coreBack x.part core x.core)

/-- Whether a record is of an access that is performed again: KIND 1, 4 or 5, which come after those of KIND 2 and 3 (R354, R355). -/
def Flight.again (f : Flight) : Bool :=
  match f.kind with
  | .load _ => true
  | .lmLoad _ _ _ _ _ => true
  | .feOffer _ _ _ => true
  | .atomic q => q.fault == 1
  | _ => false

/-- Whether it is of a faulting instruction, KIND 5, which its context performs again when it resumes (R354, R355). -/
def Flight.faulted (f : Flight) : Bool :=
  match f.kind with
  | .load q => q.fault != 0
  | .atomic q => q.fault == 1
  | _ => false

/-- A restored context goes on (R355): one that waits registers its wait again, a JWAIT by testing its job again, and one that was fault-waiting, and has no access on its way, performs its
instruction again. -/
def State.resumeCtx (s : State) (id : Nat) : State :=
  let c := s.ctx id
  if c.st ≠ .waiting then s.faultOver id else if c.wait.job?.isSome then s.onCtx id Ctx.wakeUp else s.resendWaits id

/-- Puts images back, each by `put`, and fetches the acknowledgements and results that were outstanding; what comes after them is kept (R355). -/
def State.imagesBack (s : State) (p : Nat) (images : List (Nat × SavedCore)) (put : State → Nat → SavedCore → State) : State :=
  let s := images.foldl (fun (s : State) x => put s x.1 x.2) s
  let records := images.flatMap fun x => x.2.replay.map fun f => (x.2.source, f)
  let keep := records.filter fun r => s.launchThere r.2.part r.2.launch
  ((keep.filter fun r => !r.2.again).foldl (fun (s : State) r => s.replay r.1 r.2) s).onPart p fun q =>
    { q with st := .restoring, later := q.later ++ keep.filter fun r => r.2.again, restored := q.restored ++ images.map Prod.fst }

/-- Whether an acknowledgement or result of a partition's contexts is still to come. -/
def State.fetching (s : State) (q : Part) : Bool :=
  (s.net.flights ++ s.net.lost).any fun f => q.ownsCtx f.ctx && match f.kind with
    | .store x => !x.parked
    | .storeAck _ _ => true
    | .atomic x => !x.parked && x.fault == 0
    | .atomicResult _ _ => true
    | .lmWrite _ _ _ _ => true
    | .lmAck _ _ => true
    | .seqFetch _ _ => true
    | _ => false

/-- Whether a load of a partition's contexts that was issued again is still to come, or an offer to be presented at its port (R355). -/
def State.loading (s : State) (q : Part) : Bool :=
  (s.net.flights ++ s.net.lost).any fun f => q.ownsCtx f.ctx && match f.kind with
    | .load x => x.fault == 0
    | .loadReply x _ => x.fault == 0
    | .lmLoad _ _ _ _ _ => true
    | .feOffer _ _ _ => f.offered == 0
    | _ => false

/-- The last steps of a restore (R355): the contexts resume, with their faulting instructions, and the partition runs. -/
def State.resumeCtxs (s : State) (p : Nat) (q : Part) : State :=
  let s := q.later.foldl (fun (s : State) r => s.replay r.1 r.2) s
  let s := q.restored.foldl (fun (s : State) core => (List.range 6).foldl (fun (s : State) n => s.resumeCtx (core * 8 + n)) s) s
  s.onPart p fun q => { q with st := .running, resetBy := none, shrink := none, later := [], restored := [] }

/-- Goes on with a restore (R355): once what was fetched has come, the records of KIND 1 and 4 are performed again, and once these are completed, jobs may be dispatched and the contexts
resume. -/
def State.resumePart (s : State) (p : Nat) : State :=
  match s.parts.get p with
  | none => s
  | some q =>
    if q.st ≠ .restoring ∨ s.fetching q = true ∨ s.loading q = true then s
    else if q.later.all fun r => r.2.faulted then s.resumeCtxs p q
    else
      ((q.later.filter fun r => !(r.2.faulted)).foldl (fun (s : State) r => s.replay r.1 r.2) s).onPart p fun q =>
        { q with later := q.later.filter fun r => r.2.faulted }

/-- Restores a saved partition from its images (R355); those of parked launches stay (R363). -/
def State.restorePart (s : State) (p : Nat) : State :=
  let mine := s.saved.filter fun x => x.2.part == p && !(x.2.parked)
  let s := { s with saved := s.saved.filter fun x => x.2.part != p || x.2.parked }
  (s.imagesBack p (mine.map fun x => (x.1 % coreCount, x.2)) State.imageBack).resumePart p

end Sys2Proof.Machine
end

