-- ==== Sys2Proof/Machine/Integer.lean ====
section
/-!
DEFINITION. Integer register operations, division and immediate operations (R71, R72, R74). A word with d = 0 is a hint
(R43): the write to g0 is discarded.
-/
namespace Sys2Proof.Machine

/-! ### Operations on 64-bit values (R71, R72) -/

/-- Shift count [5:0] (R71). -/
def shiftCount (y : Word) : Nat := y.toNat % 64

/-- 1 or 0 (R71). -/
def flag (b : Bool) : Word := if b then 1 else 0

/-- High half of the signed product (R71). -/
def mulHigh (x y : Word) : Word := BitVec.ofInt 64 (x.toInt * y.toInt / 2 ^ 64)

/-- High half of the unsigned product (R71). -/
def mulHighU (x y : Word) : Word := BitVec.ofNat 64 (x.toNat * y.toNat / 2 ^ 64)

/-- Count of leading zero bits among the low n bits (R71). -/
def leadingZeros (x : Nat) : Nat → Nat
  | 0 => 0
  | n + 1 => if x.testBit n then 0 else leadingZeros x n + 1

/-- Count of trailing zero bits from bit i on, of n bits (R71). -/
def trailingZeros (x i : Nat) : Nat → Nat
  | 0 => 0
  | n + 1 => if x.testBit i then 0 else trailingZeros x (i + 1) n + 1

/-- Count of one bits among the low n bits (R71). -/
def oneBits (x : Nat) : Nat → Nat
  | 0 => 0
  | n + 1 => oneBits x n + (if x.testBit n then 1 else 0)

/-- Signed quotient with the fixed results of R72. -/
def divS (x y : Word) : Word :=
  if y = 0 then 0xFFFFFFFFFFFFFFFF
  else if x = 0x8000000000000000 ∧ y = 0xFFFFFFFFFFFFFFFF then x
  else BitVec.ofInt 64 (x.toInt.tdiv y.toInt)

/-- Unsigned quotient (R72). -/
def divU (x y : Word) : Word :=
  if y = 0 then 0xFFFFFFFFFFFFFFFF else BitVec.ofNat 64 (x.toNat / y.toNat)

/-- Signed remainder with the sign of the dividend (R72). -/
def remS (x y : Word) : Word :=
  if y = 0 then x
  else if x = 0x8000000000000000 ∧ y = 0xFFFFFFFFFFFFFFFF then 0
  else BitVec.ofInt 64 (x.toInt.tmod y.toInt)

/-- Unsigned remainder (R72). -/
def remU (x y : Word) : Word :=
  if y = 0 then x else BitVec.ofNat 64 (x.toNat % y.toNat)

/-! ### Shapes -/

/-- g[d] = op(g[a], g[b]) (R71). -/
def State.alu (s : State) (d a b : Reg) (op : Word → Word → Word) : State :=
  s.finishG d (op (s.rdG a) (s.rdG b))

/-- g[d] = op(g[a]) (R71, R74). -/
def State.alu1 (s : State) (d a : Reg) (op : Word → Word) : State := s.finishG d (op (s.rdG a))

/-- g[d] = op(g[a], g[b]) for a W word (R72, R73). -/
def State.aluW (s : State) (i : Instr) (d a b : Reg) (op : Word → Word → Word) : State :=
  s.allow i [] true fun s => (s.wrG d (op (s.rdG a) (s.rdG b))).retireW

/-! ### Major 0x00 (R71) -/

/-- ADD (R71). -/
def execAdd (d a b : Reg) (s : State) : Answer := .next (s.alu d a b fun x y => x + y)

/-- SUB (R71). -/
def execSub (d a b : Reg) (s : State) : Answer := .next (s.alu d a b fun x y => x - y)

/-- AND (R71). -/
def execAnd (d a b : Reg) (s : State) : Answer := .next (s.alu d a b fun x y => x &&& y)

/-- OR (R71). -/
def execOr (d a b : Reg) (s : State) : Answer := .next (s.alu d a b fun x y => x ||| y)

/-- XOR (R71). -/
def execXor (d a b : Reg) (s : State) : Answer := .next (s.alu d a b fun x y => x ^^^ y)

/-- ANDN (R71). -/
def execAndn (d a b : Reg) (s : State) : Answer := .next (s.alu d a b fun x y => x &&& ~~~y)

/-- SLL (R71). -/
def execSll (d a b : Reg) (s : State) : Answer := .next (s.alu d a b fun x y => x <<< shiftCount y)

/-- SRL (R71). -/
def execSrl (d a b : Reg) (s : State) : Answer := .next (s.alu d a b fun x y => x >>> shiftCount y)

/-- SRA (R71). -/
def execSra (d a b : Reg) (s : State) : Answer := .next (s.alu d a b fun x y => x.sshiftRight (shiftCount y))

/-- SLT (R71). -/
def execSlt (d a b : Reg) (s : State) : Answer := .next (s.alu d a b fun x y => flag (decide (x.toInt < y.toInt)))

/-- SLTU (R71). -/
def execSltu (d a b : Reg) (s : State) : Answer := .next (s.alu d a b fun x y => flag (decide (x.toNat < y.toNat)))

/-- MIN (R71). -/
def execMin (d a b : Reg) (s : State) : Answer := .next (s.alu d a b fun x y => if x.toInt ≤ y.toInt then x else y)

/-- MAX (R71). -/
def execMax (d a b : Reg) (s : State) : Answer := .next (s.alu d a b fun x y => if x.toInt ≤ y.toInt then y else x)

/-- MINU (R71). -/
def execMinu (d a b : Reg) (s : State) : Answer := .next (s.alu d a b fun x y => if x.toNat ≤ y.toNat then x else y)

/-- MAXU (R71). -/
def execMaxu (d a b : Reg) (s : State) : Answer := .next (s.alu d a b fun x y => if x.toNat ≤ y.toNat then y else x)

/-- MUL (R71). -/
def execMul (d a b : Reg) (s : State) : Answer := .next (s.alu d a b fun x y => x * y)

/-- MULH (R71). -/
def execMulh (d a b : Reg) (s : State) : Answer := .next (s.alu d a b mulHigh)

/-- MULHU (R71). -/
def execMulhu (d a b : Reg) (s : State) : Answer := .next (s.alu d a b mulHighU)

/-- CLZ (R71). -/
def execClz (d a : Reg) (s : State) : Answer := .next (s.alu1 d a fun x => BitVec.ofNat 64 (leadingZeros x.toNat 64))

/-- CTZ (R71). -/
def execCtz (d a : Reg) (s : State) : Answer := .next (s.alu1 d a fun x => BitVec.ofNat 64 (trailingZeros x.toNat 0 64))

/-- POPC (R71). -/
def execPopc (d a : Reg) (s : State) : Answer := .next (s.alu1 d a fun x => BitVec.ofNat 64 (oneBits x.toNat 64))

/-! ### Major 0x01 (R72, R73) -/

/-- DIV (R72). -/
def execDiv (d a b : Reg) (s : State) : Answer := .next (s.aluW (.div d a b) d a b divS)

/-- DIVU (R72). -/
def execDivu (d a b : Reg) (s : State) : Answer := .next (s.aluW (.divu d a b) d a b divU)

/-- REM (R72). -/
def execRem (d a b : Reg) (s : State) : Answer := .next (s.aluW (.rem d a b) d a b remS)

/-- REMU (R72). -/
def execRemu (d a b : Reg) (s : State) : Answer := .next (s.aluW (.remu d a b) d a b remU)

/-! ### Majors 0x02 to 0x0A (R74) -/

/-- NOP: reads and writes no register (R43). -/
def execNop (s : State) : Answer := .next s.retire

/-- ADDI (R74). -/
def execAddi (d a : Reg) (i : BitVec 16) (s : State) : Answer := .next (s.alu1 d a fun x => x + simm i)

/-- ANDI (R74). -/
def execAndi (d a : Reg) (i : BitVec 16) (s : State) : Answer := .next (s.alu1 d a fun x => x &&& zimm i)

/-- ORI (R74). -/
def execOri (d a : Reg) (i : BitVec 16) (s : State) : Answer := .next (s.alu1 d a fun x => x ||| zimm i)

/-- XORI (R74). -/
def execXori (d a : Reg) (i : BitVec 16) (s : State) : Answer := .next (s.alu1 d a fun x => x ^^^ zimm i)

/-- SLTI (R74). -/
def execSlti (d a : Reg) (i : BitVec 16) (s : State) : Answer :=
  .next (s.alu1 d a fun x => flag (decide (x.toInt < (simm i).toInt)))

/-- SLTIU (R74). -/
def execSltiu (d a : Reg) (i : BitVec 16) (s : State) : Answer :=
  .next (s.alu1 d a fun x => flag (decide (x.toNat < (simm i).toNat)))

/-- SLLI (R74). -/
def execSlli (d a : Reg) (c : BitVec 6) (s : State) : Answer := .next (s.alu1 d a fun x => x <<< c.toNat)

/-- SRLI (R74). -/
def execSrli (d a : Reg) (c : BitVec 6) (s : State) : Answer := .next (s.alu1 d a fun x => x >>> c.toNat)

/-- SRAI (R74). -/
def execSrai (d a : Reg) (c : BitVec 6) (s : State) : Answer := .next (s.alu1 d a fun x => x.sshiftRight c.toNat)

/-- LHI (R74). -/
def execLhi (d : Reg) (i : BitVec 16) (s : State) : Answer := .next (s.finishG d (simm i <<< 16))

/-- SHORI (R74). -/
def execShori (d a : Reg) (i : BitVec 16) (s : State) : Answer := .next (s.alu1 d a fun x => (x <<< 16) ||| zimm i)

end Sys2Proof.Machine
end

