-- ==== Sys2Proof/Machine/Transcend.lean ====
section
/-!
DEFINITION. e^x, ln x and erf x rounded once (R244). An exact value is enclosed between two integers times a power of
two, at growing precision, until both ends round alike with the same flags; every result but the special cases
of R244 is inexact. Should the last precision not decide, the result is a free value (log 9).
-/
namespace Sys2Proof.Machine

/-- An enclosure: the value lies strictly between lo × 2^e and hi × 2^e. -/
structure Enclosure where
  neg : Bool
  lo : Nat
  hi : Nat
  e : Int

/-- ⌈a / b⌉. -/
def ceilDiv (a b : Nat) : Nat := (a + b - 1) / b

/-- Sum of y^n / n! from the term `t` on, scaled by 2^p, rounded down. -/
def expLow (p y : Nat) : Nat → Nat → Nat → Nat
  | 0, _, _ => 0
  | k + 1, n, t => t + expLow p y k (n + 1) (t * y / (2 ^ p * (n + 1)))

/-- The same, rounded up; for y below 2^p the terms left out are less than the last term. -/
def expHigh (p y : Nat) : Nat → Nat → Nat → Nat
  | 0, _, t => 2 * t + 2
  | k + 1, n, t => t + expHigh p y k (n + 1) (ceilDiv (t * y) (2 ^ p * (n + 1)))

/-- Squares an enclosure scaled by 2^p, j times. -/
def squareUp (p : Nat) : Nat → Nat × Nat → Nat × Nat
  | 0, v => v
  | j + 1, (lo, hi) => squareUp p j (lo * lo / 2 ^ p, ceilDiv (hi * hi) (2 ^ p))

/-- Halvings that bring m × 2^e below 1/2. -/
def halvings (m : Nat) (e : Int) : Nat := (e + (Nat.log2 m : Int) + 2).toNat

/-- m × 2^e as an integer scaled by 2^p, rounded down, or up. -/
def scaleDown (m : Nat) (e : Int) (p : Nat) : Nat :=
  if 0 ≤ e + (p : Int) then m * 2 ^ (e + (p : Int)).toNat else m / 2 ^ (-(e + (p : Int))).toNat

/-- Rounded up. -/
def scaleUp (m : Nat) (e : Int) (p : Nat) : Nat :=
  if 0 ≤ e + (p : Int) then m * 2 ^ (e + (p : Int)).toNat else ceilDiv m (2 ^ (-(e + (p : Int))).toNat)

/-- Encloses e^(m × 2^e), scaled by 2^p, for a magnitude below 2^11. -/
def expPositive (p m : Nat) (e : Int) : Nat × Nat :=
  let j := halvings m e
  let k := p + 4
  squareUp p j (expLow p (scaleDown m (e - (j : Int)) p) k 0 (2 ^ p), expHigh p (scaleUp m (e - (j : Int)) p) k 0 (2 ^ p))

/-- Encloses e^x for x = ±m × 2^e. -/
def encloseExp (neg : Bool) (m : Nat) (e : Int) (p : Nat) : Enclosure :=
  let (lo, hi) := expPositive p m e
  if neg then
    let k := 2 * p + 2 * Nat.log2 hi
    ⟨false, 2 ^ k / hi, ceilDiv (2 ^ k) lo, (p : Int) - (k : Int)⟩
  else ⟨false, lo, hi, -(p : Int)⟩

/-- Sum of t^(2i+1) / (2i+1) from the power `w` on, scaled by 2^p, rounded down. -/
def atanhLow (p t2 : Nat) : Nat → Nat → Nat → Nat
  | 0, _, _ => 0
  | k + 1, i, w => w / (2 * i + 1) + atanhLow p t2 k (i + 1) (w * t2 / 2 ^ p)

/-- The same rounded up; t is at most 1/3. -/
def atanhHigh (p t2 : Nat) : Nat → Nat → Nat → Nat
  | 0, _, w => 2 * w + 2
  | k + 1, i, w => ceilDiv w (2 * i + 1) + atanhHigh p t2 k (i + 1) (ceilDiv (w * t2) (2 ^ p))

/-- Encloses ln(a / b) for b ≤ a ≤ 2b, scaled by 2^p. -/
def lnRatio (p a b : Nat) : Nat × Nat :=
  let n := (a - b) * 2 ^ p
  let lo := n / (a + b)
  let hi := ceilDiv n (a + b)
  (2 * atanhLow p (lo * lo / 2 ^ p) p 0 lo, 2 * atanhHigh p (ceilDiv (hi * hi) (2 ^ p)) p 0 hi)

/-- Encloses ln(m × 2^e) for a value that is not 1. -/
def encloseLog (m : Nat) (e : Int) (p : Nat) : Enclosure :=
  let l := Nat.log2 m
  let k : Int := e + (l : Int)
  let (zl, zh) := lnRatio p m (2 ^ l)
  let (cl, ch) := lnRatio p 2 1
  let lo : Int := (if 0 ≤ k then k * (cl : Int) else k * (ch : Int)) + (zl : Int)
  let hi : Int := (if 0 ≤ k then k * (ch : Int) else k * (cl : Int)) + (zh : Int)
  if 0 ≤ lo then ⟨false, lo.toNat, hi.toNat, -(p : Int)⟩
  else if hi ≤ 0 then ⟨true, (-hi).toNat, (-lo).toNat, -(p : Int)⟩
  else ⟨false, 0, hi.toNat, -(p : Int)⟩

/-- Sum of arctan(1/n) × 2^p by the alternating series, as an Int with an error of at most the number of terms. -/
def arctanInv (n : Nat) : Nat → Nat → Nat → Int
  | 0, _, _ => 0
  | k + 1, i, w => (if i % 2 = 0 then ((w / (2 * i + 1) : Nat) : Int) else -((w / (2 * i + 1) : Nat) : Int)) + arctanInv n k (i + 1) (w / (n * n))

/-- Encloses π × 2^p by Machin's formula; each series errs by less than 2p + 4. -/
def piBounds (p : Nat) : Nat × Nat :=
  let a := arctanInv 5 (p + 2) 0 (2 ^ p / 5)
  let b := arctanInv 239 (p + 2) 0 (2 ^ p / 239)
  let v := 16 * a - 4 * b
  let err : Int := 20 * (2 * (p : Int) + 6)
  ((v - err).toNat, (v + err).toNat)

/-- Sum of u^n 2^n / (2n+1)!! from the term `w` on, scaled by 2^p, rounded down. -/
def erfLow (p u : Nat) : Nat → Nat → Nat → Nat
  | 0, _, _ => 0
  | k + 1, n, w => w + erfLow p u k (n + 1) (w * (2 * u) / (2 ^ p * (2 * n + 3)))

/-- The same rounded up; u is below 64 and the terms are far past their peak where the sum ends. -/
def erfHigh (p u : Nat) : Nat → Nat → Nat → Nat
  | 0, _, w => 2 * w + 2
  | k + 1, n, w => w + erfHigh p u k (n + 1) (ceilDiv (w * (2 * u)) (2 ^ p * (2 * n + 3)))

/-- Encloses erf(±m × 2^e) for a magnitude below 8: x × (2/√π) × e^(−x²) × Σ (2x²)^n / (2n+1)!!. -/
def encloseErf (neg : Bool) (m : Nat) (e : Int) (p : Nat) : Enclosure :=
  let k := p + 512
  let (el, eh) := expPositive p (m * m) (2 * e)
  let sl := erfLow p (scaleDown (m * m) (2 * e) p) k 0 (2 ^ p)
  let sh := erfHigh p (scaleUp (m * m) (2 * e) p) k 0 (2 ^ p)
  let (pl, ph) := piBounds p
  let rl := isqrt (pl * 2 ^ p) (p + 3) 0
  let rh := isqrt (ph * 2 ^ p) (p + 3) 0 + 1
  ⟨neg, m * (2 * sl * 2 ^ (2 * p) / (eh * rh)), m * ceilDiv (2 * sh * 2 ^ (2 * p)) (el * rl), e - (p : Int)⟩

/-- The rounded value when both ends of an enclosure, taken just inside it, round alike and are fine enough. -/
def decided (t : FloatFmt) (mode : Rounding) (v : Enclosure) : Option Rounded :=
  if v.lo < 2 ^ (t.frac + 4) ∨ v.hi ≤ v.lo then none
  else
    let a := roundTo t mode v.neg (2 * v.lo + 1) (v.e - 1)
    let b := roundTo t mode v.neg (2 * v.hi - 1) (v.e - 1)
    if a = b then some a else none

/-- Tries growing precisions (log 9). -/
def tryPrecisions (t : FloatFmt) (mode : Rounding) (enclose : Nat → Enclosure) : List Nat → Option Rounded
  | [] => none
  | p :: ps =>
    match decided t mode (enclose p) with
    | some r => some r
    | none => tryPrecisions t mode enclose ps

/-- The precisions tried, in bits (log 9). -/
def precisions : List Nat := [128, 256, 640, 1280, 2560]

/-- e^x (R244); none where the last precision does not decide. -/
def fpExp (t : FloatFmt) (mode : Rounding) (a : Nat) : Option Rounded :=
  match nanResult t [a] with
  | some r => some r
  | none =>
    match unpack t a with
    | .inf neg => some (if neg then 0 else t.infinity, 0)
    | .fin neg m e =>
      if m = 0 then some (roundTo t mode false 1 0)
      else if 11 ≤ e + (Nat.log2 m : Int) then
        some (if neg then roundTo t mode false 1 (-5000) else roundTo t mode false 1 5000)
      else tryPrecisions t mode (encloseExp neg m e) precisions
    | .nan _ => some (invalid t)

/-- ln x (R244). -/
def fpLog (t : FloatFmt) (mode : Rounding) (a : Nat) : Option Rounded :=
  match nanResult t [a] with
  | some r => some r
  | none =>
    match unpack t a with
    | .inf neg => some (if neg then invalid t else (a, 0))
    | .fin neg m e =>
      if m = 0 then some (withSign t true t.infinity, flagDZ)
      else if neg then some (invalid t)
      else if m = 2 ^ Nat.log2 m ∧ e + (Nat.log2 m : Int) = 0 then some (0, 0)
      else tryPrecisions t mode (encloseLog m e) precisions
    | .nan _ => some (invalid t)

/-- erf x (R244). From 8 on, erf x lies between 1 − 2^−90 and 1. -/
def fpErf (t : FloatFmt) (mode : Rounding) (a : Nat) : Option Rounded :=
  match nanResult t [a] with
  | some r => some r
  | none =>
    match unpack t a with
    | .inf neg => some (roundTo t mode neg 1 0)
    | .fin neg m e =>
      if m = 0 then some (a, 0)
      else if 3 ≤ e + (Nat.log2 m : Int) then some (roundTo t mode neg (2 ^ 90 - 1) (-90))
      else tryPrecisions t mode (encloseErf neg m e) precisions
    | .nan _ => some (invalid t)

end Sys2Proof.Machine
end

