-- ==== Sys2Proof/Machine/ScalarFp.lean ====
section
/-!
DEFINITION. Scalar floating point of major 0x3B (R269, R270), the W arithmetic of major 0x3A (R271 to R273) and FCVT
(R274).
-/
namespace Sys2Proof.Machine

/-! ### Shapes -/

/-- f[d] = op(f[a], f[b]) rounded in the word's mode (R269). -/
def State.fp2 (s : State) (i : Instr) (w : Bool) (t : FloatFmt) (d a b : Reg) (m : BitVec 3)
    (op : FloatFmt → Rounding → Nat → Nat → Rounded) : State :=
  s.allow i [d, a, b] w fun s => s.fpTo w t d (op t (s.mode m) (s.rdFp t a) (s.rdFp t b))

/-- f[d] = √f[a] rounded in the word's mode (R269). -/
def State.fpRoot (s : State) (i : Instr) (w : Bool) (t : FloatFmt) (d a : Reg) (m : BitVec 3) : State :=
  s.allow i [d, a] w fun s => s.fpTo w t d (fpSqrt t (s.mode m) (s.rdFp t a))

/-- f[d] = ±(f[a] × f[b]) ± f[d] (R269). -/
def State.fp3 (s : State) (i : Instr) (p : BitVec 1) (d a b : Reg) (m : BitVec 3) (np nd : Bool) : State :=
  let t := precisionOf p
  s.allow i [d, a, b] false fun s =>
    s.fpTo false t d (fpFma t (s.mode m) np nd (s.rdFp t a) (s.rdFp t b) (s.rdFp t d))

/-- g[d] = 1 or 0 by a relation (R270). -/
def State.fpRel (s : State) (i : Instr) (p : BitVec 1) (d a b : Reg) (rel : Nat) : State :=
  let t := precisionOf p
  s.allow i [a, b] false fun s =>
    let r := fpCompare t rel (s.rdFp t a) (s.rdFp t b)
    s.finishFp false [r.2] fun s => s.wrG d (flag r.1)

/-- f[d] = minimum or maximum (R235). -/
def State.fpPick (s : State) (i : Instr) (p : BitVec 1) (d a b : Reg) (max : Bool) : State :=
  let t := precisionOf p
  s.allow i [d, a, b] false fun s => s.fpTo false t d (fpMinMax t max (s.rdFp t a) (s.rdFp t b))

/-- f[d] = the bits of f[a] with a sign made from both signs; the bits are copied as they stand (R270). -/
def State.fpSign (s : State) (i : Instr) (p : BitVec 1) (d a b : Reg) (sign : Bool → Bool → Bool) : State :=
  let n := if p = 0 then 63 else 31
  s.allow i [d, a, b] false fun s =>
    let x := (s.rdF a).toNat
    let y := (s.rdF b).toNat
    let r := x % 2 ^ n + (if sign (x.testBit n) (y.testBit n) then 2 ^ n else 0)
    (s.wrF d (boxed (precisionOf p) r)).retire

/-- f[d] = a function of f[a] that R244 gives; where the precisions of the model do not decide the rounding, the
value and the flags OF and UF are free and NX is raised (log 9). -/
def State.fpFunction (s : State) (i : Instr) (p : BitVec 1) (d a : Reg) (m : BitVec 3)
    (fn : FloatFmt → Rounding → Nat → Option Rounded) : State :=
  let t := precisionOf p
  s.allow i [d, a] true fun s =>
    match fn t (s.mode m) (s.rdFp t a) with
    | some r => s.fpTo true t d r
    | none =>
      let x := Config.freeValue s.free
      let fl : FpFlags := 1 ||| ((Config.freeValue (s.free + 1)).setWidth 5 &&& 6)
      { s with free := s.free + 2 }.fpTo true t d (x.toNat, fl)

/-! ### Major 0x3B -/

/-- FADD (R269). -/
def execFadd (d a b : Reg) (p : BitVec 1) (m : BitVec 3) (s : State) : Answer :=
  .next (s.fp2 (.fadd d a b p m) false (precisionOf p) d a b m fpAdd)

/-- FSUB (R269). -/
def execFsub (d a b : Reg) (p : BitVec 1) (m : BitVec 3) (s : State) : Answer :=
  .next (s.fp2 (.fsub d a b p m) false (precisionOf p) d a b m fpSub)

/-- FMUL (R269). -/
def execFmul (d a b : Reg) (p : BitVec 1) (m : BitVec 3) (s : State) : Answer :=
  .next (s.fp2 (.fmul d a b p m) false (precisionOf p) d a b m fpMul)

/-- FDIV.s (R269). -/
def execFdivS (d a b : Reg) (m : BitVec 3) (s : State) : Answer :=
  .next (s.fp2 (.fdivS d a b m) false .f32 d a b m fpDiv)

/-- FSQRT.s (R269). -/
def execFsqrtS (d a : Reg) (m : BitVec 3) (s : State) : Answer :=
  .next (s.fpRoot (.fsqrtS d a m) false .f32 d a m)

/-- FMIN (R269). -/
def execFmin (d a b : Reg) (p : BitVec 1) (s : State) : Answer := .next (s.fpPick (.fmin d a b p) p d a b false)

/-- FMAX (R269). -/
def execFmax (d a b : Reg) (p : BitVec 1) (s : State) : Answer := .next (s.fpPick (.fmax d a b p) p d a b true)

/-- FMA (R269). -/
def execFma (d a b : Reg) (p : BitVec 1) (m : BitVec 3) (s : State) : Answer :=
  .next (s.fp3 (.fma d a b p m) p d a b m false false)

/-- FMS (R269). -/
def execFms (d a b : Reg) (p : BitVec 1) (m : BitVec 3) (s : State) : Answer :=
  .next (s.fp3 (.fms d a b p m) p d a b m false true)

/-- FNMA (R269). -/
def execFnma (d a b : Reg) (p : BitVec 1) (m : BitVec 3) (s : State) : Answer :=
  .next (s.fp3 (.fnma d a b p m) p d a b m true false)

/-- FNMS (R269). -/
def execFnms (d a b : Reg) (p : BitVec 1) (m : BitVec 3) (s : State) : Answer :=
  .next (s.fp3 (.fnms d a b p m) p d a b m true true)

/-- FEQ (R270). -/
def execFeq (d a b : Reg) (p : BitVec 1) (s : State) : Answer := .next (s.fpRel (.feq d a b p) p d a b 0)

/-- FLT (R270). -/
def execFlt (d a b : Reg) (p : BitVec 1) (s : State) : Answer := .next (s.fpRel (.flt d a b p) p d a b 1)

/-- FLE (R270). -/
def execFle (d a b : Reg) (p : BitVec 1) (s : State) : Answer := .next (s.fpRel (.fle d a b p) p d a b 2)

/-- FCLASS: one bit of ten, no flag (R270). -/
def execFclass (d a : Reg) (p : BitVec 1) (s : State) : Answer :=
  .next (s.allow (.fclass d a p) [a] false fun s =>
    s.finishG d (BitVec.ofNat 64 (2 ^ fpClass (precisionOf p) (s.rdFp (precisionOf p) a))))

/-- FSGNJ (R270). -/
def execFsgnj (d a b : Reg) (p : BitVec 1) (s : State) : Answer :=
  .next (s.fpSign (.fsgnj d a b p) p d a b fun _ y => y)

/-- FSGNJN (R270). -/
def execFsgnjn (d a b : Reg) (p : BitVec 1) (s : State) : Answer :=
  .next (s.fpSign (.fsgnjn d a b p) p d a b fun _ y => !y)

/-- FSGNJX (R270). -/
def execFsgnjx (d a b : Reg) (p : BitVec 1) (s : State) : Answer :=
  .next (s.fpSign (.fsgnjx d a b p) p d a b fun x y => x != y)

/-- FMVFG: f[d] gets the bits of g[a] (R270). -/
def execFmvfg (d a : Reg) (p : BitVec 1) (s : State) : Answer :=
  .next (s.allow (.fmvfg d a p) [d] false fun s => (s.wrF d (boxed (precisionOf p) (s.rdG a).toNat)).retire)

/-- FMVGF: g[d] gets the bits of f[a] (R270). -/
def execFmvgf (d a : Reg) (p : BitVec 1) (s : State) : Answer :=
  .next (s.allow (.fmvgf d a p) [a] false fun s =>
    s.finishG d (BitVec.ofNat 64 ((s.rdF a).toNat % 2 ^ (precisionOf p).width)))

/-! ### Major 0x3A -/

/-- FEXP (R244, R272). -/
def execFexp (d a : Reg) (p : BitVec 1) (m : BitVec 3) (s : State) : Answer :=
  .next (s.fpFunction (.fexp d a p m) p d a m fpExp)

/-- FLOG (R244, R272). -/
def execFlog (d a : Reg) (p : BitVec 1) (m : BitVec 3) (s : State) : Answer :=
  .next (s.fpFunction (.flog d a p m) p d a m fpLog)

/-- FERF (R244, R272). -/
def execFerf (d a : Reg) (p : BitVec 1) (m : BitVec 3) (s : State) : Answer :=
  .next (s.fpFunction (.ferf d a p m) p d a m fpErf)

/-- FDIV.d (R272). -/
def execFdivD (d a b : Reg) (m : BitVec 3) (s : State) : Answer :=
  .next (s.fp2 (.fdivD d a b m) true .f64 d a b m fpDiv)

/-- FSQRT.d (R272). -/
def execFsqrtD (d a : Reg) (m : BitVec 3) (s : State) : Answer :=
  .next (s.fpRoot (.fsqrtD d a m) true .f64 d a m)

/-- One bit step of CRC-32C (R273). -/
def crcBit (c : BitVec 32) : BitVec 32 := if c.getLsbD 0 then (c >>> 1) ^^^ 0x82F63B78 else c >>> 1

/-- n bit steps (R273). -/
def crcBits : Nat → BitVec 32 → BitVec 32
  | 0, c => c
  | n + 1, c => crcBits n (crcBit c)

/-- CRC-32C over n bytes of a number, low byte first (R273). -/
def crcBytes : Nat → Nat → BitVec 32 → BitVec 32
  | 0, _, c => c
  | n + 1, x, c => crcBytes n (x / 256) (crcBits 8 (c ^^^ BitVec.ofNat 32 (x % 256)))

/-- VCRC (R273). -/
def execVcrc (d a b : Reg) (s : State) : Answer :=
  .next (s.allow (.vcrc d a b) [b] true fun s =>
    (s.wrG d ((crcBytes 16 (s.rdV b).toNat ((s.rdG a).setWidth 32)).setWidth 64)).retireW)

/-! ### FCVT (R274) -/

/-- The operand of a code: integers from g[a], floating values from f[a] (R274). -/
def State.rdConv (s : State) (c : ConvFmt) (r : Reg) : Nat :=
  match c with
  | .float t => s.rdFp t r
  | .scale => (s.rdF r).toNat % 256
  | .int _ w => (s.rdG r).toNat % 2 ^ w

/-- Writes a result of a code: an integer extended by its signedness to g[d], a floating value boxed to f[d]
(R261, R274). -/
def State.wrConv (s : State) (c : ConvFmt) (r : Reg) (x : Nat) : State :=
  match c with
  | .float t => s.wrF r (boxed t x)
  | .scale => s.wrF r (BitVec.ofNat 64 (2 ^ 64 - 256 + x))
  | .int sg w => s.wrG r (BitVec.ofInt 64 (intValue sg w x))

/-- The f registers among the operands of an FCVT (R274). -/
def fcvtRegs (d a : Reg) (t src : BitVec 5) : List Reg :=
  (if intCode t then [] else [d]) ++ (if intCode src then [] else [a])

/-- FCVT (R274). -/
def execFcvt (d a : Reg) (src : BitVec 5) (m : BitVec 3) (t : BitVec 5) (s : State) : Answer :=
  .next (s.allow (.fcvt d a src m t) (fcvtRegs d a t src) false fun s =>
    let r := convert (convFmt t) (convFmt src) (s.mode m) (s.rdConv (convFmt src) a)
    s.finishFp false [r.2] fun s => s.wrConv (convFmt t) d r.1)

end Sys2Proof.Machine
end

