-- ==== Sys2Proof/Machine/Zwion.lean ====
section
/-!
DEFINITION. The link layer of a Zwion port (R339), and what the ranks of a collective tell each other over it (R341 to R343).
-/
namespace Sys2Proof.Machine

/-! ### The link layer (R339) -/

/-- A port of the module. -/
def State.port (s : State) (n : Nat) : Zwion := s.zwion.getD n {}

/-- Changes a port. -/
def State.onPort (s : State) (n : Nat) (f : Zwion → Zwion) : State := { s with zwion := s.zwion.set n (f (s.port n)) }

/-- The first 252 bytes of a flit, as one number: SEQ with the type, ACK with the class, four zero bytes and the payload (R339). -/
def Flit.body (f : Flit) : Nat :=
  (f.seq.toNat + f.kind.toNat * 2 ^ 12) + (f.ack.toNat + f.cls.toNat * 2 ^ 12) * 2 ^ 16 + (f.payload.foldr (fun b n => b.toNat + 256 * n) 0 % 2 ^ 1952) * 2 ^ 64

/-- The CRC of a flit, CRC-32C over its bytes 0 to 251 (R339; log 25): from all ones, inverted. -/
def Flit.crc (f : Flit) : BitVec 32 := ~~~(crcBytes 252 f.body 0xFFFFFFFF)

/-- The 256 bytes of a flit on the link (R339). -/
def Flit.bytes (f : Flit) : List Byte :=
  (List.range 256).map fun i => BitVec.ofNat 8 ((f.body + f.crc.toNat * 2 ^ 2016) / 2 ^ (8 * i))

/-- Sends what waits while the replay buffer of 2,048 flits has room. -/
def Zwion.drain (z : Zwion) : Nat → Zwion
  | 0 => z
  | k + 1 =>
    match z.queue with
    | [] => z
    | (cls, payload) :: rest =>
      if 2048 ≤ z.replay.length then z
      else
        let f : Flit := { seq := z.txSeq, cls := cls, payload := payload, ack := z.rxLast }
        Zwion.drain { z with queue := rest, txSeq := z.txSeq + 1, replay := z.replay ++ [f], line := z.line ++ [f] } k

/-- Sends payloads of a class in order. -/
def Zwion.send (z : Zwion) (cls : BitVec 4) (payloads : List (List Byte)) : Zwion :=
  let z := { z with queue := z.queue ++ payloads.map fun p => (cls, p) }
  z.drain z.queue.length

/-- Whether a flit of the replay buffer is acknowledged by the last sequence number received in order: it is not after it, over 12 bits. -/
def Flit.ackedBy (f : Flit) (last : BitVec 12) : Bool := decide ((last - f.seq).toNat < 2048)

/-- Flits that are acknowledged leave the replay buffer; NAKs of one of them are no longer in a row. -/
def Zwion.acked (z : Zwion) (last : BitVec 12) : Zwion :=
  let z := { z with replay := z.replay.filter fun f => !(f.ackedBy last), naks := if (last - z.nakOf).toNat < 2048 then 0 else z.naks }
  z.drain z.queue.length

/-- Sends a flit that carries an answer alone: 1 acknowledge, 2 NAK, 3 busy, with the last sequence received in order, and for a busy the flit that is refused. -/
def Zwion.reply (z : Zwion) (kind : BitVec 4) (seq : BitVec 12) (cls : BitVec 4) : Zwion :=
  { z with answered := kind.toNat, line := z.line ++ [{ seq := seq, cls := cls, payload := [], kind := kind, ack := z.rxLast }] }

/-- Replays from a flit on, in order. -/
def Zwion.replayFrom (z : Zwion) (seq : BitVec 12) : Zwion :=
  { z with line := z.line ++ z.replay.filter fun f => !(f.ackedBy (seq - 1)) }

/-- A receiver discards a flit and answers NAK with the last good sequence; NAKs of one flit in a row are counted. -/
def Zwion.nak (z : Zwion) : Zwion :=
  let want := z.rxLast + 1
  { z.reply 2 want 0 with sentOf := want, sentNaks := if z.sentOf = want then z.sentNaks + 1 else 1 }

/-- The sender gets a NAK: what is acknowledged leaves, and it replays from the next flit; 16 in a row for one flit make the port retrain. -/
def Zwion.gotNak (z : Zwion) (last : BitVec 12) : Zwion :=
  let want := last + 1
  ({ z.acked last with nakOf := want, naks := if z.nakOf = want then z.naks + 1 else 1 }).replayFrom want

/-- A good flit arrives: data in sequence is kept, or refused busy when the buffer of its class is full; a gap is a NAK. The other types carry an answer, or time. A flit that was
received before, which R339 does not name, is answered as a gap is: the model's choice (log 63). -/
def Zwion.take (z : Zwion) (kind : BitVec 4) (seq ack : BitVec 12) (cls : BitVec 4) (payload : List Byte) (full : Bool) (now : Nat) : Zwion :=
  match kind.toNat with
  | 0 =>
    let z := z.acked ack
    if seq ≠ z.rxLast + 1 then z.nak
    else if full then z.reply 3 seq cls
    else
      let got : Zwion := { z with rxLast := seq, sentNaks := 0, received := z.received ++ [{ seq := seq, cls := cls, payload := payload }] }
      got.reply 1 seq cls
  | 1 => z.acked ack
  | 2 => z.gotNak ack
  | 3 => { z.acked ack with resend := some (seq, now + 1600) }
  | 4 => z.acked ack
  | _ => z

/-! ### Collective descriptors (R341) -/

/-- Doubleword i of a slot's descriptor. -/
def CollSlot.word (c : CollSlot) (i : Nat) : Word := c.desc.getD i 0

/-- PDOMAIN. -/
def CollSlot.domain (c : CollSlot) : Nat := bitsOf (c.word 0) 32 16
/-- TYPE. -/
def CollSlot.type (c : CollSlot) : Nat := bitsOf (c.word 0) 26 2
/-- OP. -/
def CollSlot.op (c : CollSlot) : Nat := bitsOf (c.word 0) 24 2
/-- NRANK. -/
def CollSlot.nrank (c : CollSlot) : Nat := bitsOf (c.word 0) 16 8 + 1
/-- RANK. -/
def CollSlot.rank (c : CollSlot) : Nat := bitsOf (c.word 0) 8 8
/-- COUNT. -/
def CollSlot.count (c : CollSlot) : Nat := bitsOf (c.word 1) 0 32
/-- Bytes of an element. -/
def CollSlot.size (c : CollSlot) : Nat := if c.type = 0 then 4 else 8
/-- Elements of a chunk of 64 KiB. -/
def CollSlot.perChunk (c : CollSlot) : Nat := 65536 / c.size
/-- Chunks of a contribution. -/
def CollSlot.chunks (c : CollSlot) : Nat := (c.count + c.perChunk - 1) / c.perChunk

/-- Bytes of elements, low byte first. -/
def elementBytes (n : Nat) (vs : List Word) : List Byte := vs.flatMap fun v => (List.range n).map fun i => BitVec.ofNat 8 (v.toNat / 2 ^ (8 * i))

/-- Cuts a list into pieces of k. -/
def pieces {β : Type} (k : Nat) (xs : List β) : List (List β) := (List.range ((xs.length + k - 1) / k)).map fun i => (xs.drop (i * k)).take k

/-! ### Telling the other ranks (R342, R343) -/

/-- The status word (R343). -/
def collStatus (code peer : Nat) (flags : BitVec 5) : Nat := peer * 2 ^ 24 + flags.toNat * 256 + code

/-- Sends a collective's bytes to the device of a rank, in flits (R342; log 25). -/
def State.sendRank (s : State) (c : CollSlot) (rank : Nat) (bytes : List Byte) : State :=
  s.onPort (Config.collPort (bitsOf (c.word 0) 0 8) rank % 8) fun z => z.send 0 (pieces 244 bytes)

/-- Whether an ending, by the code that is told and its PEER, is one that this rank has met itself: FAULT or PEER_WITHDRAWN with its own number (R343). -/
def CollSlot.met (c : CollSlot) (code peer : Nat) : Bool := (code == 3 || code == 4) && peer == c.rank

/-- An ending goes to the other ranks (R342): from rank 0 to every other one, with the result on DONE; from another rank, of an ending that it met itself, to rank 0. -/
def State.tellEnding (s : State) (c : CollSlot) (code peer : Nat) (flags : BitVec 5) (result : List Word) : State :=
  let bytes := elementBytes 8 [BitVec.ofNat 64 (collStatus code peer flags)] ++ if code = 1 then elementBytes c.size result else []
  let ranks := if c.rank = 0 then (List.range (c.nrank - 1)).map (· + 1) else if c.met code peer then [0] else []
  ranks.foldl (fun s r => s.sendRank c r bytes) s

/-- Whether some of a run's bytes from an address stand on a die: at a home slice or in an HBM stack of it. -/
def State.bytesOn (s : State) (p die a n : Nat) : Bool :=
  (List.range (n / 4096 + 1)).any fun i =>
    let b := a + 4096 * i
    (s.homeSlice p b).any (fun sl => sliceDie sl == die) || match s.walk b with
      | .leaf e => bitsOf e 61 1 == 0 && 32 + bitsOf e 48 5 == die
      | _ => false

/-- Open collectives whose contribution or result stands on a die end FAULT when it is frosted, and the other ranks end PEER_WITHDRAWN (R365). -/
def State.frostColls (s : State) (die : Nat) : State :=
  let hit (p : Nat) (c : CollSlot) : Bool :=
    c.open_ && (s.bytesOn p die (c.word 2).toNat (c.count * c.size) || s.bytesOn p die (c.word 3).toNat (c.count * c.size))
  { s with parts := s.parts.map fun (x : Nat × Part) => (x.1, { x.2 with
      colls := x.2.colls.map fun y => (y.1, if hit x.1 y.2 then { y.2 with due := some (4, y.2.rank, 0, [], 3) } else y.2) }) }

/-- The collectives of a partition that a test of their domain picks are withdrawn, and the other ranks are told (R342, R364, R365). -/
def State.withdraw (s : State) (p : Nat) (mine : Nat → Bool) : State :=
  match s.parts.get p with
  | none => s
  | some q =>
    let s := (q.colls.filter fun x => mine x.2.domain && !x.2.withdrawn).foldl (fun (s : State) x => s.tellEnding x.2 3 x.2.rank 0 []) s
    s.onPart p fun q =>
      { q with colls := q.colls.map fun x => if mine x.2.domain then (x.1, { x.2 with open_ := false, withdrawn := true, due := none, gateSent := none, refused := [] }) else x }

end Sys2Proof.Machine
end

