-- ==== Sys2Proof/Machine/Parts.lean ====
section
/-!
DEFINITION. The partition commands (R318, R324, R351, R355, R363, R374), and the reset of a die (R356, R360 to R362).
-/
namespace Sys2Proof.Machine

/-! ### Rectangles -/

/-- Whether two rectangles of quadrants overlap (R317). -/
def Part.meets (q r : Part) : Bool := overlaps q.qx0 q.qw r.qx0 r.qw && overlaps q.qy0 q.qh r.qy0 r.qh

/-- Whether a rectangle lies in the module (R318). -/
def Part.fits (q : Part) : Bool := decide (q.qx0 + q.qw ≤ 8) && decide (q.qy0 + q.qh ≤ 8)

/-- Whether a partition holds its quadrants: a saved one has given its cores up (R351). -/
def Part.holdsQuads (q : Part) : Bool := q.st != .saved

/-- Whether another partition than p holds a quadrant of a rectangle. -/
def State.taken (s : State) (p : Nat) (q : Part) : Bool := s.parts.any fun x => x.1 != p && x.2.holdsQuads && q.meets x.2

/-! ### PART_CREATE (R318) -/

/-- The places of the bits set in a word. -/
def bitsSet (w : Word) : List Nat := (List.range 64).filter fun i => w.getLsbD i

/-- A partition from its descriptor. -/
def partOf (d : List Word) : Part :=
  let w := d.getD 0 0
  { qx0 := bitsOf w 0 3, qy0 := bitsOf w 3 3, qw := bitsOf w 6 3 + 1, qh := bitsOf w 9 3 + 1, det := w.getLsbD 12, tick := bitsOf w 13 3
    weight := bitsOf w 16 8, phaseGroup := (d.getD 1 0).toNat, vfs := bitsSet (d.getD 2 0) ++ (bitsSet (d.getD 3 0)).map (64 + ·) }

/-- Whether the fields of a descriptor have values that R318 allows. -/
def descriptorGood (d : List Word) : Bool :=
  let q := partOf d
  bitsOf (d.getD 0 0) 24 40 == 0 && (d.drop 4).all (· == 0) && decide (q.tick ≤ 5) && q.weight != 0 && q.fits &&
  if q.det then q.phaseGroup % 8 == 0 else q.phaseGroup == 0

/-- PART_CREATE (R318, R325, R326): in DEPLOYED, a good descriptor starts a partition with the lowest free number. Its phase group has no members, and its memory stamps
are the LF of the wipe. -/
def execPartCreate (desc : List Word) (s : State) : Answer :=
  .next (s.command false desc fun s =>
    let q := partOf desc
    if desc.length ≠ 8 then s.mbEnd 4 []
    else match (List.range 16).find? fun p => (s.parts.get p).isNone with
      | none => s.mbEnd 1 []
      | some p =>
        if s.mgmt.lifecycle ≠ .deployed ∨ descriptorGood desc = false ∨ s.taken p q = true ∨ (s.parts.any fun x => x.2.vfs.any q.vfs.contains) = true then
          s.mbEnd 1 []
        else (({ s with parts := s.parts.set p q }).wipeHomes p).mbEnd 0 [mbWord p])

/-! ### PART_END, PART_DRAIN, PART_PREEMPT -/

/-- PART_END (R324, R325, R346): every launch is ordered to abort; the number and the quadrants are free after the wipe. -/
def execPartEnd (part : Nat) (s : State) : Answer :=
  .next (s.command false [mbWord part] fun s =>
    match s.parts.get part with
    | none => s.mbEnd 1 []
    | some q =>
      if q.st = .running ∨ q.st = .saved then
        let s := q.launches.foldl (fun (s : State) l => s.orderAbort part l.1 { kind := 20 }) s
        let s := (s.withdraw part fun _ => true).onPart part fun q =>
          { q with st := .ended, phaseLaunches := [], phaseSpawns := [], vfs := [], later := [], restored := [] }
        ({ s with saved := s.saved.filter fun x => x.2.part != part }).mbEnd 0 []
      else s.mbEnd 1 [])

/-- Whether a drain deadline is allowed, in µs (R351). -/
def drainAllowed (time : Nat) : Bool := decide (10 ≤ time ∧ time ≤ 1000)

/-- PART_DRAIN (R351, R374): sets the drain deadline of a partition, in µs. -/
def execPartDrain (part deadline : Nat) (s : State) : Answer :=
  .next (s.command false [mbWord part, mbWord deadline] fun s =>
    if (s.parts.get part).isSome && drainAllowed deadline then
      (s.onPart part fun q => { q with drainTime := deadline }).mbEnd 0 []
    else s.mbEnd 1 [])

/-- The mailbox stays BUSY for a partition (R351). -/
def State.busyFor (s : State) (p : Nat) : State := { s with mgmt := { s.mgmt with busy := true, busyPart := p } }

/-- PART_PREEMPT (R351): BUSY until the partition is saved. A deadline of 0 takes the partition's own. -/
def execPartPreempt (part deadline : Nat) (s : State) : Answer :=
  .next (s.command false [mbWord part, mbWord deadline] fun s =>
    match s.parts.get part with
    | none => s.mbEnd 1 []
    | some q =>
      if q.st ≠ .running ∨ (deadline ≠ 0 ∧ drainAllowed deadline = false) then s.mbEnd 1 []
      else (s.startPreempt part (if deadline = 0 then q.drainTime else deadline)).busyFor part)

/-- Ends the command that has waited for a partition. -/
def State.endBusy (s : State) (p : Nat) (code : BitVec 7) : State :=
  if s.mgmt.busy && s.mgmt.nextLife.isNone && s.mgmt.busyPart == p then s.mbEnd code [] else s

/-- Whether the restore of a partition is still going on (R355). -/
def State.restores (s : State) (p : Nat) : Bool := (s.part? p).any fun q => q.st == .restoring

/-- Ends the command that has waited for a partition, once a restore of it is over; the code is kept until then. -/
def State.endRestore (s : State) (p : Nat) (code : BitVec 7) : State :=
  if s.restores p then { s with mgmt := { s.mgmt with code := code } } else s.endBusy p code

/-! ### Resize (R363) -/

/-- Whether two rectangles give the same home list for every entry of a region map (R310, R363). -/
def Part.sameHomes (q r : Part) : Bool := q.regions.all fun e => q.homeList e.2 == r.homeList e.2

/-- Whether a rectangle lies in another. -/
def Part.inside (q r : Part) : Bool :=
  decide (r.qx0 ≤ q.qx0) && decide (r.qy0 ≤ q.qy0) && decide (q.qx0 + q.qw ≤ r.qx0 + r.qw) && decide (q.qy0 + q.qh ≤ r.qy0 + r.qh)

/-- A partition with another rectangle. -/
def Part.withRect (q r : Part) : Part := { q with qx0 := r.qx0, qy0 := r.qy0, qw := r.qw, qh := r.qh }

/-- Clusters of saved images of a partition that a rectangle leaves out, rising. -/
def State.leavingClusters (s : State) (p : Nat) (r : Part) : List Nat :=
  ((s.saved.filter fun x => x.2.part == p && !(x.2.parked) && !(r.coversCore (x.1 % coreCount))).map fun x => clusterOf (x.1 % coreCount)).eraseDups

/-- Clusters of a partition that runs whose images a rectangle would leave out. -/
def State.heldOutside (s : State) (q r : Part) : List Nat := (((s.heldCores q).filter fun c => !(r.coversCore c)).map clusterOf).eraseDups

/-- Whether a cluster is enabled and idle, with no image of a partition saved from it (R21, R363). -/
def State.clusterFree (s : State) (p cluster : Nat) : Bool :=
  (List.range 8).all fun n =>
    let core := cluster * 8 + n
    s.enabled core && s.idle core && !(s.saved.any fun x => x.2.part == p && x.1 % coreCount == core)

/-- Idle enabled clusters of a rectangle, rising, as many as are asked for. -/
def State.freeClusters (s : State) (p : Nat) (r : Part) (k : Nat) : List Nat :=
  (((List.range 131072).filter fun c => r.coversCore (c * 8)).filter fun c => s.clusterFree p c).take k

/-- Whether a shrink that is not forced finds room (R363): for each cluster that the rectangle leaves out, an idle enabled one in it that holds nothing. -/
def State.shrinkFits (s : State) (p : Nat) (q r : Part) : Bool :=
  let held := (s.heldCores q).map clusterOf
  let room := (List.range 131072).filter fun c => r.coversCore (c * 8) && s.clusterFree p c && !(held.contains c)
  decide ((s.heldOutside q r).length ≤ room.length)

/-- The new index of a core under a list of moves of clusters. -/
def movedCore (moves : List (Nat × Nat)) (core : Nat) : Nat :=
  match moves.find? fun m => m.1 == clusterOf core with
  | some m => m.2 * 8 + core % 8
  | none => core

/-- The new id of a context. -/
def movedCtx (moves : List (Nat × Nat)) (id : Nat) : Nat := movedCore moves (coreOf id) * 8 + numberOf id

/-- An address whose LM has moved with its cluster; one of memory stays. An address that was found through a self window and one of the global window are the same by now, and both
follow (log 65). -/
def movedAddr (moves : List (Nat × Nat)) (a : Nat) : Nat :=
  match lmCore? a with
  | some core => lmAddr (movedCore moves core) (lmOffset a)
  | none => a

/-- A job whose LM addresses have moved. -/
def JobKind.moved (moves : List (Nat × Nat)) : JobKind → JobKind
  | .mst addr opts acc => .mst (BitVec.ofNat 64 (movedAddr moves addr.toNat)) opts acc
  | .mldt addr opts ring => .mldt (BitVec.ofNat 64 (movedAddr moves addr.toNat)) opts ring
  | k => k

/-- What a flight carries, with its contexts and LM addresses moved. -/
def FKind.moved (moves : List (Nat × Nat)) (k : FKind) : FKind :=
  let part (x : GamoPart) : GamoPart := { x with ctx := movedCtx moves x.ctx }
  let atom (q : AtomReq) : AtomReq := { q with addr := movedAddr moves q.addr, parts := q.parts.map part }
  match k with
  | .lmLoad fmt d a acq sc => .lmLoad fmt d (movedAddr moves a) acq sc
  | .store q => .store { q with addr := movedAddr moves q.addr }
  | .storeAck q v => .storeAck { q with addr := movedAddr moves q.addr } v
  | .atomic q => .atomic (atom q)
  | .atomicResult q a => .atomicResult (atom q) a
  | .lmWrite a w rel sc => .lmWrite (movedAddr moves a) w rel sc
  | .lmAck a b => .lmAck (movedAddr moves a) b
  | .feOffer a op acq => .feOffer (movedAddr moves a) op acq
  | k => k

/-- Relocates images, all of a cluster together, with what is recorded of their accesses (R363). A core that has still to acknowledge a purge of rights does so under its new index
(R308). -/
def State.relocate (s : State) (p : Nat) (moves : List (Nat × Nat)) : State :=
  let move (f : Flight) : Flight :=
    if f.part = p then { f with kind := f.kind.moved moves, ctx := movedCtx moves f.ctx, home := movedCore moves f.home } else f
  let saved := s.saved.foldl (fun (m : FMap SavedCore) x =>
    if x.2.part = p ∧ x.2.parked = false then
      m.set (saveKey p (movedCore moves (x.1 % coreCount))) { x.2 with
        core := { x.2.core with
          jobs := x.2.core.jobs.map fun j => { j with kind := j.kind.moved moves, ctx := movedCtx moves j.ctx }
          copies := x.2.core.copies.map fun c => (c.1, { c.2 with ctx := movedCtx moves c.2.ctx }) }
        ctxs := x.2.ctxs.map fun c => { c with home := movedCore moves c.home }, replay := x.2.replay.map move }
    else m.set x.1 x.2) []
  let purging (d : Domain) : Domain := if d.part = p then { d with purging := d.purging.map (movedCore moves) } else d
  { s.setFlights (s.net.flights.map move) with saved := saved, domains := s.domains.map fun d => (d.1, purging d.2) }

/-- The part of an image that belongs to some launches, or to all others. -/
def SavedCore.only (x : SavedCore) (mine : Option Nat → Bool) : SavedCore :=
  let entry (e : Word × Nat) : Bool := match x.ctxs.find? fun c => c.st != .free && c.uid == e.2 with
    | some c => mine c.launch
    | none => x.core.copies.any fun c => c.2.id == e.1 && c.2.uid == e.2 && mine c.2.launch
  { x with
    ctxs := x.ctxs.map fun c => if mine c.launch then c else {}
    core := { x.core with
      jobs := x.core.jobs.filter fun j => mine j.launch, copies := x.core.copies.filter fun c => mine c.2.launch, copyEntries := x.core.copyEntries.filter entry
      pins := x.core.pins.filter (fun y => mine (some y.launch))
      boxLo := x.core.boxLo.filter (fun m => mine m.2.launch), orderLo := x.core.orderLo.filter fun i => (x.core.boxLo.get i).any fun m => mine m.launch
      boxHi := x.core.boxHi.filter (fun m => mine m.2.launch), orderHi := x.core.orderHi.filter fun i => (x.core.boxHi.get i).any fun m => mine m.launch }
    replay := x.replay.filter fun f => mine f.launch }

/-- A free key for a parked image of a core, beside those of its partition's saves: each is of other launches (R363). -/
def parkKey (m : FMap SavedCore) (p core : Nat) : Nat :=
  saveKey (((((List.range 257).map fun k => 16 * (k + 1) + p).find? fun k => (m.get (saveKey k core)).isNone)).getD (16 + p)) core

/-- Parked images of a partition, with their cores. -/
def State.parkedImages (s : State) (p : Nat) : List (Nat × SavedCore) :=
  (s.saved.filter fun x => x.2.part == p && x.2.parked).map fun x => (x.1 % coreCount, x.2)

/-- A forced shrink that relocates nothing: launches with a context, or other work, in a leaving quadrant are parked, and their images stay saved (R363). What a leaving image holds of
no launch stays with it. That a launch with other work there alone is parked too is the model's choice (log 65). -/
def State.parkLaunches (s : State) (p : Nat) (r : Part) : State :=
  let mine := (s.saved.filter fun x => x.2.part == p && !(x.2.parked)).map fun x => (x.1 % coreCount, x.2)
  let slots := (mine.flatMap fun x => if r.coversCore x.1 then [] else x.2.launches).eraseDups
  let group := (s.parkedImages p).foldl (fun n x => Nat.max n (x.2.group + 1)) 0
  let parked (l : Option Nat) : Bool := l.any slots.contains
  let keep := mine.filterMap fun (x : Nat × SavedCore) =>
    if r.coversCore x.1 then (if x.2.launches.any slots.contains then some (x.1, x.2.only parked) else none)
    else if x.2.bare then none else some x
  let back := (mine.filter fun (x : Nat × SavedCore) => r.coversCore x.1).map fun (x : Nat × SavedCore) => (x.1, x.2.only fun l => !(parked l))
  let others := s.saved.filter fun x => x.2.part != p || x.2.parked
  let s := { s with saved := keep.foldl (fun (m : FMap SavedCore) (x : Nat × SavedCore) => m.set (parkKey m p x.1) { x.2 with parked := true, group := group }) others }
  let s := (s.imagesBack p back State.imageBack).resumePart p
  slots.foldl (fun (s : State) k => s.onLaunch p k fun l => { l with parked := true, st := .open_ }) s

/-- A shrink once the partition is saved (R363): relocation and restore, or parking, when it is forced. -/
def State.shrinkNow (s : State) (p : Nat) (q : Part) (r : Part) : State :=
  let leaving := s.leavingClusters p r
  let room := s.freeClusters p r leaving.length
  let resized (s : State) : State := s.onPart p fun q => q.withRect r
  if leaving.length ≤ room.length ∧ q.det = false then ((resized (s.relocate p (leaving.zip room))).restorePart p).endRestore p 0
  else ((resized s).parkLaunches p r).endRestore p 0

/-- A partition that has drained is saved; a shrink or a die reset that waits for it goes on (R351, R360, R363). A shrink that is not forced, and that what the drain has written leaves
without room, is refused here: nothing is saved, and the contexts issue on (R374). -/
def State.finishPreempt (s : State) (p : Nat) (q : Part) : State :=
  match q.shrink with
  | some (x, y, w, h, forced) =>
    let r : Part := { q with qx0 := x, qy0 := y, qw := w, qh := h }
    if !forced && !(s.shrinkFits p q r) then (s.onPart p fun q => { q with st := .running, shrink := none }).endBusy p 1
    else (s.savePart p q).shrinkNow p q r
  | none => (s.savePart p q).endBusy p 0

/-- DRAIN_COMPLETE (R351): nothing is left to drain before the deadline. -/
def execDrainComplete (part : Nat) (s : State) : Answer :=
  .next (match s.parts.get part with
    | some q => match q.st with
      | .draining _ => if s.drainOver q && !(s.combining q) then s.finishPreempt part q else s
      | _ => s
    | none => s)

/-- PREEMPT_DRAIN_DEADLINE (R351): what is still outstanding at the deadline is recorded. -/
def execPreemptDrainDeadline (part : Nat) (s : State) : Answer :=
  .next (match s.parts.get part with
    | some q => match q.st with
      | .draining t => if t ≤ s.gtrOf sDie ∧ s.combining q = false then s.finishPreempt part q else s
      | _ => s
    | none => s)

/-- Whether a parked image can come back on its core as the core stands: with its size of cache region or unused (R21), and with its contexts, footprints, mailbox slots, job-queue entries and
copy records free. -/
def State.imageFits (s : State) (core : Nat) (x : SavedCore) : Bool :=
  let now := s.core core
  (now.cacheSize == x.core.cacheSize || s.unused core) && decide (now.entries + x.core.entries ≤ 4) &&
  ((List.range 6).all fun n => (x.ctxs.getD n {}).st == .free || (s.ctx (core * 8 + n)).st == .free) &&
  !(x.core.pins.any fun y => now.pins.any fun z => overlaps y.off y.len z.off z.len) &&
  !(x.core.boxLo.any fun m => (now.boxLo.get m.1).isSome) && !(x.core.boxHi.any fun m => (now.boxHi.get m.1).isSome) &&
  !(x.core.copies.any fun c => decide (1 ≤ c.2.status ∧ c.2.status ≤ 3) && now.copyBusy c.1)

/-- A core that others use, with what an image brings back: jobs after those queued, copies, entries, footprints and messages. -/
def Core.join (now k : Core) : Core :=
  { now with
    jobs := now.jobs ++ k.jobs, jobStatus := (now.jobStatus ++ k.jobStatus.filter fun x => !(now.jobStatus.any fun y => y.1 == x.1)).take 256
    copies := (k.copies.filter fun c => decide (1 ≤ c.2.status ∧ c.2.status ≤ 3) || (now.copies.get c.1).isNone).foldl
      (fun (m : FMap CopyRec) c => m.set c.1 c.2) now.copies
    copyEntries := now.copyEntries ++ k.copyEntries, pins := now.pins ++ k.pins
    boxLo := k.boxLo.foldl (fun (m : FMap Msg) x => m.set x.1 x.2) now.boxLo, boxHi := k.boxHi.foldl (fun (m : FMap Msg) x => m.set x.1 x.2) now.boxHi
    orderLo := now.orderLo ++ k.orderLo, orderHi := now.orderHi ++ k.orderHi }

/-- The LM of a core cleared where an image is to come: 0, full and without poison. -/
def State.clearLm (s : State) (core : Nat) (here : Nat → Bool) : State :=
  let gone (a : Nat) : Bool := inLmOf (· == core) a && here (lmOffset a)
  { s with mem := s.mem.filter fun c => !(gone c.1), emptied := s.emptied.filter fun a => !(gone a), poison := s.poison.filter fun a => !(gone a) }

/-- Puts a parked image back: whole on a core that nothing uses; on one that others use, of the LM, what its footprints hold (log 65). -/
def State.imageJoin (s : State) (core : Nat) (x : SavedCore) : State :=
  if s.unused core then (s.clearLm core fun _ => true).imageBack core x
  else
    let held (o : Nat) : Bool := x.core.pins.any fun y => decide (y.off ≤ o) && decide (o < y.off + y.len)
    (s.clearLm core held).placeImage core { x with lm := x.lm.filter fun b => held b.1, empty := x.empty.filter held, poison := x.poison.filter held }
      ((s.core core).join (s.coreBack x.part core x.core))

/-- Images of one forced shrink, one after another: whether each fits on what stands then. -/
def State.imagesFit (s : State) (q : Part) (images : List (Nat × SavedCore)) : Bool :=
  (images.foldl (fun (r : Bool × State) x => (r.1 && q.coversCore x.1 && r.2.imageFits x.1 x.2, r.2.imageJoin x.1 x.2)) (true, s)).1

/-- The forced shrinks whose parked images a partition still has, oldest first. -/
def State.parkedGroups (s : State) (p : Nat) : List Nat :=
  let gs := ((s.parkedImages p).map fun x => x.2.group).eraseDups
  (List.range (gs.foldl Nat.max 0 + 1)).filter gs.contains

/-- The launches that one forced shrink parked resume, if their images can come back (R363). -/
def State.resumeGroup (s : State) (p : Nat) (q : Part) (g : Nat) : State :=
  let mine := (s.parkedImages p).filter fun x => x.2.group == g
  let t := { s with saved := s.saved.filter fun x => !(x.2.part == p && x.2.parked && x.2.group == g) }
  if t.imagesFit q mine then
    let slots := mine.flatMap fun x => x.2.launches
    (t.imagesBack p mine State.imageJoin).onPart p fun q => { q with launches := q.launches.map fun (l : Nat × Launch) =>
      (l.1, if l.2.parked && slots.contains l.1 then ({ l.2 with parked := false }).settle else l.2) }
  else s

/-- Whether the images of some forced shrink can come back. -/
def State.parkedFit (s : State) (p : Nat) (q : Part) : Bool :=
  (s.parkedGroups p).any fun g =>
    ({ s with saved := s.saved.filter fun x => !(x.2.part == p && x.2.parked && x.2.group == g) }).imagesFit q ((s.parkedImages p).filter fun x => x.2.group == g)

/-- Parked launches resume (R363): those of each forced shrink, oldest first, whose images can come back beside what the partition runs by then. -/
def State.resumeParked (s : State) (p : Nat) (q : Part) : State :=
  ((s.parkedGroups p).foldl (fun (s : State) g => s.resumeGroup p q g) s).resumePart p

/-- Management orders a parked launch to abort, with KIND 20 (R363). -/
def State.abortParked (s : State) (p slot : Nat) : State :=
  match s.launch? p slot with
  | some l => if l.parked && s.mgmt.main then s.orderAbort p slot { kind := 20 } else s
  | none => s

/-- The next step of a restore (R355); with the last one the command that has waited for it ends. -/
def State.continueRestore (s : State) (p : Nat) : State :=
  if s.restores p then
    (let t := s.resumePart p
     if t.restores p then t else t.endBusy p t.mgmt.code)
  else s

/-- PART_RESTORE (R351, R355, R363): refused for a partition that is not saved, or whose cores another partition holds. A running partition with parked launches
resumes them when it is large enough. The mailbox is BUSY until the contexts have resumed. -/
def execPartRestore (part : Nat) (s : State) : Answer :=
  let ends (t : State) : State := if t.restores part then ({ t with mgmt := { t.mgmt with code := 0 } }).busyFor part else t.mbEnd 0 []
  .next (s.command false [mbWord part] fun s =>
    match s.parts.get part with
    | none => s.mbEnd 1 []
    | some q =>
      if q.st = .saved ∧ s.taken part q = false then ends (s.restorePart part)
      else if q.st = .running ∧ s.parkedFit part q = true then ends (s.resumeParked part q)
      else s.mbEnd 1 [])

/-- PART_RESIZE (R318, R363): a good descriptor; the rectangle of the descriptor must give the same homes; a grow takes unassigned quadrants, and a shrink pre-empts the partition first. One
that is not forced is refused, and changes nothing, where the remainder has too few idle clusters (R374). -/
def execPartResize (part : Nat) (desc : List Word) (forced : Bool) (s : State) : Answer :=
  .next (s.command false (mbWord part :: desc ++ [if forced then 1 else 0]) fun s =>
    let r := partOf desc
    match s.parts.get part with
    | none => s.mbEnd 1 []
    | some q =>
      if desc.length ≠ 8 then s.mbEnd 4 []
      else if q.st ≠ .running ∨ descriptorGood desc = false ∨ s.taken part r = true ∨ q.sameHomes (q.withRect r) = false then s.mbEnd 1 []
      else if q.inside r then (s.onPart part fun q => q.withRect r).mbEnd 0 []
      else if r.inside q && (forced || (!q.det && s.shrinkFits part q (q.withRect r))) then
        ((s.startPreempt part q.drainTime).onPart part fun q => { q with shrink := some (r.qx0, r.qy0, r.qw, r.qh, forced) }).busyFor part
      else s.mbEnd 1 [])

/-! ### Frost, reset and return of a die (R356, R360 to R362) -/

/-- Tile of a C-die, B-die or HBM logic die. -/
def dieTile (die : Nat) : Nat := if die < 16 then die else baseTile die

/-- Whether a flight is bound to a die or comes from it (R360). -/
def State.touchesDie (s : State) (die : Nat) (f : Flight) : Bool :=
  tileOf (coreOf f.ctx) == die ||
  match f.accessed with
  | some a => (s.homePoint f.part a).on die || decide (s.stackDie a = some die)
  | none => match f.kind with
    | .msg m _ => tileOf m.dest == die
    | .msgAnswer m _ _ _ => tileOf m.dest == die
    | .pushDue q _ _ => (s.homePoint f.part q.addr).on die
    | .pushAck a _ _ _ => (s.homePoint f.part a).on die
    | .pushAnswer g core _ => tileOf core == die || (s.gatherPoint g).on die
    | .push line _ _ dest _ => tileOf dest == die || (s.homePoint f.part line).on die
    | .wait key _ _ _ _ => (s.homePoint f.part key.address).on die
    | .wake key _ _ _ _ => (s.homePoint f.part key.address).on die
    | _ => false

/-- What the death of an agent does to the launch of a flight: an access outstanding there aborts it with KIND 18, one of a copy, or of a handler charged to no launch, among them (R222,
R345); of a saved context only an atomic does, since its store is sent again (R360, R361). -/
def State.frostFlight (s : State) (f : Flight) : State :=
  let a := (f.accessed).getD 0
  match f.kind with
  | .atomic q => if q.parts = [] then s.failFlight f 18 a else q.parts.foldl (fun s x => s.failPart f x 18 a) s
  | .atomicResult q _ => if q.parts = [] then s.failFlight f 18 a else q.parts.foldl (fun s x => s.failPart f x 18 a) s
  | _ => if f.accessed.isSome && (s.alive f || isXu f.ctx) then s.failFlight f 18 a else s

/-- What the death of a core does to its copies that have not ended: they fail, and their launches abort (R222, R360). -/
def State.frostCopies (s : State) (core : Nat) (k : Core) : State := k.copies.foldl (fun (s : State) x => s.failCopy core x.1 18 0 none) s

/-- What the death of a core does to the launch of a context on it: its pre-emption has failed, or it is frozen (R351, R360). -/
def State.frostCtx (s : State) (c : Ctx) : State :=
  let draining := match s.parts.get c.partNo with
    | some q => match q.st with
      | .draining _ => true
      | _ => false
    | none => false
  match c.launch with
  | some slot => s.orderAbort c.partNo slot { kind := if draining then 21 else 18, tid := c.cr.tid }
  | none => s

/-- Whether a record of a saved context is of an atomic whose home slice stands on a die (R361). -/
def State.lostAtomic (s : State) (die : Nat) (f : Flight) : Bool :=
  (match f.kind with
    | .atomic _ => true
    | .atomicResult _ _ => true
    | _ => false) && (f.accessed).any fun a => (s.homePoint f.part a).on die || decide (s.stackDie a = some die)

/-- What the death of a die leaves to the timer of a sender elsewhere (R146, R358, R360): the answer of a message, and the acknowledgement of a push whose home has died. -/
def Flight.orphaned (f : Flight) (die : Nat) : Option Flight :=
  if tileOf (coreOf f.ctx) = die then none
  else match f.kind with
    | .msg _ _ => some f
    | .msgAnswer _ _ _ _ => some f
    | .pushAck _ _ _ _ => some f
    | .pushDue q _ _ => some { f with kind := .pushAck q.addr 0 (psetCores q.pset).length false }
    | _ => none

/-- The acknowledgement that a gathering home slice has died with (R146). -/
def Gather.orphan (g : Gather) (now : Nat) : Flight :=
  { kind := .pushAck g.addr g.delivered (g.refused + g.left) false, ctx := g.ctx, uid := g.uid, part := 0, domain := 0, launch := none, sentAt := now }

/-- Pushes on their way to a receiver that has died count as refused (R146). -/
def State.refusePushes (s : State) (die : Nat) (hit : List Flight) : State :=
  hit.foldl (fun s f => match f.kind with
    | .push _ _ _ dest g => if tileOf dest = die then s.gathered f g false else s
    | .pushAnswer g core ok => if tileOf core = die then s.gathered f g ok else s
    | _ => s) s

/-- Whether the frost of a die drops a flight (R360): it is bound to the die or comes from it. A transaction of an agent elsewhere that the die has refused since its quiesce began is
not outstanding there: it is offered again. -/
def State.frosts (s : State) (die : Nat) (f : Flight) : Bool :=
  s.touchesDie die f && !(tileOf (coreOf f.ctx) != die && s.refuses die (some f.sentAt))

/-- Frosts a die (R360): launches with an access there or a context on it abort, a saved one with an atomic there too (R361), and what is bound to it or comes from it is dropped. -/
def State.frost (s : State) (die : Nat) : State :=
  let hit := (s.net.flights.filter fun f => s.frosts die f) ++ s.net.lost.filter fun f => s.touchesDie die f
  let before := s
  let gone (f : Flight) : Bool := before.lostAtomic die f
  let s := (hit ++ s.saved.flatMap fun x => x.2.replay.filter gone).foldl State.frostFlight s
  let s := (before.cores.filter fun x => tileOf x.1 == die).foldl (fun (s : State) x => s.frostCopies x.1 x.2) s
  let s := (s.ctxs.filter fun x => x.2.st != .free && tileOf (coreOf x.1) == die).foldl (fun (s : State) x => s.frostCtx x.2) s
  let s := { s with
    saved := s.saved.map fun (x : Nat × SavedCore) => (x.1, { x.2 with replay := x.2.replay.filter fun f => !(gone f) })
    net := { s.net with
      flights := s.net.flights.filter fun f => !(s.frosts die f)
      lost := (s.net.lost.filterMap fun f => if s.touchesDie die f then f.orphaned die else some f) ++
        (s.net.flights.filterMap fun f => if s.frosts die f then f.orphaned die else none) ++
        ((s.net.gathers.filter fun (g : Gather) => sliceDie g.slice == die && tileOf (coreOf g.ctx) != die).map fun (g : Gather) =>
          g.orphan (s.gtrOf (tileOf (coreOf g.ctx))))
      gathers := s.net.gathers.filter fun g => tileOf (coreOf g.ctx) != die && sliceDie g.slice != die
      absent := if s.net.absent.contains die then s.net.absent else s.net.absent ++ [die] } }
  let s := ((s.refusePushes die hit).frostColls die)
  s.onDie die fun d => { d with frosted := true, quiesce := none, replays := 0 }

/-- CROSSING_REPLAY (R356): a CRC failure at a die's crossing; the replay goes through, or fails. After 16 failed replays the crossing is frosted. -/
def execCrossingReplay (die : Nat) (good : Bool) (s : State) : Answer :=
  .next (if 64 ≤ die ∨ (s.die die).frosted = true ∨ s.mgmt.main = false then s
    else if good then s.onDie die fun d => { d with errors := d.errors + 1, replays := 0 }
    else if (s.die die).replays + 1 < 16 then s.onDie die fun d => { d with replays := d.replays + 1 }
    else s.frost die)


/-- A die after its reset: its agents have the next incarnation, and its clock has not loaded the master yet (R148, R362). A clamp stands until the sensors lift it, and holds a
C-die at 0.50 GHz (R370). -/
def Die.fresh (d : Die) (held : Bool) : Die :=
  { incarnation := d.incarnation + 1, returned := true, sensors := d.sensors, errors := d.errors, clamped := d.clamped, step := if held then 0 else 20 }

/-- Resets a frosted die and lifts the frost (R360 to R362): a C-die's cores and routers are wiped; a B-die's slices hold nothing and have to return. -/
def State.returnDie (s : State) (die : Nat) : State :=
  let s := if die < 16 then s.wipeCores fun c => tileOf c == die else s
  let here (sl : Nat) : Bool := decide (sl < 1024) && sliceDie sl == die
  let s := State.wipeDue { s with net := { s.net with
    recs := s.net.recs.filter fun r => !(here r.slice), waits := s.net.waits.filter fun w => !(here w.slice)
    faults := s.net.faults.filter fun r => !(here r.slice), trans := s.net.trans.filter fun t => !(here t.slice)
    answers := s.net.answers.filter fun x => !(here x.slice), mexpiry := s.net.mexpiry.filter (fun x => !(here (x.1 % 1024))), mparties := s.net.mparties.filter fun x => !(here (x.1 % 1024))
    wanted := s.net.wanted.filter fun x => !(here x.1), dispensers := s.net.dispensers.filter fun d => !(here d.2)
    returning := s.net.returning ++ (List.range 1024).filter here, absent := s.net.absent.filter (· != die) } }
  (s.onDie die fun d => d.fresh (decide (die < 16) && s.isClamped die)).dropStale

/-- Partitions with quadrants on the tile of a die. -/
def State.partsOn (s : State) (die : Nat) : List (Nat × Part) := s.parts.filter fun x => decide (0 < x.2.quadrantsOn (dieTile die))

/-- DIE_RESET (R360): the next step of the reset of a die: pre-emption, if the die answers; quiesce; after the frost, the reset, and the restore of what it pre-empted. Resetting the
S-die resets the module. Without Main every die is held in reset already (R368). -/
def execDieReset (die : Nat) (answers : Bool) (s : State) : Answer :=
  let mine := s.partsOn die
  .next (if s.mgmt.main = false ∨ sDie < die then s
    else if die = sDie then s.restart
    else if (s.die die).frosted then
      let back := s.parts.filter fun x => x.2.resetBy == some die && x.2.st == .saved
      back.foldl (fun (s : State) x => s.restorePart x.1) (s.returnDie die)
    else if (s.die die).quiesce.isSome then s
    else if answers && mine.any fun x => x.2.st == .running then
      mine.foldl (fun (s : State) x =>
        if x.2.st = .running then (s.startPreempt x.1 x.2.drainTime).onPart x.1 fun q => { q with resetBy := some die } else s) s
    else if answers && mine.any fun x => x.2.holdsPower then s
    else
      let s := s.onDie die fun d => { d with quiesce := some (s.gtrOf sDie + s.mgmt.quiesceTime * microsecond) }
      { s with net := { s.net with absent := s.net.absent ++ [die] } })

/-- HOME_RETURN (R361): a slice that returned sets the memory stamp of every region of its homes past its PUB, publishes it, and serves again; it waits while the stamp is later
than the horizon (R131). -/
def execHomeReturn (slice : Nat) (s : State) : Answer :=
  let m : Stamp := s.net.pub.getD slice 0 + 1048577
  .next (if !(s.net.returning.contains slice) || (s.parts.any fun x => later m (s.horizon x.1 (sliceDie slice))) then s
    else { s with net := { s.net with
      mstamps := s.net.mstamps.filter fun x => x.1 % 1024 != slice
      mreturned := (List.range 16).foldl (fun (t : FMap Stamp) p => t.set (returnKey p slice) m) s.net.mreturned
      pub := s.net.pub.set slice m, returning := s.net.returning.filter (· != slice) } })

end Sys2Proof.Machine
end

