-- ==== Sys2Proof/Machine/HostPort.lean ====
section
/-!
DEFINITION. The host port: lines of host memory and snoops (R331 to R334), the bias of shared device memory (R335), launch ports and completion
queues of VFs (R337, R338), and the reset of a VF (R364).
-/
namespace Sys2Proof.Machine

/-- Whether CXL.cache and CXL.mem are offered (R372). -/
def State.offered (s : State) : Bool := s.mgmt.main && s.mgmt.step == 9

/-- Whether the VFs are offered: they exist in DEPLOYED only (R326). -/
def State.vfOffered (s : State) : Bool := s.offered && s.mgmt.lifecycle == .deployed

/-! ### Host lines (R331 to R334) -/

/-- Writes the 64 bytes of a line at its place in memory. -/
def State.putLine (s : State) (va : Nat) (data : BitVec 512) : State :=
  { s with mem := s.mem.writeNat va 64 data.toNat, poison := s.poison.filter fun w => !(decide (va ≤ w) && decide (w < va + 64)) }

/-- The 64 bytes of a line. -/
def State.lineData (s : State) (va : Nat) : BitVec 512 := BitVec.ofNat 512 (s.mem.readNat va 64)

/-- The states that a grant gives: 1 S, 2 E, 3 M. -/
def grantState (x : BitVec 2) : Mesi := match x with
  | 0 => .i
  | 1 => .s
  | 2 => .e
  | _ => .m

/-- HOST_GRANT (R331): GO and data of the oldest request for a line arrive; SEQ rises. To a request for ownership without data none come (R335). -/
def execHostGrant (hpa : Nat) (state : BitVec 2) (data : BitVec 512) (s : State) : Answer :=
  .next (match s.host.lines.reverse.find? fun l => l.hpa == hpa && (l.pending == 1 || l.pending == 2 || l.pending == 4) with
    | none => s
    | some l =>
      if s.offered then (if l.pending = 4 then s else s.putLine l.va data).setHostLine { l with mesi := grantState state, seq := l.seq + 1, pending := 0 } else s)

/-- Lines of a host address, of any partition tag, oldest first (R320, R331). -/
def State.linesAt (s : State) (hpa : Nat) : List HostLine := (s.host.lines.filter fun l => l.hpa == hpa).reverse

/-- A line leaves the store. -/
def State.dropHostLine (s : State) (l : HostLine) : State :=
  { s with host := { s.host with lines := s.host.lines.filter fun m => !(m.hpa == l.hpa && m.part == l.part) } }

/-- HOST_SNOOP (R333, R334): a snoop is held at each line of its address, and one that invalidates and crosses a dirty eviction is answered from the eviction buffer. R334 does not
name one that only asks for data and crosses an eviction: the pull that ends the eviction serves it (log 63). -/
def execHostSnoop (hpa : Nat) (invalidate : Bool) (s : State) : Answer :=
  .next (if !s.offered then s
    else (s.linesAt hpa).foldl (fun s l =>
      if l.snoop.isSome then s
      else match l.evicted with
        | some d => if invalidate then (s.sendHost { addr := hpa, data := d }).setHostLine { l with evicted := none, seq := l.seq + 1 } else s
        | none => s.setHostLine { l with snoop := some invalidate }) s)

/-- Whether the latest lease on a line is over: 8 ns after its expiry, or BOUND after it while the S-die is not locked (R333). -/
def State.lineLeaseOver (s : State) (l : HostLine) : Bool :=
  l.expiry == 0 || decide (l.expiry + (if (s.die sDie).locked then 128 else (s.die sDie).boundNow) ≤ s.gtrOf sDie)

/-- SNOOP_ANSWER (R333): the held snoop is answered, with the data if a line of the address is M, once no request for it is outstanding and its leases are over. -/
def execSnoopAnswer (hpa : Nat) (s : State) : Answer :=
  let held := (s.linesAt hpa).filter fun l => l.snoop.isSome
  .next (if held.any fun l => l.pending != 0 || !(s.lineLeaseOver l) then s
    else held.foldl (fun s l =>
      let s := if l.mesi = .m then s.sendHost { addr := hpa, data := s.lineData l.va } else s
      let next : Mesi := if l.snoop = some true ∨ l.mesi = .i then .i else .s
      s.setHostLine { l with mesi := next, seq := l.seq + 1, snoop := none }) s)

/-- WRITE_PULL_DROP (R334): it ends an eviction that a snoop has crossed; the line is no longer held. -/
def execWritePullDrop (hpa : Nat) (s : State) : Answer :=
  .next (match s.host.lines.find? fun l => l.hpa == hpa && l.pending == 3 && l.evicted.isNone with
    | none => s
    | some l => s.dropHostLine l)

/-- DIRTY_EVICTION_ANSWER (R334): the host pulls the data, and the line is no longer held. -/
def execDirtyEvictionAnswer (hpa : Nat) (s : State) : Answer :=
  .next (match s.host.lines.find? fun l => l.hpa == hpa && l.pending == 3 && l.evicted.isSome with
    | none => s
    | some l => (s.sendHost { addr := hpa, data := l.evicted.getD 0 }).dropHostLine l)

/-! ### Bias of shared device memory (R335) -/

/-- The partition that a VF is bound to (R323). -/
def State.vfPart (s : State) (vf : Nat) : Option Nat := (s.parts.find? fun x => x.2.vfs.contains vf).map Prod.fst

/-- Whether a VF's domains let the host reach an address: an entry with ATTR plshared and the right (R323, R335). -/
def State.hostReach (s : State) (vf addr : Nat) (write : Bool) : Bool :=
  s.domains.any fun d => d.2.owner == some vf && d.2.rights.any fun e =>
    e.2.holds addr && e.2.attr == attrPlshared && (if write then e.2.w else e.2.r)

/-- An access that is not allowed: poisoned data, or nothing written, and an entry in the VF's error log. -/
def State.hostDenied (s : State) (vf addr : Nat) (read : Bool) : State :=
  let v := s.host.vfs.getD vf {}
  let s := { s with host := { s.host with vfs := s.host.vfs.set vf { v with errorLog := v.errorLog + 1 } } }
  if read then s.sendHost { addr := addr, data := 0, poison := true } else s

/-- HOST_MEM_ACCESS (R335): a CXL.mem read, or write of 64 bytes, of device memory. On a device-bias page it starts the flip and waits for it; on a host-bias page it is
served once the module does not hold the line. One that meets a flip in progress waits, and comes again. -/
def execHostMemAccess (vf addr : Nat) (write : Option (BitVec 512)) (s : State) : Answer :=
  let a := sectorOf addr
  .next (if !s.vfOffered then s
    else if !(s.hostReach vf a write.isSome) || !((s.vfPart vf).any fun p => s.pageOfPart p a) then s.hostDenied vf a write.isNone
    else if s.host.flipping.contains (a / 4096) || s.host.unbiasing == some (a / 4096) then s
    else if !(s.host.hostBias.contains (a / 4096)) then { s with host := { s.host with flipping := s.host.flipping ++ [a / 4096] } }
    else if s.host.lines.any fun l => l.hpa == biasKey a && (l.mesi != .i || l.pending != 0) then s
    else match write with
      | none => s.sendHost { addr := a, data := s.lineData a, poison := (List.range 8).any fun i => s.poison.contains (a + 8 * i) }
      | some d => s.putLine a d)

/-- Whether a lease with an expiry is over at a home's die: 8 ns after it, plus BOUND while the die is not locked (R335). -/
def State.expiryOver (s : State) (die e : Nat) : Bool :=
  e == 0 || decide (e + 128 + (if (s.die die).locked then 0 else (s.die die).boundNow) ≤ s.gtrOf die)

/-- Whether the leases granted on a 4 KiB page are over: 8 ns after the latest expiry, plus BOUND while the home is not locked (R335). -/
def State.pageLeasesOver (s : State) (page : Nat) : Bool :=
  (s.net.recs.all fun r => r.line / 4096 != page || r.sectors.all fun x =>
    let d := sliceDie r.slice
    s.expiryOver d x.2.expiry) &&
  s.net.mexpiry.all fun x => x.1 / 1024 % 2 ^ 52 / 64 != page || s.expiryOver (sliceDie (x.1 % 1024)) x.2

/-- BIAS_FLIP_TO_HOST (R335). -/
def execBiasFlipToHost (page : Nat) (s : State) : Answer :=
  .next (if s.host.flipping.contains page && s.pageLeasesOver page then
      { s with host := { s.host with flipping := s.host.flipping.filter (· != page), hostBias := s.host.hostBias ++ [page] } }
    else s)

/-- Whether the module owns a line, so that the host holds nothing of it, and nothing is outstanding for it (R335). -/
def HostLine.owned (l : HostLine) : Bool := (l.mesi == .e || l.mesi == .m) && l.pending == 0 && l.snoop.isNone && l.evicted.isNone

/-- The partition tag of a page (R313, R320). -/
def State.pagePart (s : State) (a : Nat) : Nat := match s.walk a with
  | .leaf e => bitsOf e 56 4
  | _ => 0

/-- An ownership request without data for a line of a page under host bias that the module does not own and has not asked for; it waits for a way of its set (R332, R335). -/
def State.askOwner (s : State) (a : Nat) : State :=
  let p := s.pagePart a
  match s.hostLine? (biasKey a) p with
  | some l => if l.owned || l.pending != 0 || l.snoop.isSome then s else s.setHostLine { l with pending := 4 }
  | none => match s.hostRoom (biasKey a) with
    | some s => s.setHostLine { hpa := biasKey a, va := a, part := p, pending := 4 }
    | none => s

/-- Addresses of the lines of a 4 KiB page. -/
def pageLines (n : Nat) : List Nat := (List.range 64).map fun i => n * 4096 + 64 * i

/-- The flip of a page to device bias (R335): the host is asked to give up every line of it, and once the module owns each the bias bit is cleared. -/
def State.biasCleared (s : State) (n : Nat) : State :=
  if s.host.hostBias.contains n && !((pageLines n).all fun a => (s.hostLine? (biasKey a) (s.pagePart a)).any HostLine.owned) then (pageLines n).foldl State.askOwner s
  else ({ s with host := { s.host with
    hostBias := s.host.hostBias.filter (· != n), unbiasing := none
    lines := s.host.lines.filter fun l => !(decide (2 ^ 60 ≤ l.hpa) && l.va / 4096 == n) } }).mbEnd 0 []

/-- BIAS_DEVICE (R335, R374): the page at an address goes back to device bias. The mailbox is BUSY until the lines of the page are given up; accesses of the page wait, and the event
comes again when they have been. -/
def execBiasDevice (page : Nat) (s : State) : Answer :=
  let n := page / 4096
  .next (if s.mgmt.busy && s.host.unbiasing == some n then s.biasCleared n
    else s.command false [mbWord page] fun s =>
      if s.host.flipping.contains n then s.mbEnd 1 []
      else { s with host := { s.host with unbiasing := some n }, mgmt := { s.mgmt with busy := true, busyPart := 2 ^ 22 } }.biasCleared n)

/-! ### Launch ports (R337) -/

/-- Sets a VF's LSTAT. -/
def State.setLstat (s : State) (vf status : Nat) : State :=
  { s with host := { s.host with vfs := s.host.vfs.set vf { s.host.vfs.getD vf {} with lstat := BitVec.ofNat 16 status } } }

/-- The domain that DOMAIN 0 names for a VF: the lowest-numbered one that it owns (R212). -/
def State.vfDomain (s : State) (vf : Nat) : Option Nat := (s.domains.find? fun d => d.2.owner == some vf).map Prod.fst

/-- Doublewords of a list of bytes. -/
def wordsOf (bytes : List Byte) : List Word :=
  (List.range (bytes.length / 8)).map fun i => BitVec.ofNat 64 ((List.range 8).map fun k => (bytes.getD (8 * i + k) 0).toNat * 2 ^ (8 * k)).sum

/-- What the S-die finds at FOOT of a record from a launch port. -/
inductive PortList where
  | list (ws : List Word)
  | wait
  | bad
  deriving DecidableEq, Repr

/-- Reads the footprint list of a record from a launch port, under the VF's domain; one that it may not read breaks the record at FOOT (log 24). -/
def State.portList (s : State) (p : Nat) (dom : Option Nat) (ws : List Word) : PortList × State :=
  let foot := (ws.getD 7 0).toNat
  let n := listBytes (ws.getD 0 0)
  if !(isMemory (foot + n - 1)) || decide (foot % 16 ≠ 0) then (.list [], s)
  else match dom with
    | none => (.list [], s)
    | some d =>
      match s.rightsFor d foot, s.rightsFor d (foot + n - 1) with
      | some g, some h =>
        if !(g.r && h.r) then (.bad, s)
        else match s.fetchWords p none none (s.lf p sDie) g.attr (!g.w) foot (n / 8) with
          | (.ok (xs, _, poison), s) => (if poison then .bad else .list xs, s)
          | (.error (.missing _), s) => (.bad, s)
          | (.error _, s) => (.wait, s)
      | _, _ => (.bad, s)

/-- A record from a launch port with its list (R213, R337). In a deterministic partition it enters after the phase's LAUNCHes, which the spec leaves open (log 57). -/
def State.portRecord (s : State) (vf p : Nat) (dom : Option Nat) (r : Record) : State :=
  let named := s.recordDomain p dom (bitsOf (r.word 6) 0 16)
  match r.firstBad named.isSome with
  | some off => s.setLstat vf (0x400 + off)
  | none =>
    let l := r.launch p (named.getD 0) 0 (s.lf p sDie) (s.lf p sDie) (some vf)
    let (status, s) := s.submit p (vfSource vf) (2 ^ 32 * 256) l
    (s.setLstat vf status).phaseKick p

/-- Launches of a VF. -/
def Part.vfLaunches (q : Part) (vf : Nat) : List Nat := (q.launches.filter fun l => l.2.vf == some vf).map Prod.fst

/-- Whether a VF is being reset (R364). -/
def State.vfResetting (s : State) (vf : Nat) : Bool := (s.host.vfs.getD vf {}).resetAt.isSome

/-- LAUNCH_PORT_WRITE (R337): one 64-byte write of LREC submits a record; any other write of it is bad. While a partition is pre-empted its table admits nothing
(R351): the VF is refused, keeps its place and is recorded as by a full table (R200, R226). A list that may not be read breaks the field FOOT, and the lowest offset of all that break R212 is reported (R213). -/
def execLaunchPortWrite (vf offset : Nat) (bytes : List Byte) (s : State) : Answer :=
  .next (if !s.vfOffered || decide (128 ≤ vf) || decide (0x40 ≤ offset) then s
    else if offset ≠ 0 ∨ bytes.length ≠ 64 then s.setLstat vf 0x4FF
    else match s.vfPart vf with
      | none => s.setLstat vf 0x300
      | some p =>
        if s.vfResetting vf then s.setLstat vf 0x300
        else if !((s.part? p).any fun q => q.st == .running) then
          (if s.isDet p then s else (s.offer (.launchTable p) (vfSource vf) 0).2).setLstat vf 0x100
        else
          let ws := wordsOf bytes
          let dom := s.vfDomain vf
          match s.portList p dom ws with
          | (.list xs, s) => s.portRecord vf p dom { words := ws, list := xs }
          | (.wait, t) => if (Record.firstBad { words := ws, list := [] } (s.recordDomain p dom (bitsOf (ws.getD 6 0) 0 16)).isSome).isSome then
              s.portRecord vf p dom { words := ws, list := [] } else t
          | (.bad, s) => s.portRecord vf p dom { words := ws.set 7 1, list := [] })

/-- VF_REGISTER_WRITE (R337): CQBASE, CQSIZE and CQHEAD; LSTAT and CQTAIL are read-only. -/
def execVfRegisterWrite (vf offset : Nat) (value : Word) (s : State) : Answer :=
  let v := s.host.vfs.getD vf {}
  let put (v : Vf) : State := { s with host := { s.host with vfs := s.host.vfs.set vf v } }
  .next (if !s.vfOffered || decide (128 ≤ vf) then s
    else if offset < 0x40 then s.setLstat vf 0x4FF
    else match offset with
      | 0x080 => put { v with cqbase := value &&& 0xFFFFFFFFFFFFF000 }
      | 0x088 => put { v with cqsize := value.setWidth 4 }
      | 0x090 => put { v with cqhead := value.setWidth 20 }
      | _ => s)

/-! ### VF reset (R364) -/

/-- The number by which the mailbox is BUSY for a VF's reset. -/
def vfBusy (vf : Nat) : Nat := 2 ^ 21 + vf

/-- VF_RESET (R364): the launch port refuses, the VF's launches abort with KIND 19, those that wait for their steward already among them, no entry is posted, and its collectives are
withdrawn. The command ends with the reset, after the quiesce deadline. -/
def execVfReset (vf : Nat) (s : State) : Answer :=
  .next (s.command false [mbWord vf] fun s =>
    if 128 ≤ vf then s.mbEnd 4 []
    else
      let owns (d : Nat) : Bool := (s.domains.get d).any fun x => x.owner == some vf
      let v := s.host.vfs.getD vf {}
      let s := match s.vfPart vf with
        | none => s
        | some p =>
          let slots : List Nat := match s.parts.get p with
            | some q => q.vfLaunches vf
            | none => []
          let s := slots.foldl (fun (s : State) k => (s.onLaunch p k fun l => { l with pendingAbort := none }).orderAbort p k { kind := 19 }) s
          (s.withdraw p owns).onPart p fun q =>
            { q with phaseLaunches := q.phaseLaunches.filter fun l => l.2.vf != some vf, posts := q.posts.filter fun x => x.1 != vf }
      { s with
        host := { s.host with vfs := s.host.vfs.set vf { v with resetAt := some (s.gtrOf sDie + s.mgmt.quiesceTime * microsecond) } }
        mgmt := { s.mgmt with busy := true, busyPart := vfBusy vf } })

/-- Waiting mailbox slots of a priority that hold handler starts of a VF that is being reset. -/
def Core.startsOf (c : Core) (high : Bool) (vf : Nat) : List Nat :=
  (if high then c.orderHi else c.orderLo).filter fun i => match (if high then c.boxHi else c.boxLo).get i with
    | some m => m.vf == some vf
    | none => false

/-- A core, or an image of one, without them. -/
def Core.reclaim (c : Core) (vf : Nat) : Core :=
  let c := (c.startsOf true vf).foldl (fun (c : Core) i => c.freeSlot true i) c
  (c.startsOf false vf).foldl (fun (c : Core) i => c.freeSlot false i) c

/-- The freed slots of a priority are units of its mailbox (R200). -/
def State.reclaimUnits (s : State) (core : Nat) (high : Bool) (slots : List Nat) : State :=
  s.unitsFreed (.mailbox core (if high then .hi else .lo)) (slots.filter fun i => decide (i < (s.core core).mboxd.toNat)).length

/-- The steward takes back the mailbox slots of a VF's handler starts that have not been delivered (R364). -/
def State.reclaimMail (s : State) (vf : Nat) : State :=
  let t := { s with
    cores := s.cores.map fun c => (c.1, c.2.reclaim vf)
    saved := s.saved.map fun x => (x.1, { x.2 with core := x.2.core.reclaim vf }) }
  s.cores.foldl (fun (t : State) c => (t.reclaimUnits c.1 true (c.2.startsOf true vf)).reclaimUnits c.1 false (c.2.startsOf false vf)) t

/-- What is left of a VF's launches is aborted, with what they hold (R364). -/
def State.reclaimLaunches (s : State) (vf : Nat) : State :=
  s.parts.foldl (fun (s : State) x => (x.2.vfLaunches vf).foldl (fun (s : State) slot =>
    match s.launch? x.1 slot with
    | some l => s.abortLaunch x.1 l (l.pendingAbort.getD { kind := 19, gtr := s.gtrOf sDie })
    | none => s) s) s

/-- The steward takes back the job-queue entries of a VF's jobs that are still running: they end where they stand, with status UNKNOWN; that they do is the model's choice (log 64). -/
def State.reclaimJobs (s : State) (vf : Nat) : State :=
  let mine (j : Job) : Bool := j.vf == some vf
  let held := (s.cores.filter fun c => c.2.jobs.any mine).map fun c => (c.1, (c.2.jobs.filter mine).map fun j => j.part)
  let s := { s.dropJobs mine with saved := s.saved.map fun (x : Nat × SavedCore) => (x.1, { x.2 with core := x.2.core.dropJobs mine }) }
  held.foldl (fun (s : State) h => h.2.foldl (fun (s : State) p => (List.range 8).foldl (fun (s : State) k => s.letPins p (clusterOf h.1 * 8 + k)) s) s) s

/-- The end of a VF's reset: what its launches still hold is reclaimed, its completion queue registers take their reset values, and the command ends (R364). -/
def State.vfResetOver (s : State) (vf : Nat) : State :=
  let s := ((s.reclaimLaunches vf).reclaimJobs vf).reclaimMail vf
  let v := s.host.vfs.getD vf {}
  let s := { s with host := { s.host with vfs := s.host.vfs.set vf { v with cqbase := 0, cqsize := 0, cqhead := 0, cqtail := 0, queue := [], resetAt := none } } }
  if s.mgmt.busy && s.mgmt.busyPart == vfBusy vf then s.mbEnd 0 [] else s

/-- The number that QUIESCE_DEADLINE gives a VF: those below 65 are dies. -/
def vfDeadline (vf : Nat) : Nat := 128 + vf

/-- QUIESCE_DEADLINE (R360, R364): of a die that is being reset, or of a VF, by its number and 128. -/
def execQuiesceDeadline (n : Nat) (s : State) : Answer :=
  let due (t : Option Nat) : Bool := t.any fun t => decide (t ≤ s.gtrOf sDie)
  .next (if n < 65 then (if due (s.die n).quiesce then s.frost n else s)
    else if vfDeadline 0 ≤ n ∧ due (s.host.vfs.getD (n - vfDeadline 0) {}).resetAt = true then s.vfResetOver (n - vfDeadline 0)
    else s)

end Sys2Proof.Machine
end

