-- ==== Sys2Proof/Machine/Links.lean ====
section
/-!
DEFINITION. The link layer of the Zwion ports (R339), and collectives (R259, R341 to R343, R365).
-/
namespace Sys2Proof.Machine

/-! ### The link layer (R339) -/

/-- ZWION_FLIT_RECEIVE (R339). -/
def execZwionFlitReceive (port : Nat) (kind : BitVec 4) (seq ack : BitVec 12) (cls : BitVec 4) (payload : List Byte) (crcGood full : Bool) (s : State) : Answer :=
  .next (if !s.mgmt.main || decide (8 ≤ port) then s
    else s.onPort port fun z => if crcGood then z.take kind seq ack cls payload full (s.gtrOf sDie) else z.nak)

/-- ZWION_NAK (R339). -/
def execZwionNak (port : Nat) (last : BitVec 12) (s : State) : Answer :=
  .next (if !s.mgmt.main || decide (8 ≤ port) then s else s.onPort port fun z => z.gotNak last)

/-- ZWION_BUSY_REPLAY (R339): 100 ns after a busy. -/
def execZwionBusyReplay (port : Nat) (seq : BitVec 12) (s : State) : Answer :=
  .next (match (s.port port).resend with
    | some (x, t) => if x = seq ∧ t ≤ s.gtrOf sDie then s.onPort port fun z => { z with resend := none }.replayFrom seq else s
    | none => s)

/-- ZWION_RETRAIN (R339): a lane that fails it leaves the port on four lanes. -/
def execZwionRetrain (port : Nat) (lanesGood : Bool) (s : State) : Answer :=
  .next (if 16 ≤ (s.port port).naks ∨ 16 ≤ (s.port port).sentNaks then
      s.onPort port fun z => { z with naks := 0, sentNaks := 0, lanes := if lanesGood then z.lanes else 4 }
    else s)

/-! ### Collective descriptors (R341) -/

/-- Whether a descriptor has values that R341 allows, for a partition. -/
def State.collGood (s : State) (p : Nat) (d : List Word) : Bool :=
  let c : CollSlot := { desc := d }
  bitsOf (c.word 0) 48 16 == 0 && bitsOf (c.word 0) 28 4 == 0 && c.word 7 == 0 && c.type != 3 && c.op != 3 && decide (c.rank < c.nrank) && c.count != 0 &&
  (c.word 2).toNat % c.size == 0 && (c.word 3).toNat % c.size == 0 && (c.word 4).toNat % 8 == 0 && (c.word 6).toNat % 16 == 0 &&
  match s.domains.get c.domain with
  | some x => x.part == p
  | none => false

/-- A slot of a partition. -/
def State.coll? (s : State) (p slot : Nat) : Option CollSlot := (s.parts.get p).bind fun q => q.colls.get slot

/-- Changes a slot. -/
def State.setColl (s : State) (p slot : Nat) (c : CollSlot) : State := s.onPart p fun q => { q with colls := q.colls.set slot c }

/-- COLL_WRITE (R341, R374): a slot that is open keeps its descriptor, and so does one whose ending is still to be written (log 25). -/
def execCollWrite (part slot : Nat) (desc : List Word) (s : State) : Answer :=
  .next (s.command false (mbWord part :: mbWord slot :: desc) fun s =>
    if 64 ≤ slot ∨ desc.length ≠ 8 then s.mbEnd 4 []
    else if !((s.parts.get part).any fun q => q.st != .ended) || !(s.collGood part desc) || ((s.coll? part slot).any fun c => c.open_ || c.due.isSome) then s.mbEnd 1 []
    else (s.setColl part slot { desc := desc }).mbEnd 0 [])

/-! ### Ending (R342, R343) -/

/-- How an access of the collective unit ends. -/
inductive CollAccess where
  | done
  | wait
  | fault
  deriving DecidableEq, Repr

/-- A write of n bytes under PDOMAIN with l at least a clock: a copy's store (R222, R342), or an atomic, which also reads the word and so needs R as well as W (R174); `v` gives the value
from the word at its turn. -/
def State.collUpdate (s : State) (p : Nat) (dom : Nat) (l : Stamp) (a n : Nat) (reads : Bool) (v : State → Nat) : CollAccess × State :=
  if !(isMemory a) then (.fault, s)
  else match s.rightsFor dom a with
    | none => (.fault, s)
    | some e =>
      if !e.w || (reads && !e.r) then (.fault, s)
      else match s.atHome p a true none with
        | (.missing, s) => (.fault, s)
        | (.absent _, s) => (.wait, s)
        | (.held, s) => (.wait, s)
        | (.ready sl host, s) =>
          let x := s.sector sl p a
          let w := writeStamp l x
          if reads && s.poisoned a n then (.fault, s)
          else if s.parkedBefore p a then (.wait, s)
          else if s.leased sl host p e.attr x || !(s.mayStamp sl host p w) then (.wait, s.wantWrite sl host p w)
          else (.done, s.makeVersion sl host p a n (v s) w x)

/-- A store of the collective unit. -/
def State.collStore (s : State) (p : Nat) (dom : Nat) (l : Stamp) (a n v : Nat) : CollAccess × State := s.collUpdate p dom l a n false fun _ => v

/-- Writes elements one after another. -/
def State.collStores (s : State) (p dom : Nat) (l : Stamp) (a n : Nat) : List Word → CollAccess × State
  | [] => (.done, s)
  | v :: vs =>
    match s.collStore p dom l a n v.toNat with
    | (.done, s) => State.collStores s p dom l (a + n) n vs
    | r => r

/-- The slot after a run: closed, with GATEVAL one higher (R342). An ending that a rank other than 0 has met itself comes back from rank 0 and ends nothing more. -/
def CollSlot.closed (c : CollSlot) (told peer : Nat) : CollSlot :=
  { desc := c.desc.set 5 (c.word 5 + 1), withdrawn := c.withdrawn, echo := c.echo + if c.rank ≠ 0 ∧ c.met told peer = true then 1 else 0 }

/-- Writes the ending of a run at this rank (R342, R343): DST on DONE alone; the status word, then the increment of DONE with release order. -/
def State.collWrites (s : State) (p : Nat) (c : CollSlot) (code peer : Nat) (flags : BitVec 5) (result : List Word) : CollAccess × State :=
  let l := maxStamp c.clock (s.lf p sDie)
  let done := (c.word 6).toNat
  match s.collStores p c.domain l (c.word 3).toNat c.size (if code = 1 then result else []) with
  | (.done, s) =>
    match s.collStore p c.domain (l + 1) (done + 8) 8 (collStatus code peer flags) with
    | (.done, s) => s.collUpdate p c.domain (l + 1) done 8 true fun s => (s.mem.readNat done 8 + 1) % 2 ^ 64
    | r => r
  | r => r

/-- Ends a run at this rank (R342, R343): what the ending writes, and then the other ranks are told. Where a page is not present, or a write must wait, the ending stays due. A DST that
may not be written makes the ending FAULT; so does a status word or DONE that may not be written, which then tells nothing here, but ends every other rank. -/
def State.collEnd (s : State) (p slot : Nat) (c : CollSlot) (code peer : Nat) (flags : BitVec 5) (result : List Word) (told : Nat) : State :=
  match s.collWrites p c code peer flags result with
  | (.done, t) => (t.setColl p slot (c.closed told peer)).tellEnding c told peer flags result
  | (.wait, t) => t.setColl p slot { c with due := some (code, peer, flags, result, told) }
  | (.fault, t) =>
    match t.collWrites p c 4 c.rank flags [] with
    | (.wait, t) => t.setColl p slot { c with due := some (4, c.rank, flags, [], 4) }
    | (_, t) => (t.setColl p slot (c.closed 4 c.rank)).tellEnding c 4 c.rank flags []

/-! ### The fold (R259, R342) -/

/-- One step of the fold for an element: the running value first (R259). -/
def collOp (type op : Nat) (y x : Word) : Word × FpFlags :=
  let t : FloatFmt := if type = 0 then .f32 else .f64
  let r : Rounded :=
    if type = 2 then
      (match op with
        | 0 => (y + x).toNat
        | 1 => if x.slt y then x.toNat else y.toNat
        | _ => if y.slt x then x.toNat else y.toNat, 0)
    else match op with
      | 0 => fpAdd t .rne y.toNat x.toNat
      | 1 => fpMinMax t false y.toNat x.toNat
      | _ => fpMinMax t true y.toNat x.toNat
  (BitVec.ofNat 64 r.1, r.2)

/-- Folds a chunk into the running values. -/
def collFold (type op : Nat) (ys xs : List Word) : List Word × FpFlags :=
  let rs := (ys.zip xs).map fun v => collOp type op v.1 v.2
  (rs.map Prod.fst, rs.foldl (fun f r => f ||| r.2) 0)

/-- Bytes buffered of later ranks. -/
def CollSlot.bufferedBytes (c : CollSlot) : Nat := (c.buffered.map fun b => b.2.2.length * c.size).sum

/-- Folds one chunk of the next rank, and then what is buffered of the ranks after it. -/
def CollSlot.accept (c : CollSlot) (chunk : Nat) (data : List Word) : Nat → CollSlot
  | 0 => c
  | k + 1 =>
    let rank := c.nextRank.getD chunk 0
    let r := match c.fold.get chunk with
      | none => (data, 0)
      | some ys => collFold c.type c.op ys data
    let c := { c with fold := c.fold.set chunk r.1, nextRank := c.nextRank.set chunk (rank + 1), flags := c.flags ||| r.2 }
    match c.buffered.find? fun b => b.1 == rank + 1 && b.2.1 == chunk with
    | some b => CollSlot.accept { c with buffered := c.buffered.filter fun x => !(x.1 == rank + 1 && x.2.1 == chunk) } chunk b.2.2 k
    | none => c

/-- Offers a chunk of a rank: folded in rank order, buffered up to 4 MiB, or refused, which leaves the slot as it was. -/
def CollSlot.offer (c : CollSlot) (rank chunk : Nat) (data : List Word) : CollSlot :=
  let next := c.nextRank.getD chunk 0
  if rank = next then c.accept chunk data c.nrank
  else if rank < next ∨ (c.buffered.any fun b => b.1 == rank && b.2.1 == chunk) = true then c
  else if c.bufferedBytes + data.length * c.size ≤ 2 ^ 22 then { c with buffered := c.buffered ++ [(rank, chunk, data)] }
  else c

/-- Whether rank 0 refuses a chunk: its slot has not opened, or the chunk is of a later rank, not buffered yet, and goes beyond the buffer (R201, R342). -/
def CollSlot.refuses (c : CollSlot) (rank chunk : Nat) (data : List Word) : Bool :=
  !c.open_ || (decide (c.nextRank.getD chunk 0 < rank) && !(c.buffered.any fun b => b.1 == rank && b.2.1 == chunk) &&
    decide (2 ^ 22 < c.bufferedBytes + data.length * c.size))

/-- The word that tells a sender of a chunk refused: code 15, which is no ending, and the chunk (log 25). -/
def refusalWord (chunk : Nat) : Word := BitVec.ofNat 64 (15 + chunk * 2 ^ 24)

/-- Whether every rank has been folded into every chunk. -/
def CollSlot.folded (c : CollSlot) : Bool := (List.range c.chunks).all fun i => c.nextRank.getD i 0 == c.nrank

/-- The result of a fold. -/
def CollSlot.result (c : CollSlot) : List Word := (List.range c.chunks).flatMap fun i => c.fold.getD i []

/-- COLL_CHUNK (R342): a chunk reaches the device of rank 0. One that comes before the slot has opened there, or beyond the buffer, is refused: its sender is told, and offers it again
(R201; log 25). -/
def execCollChunk (part slot rank chunk : Nat) (data : List Word) (s : State) : Answer :=
  .next (match s.coll? part slot with
    | some c =>
      if c.rank == 0 && decide (rank < c.nrank) && decide (chunk < c.chunks) && data.length == Nat.min c.perChunk (c.count - chunk * c.perChunk) then
        (if c.due.isSome || c.withdrawn then s
         else if c.refuses rank chunk data then s.sendRank c rank (elementBytes 8 [refusalWord chunk])
         else s.setColl part slot (c.offer rank chunk data))
      else s
    | none => s)

/-! ### Starting (R342) -/

/-- Reads elements as loads of route home under PDOMAIN; `none` with the fate of the first that gives no data. -/
def State.collRead (s : State) (p dom : Nat) (clk : Stamp) (a n : Nat) : Nat → (Option (List Word) × CollAccess) × State
  | 0 => ((some [], .done), s)
  | k + 1 =>
    match (if isMemory a then s.rightsFor dom a else none) with
    | none => ((none, .fault), s)
    | some e =>
      if !e.r then ((none, .fault), s)
      else match s.fetchAt p none none clk e.attr (!e.w) a n with
        | (.got v _ poison, s) =>
          if poison then ((none, .fault), s)
          else match State.collRead s p dom clk (a + n) n k with
            | ((some vs, x), s) => ((some (BitVec.ofNat 64 v :: vs), x), s)
            | r => r
        | (.missing _, s) => ((none, .fault), s)
        | (_, s) => ((none, .wait), s)

/-- This rank gives its contribution: rank 0 folds it, another sends it towards rank 0 (R342; log 25). -/
def State.contribute (s : State) (p slot : Nat) (c : CollSlot) (vs : List Word) : State :=
  let c := { c with given := true }
  let parts := pieces c.perChunk vs
  if c.rank = 0 then
    s.setColl p slot ((List.range parts.length).foldl (fun (c : CollSlot) i => c.offer 0 i (parts.getD i [])) c)
  else
    parts.foldl (fun s vs => s.sendRank c 0 (elementBytes c.size vs)) (s.setColl p slot { c with kept := parts })

/-- The chunks that rank 0 refused a microsecond ago are offered again (R201). -/
def State.offerChunks (s : State) (p slot : Nat) (c : CollSlot) : State :=
  let due (r : Nat × Nat) : Bool := decide (r.2 + microsecond ≤ s.gtrOf sDie)
  ((c.refused.filter due).foldl (fun (s : State) r => s.sendRank c 0 (elementBytes c.size (c.kept.getD r.1 [])))
    (s.setColl p slot { c with refused := c.refused.filter fun r => !(due r) }))

/-- Reads SRC of an open slot, whose gate has opened (R342). -/
def State.collGive (s : State) (p slot : Nat) (c : CollSlot) : State :=
  match s.collRead p c.domain c.clock (c.word 2).toNat c.size c.count with
  | ((some vs, _), s) => s.contribute p slot c vs
  | ((none, .fault), s) => s.collEnd p slot c 4 c.rank 0 [] 4
  | ((none, _), s) => s.setColl p slot c

/-- A collective slot sends a wait for its gate word, or for the page of it (R199, R342). -/
def State.sendColl (s : State) (p slot : Nat) (key : Key) (target : Word) : State :=
  (s.onColl p slot fun c => { c with gateSent := some (s.gtrOf sDie), gateUnrecorded := false }).sendFlight
    { kind := .wait key key.address target 0 (.coll slot), ctx := collCtx p slot, uid := 1, part := p, domain := 0, launch := none, sentAt := s.gtrOf sDie }

/-- The gate of a slot is read at the word's home, as a launch gate is (R181, R342): the slot opens where the word has reached its value, and waits by a squall wait where it has not. -/
def State.collGate (s : State) (p slot : Nat) (c : CollSlot) : State :=
  let a := (c.word 4).toNat
  let lf := s.lf p sDie
  match (if isMemory a then s.rightsFor c.domain a else none) with
  | none => s.collEnd p slot c 4 c.rank 0 [] 4
  | some e =>
    if !e.r then s.collEnd p slot c 4 c.rank 0 [] 4
    else match s.fetchAt p none none lf e.attr (!e.w) a 8 with
      | (.got v w poison, t) =>
        if poison then t.collEnd p slot c 4 c.rank 0 [] 4
        else if v < (c.word 5).toNat then s.sendColl p slot (.word a) (c.word 5)
        else t.collGive p slot { c with open_ := true, openedAt := t.gtrOf sDie, clock := maxStamp lf w }
      | (.missing _, t) => t.collEnd p slot c 4 c.rank 0 [] 4
      | (.absent _, t) => t.sendColl p slot (.page (pageOf a)) 0
      | (.held, t) => t
      | (.race _ _, _) => s

/-- COLL_START (R342): a slot whose wait has been answered, or that has sent none, reads its gate, and opens at its value; the contribution is read, which waits while a page is not
present. -/
def execCollStart (part slot : Nat) (s : State) : Answer :=
  .next (match s.coll? part slot with
    | none => s
    | some c =>
      if c.withdrawn || c.given || c.due.isSome then s
      else if c.open_ then s.collGive part slot c
      else if c.gateSent.isSome then s
      else s.collGate part slot c)

/-- COLL_RESULT (R342): at rank 0 the fold has ended; at another rank the ending arrives with the result and the flags. An ending other than DONE comes from the rank that met it, and
ends this rank too where its own gate has not opened yet; told back by rank 0 to the rank that has ended already, it ends nothing more. An ending of 15 is none: rank 0 has refused the
chunk that `result` names (R201; log 25). -/
def execCollResult (part slot : Nat) (result : List Word) (flags : BitVec 5) (ending : BitVec 4) (peer : BitVec 8) (s : State) : Answer :=
  .next (match s.coll? part slot with
    | none => s
    | some c =>
      if c.withdrawn then s
      else if ending = 15 then
        (if c.open_ && c.rank != 0 then s.setColl part slot { c with refused := c.refused ++ [((result.getD 0 0).toNat, s.gtrOf sDie)] } else s)
      else if c.rank ≠ 0 ∧ 0 < c.echo ∧ 1 ≤ ending.toNat ∧ ending.toNat ≤ 4 then s.setColl part slot { c with echo := c.echo - 1 }
      else match c.due with
      | some (code, own, fl, res, told) =>
        if c.rank ≠ 0 ∧ c.met told own = true ∧ 1 ≤ ending.toNat ∧ ending.toNat ≤ 4 then s.setColl part slot { c with due := some (code, own, fl, res, 0) } else s
      | none =>
      if ending = 1 then
        if !c.open_ then s
        else if c.rank = 0 then (if c.folded then s.collEnd part slot c 1 0xFF c.flags c.result 1 else s)
        else if result.length = c.count then s.collEnd part slot c 1 0xFF flags result 1
        else s
      else if 2 ≤ ending.toNat ∧ ending.toNat ≤ 4 then
        s.collEnd part slot c ending.toNat (if ending = 2 then 0xFF else peer.toNat) flags [] ending.toNat
      else s)

/-- COLL_DEADLINE (R342): the fold has not ended 2 ms after the slot opened at rank 0; or an ending that is due is written; or a refused chunk is offered again (R201). -/
def execCollDeadline (part slot : Nat) (s : State) : Answer :=
  .next (match s.coll? part slot with
    | none => s
    | some c =>
      match c.due with
      | some (code, peer, flags, result, told) => s.collEnd part slot c code peer flags result told
      | none =>
        if c.open_ && c.rank == 0 && !c.folded && decide (c.openedAt + 2 * millisecond ≤ s.gtrOf sDie) then s.collEnd part slot c 2 0xFF c.flags [] 2
        else if c.refused != [] then s.offerChunks part slot c
        else s)

end Sys2Proof.Machine
end

