-- ==== Sys2Proof/Machine/Attest.lean ====
section
/-!
DEFINITION. Primrose as SPDM responder (R328, R329), and the IDE keys (R330).
-/
namespace Sys2Proof.Machine

/-! ### Sessions (R328) -/

/-- The session state of a function. -/
def State.spdm (s : State) (fn : Nat) : Spdm := s.trust.sessions.getD fn {}

/-- Whether a function exists and is offered: the physical one over CXL.io from step 1 on, VFs at step 9 in DEPLOYED (R326, R330, R372). -/
def State.functionUp (s : State) (fn : Nat) : Bool := s.mgmt.main && (fn == 0 || (decide (fn ≤ 128) && s.mgmt.step == 9 && s.mgmt.lifecycle == .deployed))

/-- Gives an answer and a new session state. -/
def State.respond (s : State) (fn : Nat) (x : Spdm) (a : SpdmAnswer) : State :=
  { s with trust := { s.trust with sessions := s.trust.sessions.set fn { x with answers := a :: x.answers } } }

/-- A request that needs the stages before it; out of place it is answered with an error. -/
def State.request (s : State) (fn stage : Nat) (ok : Spdm → Bool) (answer : Spdm → Spdm × SpdmAnswer) : State :=
  let x := s.spdm fn
  if !(s.functionUp fn) then s
  else if decide (stage ≤ x.stage) && ok x then
    let r := answer x
    s.respond fn r.1 r.2
  else s.respond fn x (.error false)

/-- Any other SPDM request: ERROR with UnsupportedRequest (R328). -/
def State.otherRequest (s : State) (fn : Nat) : State :=
  if s.functionUp fn then s.respond fn (s.spdm fn) (.error true) else s

/-- GET_VERSION: SPDM 1.3; it begins anew. -/
def execGetVersion (fn : Nat) (s : State) : Answer :=
  .next (s.request fn 0 (fun _ => true) fun x => ({ x with stage := 1, exchanged := false, inSession := false }, .version 0x13))

/-- GET_CAPABILITIES. -/
def execGetCapabilities (fn : Nat) (s : State) : Answer :=
  .next (s.request fn 1 (fun _ => true) fun x => ({ x with stage := Nat.max x.stage 2 }, .capabilities))

/-- NEGOTIATE_ALGORITHMS: ECDSA P-521 and SHA-512 only. -/
def execNegotiateAlgorithms (fn : Nat) (p521 sha512 : Bool) (s : State) : Answer :=
  .next (s.request fn 2 (fun _ => p521 && sha512) fun x => ({ x with stage := 3 }, .algorithms))

/-- The certificate chain of slot 0: its last certificate is of the measurement key, which the accepted firmware gives (R328). -/
def State.certificate (s : State) : List Byte := Config.certificate (Config.digest s.mgmt.fwImage)

/-- GET_DIGESTS: of slot 0. -/
def execGetDigests (fn : Nat) (s : State) : Answer :=
  .next (s.request fn 3 (fun _ => true) fun x => (x, .digests (Config.digest s.certificate)))

/-- GET_CERTIFICATE: slot 0 alone. -/
def execGetCertificate (fn slot : Nat) (s : State) : Answer :=
  .next (s.request fn 3 (fun _ => slot == 0) fun x => (x, .certificate s.certificate))

/-- CHALLENGE (R328): the spec names a key for measurements alone, and none for this answer; that the device identity key signs it is the model's choice (log 13). -/
def execChallenge (fn : Nat) (nonce : List Byte) (s : State) : Answer :=
  .next (s.request fn 3 (fun _ => true) fun x => (x, .challengeAuth (Config.sign (Config.digest (s.certificate ++ nonce)))))

/-- KEY_EXCHANGE: ECDHE on P-521. -/
def execKeyExchange (fn : Nat) (share : List Byte) (s : State) : Answer :=
  .next (s.request fn 3 (fun _ => true) fun x => ({ x with exchanged := true, inSession := false }, .keyExchange (Config.keyShare share)))

/-- FINISH: the session is secured if its check holds. -/
def execFinish (fn : Nat) (verified : Bool) (s : State) : Answer :=
  .next (s.request fn 3 (fun x => x.exchanged && verified) fun x => ({ x with exchanged := false, inSession := true }, .finished))

/-- END_SESSION. -/
def execEndSession (fn : Nat) (s : State) : Answer :=
  .next (s.request fn 3 (fun x => x.inSession) fun x => ({ x with inSession := false }, .ended))

/-- IDE_KEY_PROGRAMMING (R328, R330): over a secured session. -/
def execIdeKeyProgramming (fn stream : Nat) (key : BitVec 256) (s : State) : Answer :=
  let t := s.request fn 3 (fun x => x.inSession) fun x => (x, .ideProgrammed)
  .next (if s.functionUp fn && (s.spdm fn).inSession && decide (3 ≤ (s.spdm fn).stage) then
      { t with trust := { t.trust with ideKeys := (stream, key) :: t.trust.ideKeys.filter fun k => k.1 != stream } }
    else t)

/-! ### Measurements (R329) -/

/-- Bytes of words. -/
def wordBytes (ws : List Word) : List Byte := elementBytes 8 ws

/-- The descriptor of a partition (R318). -/
def Part.descriptor (q : Part) : List Word :=
  let mask (lo : Nat) : Word := mbWord ((q.vfs.filter fun v => v / 64 == lo).map fun v => 2 ^ (v % 64)).sum
  [mbWord (q.weight * 2 ^ 16 + q.tick * 2 ^ 13 + (if q.det then 2 ^ 12 else 0) + (q.qh - 1) * 512 + (q.qw - 1) * 64 + q.qy0 * 8 + q.qx0),
    mbWord q.phaseGroup, mask 0, mask 1, 0, 0, 0, 0]

/-- A region-map entry as its two words, with its number (R309). -/
def regionWords (i : Nat) (e : RegionEntry) : List Word :=
  [mbWord i, mbWord e.base, mbWord (2 ^ 26 + e.log2size * 2 ^ 20 + e.hash * 2 ^ 18 + e.gran * 2 ^ 16 + e.tiles.toNat)]

/-- A rights-table entry as its two words, with its number (R306). -/
def rightsWords (i : Nat) (e : RightsEntry) : List Word :=
  let bit (b : Bool) (k : Nat) : Nat := if b then 2 ^ k else 0
  [mbWord i, mbWord e.base, mbWord (2 ^ 12 + e.attr * 1024 + bit e.p 9 + bit e.x 8 + bit e.w 7 + bit e.r 6 + e.log2size)]

/-- Block 6 of a partition: its descriptor, region map and the disabled clusters of its quadrants. -/
def State.partText (s : State) (q : Part) : List Byte :=
  wordBytes (q.descriptor ++ (q.regions.flatMap fun e => regionWords e.1 e.2) ++ (s.disabled.filter fun c => q.coversCore (c * 8)).map mbWord)

/-- Block 7 of a VF: its binding and its domains' rights tables, as of the last changes that are complete (R308). -/
def State.vfText (s : State) (vf : Nat) : List Byte :=
  let binding := match s.vfPart vf with
    | some p => [mbWord vf, mbWord p]
    | none => [mbWord vf]
  wordBytes (binding ++ (s.domains.filter fun d => d.2.owner == some vf).flatMap fun d =>
    mbWord d.1 :: d.2.shown.flatMap fun e => rightsWords e.1 e.2)

/-- The life-cycle state as a number. -/
def LifeCycle.code : LifeCycle → Nat
  | .blank => 0
  | .provisioned => 1
  | .deployed => 2
  | .returned => 3

/-- What a block measures for a function; none for one that it does not see. -/
def State.blockText (s : State) (fn index : Nat) : Option (List Byte) :=
  match index with
  | 1 => some (Config.measured 1)
  | 2 => some (Config.measured 2)
  | 3 => some s.mgmt.fwImage
  | 4 => some (wordBytes [mbWord s.mgmt.minVersion, mbWord s.mgmt.fwVersion])
  | 5 => some (wordBytes (mbWord s.mgmt.lifecycle.code :: (List.range 8).map fun i => mbWord (s.mgmt.ownerKey.toNat / 2 ^ (64 * i) % 2 ^ 64)))
  | 6 =>
    if fn = 0 then some (s.parts.flatMap fun x => wordBytes [mbWord x.1] ++ s.partText x.2)
    else (s.vfPart (fn - 1)).bind fun p => (s.parts.get p).map s.partText
  | 7 => if fn = 0 then none else some (s.vfText (fn - 1))
  | _ => none

/-- GET_MEASUREMENTS (R329): the digest of a block, computed now, signed by the measurement key. -/
def execGetMeasurements (fn index : Nat) (nonce : List Byte) (s : State) : Answer :=
  let text := s.blockText fn index
  .next (s.request fn 3 (fun _ => text.isSome) fun x =>
    let d := Config.digest (text.getD [])
    (x, .measurements [(index, d)] (Config.signMeasured (Config.digest s.mgmt.fwImage) (Config.digest (d ++ nonce)))))

end Sys2Proof.Machine
end

