-- ==== Sys2Proof/Machine/Branch.lean ====
section
/-!
DEFINITION. Branches and jumps (R75). A fault in fetching at the target is taken at the target (R76).
-/
namespace Sys2Proof.Machine

/-- A branch: taken, PC moves by the offset; otherwise it goes on at PC + 4 (R75). -/
def State.branch (s : State) (a b : Reg) (o : BitVec 16) (test : Word → Word → Bool) : State :=
  if test (s.rdG a) (s.rdG b) then s.retireTo (s.here.pc + branchOffset o) else s.retire

/-- BEQ (R75). -/
def execBeq (a b : Reg) (o : BitVec 16) (s : State) : Answer := .next (s.branch a b o fun x y => decide (x = y))

/-- BNE (R75). -/
def execBne (a b : Reg) (o : BitVec 16) (s : State) : Answer := .next (s.branch a b o fun x y => decide (x ≠ y))

/-- BLT (R75). -/
def execBlt (a b : Reg) (o : BitVec 16) (s : State) : Answer :=
  .next (s.branch a b o fun x y => decide (x.toInt < y.toInt))

/-- BGE (R75). -/
def execBge (a b : Reg) (o : BitVec 16) (s : State) : Answer :=
  .next (s.branch a b o fun x y => decide (y.toInt ≤ x.toInt))

/-- BLTU (R75). -/
def execBltu (a b : Reg) (o : BitVec 16) (s : State) : Answer :=
  .next (s.branch a b o fun x y => decide (x.toNat < y.toNat))

/-- BGEU (R75). -/
def execBgeu (a b : Reg) (o : BitVec 16) (s : State) : Answer :=
  .next (s.branch a b o fun x y => decide (y.toNat ≤ x.toNat))

/-- JAL: lr = PC + 4, PC moves by the offset (R75). -/
def execJal (o : BitVec 26) (s : State) : Answer :=
  .next ((s.wrG 1 (s.here.pc + 4)).retireTo (s.here.pc + jumpOffset o))

/-- JALR: the target is computed before g[d] is written; one that is not a multiple of 4 raises MISALIGN (R75). -/
def execJalr (d a : Reg) (i : BitVec 16) (s : State) : Answer :=
  let t := s.rdG a + simm i
  .next (if t.toNat % 4 ≠ 0 then s.trap .misalign t t
    else (s.wrG d (s.here.pc + 4)).retireTo t)

end Sys2Proof.Machine
end

