-- ==== Sys2Proof/Machine/Fetch.lean ====
section
/-!
DEFINITION. Fetching (R15, R33, R37, R76, R116, R357), the choice of a core's issue slot (R25, R195), what holds a word back (R15, R118), and the early return from the W-core
(R198).
-/
namespace Sys2Proof.Machine

/-! ### Fetching -/

/-- What fetching at PC finds. -/
inductive FetchResult where
  | word (w : IWord)
  | fault (c : Cause)
  | poisoned
  deriving DecidableEq, Repr

/-- Where a context fetches its next word: an LM the core reaches, or the fault of R76. -/
def State.fetchTarget (s : State) (id : Nat) : Except Cause (Nat × Nat) :=
  let c := s.ctx id
  match placeOf (s.homeOf id) c.pc with
  | .memory => .error .prot
  | .unmapped => .error .unmapped
  | .lm core off =>
    match s.lmFate c.partNo (s.homeOf id) (coreOf id) .load core off with
    | .trap t => .error t
    | _ => .ok (core, off)

/-- The word at an offset of a core's LM (R5, R37). -/
def State.wordIn (s : State) (core off : Nat) : IWord := BitVec.ofNat 32 (s.lmRead core off 4)

/-- The word that a context would fetch: of its own core's LM from the fetch buffer where it holds it (R116). -/
def State.fetchWord (s : State) (id : Nat) : FetchResult :=
  match s.fetchTarget id with
  | .error c => .fault c
  | .ok (core, off) =>
    match (if core = coreOf id then (s.core core).fetch.find? fun x => x.1 == off else none) with
    | some x => .word x.2
    | none => if s.poisoned (lmAddr core off) 4 then .poisoned else .word (s.wordIn core off)

/-- The fetch buffer after a fetch: a word of the core's own LM is kept, among the newest 64 (R15, R116). -/
def State.keepWord (s : State) (id : Nat) (w : IWord) : State :=
  match s.fetchTarget id with
  | .ok (core, off) =>
    if core = coreOf id then
      s.onCore core fun k =>
        if k.fetch.any fun x => x.1 == off then k
        else { k with fetch := (k.fetch ++ [(off, w)]).drop (k.fetch.length + 1 - 64) }
    else s
  | .error _ => s

/-! ### The issue slot (R25, R195) -/

/-- Whether the launch of a context is being aborted: its contexts stop at the next instruction boundary (R346). -/
def State.stopping (s : State) (id : Nat) : Bool :=
  let c := s.ctx id
  match c.launch with
  | none => false
  | some slot =>
    match s.launch? c.partNo slot with
    | some l => l.st == .aborted
    | none => false

/-- Whether the partition of a context runs: no context of one that is draining or saved issues (R351). -/
def State.running (s : State) (id : Nat) : Bool := s.partRuns (s.ctx id).partNo

/-- Whether a context may issue (R24, R25). -/
def State.issues (s : State) (id : Nat) : Bool :=
  let c := s.ctx id
  c.st == .ready && !(s.isSuspended id) && !(s.stopping id) && s.running id

/-- The next ready thread context in round-robin order, after the one that issued last (R195). -/
def State.nextThread (s : State) (core : Nat) : Option Nat :=
  let last := (s.core core).lastIssued
  (([1, 2, 3, 4] : List Nat).map fun k => core * 8 + (last + k) % 4).find? s.issues

/-- The context that a core issues from (R25): the high handler, the low handler, and with neither active a thread. -/
def State.issueFrom (s : State) (core : Nat) : Option Nat :=
  let lo := core * 8 + 4
  let hi := core * 8 + 5
  if s.issues hi then some hi
  else if s.issues lo && !(s.active hi) then some lo
  else if s.active hi || s.active lo then none
  else s.nextThread core

/-- A thread context takes its turn (R195). -/
def Core.takeTurn (c : Core) (n : Nat) : Core := if n < 4 then { c with lastIssued := n, owed := c.owed.filter (· != n) } else c

/-- Whether a context of a deterministic partition must not issue: a memory access, a GAMO or a message of it has not returned (R118, R344). -/
def State.detHeld (s : State) (id : Nat) : Bool :=
  (s.isDet (s.ctx id).partNo && (s.flightsOf id).any fun f => match f.kind with
    | .msg _ _ => true
    | .msgAnswer _ _ _ _ => true
    | _ => match f.accessed with
      | some a => decide (a < selfBase)
      | none => false) || (s.isDet (s.ctx id).partNo && s.gamosOf id (s.core (coreOf id)).reqSeq != [])

/-- What a context does before its next instruction. -/
inductive Boundary where
  | due (t : DueTrap)
  | returnToL
  | interrupt
  | hold
  | fault (c : Cause)
  | poisoned
  | illegal (w : IWord)
  | run (w : IWord) (i : Instr)
  deriving DecidableEq, Repr

/-- The word at PC as an instruction (R42). -/
def readWord (w : IWord) : Option Instr := decodeBytes (bytesOf 4 w.toNat)

/-- What stands at a context's instruction boundary where no trap is due: a due return from the W-core (R73), a pending completion (R90), a fetch fault (R76), a word that decodes to nothing, a word
that waits for a result or for an entry of the core's 32-entry scoreboard (R15; log 58), or an instruction. -/
def State.nextBoundary (s : State) (id : Nat) : Boundary :=
  let c := s.ctx id
  if c.migrated && decide (256 ≤ c.migCount) && (s.returnPlace id).isSome then (if s.drained id then .returnToL else .hold)
  else if c.takesCompletion && !(isHandler id) then (if c.pend == [] then .interrupt else .hold)
  else if s.detHeld id then .hold
  else match s.fetchWord id with
    | .fault t => .fault t
    | .poisoned => .poisoned
    | .word w =>
      match readWord w with
      | none => .illegal w
      | some i => if c.blocked i || decide (32 ≤ s.scoreboard (coreOf id)) then .hold else .run w i

/-- What stands at a context's instruction boundary: a trap of an earlier access, once no result is still to come (R344), or what comes next. -/
def State.boundary (s : State) (id : Nat) : Boundary :=
  match (s.ctx id).due with
  | some t => if (s.ctx id).pend == [] && !(s.answersOut id) then .due t else .hold
  | none => s.nextBoundary id

/-! ### The early return (R198) -/

/-- Whether an instruction names f16 to f31 or v16 to v31, so that its word belongs to XREG (R58). -/
def namesXreg (i : Instr) : Bool := (regsOf i).any fun r => match r with
  | .f n => decide (16 ≤ n)
  | .v n => decide (16 ≤ n)
  | _ => false

/-- Whether the word at a context's PC is a W word: majors 0x01 and 0x3A, but for those of XREG, which has precedence (R58). -/
def State.nextIsW (s : State) (id : Nat) : Bool :=
  match s.fetchWord id with
  | .word w => (decide (w.toNat / 2 ^ 26 = 1) || decide (w.toNat / 2 ^ 26 = 0x3A)) && !((decode w.toNat).any namesXreg)
  | _ => false

/-- W_CORE_EARLY_RETURN (R198): while the FIFO is not empty, a migrated thread that waits, or that has been on the W-core for 64 µs and does not come to a W word, gives its
context up as soon as an L-core context is free and it has drained (R73). A waiting one sends its waits again from there. -/
def execWCoreEarlyReturn (ctx : Nat) (s : State) : Answer :=
  let c := s.ctx ctx
  let queued := s.migFifo.getD (clusterOf (coreOf ctx)) [] != []
  .next (if !(c.migrated && queued) then s
    else match s.returnPlace ctx with
      | none => s
      | some b =>
        if (c.st = .waiting ∨ c.st = .faultWaiting) ∧ s.drainedWait ctx = true then (s.returnFromW ctx).resendWaits b
        else if c.st = .ready ∧ c.migSince + 64 * microsecond ≤ s.gtrOf (tileOf (coreOf ctx)) ∧ s.nextIsW ctx = false ∧ s.drained ctx = true then
          s.returnFromW ctx
        else s)

end Sys2Proof.Machine
end

