-- ==== Sys2Proof/Machine/Vector.lean ====
section
/-!
DEFINITION. Vector integer and mask operations of major 0x39 (R260, R262, R265 to R268), vector floating point of major
0x3E (R275), VCVT (R274) and VFRED (R257, R276). Every source is read before the destination is written (R262).
-/
namespace Sys2Proof.Machine

/-! ### Lanes (R260, R262) -/

/-- Lane i of w bits of a number. -/
def lane (x i w : Nat) : Nat := x / 2 ^ (i * w) % 2 ^ w

/-- The number whose lanes 0 to n − 1 of w bits are f 0 to f (n − 1). -/
def joinLanes (w : Nat) (f : Nat → Nat) : Nat → Nat
  | 0 => 0
  | n + 1 => joinLanes w f n + (f n % 2 ^ w) * 2 ^ (n * w)

/-- The mask whose bits 0 to n − 1 are given. -/
def joinBits (f : Nat → Bool) : Nat → Nat
  | 0 => 0
  | n + 1 => joinBits f n + (if f n then 2 ^ n else 0)

/-- A w-bit lane read as signed. -/
def signedLane (w x : Nat) : Int := intValue true w x

/-- An integer modulo 2^w (R265). -/
def wrapLane (w : Nat) (v : Int) : Nat := (v % ((2 ^ w : Nat) : Int)).toNat

/-- Clamps an integer to a signed w-bit range (R265). -/
def clampSigned (w : Nat) (v : Int) : Nat :=
  let hi : Int := ((2 ^ (w - 1) : Nat) : Int) - 1
  let lo : Int := -((2 ^ (w - 1) : Nat) : Int)
  wrapLane w (if hi < v then hi else if v < lo then lo else v)

/-- Clamps an integer to an unsigned w-bit range (R265). -/
def clampUnsigned (w : Nat) (v : Int) : Nat :=
  if v < 0 then 0 else if ((2 ^ w : Nat) : Int) ≤ v then 2 ^ w - 1 else v.toNat

/-- Element width of an rm field of major 0x39 (R53). -/
def widthOf (w : BitVec 2) : Nat := 8 * 2 ^ w.toNat

/-- v[d] lane by lane under a mask: an inactive lane keeps its bits (R262). -/
def State.laneWrite (s : State) (d : Reg) (k : Nat) (w : Nat) (f : Nat → Nat) : State :=
  let old := (s.rdV d).toNat
  s.wrV d (BitVec.ofNat 128 (joinLanes w (fun i => if (s.rdK k).getLsbD i then f i else lane old i w) (128 / w)))

/-- Majors 0x39 minors 0 to 18 (R265). -/
def State.vint (s : State) (i : Instr) (d a b : Reg) (k : BitVec 3) (w : BitVec 2) (op : Nat → Nat → Nat → Nat) : State :=
  s.allow i [d, a, b] false fun s =>
    let x := (s.rdV a).toNat
    let y := (s.rdV b).toNat
    (s.laneWrite d k.toNat (widthOf w) fun j => op (widthOf w) (lane x j (widthOf w)) (lane y j (widthOf w))).retire

/-! ### Minors 0 to 18 (R265) -/

/-- VADD (R265). -/
def execVadd (d a b : Reg) (k : BitVec 3) (w : BitVec 2) (s : State) : Answer :=
  .next (s.vint (.vadd d a b k w) d a b k w fun _ p q => p + q)

/-- VSUB (R265). -/
def execVsub (d a b : Reg) (k : BitVec 3) (w : BitVec 2) (s : State) : Answer :=
  .next (s.vint (.vsub d a b k w) d a b k w fun n p q => p + (2 ^ n - q))

/-- VMUL (R265). -/
def execVmul (d a b : Reg) (k : BitVec 3) (w : BitVec 2) (s : State) : Answer :=
  .next (s.vint (.vmul d a b k w) d a b k w fun _ p q => p * q)

/-- VMULH (R265). -/
def execVmulh (d a b : Reg) (k : BitVec 3) (w : BitVec 2) (s : State) : Answer :=
  .next (s.vint (.vmulh d a b k w) d a b k w fun n p q =>
    wrapLane n (signedLane n p * signedLane n q / ((2 ^ n : Nat) : Int)))

/-- VMULHU (R265). -/
def execVmulhu (d a b : Reg) (k : BitVec 3) (w : BitVec 2) (s : State) : Answer :=
  .next (s.vint (.vmulhu d a b k w) d a b k w fun n p q => p * q / 2 ^ n)

/-- VAND (R265). -/
def execVand (d a b : Reg) (k : BitVec 3) (w : BitVec 2) (s : State) : Answer :=
  .next (s.vint (.vand d a b k w) d a b k w fun _ p q => p &&& q)

/-- VOR (R265). -/
def execVor (d a b : Reg) (k : BitVec 3) (w : BitVec 2) (s : State) : Answer :=
  .next (s.vint (.vor d a b k w) d a b k w fun _ p q => p ||| q)

/-- VXOR (R265). -/
def execVxor (d a b : Reg) (k : BitVec 3) (w : BitVec 2) (s : State) : Answer :=
  .next (s.vint (.vxor d a b k w) d a b k w fun _ p q => p ^^^ q)

/-- VSLL (R265). -/
def execVsll (d a b : Reg) (k : BitVec 3) (w : BitVec 2) (s : State) : Answer :=
  .next (s.vint (.vsll d a b k w) d a b k w fun n p q => p * 2 ^ (q % n))

/-- VSRL (R265). -/
def execVsrl (d a b : Reg) (k : BitVec 3) (w : BitVec 2) (s : State) : Answer :=
  .next (s.vint (.vsrl d a b k w) d a b k w fun n p q => p / 2 ^ (q % n))

/-- VSRA (R265). -/
def execVsra (d a b : Reg) (k : BitVec 3) (w : BitVec 2) (s : State) : Answer :=
  .next (s.vint (.vsra d a b k w) d a b k w fun n p q => wrapLane n (signedLane n p / ((2 ^ (q % n) : Nat) : Int)))

/-- VMIN (R265). -/
def execVmin (d a b : Reg) (k : BitVec 3) (w : BitVec 2) (s : State) : Answer :=
  .next (s.vint (.vmin d a b k w) d a b k w fun n p q => if signedLane n p ≤ signedLane n q then p else q)

/-- VMAX (R265). -/
def execVmax (d a b : Reg) (k : BitVec 3) (w : BitVec 2) (s : State) : Answer :=
  .next (s.vint (.vmax d a b k w) d a b k w fun n p q => if signedLane n p ≤ signedLane n q then q else p)

/-- VMINU (R265). -/
def execVminu (d a b : Reg) (k : BitVec 3) (w : BitVec 2) (s : State) : Answer :=
  .next (s.vint (.vminu d a b k w) d a b k w fun _ p q => if p ≤ q then p else q)

/-- VMAXU (R265). -/
def execVmaxu (d a b : Reg) (k : BitVec 3) (w : BitVec 2) (s : State) : Answer :=
  .next (s.vint (.vmaxu d a b k w) d a b k w fun _ p q => if p ≤ q then q else p)

/-- VADDS (R265). -/
def execVadds (d a b : Reg) (k : BitVec 3) (w : BitVec 2) (s : State) : Answer :=
  .next (s.vint (.vadds d a b k w) d a b k w fun n p q => clampSigned n (signedLane n p + signedLane n q))

/-- VSUBS (R265). -/
def execVsubs (d a b : Reg) (k : BitVec 3) (w : BitVec 2) (s : State) : Answer :=
  .next (s.vint (.vsubs d a b k w) d a b k w fun n p q => clampSigned n (signedLane n p - signedLane n q))

/-- VADDUS (R265). -/
def execVaddus (d a b : Reg) (k : BitVec 3) (w : BitVec 2) (s : State) : Answer :=
  .next (s.vint (.vaddus d a b k w) d a b k w fun n p q => clampUnsigned n ((p : Int) + (q : Int)))

/-- VSUBUS (R265). -/
def execVsubus (d a b : Reg) (k : BitVec 3) (w : BitVec 2) (s : State) : Answer :=
  .next (s.vint (.vsubus d a b k w) d a b k w fun n p q => clampUnsigned n ((p : Int) - (q : Int)))

/-! ### Minors 19 to 28 (R266, R267) -/

/-- A comparison into k[d]: the truth of an active lane, 0 elsewhere (R266). -/
def State.vcompare (s : State) (i : Instr) (d a b : Reg) (k : BitVec 3) (w : BitVec 2) (test : Nat → Nat → Nat → Bool) : State :=
  s.allow i [a, b] false fun s =>
    let n := widthOf w
    let x := (s.rdV a).toNat
    let y := (s.rdV b).toNat
    let bits := joinBits (fun j => (s.rdK k.toNat).getLsbD j && test n (lane x j n) (lane y j n)) (128 / n)
    (s.wrK d.toNat (BitVec.ofNat 16 bits)).retire

/-- VCMPEQ (R266). -/
def execVcmpeq (d a b : Reg) (k : BitVec 3) (w : BitVec 2) (s : State) : Answer :=
  .next (s.vcompare (.vcmpeq d a b k w) d a b k w fun _ p q => p == q)

/-- VCMPLT (R266). -/
def execVcmplt (d a b : Reg) (k : BitVec 3) (w : BitVec 2) (s : State) : Answer :=
  .next (s.vcompare (.vcmplt d a b k w) d a b k w fun n p q => decide (signedLane n p < signedLane n q))

/-- VCMPLTU (R266). -/
def execVcmpltu (d a b : Reg) (k : BitVec 3) (w : BitVec 2) (s : State) : Answer :=
  .next (s.vcompare (.vcmpltu d a b k w) d a b k w fun _ p q => decide (p < q))

/-- VSEL: every lane is written, from v[a] where the selector bit is set, else from v[b] (R266). -/
def execVsel (d a b : Reg) (k : BitVec 3) (w : BitVec 2) (s : State) : Answer :=
  .next (s.allow (.vsel d a b k w) [d, a, b] false fun s =>
    let n := widthOf w
    let x := (s.rdV a).toNat
    let y := (s.rdV b).toNat
    (s.wrV d (BitVec.ofNat 128 (joinLanes n
      (fun j => if (s.rdK k.toNat).getLsbD j then lane x j n else lane y j n) (128 / n)))).retire)

/-- VSPLAT (R266). -/
def execVsplat (d a : Reg) (k : BitVec 3) (w : BitVec 2) (s : State) : Answer :=
  .next (s.allow (.vsplat d a k w) [d] false fun s =>
    (s.laneWrite d k.toNat (widthOf w) fun _ => (s.rdG a).toNat).retire)

/-- VEXT: the lane index is taken modulo the lane count (R266). -/
def execVext (d a b : Reg) (w : BitVec 2) (s : State) : Answer :=
  .next (s.allow (.vext d a b w) [a] false fun s =>
    let n := widthOf w
    s.finishG d (BitVec.ofInt 64 (signedLane n (lane (s.rdV a).toNat ((s.rdG b).toNat % (128 / n)) n))))

/-- VINS: the other lanes are unchanged (R266). -/
def execVins (d a b : Reg) (w : BitVec 2) (s : State) : Answer :=
  .next (s.allow (.vins d a b w) [d] false fun s =>
    let n := widthOf w
    let j := (s.rdG b).toNat % (128 / n)
    (s.laneWrite d 0 n fun i => if i = j then (s.rdG a).toNat else lane (s.rdV d).toNat i n).retire)

/-- VPERM (R266). -/
def execVperm (d a b : Reg) (k : BitVec 3) (w : BitVec 2) (s : State) : Answer :=
  .next (s.allow (.vperm d a b k w) [d, a, b] false fun s =>
    let n := widthOf w
    let x := (s.rdV a).toNat
    let y := (s.rdV b).toNat
    (s.laneWrite d k.toNat n fun j => lane x (lane y j n % (128 / n)) n).retire)

/-- Sum of c signed products of e-bit elements from element j on (R267). -/
def dotProducts (x y e j : Nat) : Nat → Int
  | 0 => 0
  | c + 1 => signedLane e (lane x j e) * signedLane e (lane y j e) + dotProducts x y e (j + 1) c

/-- VDOT: w = 0 is .b, 1 is .h; the mask governs the 32-bit lanes (R267). -/
def execVdot (d a b : Reg) (k : BitVec 3) (w : BitVec 1) (s : State) : Answer :=
  .next (s.allow (.vdot d a b k w) [d, a, b] false fun s =>
    let e := if w = 0 then 8 else 16
    let c := 32 / e
    let x := (s.rdV a).toNat
    let y := (s.rdV b).toNat
    let z := (s.rdV d).toNat
    (s.laneWrite d k.toNat 32 fun i => wrapLane 32 (signedLane 32 (lane z i 32) + dotProducts x y e (c * i) c)).retire)

/-- Sum of the active lanes (R267). -/
def laneSum (x w : Nat) (k : BitVec 16) : Nat → Nat
  | 0 => 0
  | n + 1 => laneSum x w k n + (if k.getLsbD n then lane x n w else 0)

/-- VRED (R267). -/
def execVred (d a : Reg) (k : BitVec 3) (w : BitVec 2) (s : State) : Answer :=
  .next (s.allow (.vred d a k w) [a] false fun s =>
    let n := widthOf w
    s.finishG d (BitVec.ofInt 64 (signedLane n (laneSum (s.rdV a).toNat n (s.rdK k.toNat) (128 / n) % 2 ^ n))))

/-! ### Mask operations (R268) -/

/-- KAND (R268). -/
def execKand (d a b : Reg) (s : State) : Answer :=
  .next (s.wrK d.toNat (s.rdK a.toNat &&& s.rdK b.toNat)).retire

/-- KOR (R268). -/
def execKor (d a b : Reg) (s : State) : Answer :=
  .next (s.wrK d.toNat (s.rdK a.toNat ||| s.rdK b.toNat)).retire

/-- KXOR (R268). -/
def execKxor (d a b : Reg) (s : State) : Answer :=
  .next (s.wrK d.toNat (s.rdK a.toNat ^^^ s.rdK b.toNat)).retire

/-- KANDN (R268). -/
def execKandn (d a b : Reg) (s : State) : Answer :=
  .next (s.wrK d.toNat (s.rdK a.toNat &&& ~~~(s.rdK b.toNat))).retire

/-- KMOVG (R268). -/
def execKmovg (d a : Reg) (s : State) : Answer :=
  .next (s.wrK d.toNat ((s.rdG a).setWidth 16)).retire

/-- GMOVK (R268). -/
def execGmovk (d a : Reg) (s : State) : Answer :=
  .next (s.finishG d ((s.rdK a.toNat).setWidth 64))

/-! ### Vector floating point (R275) -/

/-- Format of fn[4:3] (R57). -/
def vectorFmt (t : BitVec 2) : FloatFmt :=
  if t = 0 then .f64 else if t = 1 then .f32 else if t = 2 then .f16 else .bf16

/-- Flags by lane of a lane-wise instruction: an inactive lane raises none (R240, R262). -/
def laneFlags (k : BitVec 16) (n : Nat) (f : Nat → Rounded) : List FpFlags :=
  (List.range n).map fun i => if k.getLsbD i then (f i).2 else 0

/-- A lane-wise floating instruction (R275). -/
def State.vfp (s : State) (i : Instr) (d a b : Reg) (k : BitVec 3) (t : FloatFmt)
    (op : Nat → Nat → Nat → Rounded) : State :=
  s.allow i [d, a, b] false fun s =>
    let w := t.width
    let x := (s.rdV a).toNat
    let y := (s.rdV b).toNat
    let z := (s.rdV d).toNat
    let r : Nat → Rounded := fun j => op (lane x j w) (lane y j w) (lane z j w)
    s.finishFp false (laneFlags (s.rdK k.toNat) (128 / w) r) fun s => s.laneWrite d k.toNat w fun j => (r j).1

/-- VFADD (R275). -/
def execVfadd (d a b : Reg) (k m : BitVec 3) (t : BitVec 2) (s : State) : Answer :=
  .next (s.vfp (.vfadd d a b k m t) d a b k (vectorFmt t) fun p q _ => fpAdd (vectorFmt t) (s.mode m) p q)

/-- VFSUB (R275). -/
def execVfsub (d a b : Reg) (k m : BitVec 3) (t : BitVec 2) (s : State) : Answer :=
  .next (s.vfp (.vfsub d a b k m t) d a b k (vectorFmt t) fun p q _ => fpSub (vectorFmt t) (s.mode m) p q)

/-- VFMUL (R275). -/
def execVfmul (d a b : Reg) (k m : BitVec 3) (t : BitVec 2) (s : State) : Answer :=
  .next (s.vfp (.vfmul d a b k m t) d a b k (vectorFmt t) fun p q _ => fpMul (vectorFmt t) (s.mode m) p q)

/-- VFMA (R275). -/
def execVfma (d a b : Reg) (k m : BitVec 3) (t : BitVec 2) (s : State) : Answer :=
  .next (s.vfp (.vfma d a b k m t) d a b k (vectorFmt t) fun p q r => fpFma (vectorFmt t) (s.mode m) false false p q r)

/-- VFNMA (R275). -/
def execVfnma (d a b : Reg) (k m : BitVec 3) (t : BitVec 2) (s : State) : Answer :=
  .next (s.vfp (.vfnma d a b k m t) d a b k (vectorFmt t) fun p q r => fpFma (vectorFmt t) (s.mode m) true false p q r)

/-- VFMIN (R275). -/
def execVfmin (d a b : Reg) (k : BitVec 3) (t : BitVec 2) (s : State) : Answer :=
  .next (s.vfp (.vfmin d a b k t) d a b k (vectorFmt t) fun p q _ => fpMinMax (vectorFmt t) false p q)

/-- VFMAX (R275). -/
def execVfmax (d a b : Reg) (k : BitVec 3) (t : BitVec 2) (s : State) : Answer :=
  .next (s.vfp (.vfmax d a b k t) d a b k (vectorFmt t) fun p q _ => fpMinMax (vectorFmt t) true p q)

/-- VFCMP: bits as R266, flags as FEQ, FLT, FLE for active lanes (R275). -/
def execVfcmp (d a b : Reg) (k : BitVec 3) (p t : BitVec 2) (s : State) : Answer :=
  .next (s.allow (.vfcmp d a b k p t) [a, b] false fun s =>
    let f := vectorFmt t
    let x := (s.rdV a).toNat
    let y := (s.rdV b).toNat
    let n := 128 / f.width
    let r := fun j => fpCompare f p.toNat (lane x j f.width) (lane y j f.width)
    let bits := joinBits (fun j => (s.rdK k.toNat).getLsbD j && (r j).1) n
    s.finishFp false (laneFlags (s.rdK k.toNat) n fun j => (0, (r j).2)) fun s => s.wrK d.toNat (BitVec.ofNat 16 bits))

/-! ### VCVT (R274) -/

/-- VCVT: n = 128 / max of the lane widths; bits above lane n − 1 of the destination are zero (R274). -/
def execVcvt (d a : Reg) (src : BitVec 5) (k m : BitVec 3) (t : BitVec 5) (s : State) : Answer :=
  .next (s.allow (.vcvt d a src k m t) [d, a] false fun s =>
    let cs := convFmt src
    let cd := convFmt t
    let n := 128 / Nat.max cs.lane cd.lane
    let x := (s.rdV a).toNat
    let old := (s.rdV d).toNat
    let r : Nat → Rounded := fun j => convert cd cs (s.mode m) (lane x j cs.lane % 2 ^ cs.width)
    s.finishFp false (laneFlags (s.rdK k.toNat) n r) fun s =>
      s.wrV d (BitVec.ofNat 128 (joinLanes cd.lane
        (fun j => if (s.rdK k.toNat).getLsbD j then (r j).1 else lane old j cd.lane) n)))

/-! ### VFRED (R257, R276) -/

/-- One level of the tree: neighbours are combined (R257). -/
def reduceLevel (op : Nat → Nat → Rounded) : List Rounded → List Rounded
  | x :: y :: rest => let r := op x.1 y.1; (r.1, x.2 ||| y.2 ||| r.2) :: reduceLevel op rest
  | rest => rest

/-- The value of the tree after the levels (R257). -/
def reduceTree (op : Nat → Nat → Rounded) : Nat → List Rounded → Rounded
  | 0, xs => xs.headD (0, 0)
  | l + 1, xs => reduceTree op l (reduceLevel op xs)

/-- VFRED: an inactive lane enters as the neutral value; flags are the OR over every node (R257, R276). -/
def State.vfred (s : State) (i : Instr) (d a : Reg) (k : BitVec 3) (t : FloatFmt) (neutral : Nat)
    (op : Nat → Nat → Rounded) : State :=
  s.allow i [d, a] false fun s =>
    let w := t.width
    let n := 128 / w
    let x := (s.rdV a).toNat
    let leaves : List Rounded := (List.range n).map fun j => (if (s.rdK k.toNat).getLsbD j then lane x j w else neutral, 0)
    s.fpTo false t d (reduceTree op (Nat.log2 n) leaves)

/-- VFRED sum (R276). -/
def execVfredSum (d a : Reg) (k m : BitVec 3) (t : BitVec 2) (s : State) : Answer :=
  let f := vectorFmt t
  .next (s.vfred (.vfredSum d a k m t) d a k f f.signBit fun p q => fpAdd f (s.mode m) p q)

/-- VFRED min (R276). -/
def execVfredMin (d a : Reg) (k : BitVec 3) (t : BitVec 2) (s : State) : Answer :=
  let f := vectorFmt t
  .next (s.vfred (.vfredMin d a k t) d a k f f.infinity fun p q => fpMinMax f false p q)

/-- VFRED max (R276). -/
def execVfredMax (d a : Reg) (k : BitVec 3) (t : BitVec 2) (s : State) : Answer :=
  let f := vectorFmt t
  .next (s.vfred (.vfredMax d a k t) d a k f (f.signBit + f.infinity) fun p q => fpMinMax f true p q)

end Sys2Proof.Machine
end

