-- ==== Sys2Proof/Machine/Dispatch.lean ====
section
/-!
DEFINITION. What each step does: one arm for each constructor.
-/
namespace Sys2Proof.Machine

/-- The meaning of a step in a state. -/
def exec (i : Instr) (s : State) : Host.Outcome State Fault Refusal :=
  match i with
  | .add x0 x1 x2 => Sys2Proof.Machine.execAdd x0 x1 x2 s
  | .sub x0 x1 x2 => Sys2Proof.Machine.execSub x0 x1 x2 s
  | .and x0 x1 x2 => Sys2Proof.Machine.execAnd x0 x1 x2 s
  | .or x0 x1 x2 => Sys2Proof.Machine.execOr x0 x1 x2 s
  | .xor x0 x1 x2 => Sys2Proof.Machine.execXor x0 x1 x2 s
  | .andn x0 x1 x2 => Sys2Proof.Machine.execAndn x0 x1 x2 s
  | .sll x0 x1 x2 => Sys2Proof.Machine.execSll x0 x1 x2 s
  | .srl x0 x1 x2 => Sys2Proof.Machine.execSrl x0 x1 x2 s
  | .sra x0 x1 x2 => Sys2Proof.Machine.execSra x0 x1 x2 s
  | .slt x0 x1 x2 => Sys2Proof.Machine.execSlt x0 x1 x2 s
  | .sltu x0 x1 x2 => Sys2Proof.Machine.execSltu x0 x1 x2 s
  | .min x0 x1 x2 => Sys2Proof.Machine.execMin x0 x1 x2 s
  | .max x0 x1 x2 => Sys2Proof.Machine.execMax x0 x1 x2 s
  | .minu x0 x1 x2 => Sys2Proof.Machine.execMinu x0 x1 x2 s
  | .maxu x0 x1 x2 => Sys2Proof.Machine.execMaxu x0 x1 x2 s
  | .mul x0 x1 x2 => Sys2Proof.Machine.execMul x0 x1 x2 s
  | .mulh x0 x1 x2 => Sys2Proof.Machine.execMulh x0 x1 x2 s
  | .mulhu x0 x1 x2 => Sys2Proof.Machine.execMulhu x0 x1 x2 s
  | .clz x0 x1 => Sys2Proof.Machine.execClz x0 x1 s
  | .ctz x0 x1 => Sys2Proof.Machine.execCtz x0 x1 s
  | .popc x0 x1 => Sys2Proof.Machine.execPopc x0 x1 s
  | .div x0 x1 x2 => Sys2Proof.Machine.execDiv x0 x1 x2 s
  | .divu x0 x1 x2 => Sys2Proof.Machine.execDivu x0 x1 x2 s
  | .rem x0 x1 x2 => Sys2Proof.Machine.execRem x0 x1 x2 s
  | .remu x0 x1 x2 => Sys2Proof.Machine.execRemu x0 x1 x2 s
  | .nop => Sys2Proof.Machine.execNop s
  | .addi x0 x1 x2 => Sys2Proof.Machine.execAddi x0 x1 x2 s
  | .andi x0 x1 x2 => Sys2Proof.Machine.execAndi x0 x1 x2 s
  | .ori x0 x1 x2 => Sys2Proof.Machine.execOri x0 x1 x2 s
  | .xori x0 x1 x2 => Sys2Proof.Machine.execXori x0 x1 x2 s
  | .slti x0 x1 x2 => Sys2Proof.Machine.execSlti x0 x1 x2 s
  | .sltiu x0 x1 x2 => Sys2Proof.Machine.execSltiu x0 x1 x2 s
  | .slli x0 x1 x2 => Sys2Proof.Machine.execSlli x0 x1 x2 s
  | .srli x0 x1 x2 => Sys2Proof.Machine.execSrli x0 x1 x2 s
  | .srai x0 x1 x2 => Sys2Proof.Machine.execSrai x0 x1 x2 s
  | .lhi x0 x1 => Sys2Proof.Machine.execLhi x0 x1 s
  | .shori x0 x1 x2 => Sys2Proof.Machine.execShori x0 x1 x2 s
  | .beq x0 x1 x2 => Sys2Proof.Machine.execBeq x0 x1 x2 s
  | .bne x0 x1 x2 => Sys2Proof.Machine.execBne x0 x1 x2 s
  | .blt x0 x1 x2 => Sys2Proof.Machine.execBlt x0 x1 x2 s
  | .bge x0 x1 x2 => Sys2Proof.Machine.execBge x0 x1 x2 s
  | .bltu x0 x1 x2 => Sys2Proof.Machine.execBltu x0 x1 x2 s
  | .bgeu x0 x1 x2 => Sys2Proof.Machine.execBgeu x0 x1 x2 s
  | .jal x0 => Sys2Proof.Machine.execJal x0 s
  | .jalr x0 x1 x2 => Sys2Proof.Machine.execJalr x0 x1 x2 s
  | .spawn x0 x1 x2 => Sys2Proof.Machine.execSpawn x0 x1 x2 s
  | .exit => Sys2Proof.Machine.execExit s
  | .yield => Sys2Proof.Machine.execYield s
  | .home x0 => Sys2Proof.Machine.execHome x0 s
  | .waitt x0 => Sys2Proof.Machine.execWaitt x0 s
  | .waittExpiry x0 => Sys2Proof.Machine.execWaittExpiry x0 s
  | .lclkup x0 x1 => Sys2Proof.Machine.execLclkup x0 x1 s
  | .iflush => Sys2Proof.Machine.execIflush s
  | .trap x0 => Sys2Proof.Machine.execTrap x0 s
  | .eret => Sys2Proof.Machine.execEret s
  | .crr x0 x1 => Sys2Proof.Machine.execCrr x0 x1 s
  | .crw x0 x1 x2 => Sys2Proof.Machine.execCrw x0 x1 x2 s
  | .crs x0 x1 x2 => Sys2Proof.Machine.execCrs x0 x1 x2 s
  | .crc x0 x1 x2 => Sys2Proof.Machine.execCrc x0 x1 x2 s
  | .rwait x0 x1 x2 x3 => Sys2Proof.Machine.execRwait x0 x1 x2 x3 s
  | .rroom x0 x1 x2 x3 => Sys2Proof.Machine.execRroom x0 x1 x2 x3 s
  | .radvh x0 x1 x2 x3 => Sys2Proof.Machine.execRadvh x0 x1 x2 x3 s
  | .radvt x0 x1 x2 x3 => Sys2Proof.Machine.execRadvt x0 x1 x2 x3 s
  | .rld x0 x1 x2 x3 x4 x5 => Sys2Proof.Machine.execRld x0 x1 x2 x3 x4 x5 s
  | .rst x0 x1 x2 x3 x4 x5 => Sys2Proof.Machine.execRst x0 x1 x2 x3 x4 x5 s
  | .join x0 x1 x2 => Sys2Proof.Machine.execJoin x0 x1 x2 s
  | .leave x0 => Sys2Proof.Machine.execLeave x0 s
  | .bar x0 x1 => Sys2Proof.Machine.execBar x0 x1 s
  | .cwait x0 x1 x2 => Sys2Proof.Machine.execCwait x0 x1 x2 s
  | .ticket x0 x1 => Sys2Proof.Machine.execTicket x0 x1 s
  | .serve x0 => Sys2Proof.Machine.execServe x0 s
  | .gamoD x0 x1 x2 => Sys2Proof.Machine.execGamoD x0 x1 x2 s
  | .gamoW x0 x1 x2 => Sys2Proof.Machine.execGamoW x0 x1 x2 s
  | .gamoWindowEnd x0 => Sys2Proof.Machine.execGamoWindowEnd x0 s
  | .launch x0 x1 => Sys2Proof.Machine.execLaunch x0 x1 s
  | .sendLo x0 x1 x2 x3 => Sys2Proof.Machine.execSendLo x0 x1 x2 x3 s
  | .sendHi x0 x1 x2 x3 => Sys2Proof.Machine.execSendHi x0 x1 x2 x3 s
  | .sendr x0 x1 x2 x3 => Sys2Proof.Machine.execSendr x0 x1 x2 x3 s
  | .hret => Sys2Proof.Machine.execHret s
  | .xpush x0 x1 => Sys2Proof.Machine.execXpush x0 x1 s
  | .xstat x0 x1 => Sys2Proof.Machine.execXstat x0 x1 s
  | .aadd x0 x1 x2 x3 x4 x5 => Sys2Proof.Machine.execAadd x0 x1 x2 x3 x4 x5 s
  | .aand x0 x1 x2 x3 x4 x5 => Sys2Proof.Machine.execAand x0 x1 x2 x3 x4 x5 s
  | .aor x0 x1 x2 x3 x4 x5 => Sys2Proof.Machine.execAor x0 x1 x2 x3 x4 x5 s
  | .axor x0 x1 x2 x3 x4 x5 => Sys2Proof.Machine.execAxor x0 x1 x2 x3 x4 x5 s
  | .amin x0 x1 x2 x3 x4 x5 => Sys2Proof.Machine.execAmin x0 x1 x2 x3 x4 x5 s
  | .amax x0 x1 x2 x3 x4 x5 => Sys2Proof.Machine.execAmax x0 x1 x2 x3 x4 x5 s
  | .aminu x0 x1 x2 x3 x4 x5 => Sys2Proof.Machine.execAminu x0 x1 x2 x3 x4 x5 s
  | .amaxu x0 x1 x2 x3 x4 x5 => Sys2Proof.Machine.execAmaxu x0 x1 x2 x3 x4 x5 s
  | .aswap x0 x1 x2 x3 x4 x5 => Sys2Proof.Machine.execAswap x0 x1 x2 x3 x4 x5 s
  | .acas x0 x1 x2 x3 x4 x5 => Sys2Proof.Machine.execAcas x0 x1 x2 x3 x4 x5 s
  | .afadd x0 x1 x2 x3 x4 x5 => Sys2Proof.Machine.execAfadd x0 x1 x2 x3 x4 x5 s
  | .mma x0 x1 x2 x3 x4 => Sys2Proof.Machine.execMma x0 x1 x2 x3 x4 s
  | .mmasp x0 x1 x2 x3 x4 => Sys2Proof.Machine.execMmasp x0 x1 x2 x3 x4 s
  | .ewr x0 x1 => Sys2Proof.Machine.execEwr x0 x1 s
  | .erd x0 x1 => Sys2Proof.Machine.execErd x0 x1 s
  | .mzero x0 => Sys2Proof.Machine.execMzero x0 s
  | .mst x0 x1 x2 x3 => Sys2Proof.Machine.execMst x0 x1 x2 x3 s
  | .mldt x0 x1 x2 x3 => Sys2Proof.Machine.execMldt x0 x1 x2 x3 s
  | .jwait x0 x1 => Sys2Proof.Machine.execJwait x0 x1 s
  | .jpoll x0 x1 => Sys2Proof.Machine.execJpoll x0 x1 s
  | .lb x0 x1 x2 x3 x4 x5 x6 => Sys2Proof.Machine.execLb x0 x1 x2 x3 x4 x5 x6 s
  | .lbu x0 x1 x2 x3 x4 x5 x6 => Sys2Proof.Machine.execLbu x0 x1 x2 x3 x4 x5 x6 s
  | .lh x0 x1 x2 x3 x4 x5 x6 => Sys2Proof.Machine.execLh x0 x1 x2 x3 x4 x5 x6 s
  | .lhu x0 x1 x2 x3 x4 x5 x6 => Sys2Proof.Machine.execLhu x0 x1 x2 x3 x4 x5 x6 s
  | .lw x0 x1 x2 x3 x4 x5 x6 => Sys2Proof.Machine.execLw x0 x1 x2 x3 x4 x5 x6 s
  | .lwu x0 x1 x2 x3 x4 x5 x6 => Sys2Proof.Machine.execLwu x0 x1 x2 x3 x4 x5 x6 s
  | .ld x0 x1 x2 x3 x4 x5 x6 => Sys2Proof.Machine.execLd x0 x1 x2 x3 x4 x5 x6 s
  | .flw x0 x1 x2 x3 x4 x5 x6 => Sys2Proof.Machine.execFlw x0 x1 x2 x3 x4 x5 x6 s
  | .fld x0 x1 x2 x3 x4 x5 x6 => Sys2Proof.Machine.execFld x0 x1 x2 x3 x4 x5 x6 s
  | .vld x0 x1 x2 x3 x4 x5 x6 => Sys2Proof.Machine.execVld x0 x1 x2 x3 x4 x5 x6 s
  | .sb x0 x1 x2 x3 x4 x5 => Sys2Proof.Machine.execSb x0 x1 x2 x3 x4 x5 s
  | .sh x0 x1 x2 x3 x4 x5 => Sys2Proof.Machine.execSh x0 x1 x2 x3 x4 x5 s
  | .sw x0 x1 x2 x3 x4 x5 => Sys2Proof.Machine.execSw x0 x1 x2 x3 x4 x5 s
  | .sd x0 x1 x2 x3 x4 x5 => Sys2Proof.Machine.execSd x0 x1 x2 x3 x4 x5 s
  | .fsw x0 x1 x2 x3 x4 x5 => Sys2Proof.Machine.execFsw x0 x1 x2 x3 x4 x5 s
  | .fsd x0 x1 x2 x3 x4 x5 => Sys2Proof.Machine.execFsd x0 x1 x2 x3 x4 x5 s
  | .vst x0 x1 x2 x3 x4 x5 => Sys2Proof.Machine.execVst x0 x1 x2 x3 x4 x5 s
  | .ldf x0 x1 x2 x3 => Sys2Proof.Machine.execLdf x0 x1 x2 x3 s
  | .ldfe x0 x1 x2 x3 => Sys2Proof.Machine.execLdfe x0 x1 x2 x3 s
  | .sde x0 x1 x2 x3 => Sys2Proof.Machine.execSde x0 x1 x2 x3 s
  | .fesetE x0 x1 => Sys2Proof.Machine.execFesetE x0 x1 s
  | .fesetF x0 x1 => Sys2Proof.Machine.execFesetF x0 x1 s
  | .fence x0 => Sys2Proof.Machine.execFence x0 s
  | .ppurge x0 x1 x2 => Sys2Proof.Machine.execPpurge x0 x1 x2 s
  | .lease x0 x1 x2 x3 => Sys2Proof.Machine.execLease x0 x1 x2 x3 s
  | .pref x0 x1 x2 x3 => Sys2Proof.Machine.execPref x0 x1 x2 x3 s
  | .vadd x0 x1 x2 x3 x4 => Sys2Proof.Machine.execVadd x0 x1 x2 x3 x4 s
  | .vsub x0 x1 x2 x3 x4 => Sys2Proof.Machine.execVsub x0 x1 x2 x3 x4 s
  | .vmul x0 x1 x2 x3 x4 => Sys2Proof.Machine.execVmul x0 x1 x2 x3 x4 s
  | .vmulh x0 x1 x2 x3 x4 => Sys2Proof.Machine.execVmulh x0 x1 x2 x3 x4 s
  | .vmulhu x0 x1 x2 x3 x4 => Sys2Proof.Machine.execVmulhu x0 x1 x2 x3 x4 s
  | .vand x0 x1 x2 x3 x4 => Sys2Proof.Machine.execVand x0 x1 x2 x3 x4 s
  | .vor x0 x1 x2 x3 x4 => Sys2Proof.Machine.execVor x0 x1 x2 x3 x4 s
  | .vxor x0 x1 x2 x3 x4 => Sys2Proof.Machine.execVxor x0 x1 x2 x3 x4 s
  | .vsll x0 x1 x2 x3 x4 => Sys2Proof.Machine.execVsll x0 x1 x2 x3 x4 s
  | .vsrl x0 x1 x2 x3 x4 => Sys2Proof.Machine.execVsrl x0 x1 x2 x3 x4 s
  | .vsra x0 x1 x2 x3 x4 => Sys2Proof.Machine.execVsra x0 x1 x2 x3 x4 s
  | .vmin x0 x1 x2 x3 x4 => Sys2Proof.Machine.execVmin x0 x1 x2 x3 x4 s
  | .vmax x0 x1 x2 x3 x4 => Sys2Proof.Machine.execVmax x0 x1 x2 x3 x4 s
  | .vminu x0 x1 x2 x3 x4 => Sys2Proof.Machine.execVminu x0 x1 x2 x3 x4 s
  | .vmaxu x0 x1 x2 x3 x4 => Sys2Proof.Machine.execVmaxu x0 x1 x2 x3 x4 s
  | .vadds x0 x1 x2 x3 x4 => Sys2Proof.Machine.execVadds x0 x1 x2 x3 x4 s
  | .vsubs x0 x1 x2 x3 x4 => Sys2Proof.Machine.execVsubs x0 x1 x2 x3 x4 s
  | .vaddus x0 x1 x2 x3 x4 => Sys2Proof.Machine.execVaddus x0 x1 x2 x3 x4 s
  | .vsubus x0 x1 x2 x3 x4 => Sys2Proof.Machine.execVsubus x0 x1 x2 x3 x4 s
  | .vcmpeq x0 x1 x2 x3 x4 => Sys2Proof.Machine.execVcmpeq x0 x1 x2 x3 x4 s
  | .vcmplt x0 x1 x2 x3 x4 => Sys2Proof.Machine.execVcmplt x0 x1 x2 x3 x4 s
  | .vcmpltu x0 x1 x2 x3 x4 => Sys2Proof.Machine.execVcmpltu x0 x1 x2 x3 x4 s
  | .vsel x0 x1 x2 x3 x4 => Sys2Proof.Machine.execVsel x0 x1 x2 x3 x4 s
  | .vsplat x0 x1 x2 x3 => Sys2Proof.Machine.execVsplat x0 x1 x2 x3 s
  | .vext x0 x1 x2 x3 => Sys2Proof.Machine.execVext x0 x1 x2 x3 s
  | .vins x0 x1 x2 x3 => Sys2Proof.Machine.execVins x0 x1 x2 x3 s
  | .vperm x0 x1 x2 x3 x4 => Sys2Proof.Machine.execVperm x0 x1 x2 x3 x4 s
  | .vdot x0 x1 x2 x3 x4 => Sys2Proof.Machine.execVdot x0 x1 x2 x3 x4 s
  | .vred x0 x1 x2 x3 => Sys2Proof.Machine.execVred x0 x1 x2 x3 s
  | .kand x0 x1 x2 => Sys2Proof.Machine.execKand x0 x1 x2 s
  | .kor x0 x1 x2 => Sys2Proof.Machine.execKor x0 x1 x2 s
  | .kxor x0 x1 x2 => Sys2Proof.Machine.execKxor x0 x1 x2 s
  | .kandn x0 x1 x2 => Sys2Proof.Machine.execKandn x0 x1 x2 s
  | .kmovg x0 x1 => Sys2Proof.Machine.execKmovg x0 x1 s
  | .gmovk x0 x1 => Sys2Proof.Machine.execGmovk x0 x1 s
  | .fexp x0 x1 x2 x3 => Sys2Proof.Machine.execFexp x0 x1 x2 x3 s
  | .flog x0 x1 x2 x3 => Sys2Proof.Machine.execFlog x0 x1 x2 x3 s
  | .ferf x0 x1 x2 x3 => Sys2Proof.Machine.execFerf x0 x1 x2 x3 s
  | .fdivD x0 x1 x2 x3 => Sys2Proof.Machine.execFdivD x0 x1 x2 x3 s
  | .fsqrtD x0 x1 x2 => Sys2Proof.Machine.execFsqrtD x0 x1 x2 s
  | .vcrc x0 x1 x2 => Sys2Proof.Machine.execVcrc x0 x1 x2 s
  | .fadd x0 x1 x2 x3 x4 => Sys2Proof.Machine.execFadd x0 x1 x2 x3 x4 s
  | .fsub x0 x1 x2 x3 x4 => Sys2Proof.Machine.execFsub x0 x1 x2 x3 x4 s
  | .fmul x0 x1 x2 x3 x4 => Sys2Proof.Machine.execFmul x0 x1 x2 x3 x4 s
  | .fdivS x0 x1 x2 x3 => Sys2Proof.Machine.execFdivS x0 x1 x2 x3 s
  | .fsqrtS x0 x1 x2 => Sys2Proof.Machine.execFsqrtS x0 x1 x2 s
  | .fmin x0 x1 x2 x3 => Sys2Proof.Machine.execFmin x0 x1 x2 x3 s
  | .fmax x0 x1 x2 x3 => Sys2Proof.Machine.execFmax x0 x1 x2 x3 s
  | .fma x0 x1 x2 x3 x4 => Sys2Proof.Machine.execFma x0 x1 x2 x3 x4 s
  | .fms x0 x1 x2 x3 x4 => Sys2Proof.Machine.execFms x0 x1 x2 x3 x4 s
  | .fnma x0 x1 x2 x3 x4 => Sys2Proof.Machine.execFnma x0 x1 x2 x3 x4 s
  | .fnms x0 x1 x2 x3 x4 => Sys2Proof.Machine.execFnms x0 x1 x2 x3 x4 s
  | .feq x0 x1 x2 x3 => Sys2Proof.Machine.execFeq x0 x1 x2 x3 s
  | .flt x0 x1 x2 x3 => Sys2Proof.Machine.execFlt x0 x1 x2 x3 s
  | .fle x0 x1 x2 x3 => Sys2Proof.Machine.execFle x0 x1 x2 x3 s
  | .fclass x0 x1 x2 => Sys2Proof.Machine.execFclass x0 x1 x2 s
  | .fsgnj x0 x1 x2 x3 => Sys2Proof.Machine.execFsgnj x0 x1 x2 x3 s
  | .fsgnjn x0 x1 x2 x3 => Sys2Proof.Machine.execFsgnjn x0 x1 x2 x3 s
  | .fsgnjx x0 x1 x2 x3 => Sys2Proof.Machine.execFsgnjx x0 x1 x2 x3 s
  | .fmvfg x0 x1 x2 => Sys2Proof.Machine.execFmvfg x0 x1 x2 s
  | .fmvgf x0 x1 x2 => Sys2Proof.Machine.execFmvgf x0 x1 x2 s
  | .fcvt x0 x1 x2 x3 x4 => Sys2Proof.Machine.execFcvt x0 x1 x2 x3 x4 s
  | .vcvt x0 x1 x2 x3 x4 x5 => Sys2Proof.Machine.execVcvt x0 x1 x2 x3 x4 x5 s
  | .vfadd x0 x1 x2 x3 x4 x5 => Sys2Proof.Machine.execVfadd x0 x1 x2 x3 x4 x5 s
  | .vfsub x0 x1 x2 x3 x4 x5 => Sys2Proof.Machine.execVfsub x0 x1 x2 x3 x4 x5 s
  | .vfmul x0 x1 x2 x3 x4 x5 => Sys2Proof.Machine.execVfmul x0 x1 x2 x3 x4 x5 s
  | .vfma x0 x1 x2 x3 x4 x5 => Sys2Proof.Machine.execVfma x0 x1 x2 x3 x4 x5 s
  | .vfnma x0 x1 x2 x3 x4 x5 => Sys2Proof.Machine.execVfnma x0 x1 x2 x3 x4 x5 s
  | .vfmin x0 x1 x2 x3 x4 => Sys2Proof.Machine.execVfmin x0 x1 x2 x3 x4 s
  | .vfmax x0 x1 x2 x3 x4 => Sys2Proof.Machine.execVfmax x0 x1 x2 x3 x4 s
  | .vfcmp x0 x1 x2 x3 x4 x5 => Sys2Proof.Machine.execVfcmp x0 x1 x2 x3 x4 x5 s
  | .vfredSum x0 x1 x2 x3 x4 => Sys2Proof.Machine.execVfredSum x0 x1 x2 x3 x4 s
  | .vfredMin x0 x1 x2 x3 => Sys2Proof.Machine.execVfredMin x0 x1 x2 x3 s
  | .vfredMax x0 x1 x2 x3 => Sys2Proof.Machine.execVfredMax x0 x1 x2 x3 s
  | .migrateToWCore x0 => Sys2Proof.Machine.execMigrateToWCore x0 s
  | .migrateReturn x0 => Sys2Proof.Machine.execMigrateReturn x0 s
  | .wCoreEarlyReturn x0 => Sys2Proof.Machine.execWCoreEarlyReturn x0 s
  | .copyCompletionInterrupt x0 => Sys2Proof.Machine.execCopyCompletionInterrupt x0 s
  | .homeLoad x0 x1 x2 => Sys2Proof.Machine.execHomeLoad x0 x1 x2 s
  | .dewAnswer x0 x1 => Sys2Proof.Machine.execDewAnswer x0 x1 s
  | .loadReply x0 => Sys2Proof.Machine.execLoadReply x0 s
  | .homeStore x0 => Sys2Proof.Machine.execHomeStore x0 s
  | .horizonWaitEnd x0 => Sys2Proof.Machine.execHorizonWaitEnd x0 s
  | .plsharedWriteRelease x0 => Sys2Proof.Machine.execPlsharedWriteRelease x0 s
  | .storeAck x0 => Sys2Proof.Machine.execStoreAck x0 s
  | .homeAtomic x0 => Sys2Proof.Machine.execHomeAtomic x0 s
  | .atomicResult x0 => Sys2Proof.Machine.execAtomicResult x0 s
  | .lmAtomic x0 => Sys2Proof.Machine.execLmAtomic x0 s
  | .pubPublish x0 x1 => Sys2Proof.Machine.execPubPublish x0 x1 s
  | .homeSweep => Sys2Proof.Machine.execHomeSweep s
  | .pushReceive x0 => Sys2Proof.Machine.execPushReceive x0 s
  | .pushAnswer x0 => Sys2Proof.Machine.execPushAnswer x0 s
  | .pushAck x0 => Sys2Proof.Machine.execPushAck x0 s
  | .purgeAck x0 => Sys2Proof.Machine.execPurgeAck x0 s
  | .squallWait x0 => Sys2Proof.Machine.execSquallWait x0 s
  | .squallWake x0 => Sys2Proof.Machine.execSquallWake x0 s
  | .squallEntryExpiry x0 => Sys2Proof.Machine.execSquallEntryExpiry x0 s
  | .homeWaitRecord x0 => Sys2Proof.Machine.execHomeWaitRecord x0 s
  | .waitWake x0 => Sys2Proof.Machine.execWaitWake x0 s
  | .waitRepoll x0 => Sys2Proof.Machine.execWaitRepoll x0 s
  | .unrecordedResend x0 => Sys2Proof.Machine.execUnrecordedResend x0 s
  | .messageArrival x0 => Sys2Proof.Machine.execMessageArrival x0 s
  | .handlerStart x0 x1 => Sys2Proof.Machine.execHandlerStart x0 x1 s
  | .messageAnswer x0 => Sys2Proof.Machine.execMessageAnswer x0 s
  | .handlerOverrun x0 => Sys2Proof.Machine.execHandlerOverrun x0 s
  | .remoteLmStore x0 => Sys2Proof.Machine.execRemoteLmStore x0 s
  | .refusedOfferRetry x0 => Sys2Proof.Machine.execRefusedOfferRetry x0 s
  | .reservedHoldLapse x0 => Sys2Proof.Machine.execReservedHoldLapse x0 s
  | .pageResolve x0 x1 x2 => Sys2Proof.Machine.execPageResolve x0 x1 x2 s
  | .faultWake x0 => Sys2Proof.Machine.execFaultWake x0 s
  | .gateOpen x0 x1 => Sys2Proof.Machine.execGateOpen x0 x1 s
  | .launchAged x0 x1 => Sys2Proof.Machine.execLaunchAged x0 x1 s
  | .threadPlace x0 => Sys2Proof.Machine.execThreadPlace x0 s
  | .stagingDone x0 => Sys2Proof.Machine.execStagingDone x0 s
  | .launchComplete x0 x1 => Sys2Proof.Machine.execLaunchComplete x0 x1 s
  | .completionPost x0 => Sys2Proof.Machine.execCompletionPost x0 s
  | .launchAbort x0 x1 => Sys2Proof.Machine.execLaunchAbort x0 x1 s
  | .isobarEstimate x0 => Sys2Proof.Machine.execIsobarEstimate x0 s
  | .workAged x0 => Sys2Proof.Machine.execWorkAged x0 s
  | .clockRaiseCheck x0 => Sys2Proof.Machine.execClockRaiseCheck x0 s
  | .jobDispatch x0 => Sys2Proof.Machine.execJobDispatch x0 s
  | .jobRetire x0 => Sys2Proof.Machine.execJobRetire x0 s
  | .copyDispatch x0 => Sys2Proof.Machine.execCopyDispatch x0 s
  | .copyElement x0 x1 x2 => Sys2Proof.Machine.execCopyElement x0 x1 x2 s
  | .copyResume x0 => Sys2Proof.Machine.execCopyResume x0 s
  | .copyDone x0 x1 => Sys2Proof.Machine.execCopyDone x0 x1 s
  | .gtrExchange x0 x1 x2 => Sys2Proof.Machine.execGtrExchange x0 x1 x2 s
  | .zwionTimeExchange x0 x1 => Sys2Proof.Machine.execZwionTimeExchange x0 x1 s
  | .replyTimeout x0 => Sys2Proof.Machine.execReplyTimeout x0 s
  | .seqFetch x0 => Sys2Proof.Machine.execSeqFetch x0 s
  | .rightsPurge x0 x1 => Sys2Proof.Machine.execRightsPurge x0 x1 s
  | .translationPurge x0 x1 => Sys2Proof.Machine.execTranslationPurge x0 x1 s
  | .pageMigration x0 x1 x2 => Sys2Proof.Machine.execPageMigration x0 x1 x2 s
  | .wipe x0 => Sys2Proof.Machine.execWipe x0 s
  | .preemptDrainDeadline x0 => Sys2Proof.Machine.execPreemptDrainDeadline x0 s
  | .drainComplete x0 => Sys2Proof.Machine.execDrainComplete x0 s
  | .dieReset x0 x1 => Sys2Proof.Machine.execDieReset x0 x1 s
  | .quiesceDeadline x0 => Sys2Proof.Machine.execQuiesceDeadline x0 s
  | .homeReturn x0 => Sys2Proof.Machine.execHomeReturn x0 s
  | .crossingReplay x0 x1 => Sys2Proof.Machine.execCrossingReplay x0 x1 s
  | .linkCrcRetry x0 x1 => Sys2Proof.Machine.execLinkCrcRetry x0 x1 s
  | .hbmPatrol x0 x1 => Sys2Proof.Machine.execHbmPatrol x0 x1 s
  | .hostGrant x0 x1 x2 => Sys2Proof.Machine.execHostGrant x0 x1 x2 s
  | .hostSnoop x0 x1 => Sys2Proof.Machine.execHostSnoop x0 x1 s
  | .snoopAnswer x0 => Sys2Proof.Machine.execSnoopAnswer x0 s
  | .writePullDrop x0 => Sys2Proof.Machine.execWritePullDrop x0 s
  | .hostMemAccess x0 x1 x2 => Sys2Proof.Machine.execHostMemAccess x0 x1 x2 s
  | .biasFlipToHost x0 => Sys2Proof.Machine.execBiasFlipToHost x0 s
  | .launchPortWrite x0 x1 x2 => Sys2Proof.Machine.execLaunchPortWrite x0 x1 x2 s
  | .vfRegisterWrite x0 x1 x2 => Sys2Proof.Machine.execVfRegisterWrite x0 x1 x2 s
  | .zwionFlitReceive x0 x1 x2 x3 x4 x5 x6 x7 => Sys2Proof.Machine.execZwionFlitReceive x0 x1 x2 x3 x4 x5 x6 x7 s
  | .zwionNak x0 x1 => Sys2Proof.Machine.execZwionNak x0 x1 s
  | .zwionBusyReplay x0 x1 => Sys2Proof.Machine.execZwionBusyReplay x0 x1 s
  | .zwionRetrain x0 x1 => Sys2Proof.Machine.execZwionRetrain x0 x1 s
  | .collStart x0 x1 => Sys2Proof.Machine.execCollStart x0 x1 s
  | .collChunk x0 x1 x2 x3 x4 => Sys2Proof.Machine.execCollChunk x0 x1 x2 x3 x4 s
  | .collResult x0 x1 x2 x3 x4 x5 => Sys2Proof.Machine.execCollResult x0 x1 x2 x3 x4 x5 s
  | .collDeadline x0 x1 => Sys2Proof.Machine.execCollDeadline x0 x1 s
  | .mainUndervoltage => Sys2Proof.Machine.execMainUndervoltage s
  | .mainPowerOn => Sys2Proof.Machine.execMainPowerOn s
  | .cxlHotReset => Sys2Proof.Machine.execCxlHotReset s
  | .primroseSelfTest x0 => Sys2Proof.Machine.execPrimroseSelfTest x0 s
  | .firmwareVerify x0 x1 => Sys2Proof.Machine.execFirmwareVerify x0 x1 s
  | .stewardStart x0 => Sys2Proof.Machine.execStewardStart x0 s
  | .hbmTraining x0 => Sys2Proof.Machine.execHbmTraining x0 s
  | .disableMapLoad x0 => Sys2Proof.Machine.execDisableMapLoad x0 s
  | .moduleWipe x0 => Sys2Proof.Machine.execModuleWipe x0 s
  | .gtrInitialLock x0 => Sys2Proof.Machine.execGtrInitialLock x0 s
  | .isobarStart x0 => Sys2Proof.Machine.execIsobarStart x0 s
  | .ready => Sys2Proof.Machine.execReady s
  | .cDieClamp x0 x1 => Sys2Proof.Machine.execCDieClamp x0 x1 s
  | .baseDieClamp x0 x1 => Sys2Proof.Machine.execBaseDieClamp x0 x1 s
  | .sDieClamp x0 => Sys2Proof.Machine.execSDieClamp x0 s
  | .clampLift x0 x1 => Sys2Proof.Machine.execClampLift x0 x1 s
  | .thermalTrip x0 x1 => Sys2Proof.Machine.execThermalTrip x0 x1 s
  | .getStatus => Sys2Proof.Machine.execGetStatus s
  | .setCap x0 x1 => Sys2Proof.Machine.execSetCap x0 x1 s
  | .getClocks => Sys2Proof.Machine.execGetClocks s
  | .readDisableMap x0 => Sys2Proof.Machine.execReadDisableMap x0 s
  | .partCreate x0 => Sys2Proof.Machine.execPartCreate x0 s
  | .partEnd x0 => Sys2Proof.Machine.execPartEnd x0 s
  | .partPreempt x0 x1 => Sys2Proof.Machine.execPartPreempt x0 x1 s
  | .partRestore x0 => Sys2Proof.Machine.execPartRestore x0 s
  | .partResize x0 x1 x2 => Sys2Proof.Machine.execPartResize x0 x1 x2 s
  | .partDrain x0 x1 => Sys2Proof.Machine.execPartDrain x0 x1 s
  | .domainCreate x0 x1 => Sys2Proof.Machine.execDomainCreate x0 x1 s
  | .domainRetire x0 => Sys2Proof.Machine.execDomainRetire x0 s
  | .rightsWrite x0 x1 x2 x3 => Sys2Proof.Machine.execRightsWrite x0 x1 x2 x3 s
  | .readAbortLog x0 => Sys2Proof.Machine.execReadAbortLog x0 s
  | .readErrors => Sys2Proof.Machine.execReadErrors s
  | .collWrite x0 x1 x2 => Sys2Proof.Machine.execCollWrite x0 x1 x2 s
  | .timeSource x0 => Sys2Proof.Machine.execTimeSource x0 s
  | .biasDevice x0 => Sys2Proof.Machine.execBiasDevice x0 s
  | .vfReset x0 => Sys2Proof.Machine.execVfReset x0 s
  | .lifecycle x0 x1 x2 => Sys2Proof.Machine.execLifecycle x0 x1 x2 s
  | .raiseCounter x0 => Sys2Proof.Machine.execRaiseCounter x0 s
  | .reset x0 => Sys2Proof.Machine.execReset x0 s
  | .i3cMainOff => Sys2Proof.Machine.execI3cMainOff s
  | .getVersion x0 => Sys2Proof.Machine.execGetVersion x0 s
  | .getCapabilities x0 => Sys2Proof.Machine.execGetCapabilities x0 s
  | .negotiateAlgorithms x0 x1 x2 => Sys2Proof.Machine.execNegotiateAlgorithms x0 x1 x2 s
  | .getDigests x0 => Sys2Proof.Machine.execGetDigests x0 s
  | .getCertificate x0 x1 => Sys2Proof.Machine.execGetCertificate x0 x1 s
  | .challenge x0 x1 => Sys2Proof.Machine.execChallenge x0 x1 s
  | .getMeasurements x0 x1 x2 => Sys2Proof.Machine.execGetMeasurements x0 x1 x2 s
  | .keyExchange x0 x1 => Sys2Proof.Machine.execKeyExchange x0 x1 s
  | .finish x0 x1 => Sys2Proof.Machine.execFinish x0 x1 s
  | .endSession x0 => Sys2Proof.Machine.execEndSession x0 s
  | .illegalInstruction x0 => Sys2Proof.Machine.execIllegalInstruction x0 s
  | .unknownOpcode x0 => Sys2Proof.Machine.execUnknownOpcode x0 s
  | .ptmTimeExchange x0 => Sys2Proof.Machine.execPtmTimeExchange x0 s
  | .dirtyEvictionAnswer x0 => Sys2Proof.Machine.execDirtyEvictionAnswer x0 s
  | .regionMapWrite x0 x1 x2 x3 => Sys2Proof.Machine.execRegionMapWrite x0 x1 x2 x3 s
  | .ideKeyProgramming x0 x1 x2 => Sys2Proof.Machine.execIdeKeyProgramming x0 x1 x2 s

end Sys2Proof.Machine
end

