-- ==== Sys2Proof/Machine/Order.lean ====
section
/-!
DEFINITION. One issue of a core (R15, R25, R33, R42, R76, R116), and the order in which things happen when the agenda names none (log 5).
-/
namespace Sys2Proof.Machine

/-! ### One issue -/

/-- A context executes its next instruction, or does what stands at its instruction boundary instead. -/
def State.issueAt (s : State) (id : Nat) : Answer :=
  let pc := (s.ctx id).pc
  let s := { s.onCore (coreOf id) (fun c => c.takeTurn (numberOf id)) with cur := id }
  match s.boundary id with
  | .due t => .next (s.takeDue id t)
  | .returnToL => .next (s.returnFromW id)
  | .interrupt => .next (s.takeCompletion id)
  | .hold => .next s
  | .fault t => .next (s.trap t pc pc)
  | .poisoned => .next (s.machineCheck id pc)
  | .illegal w => execIllegalInstruction w (s.keepWord id w)
  | .run w i => exec i (s.keepWord id w)

/-- A core takes an issue turn: nothing happens where no context of it may issue. -/
def State.issueCore (s : State) (core : Nat) : Answer :=
  match s.issueFrom core with
  | none => .next s
  | some id => s.issueAt id

/-- The end of an issue turn whose store or LAUNCH is sent late (log 7). -/
def Answer.onTime : Answer → Answer
  | .next s => .next { s with late := false }
  | .fault f => .fault f
  | .refused r => .refused r

/-! ### Events by themselves -/

/-- The state that an answer gives, or another one. -/
def Answer.orElse (a : Answer) (s : State) : State :=
  match a with
  | .next t => t
  | _ => s

/-- The event that comes next for flight n, which is f: it goes on, arrives, or is offered again. -/
def State.flightEvent (s : State) (n : Nat) (f : Flight) : Answer :=
  match f.kind with
  | .load q =>
    let c := s.loadClock f q
    match execDewAnswer n c s with
    | .next t => if t = s then execHomeLoad n c (s.pathOf f q.rc q.addr).length s else .next t
    | a => a
  | .loadReply _ _ => execLoadReply n s
  | .lmLoad _ _ _ _ _ => execLoadReply n s
  | .store q =>
    if q.refused then execRefusedOfferRetry n s
    else if q.held = 1 then execHorizonWaitEnd n s
    else if q.held = 2 then execPlsharedWriteRelease n s
    else execHomeStore n s
  | .storeAck _ _ => execStoreAck n s
  | .atomic q =>
    if q.held = 3 then execRefusedOfferRetry n s
    else if q.held = 1 then execHorizonWaitEnd n s
    else if q.held = 2 then execPlsharedWriteRelease n s
    else if q.held = 4 then execHomeAtomic n s
    else if globalBase ≤ q.addr then execLmAtomic n s
    else execHomeAtomic n s
  | .atomicResult _ _ => execAtomicResult n s
  | .lmWrite _ _ _ _ => execRemoteLmStore n s
  | .lmAck _ _ => execStoreAck n s
  | .feOffer _ _ _ => execRefusedOfferRetry n s
  | .purge _ _ => execPurgeAck n s
  | .push _ _ _ _ _ => execPushReceive n s
  | .pushAnswer _ _ _ => execPushAnswer n s
  | .pushAck _ _ _ _ => execPushAck n s
  | .pushDue _ _ _ => execHomeStore n s
  | .wait _ _ _ _ _ =>
    match execSquallWait n s with
    | .next t => if t = s then execHomeWaitRecord n s else .next t
    | a => a
  | .wake (.word _) _ _ (.core _) _ => execWaitWake n s
  | .wake (.word _) _ _ (.table _) _ => execWaitWake n s
  | .wake (.page _) _ _ (.table _) _ => execFaultWake n s
  | .wake (.word _) _ _ (.coll _) _ => execWaitWake n s
  | .wake (.page _) _ _ (.coll _) _ => execFaultWake n s
  | .wake (.page _) _ _ (.core _) _ =>
    match execCopyResume n s with
    | .next t => if t = s then execFaultWake n s else .next t
    | a => a
  | .wake _ _ _ (.router _ _) _ => execSquallWake n s
  | .msg _ _ => execMessageArrival n s
  | .msgAnswer _ _ _ _ => execMessageAnswer n s
  | .seqFetch _ _ => execSeqFetch n s
  | .launchReq _ _ _ _ _ _ => .next (s.launchArrive n)
  | .launchStatus _ _ => .next (s.launchArrive n)

/-- The first of some events that changes the state. -/
def firstChange (s : State) : List (State → Answer) → Option State
  | [] => none
  | e :: es =>
    let t := (e s).orElse s
    if t = s then firstChange s es else some t

/-- Events of what is on its way, oldest first, and the timers of what was lost. -/
def State.flightEvents (s : State) : List (State → Answer) :=
  ((List.range s.net.flights.length).map fun n => fun t => match t.flight? n with
    | some f => t.flightEvent n f
    | none => .next t) ++
  ((List.range s.net.lost.length).map fun n => execReplyTimeout n) ++ (List.range s.net.gamo.length).map fun n => execGamoWindowEnd n

/-- Events of a partition: its launches, placement, completion entries, pre-emption, the rest of a restore, and collectives. -/
def Part.events (p : Nat) (q : Part) : List (State → Answer) :=
  (q.launches.flatMap fun l => [execLaunchAbort p l.1, execLaunchComplete p l.1, execGateOpen p l.1, execLaunchAged p l.1,
    execUnrecordedResend (gateCtx p l.1), execWaitRepoll (gateCtx p l.1)]) ++
  [execThreadPlace p, execCompletionPost p, execDrainComplete p, execPreemptDrainDeadline p] ++
  (if q.st = .restoring then [fun t => .next (t.continueRestore p)] else []) ++
  q.colls.flatMap fun c => [execCollDeadline p c.1, execCollStart p c.1, execUnrecordedResend (collCtx p c.1), execWaitRepoll (collCtx p c.1)]

/-- Events of a context: the end of its staging, wait or migration, and the timers that bear on it. -/
def Ctx.events (id : Nat) (c : Ctx) : List (State → Answer) :=
  match c.st with
  | .free | .stopped => []
  | .staging => [execStagingDone id, execUnrecordedResend id, execWaitRepoll id]
  | .migrationWaiting => [execMigrateToWCore (clusterOf (coreOf id))]
  | .ready => [execHandlerOverrun id, execWCoreEarlyReturn id]
  | .waiting | .faultWaiting => [execWaittExpiry id, execUnrecordedResend id, execWaitRepoll id, execWCoreEarlyReturn id]

/-- Events of a core: handlers, matrix jobs and copies. -/
def Core.events (i : Nat) (c : Core) : List (State → Answer) :=
  [execHandlerStart i true, execHandlerStart i false, execJobRetire i, execJobDispatch i, execCopyDispatch i] ++
  [execUnrecordedResend (xuCtx i), execWaitRepoll (xuCtx i)] ++
  c.copies.flatMap fun x => if x.2.status = 2 then
      ((List.range (x.2.moved.length + 1)).filter fun e => !(x.2.moved.contains e)).map (fun e => execCopyElement i x.1 e) ++ [execCopyDone i x.1]
    else []

/-- A slice publishes the stamp that an operation waits to grant (R134). -/
def State.publishEvents (s : State) : List (State → Answer) := s.net.wanted.map fun x => execPubPublish x.1 x.2

/-- The sweep, once in half of the time that LF takes for 2^34 ticks at the shortest tick (R127, R132). -/
def State.sweepEvents (s : State) : List (State → Answer) := if s.net.sweptAt + 4398046511104 ≤ s.gtr then [fun t => execHomeSweep t] else []

/-- The exchanges with the master that are due, once the replicas have locked first (R148, R372): each finds what there is to find. -/
def State.exchanges (s : State) : List (State → Answer) :=
  if s.mgmt.step.toNat < 8 then []
  else s.dies.filterMap fun x =>
    if s.gtr < x.2.lastExchange + exchangeTime then none else some (execGtrExchange x.1 (some x.2.offset) (BitVec.ofNat 12 x.2.boundNow))

/-- Squall entries expire before waits of the same age are sent again, so that these are recorded anew (R199). -/
def State.expiries (s : State) : List (State → Answer) := (List.range s.net.squall.length).map fun n => execSquallEntryExpiry n

/-- Timers of homes, dies and ports. -/
def State.timers (s : State) : List (State → Answer) :=
  (List.range s.net.turns.length).map (fun n => execReservedHoldLapse n) ++ s.net.returning.map (fun sl => execHomeReturn sl) ++
  (s.dies.map fun x => execQuiesceDeadline x.1) ++ (s.host.vfs.map fun x => execQuiesceDeadline (vfDeadline x.1)) ++
  (s.host.unbiasing.toList.map fun n => execBiasDevice (n * 4096)) ++ s.exchanges ++ s.sweepEvents ++
  (s.domains.flatMap fun x => x.2.purging.map fun core => execRightsPurge core x.1) ++ s.zwion.filterMap fun x => x.2.resend.map fun r => execZwionBusyReplay x.1 r.1

/-- All events that come by themselves, in the order in which they are tried: those that need nothing from outside the module. -/
def State.events (s : State) : List (State → Answer) :=
  s.expiries ++ s.flightEvents ++ (s.parts.flatMap fun x => x.2.events x.1) ++ (s.ctxs.flatMap fun x => x.2.events x.1) ++
  (s.cores.flatMap fun x => x.2.events x.1) ++ s.publishEvents ++ s.timers

/-- The core that issues next: the first after the one that issued last with a context that may, else the first of all. -/
def State.nextCore (s : State) : Option Nat :=
  let ready := ((s.ctxs.map fun x => coreOf x.1).filter fun c => (s.issueFrom c).isSome)
  match ready.find? fun c => decide (s.execCore < c) with
  | some c => some c
  | none => ready.head?

/-- A nanosecond. -/
def nanosecond : Nat := 16

/-- What happens when the agenda is empty: the first event that changes anything; else an issue turn of the next core; and with no core ready, a nanosecond passes. An
issue takes a nanosecond as well. -/
def State.defaultMove (s : State) : Answer :=
  match firstChange s s.events with
  | some t => .next t
  | none =>
    match s.nextCore with
    | some core => (s.elapse nanosecond).issueCore core
    | none => .next (s.elapse nanosecond)

/-! ### Placing an instruction -/

/-- The launch whose thread `withFetchWord` makes. -/
def fetchLaunch : Launch :=
  { part := 0, slot := 0, st := .placed, threads := 1, nextNumber := 1, live := 1, entry := 0x400, args := 0, group := 0, gate := 0, gateVal := 0, done := 0
    domain := 1, cache := 0, policy := 0, near := 0, eclass := 0, prio := 0, foots := [{ addr := 0, off := 0x400, len := 8 }], parent := 0, start := 0, clock := 0
    entered := 0, lastPlaced := 0 }

/-- The partition of that launch: the whole module. -/
def fetchPart : Part :=
  { qx0 := 0, qy0 := 0, qw := 8, qh := 8, det := false, tick := 2, weight := 1, phaseGroup := 0, vfs := [], launches := [(0, fetchLaunch)], entries := 1 }

/-- The thread: a context of core 7, the W-core of cluster 0, at LM offset 0x400. -/
def fetchCtx (uid : Nat) : Ctx :=
  { st := .ready, pc := 0x00FE000000000400, cr := { tid := threadTid 0 0 0, domain := 1, part := 0 }, home := 7, launch := some 0, accessDomain := 1, uid := uid }

/-- A module that has come up (R372), where a launch has placed one thread whose next instruction is a word, and whose next move is an issue of its core. It stands for
what the host and a steward do before: bring-up, a partition, a domain, and a launch with its LM image staged (log 6). -/
def State.placeWord (s : State) (w : Nat) : State :=
  { s with
    mgmt := { s.mgmt with main := true, step := 9, lifecycle := .deployed, isobar := true }
    parts := s.parts.set 0 fetchPart, domains := s.domains.set 1 { part := 0, owner := none }
    disabled := s.disabled.filter (· != 0), nextUid := s.nextUid + 1
    ctxs := (((s.ctxs.del 60).del 61).set 56 (fetchCtx s.nextUid))
    cores := s.cores.set 7 { s.core 7 with fetch := [], lastIssued := 3, cacheSize := 0 }
    mem := s.mem.writeNat (lmAddr 7 0x400) 4 w, poison := s.poison.filter (· != lmAddr 7 0x400)
    agenda := [.issue 7] }

end Sys2Proof.Machine
end

