-- ==== Sys2Proof/Machine/Upsets.lean ====
section
/-!
DEFINITION. Soft errors (R356, R357): what each check of the part makes of an error that it finds. They are no rows of the opcode table; the agenda
names them (log 56).
-/
namespace Sys2Proof.Machine

/-- The die that counts an error at a place (R356); parity of registers and accumulators corrects nothing. -/
def State.upsetDie (s : State) : Upset → Option Nat
  | .lmWord core _ => some (tileOf core)
  | .cacheCopy core _ _ => some (tileOf core)
  | .dewCopy x y _ _ => some (tileOf (coreAt x y 0))
  | .routerBuffer n => (s.flight? n).map Flight.countDie
  | .lineRecord sl _ _ => some (sliceDie sl)
  | .parkedStore n => (s.flight? n).bind fun f => f.parkedAddr.bind fun a => (s.homeSlice f.part a).map sliceDie
  | .translation sl _ _ => some (sliceDie sl)
  | .hbmWord p a => (s.homeSlice p a).map sliceDie
  | .registers _ => none
  | .accumulators _ => none

/-- An uncorrectable error in a stamp store: the record is dropped and treated as evicted (R123, R356). -/
def State.upsetRecord (s : State) (sl p a : Nat) : State :=
  match s.record? sl p a with
  | some r => s.evictRecord r
  | none => s

/-- The address that a load, store or atomic on its way to its home needs translated (R314). -/
def Flight.requested (f : Flight) : Option Nat :=
  match f.kind with
  | .load q => if q.fault = 1 then none else some q.addr
  | .store q => if q.parked then none else some q.addr
  | .atomic q => if q.parked || q.fault == 1 then none else some q.addr
  | _ => none

/-- Whether a flight stands in a park buffer (R161). -/
def Flight.inPark (f : Flight) : Bool :=
  match f.kind with
  | .store q => q.parked
  | .atomic q => q.parked
  | _ => false

/-- A parked store or atomic is lost, and its requester is aborted (R356). -/
def State.upsetParked (s : State) (n : Nat) : State :=
  match s.flight? n with
  | none => s
  | some f =>
    let a := (f.parkedAddr).getD 0
    if !f.inPark then s
    else
      let s := match s.homeSlice f.part a with
        | some sl => s.unitFreed (.park sl)
        | none => s
      (s.dropFlight n).failFlight f 13 a

/-- A translation is lost, and with it the requester that it was to serve: the oldest access of the page on its way to the slice (R356). -/
def State.upsetTranslation (s : State) (sl p page : Nat) : State :=
  let mine (t : TransEntry) : Bool := t.slice == sl && t.part == p && t.page == page
  let held := s.net.trans.any mine
  let s := State.wipeDue { s with net := { s.net with trans := s.net.trans.filter fun t => !(mine t) } }
  match s.net.flights.findIdx? fun f => f.part == p && (f.requested).any fun a => pageOf a == page && s.homeSlice p a == some sl with
  | none => s
  | some n => match s.flight? n with
    | some f => if held then (s.dropFlight n).failFlight f 13 ((f.requested).getD 0) else s
    | none => s

/-- Parity of a register file: MCHECK of the context (R60, R356). -/
def State.upsetRegisters (s : State) (id : Nat) : State :=
  if isXu id || (s.ctx id).st == .free then s else s.machineCheck id 0

/-- Whether a running job has still to read its accumulators: an MMA, or an MST that has written no word yet. -/
def Job.meetsParity (j : Job) : Bool :=
  j.running && match j.kind with
  | .mma _ _ _ _ _ => true
  | .mst _ _ _ => j.put == []
  | _ => false

/-- Accumulator parity that the running job of a core meets: it retires with no write and charges MCHECK (R357). -/
def State.upsetAccumulators (s : State) (core : Nat) : State :=
  match (s.core core).jobs with
  | [] => s
  | j :: _ =>
    if !j.meetsParity then s
    else
      let s := (s.closeJob core j .poisoned).jobMachineCheck j
      s.jobPins core j

/-- What an uncorrectable error does at its place (R356). -/
def State.upsetHard (s : State) : Upset → State
  | .lmWord core off => if off < lmSize then s.setPoison (wordOf (lmAddr core off)) true else s
  | .cacheCopy core p a => s.onCore core fun c => c.dropLine p a
  | .dewCopy x y p a => { s with net := { s.net with dew := s.net.dew.filter fun l => !(l.isAt x y p a) } }
  | .routerBuffer n => match s.flight? n with
    | some f => s.linkFails n f
    | none => s
  | .lineRecord sl p a => s.upsetRecord sl p a
  | .parkedStore n => s.upsetParked n
  | .translation sl p page => s.upsetTranslation sl p page
  | .hbmWord p a => if (s.homeSlice p a).isSome then s.setPoison a true else s
  | .registers id => s.upsetRegisters id
  | .accumulators core => s.upsetAccumulators core

/-- A soft error (R356): one that is corrected is counted by its die; else the check's outcome follows. Parity corrects nothing. -/
def execUpset (u : Upset) (corrected : Bool) (s : State) : Answer :=
  .next (match (if corrected then s.upsetDie u else none) with
    | some d => s.countError d
    | none => if corrected then s else s.upsetHard u)

end Sys2Proof.Machine
end

