-- ==== Sys2Proof/Machine/Step.lean ====
section
/-!
DEFINITION. The step of the machine: the next move of the agenda, or, with none, of the order that the module follows by itself.
-/
namespace Sys2Proof.Machine

/-- One step. While Main is off no die runs (R368): events may happen and time may pass, but with nothing on the agenda the machine stands still. -/
def step (s : State) : Host.Outcome State Fault Refusal :=
  match s.agenda with
  | [] => if s.mgmt.main then s.defaultMove else .fault .mainOff
  | .issue core :: rest => if s.mgmt.main then { s with agenda := rest }.issueCore core else .fault .mainOff
  | .event e :: rest => if e.isWord then .next { s with agenda := rest } else exec e { s with agenda := rest }
  | .tick n :: rest => .next ({ s with agenda := rest }.elapse n)
  | .upset u corrected :: rest => if s.mgmt.main then execUpset u corrected { s with agenda := rest } else .next { s with agenda := rest }
  | .otherRequest fn :: rest => .next ({ s with agenda := rest }.otherRequest fn)
  | .issueLate core :: rest => if s.mgmt.main then ({ s with agenda := rest, late := true }.issueCore core).onTime else .fault .mainOff
  | .jobRead core w :: rest => .next ({ s with agenda := rest }.jobRead core w)
  | .jobWrite core w :: rest => .next ({ s with agenda := rest }.jobWrite core w)
  | .launchArrive n :: rest => .next ({ s with agenda := rest }.launchArrive n)
  | .mailboxData w v :: rest => .next ({ s with agenda := rest }.mailboxData w v)
  | .i3cRead :: rest => .next { s with agenda := rest }.i3cRead
  | .abortParked p slot :: rest => .next ({ s with agenda := rest }.abortParked p slot)
  | .resume p :: rest => .next ({ s with agenda := rest }.continueRestore p)

/-- The state with an instruction placed where the next step fetches (log 6). -/
def State.withFetchWord (s : State) (nbits w : Nat) : State := s.placeWord (w % 2 ^ nbits)

end Sys2Proof.Machine
end

