-- ==== Sys2Proof/Safety.lean ====
section
/-!
DEFINITION. What claims are stated in: runs of the machine, the form that a state keeps, what an instruction answers,
and what it leaves unchanged.
-/
namespace Sys2Proof.Machine

/-- A step leads from one state to another. -/
def Steps (s t : State) : Prop := step s = .next t

/-- The states that some run from a state reaches. -/
inductive Reaches (s : State) : State → Prop where
  | here : Reaches s s
  | step {t u : State} : Reaches s t → Steps t u → Reaches s u

/-- A state does not stand still: the next step gives a state (safe: the only stop of the model is that Main is off). -/
def Runs (s : State) : Prop := ∃ t, Steps s t

/-- Memory is in its canonical form. -/
def State.memWf (s : State) : Prop := Memory.wf s.mem = true

/-- `exec` answers a next state, and it has a property. -/
def Completes (i : Instr) (s : State) (P : State → Prop) : Prop := ∃ t, exec i s = .next t ∧ P t

/-! ### Frames -/

/-- Nothing has changed but the context that executes: every other field of the state and every other context is as before. -/
def OnlyHere (s t : State) : Prop :=
  { t with ctxs := s.ctxs } = s ∧ ∀ id, id ≠ s.cur → t.ctx id = s.ctx id

/-- The instruction has retired without a result (R37, R73): PC stands at `pc`, the count of R73 has moved, and of the context
nothing else has changed; `w` says whether it is a W word. -/
structure GoesOn (s : State) (w : Bool) (pc : Word) (t : State) : Prop where
  only : OnlyHere s t
  pc : t.here.pc = pc
  count : t.here.migCount = (s.here.countRetired w).migCount
  rest : { t.here with pc := s.here.pc, migCount := s.here.migCount } = s.here

/-- The instruction has retired with a value in g[d], if d is not 0 (R41): of the context nothing else has changed. -/
structure WritesG (s : State) (w : Bool) (d : Reg) (v pc : Word) (t : State) : Prop where
  only : OnlyHere s t
  pc : t.here.pc = pc
  count : t.here.migCount = (s.here.countRetired w).migCount
  value : ∀ r : Reg, t.rdG r = if r = d ∧ r ≠ 0 then v else s.rdG r
  rest : { t.here with g := s.here.g, pc := s.here.pc, migCount := s.here.migCount } = s.here

/-- The instruction has retired with a value in f[d] and flags ORed into FFLAGS (R240): of the context nothing else has
changed. -/
structure WritesF (s : State) (w : Bool) (d : Reg) (v : Word) (flags : BitVec 5) (t : State) : Prop where
  only : OnlyHere s t
  pc : t.here.pc = s.here.pc + 4
  count : t.here.migCount = (s.here.countRetired w).migCount
  value : ∀ r : Reg, t.rdF r = if r = d then v else s.rdF r
  fflags : t.here.cr.fflags = s.here.cr.fflags ||| flags
  rest : { t.here with f := s.here.f, pc := s.here.pc, migCount := s.here.migCount, cr := { t.here.cr with fflags := s.here.cr.fflags } } = s.here

/-- The instruction has retired with a value in g[d], if d is not 0, and flags ORed into FFLAGS (R240). -/
structure WritesGFlags (s : State) (d : Reg) (v : Word) (flags : BitVec 5) (t : State) : Prop where
  only : OnlyHere s t
  pc : t.here.pc = s.here.pc + 4
  count : t.here.migCount = (s.here.countRetired false).migCount
  value : ∀ r : Reg, t.rdG r = if r = d ∧ r ≠ 0 then v else s.rdG r
  fflags : t.here.cr.fflags = s.here.cr.fflags ||| flags
  rest : { t.here with g := s.here.g, pc := s.here.pc, migCount := s.here.migCount, cr := { t.here.cr with fflags := s.here.cr.fflags } } = s.here

/-- The instruction has retired with a value in v[d] and flags ORed into FFLAGS (R240): of the context nothing else has
changed. -/
structure WritesV (s : State) (d : Reg) (v : Quad) (flags : BitVec 5) (t : State) : Prop where
  only : OnlyHere s t
  pc : t.here.pc = s.here.pc + 4
  count : t.here.migCount = (s.here.countRetired false).migCount
  value : ∀ r : Reg, t.rdV r = if r = d then v else s.rdV r
  fflags : t.here.cr.fflags = s.here.cr.fflags ||| flags
  rest : { t.here with v := s.here.v, pc := s.here.pc, migCount := s.here.migCount, cr := { t.here.cr with fflags := s.here.cr.fflags } } = s.here

/-- The instruction has retired with a value in k[d] and flags ORed into FFLAGS (R240): of the context nothing else has
changed; k0 reads as all ones (R26). -/
structure WritesK (s : State) (d : Nat) (v : BitVec 16) (flags : BitVec 5) (t : State) : Prop where
  only : OnlyHere s t
  pc : t.here.pc = s.here.pc + 4
  count : t.here.migCount = (s.here.countRetired false).migCount
  value : ∀ n : Nat, t.rdK n = if n = d ∧ n ≠ 0 then v else s.rdK n
  fflags : t.here.cr.fflags = s.here.cr.fflags ||| flags
  rest : { t.here with k := s.here.k, pc := s.here.pc, migCount := s.here.migCount, cr := { t.here.cr with fflags := s.here.cr.fflags } } = s.here

/-- Every context but the executing one is as before. -/
def OthersAsBefore (s t : State) : Prop := ∀ id, id ≠ s.cur → t.ctx id = s.ctx id

/-- The executing context has retired an instruction, with `c` as what else it had become (R37, R73), but for the values of LCLK that it keeps for loads on their way. -/
def RetiresAs (s : State) (c : Ctx) (t : State) : Prop :=
  { t.here with clocks := [] } = { c with clocks := [], pc := s.here.pc + 4, migCount := (s.here.countRetired false).migCount }

/-- One core has become `k`; the contexts apart, everything else is as before. -/
def OnlyCore (s : State) (core : Nat) (k : Core) (t : State) : Prop :=
  { t with ctxs := s.ctxs, cores := s.cores } = s ∧ ∀ i, t.core i = if i = core then k else s.core i

/-- What is on its way, at homes, in routers and at ports is as before, but for whose turn it is at a cluster's job queue and miss table (R197). -/
def SameNet (s t : State) : Prop := { t.net with claims := s.net.claims, served := s.net.served } = s.net

/-- The instruction has retired with the control registers of its context changed to `cr` and their value before in g[d]
(R78): of the context nothing else has changed. -/
structure WritesCr (s : State) (d : Reg) (old : Word) (cr : CtxCr) (t : State) : Prop where
  only : OnlyHere s t
  pc : t.here.pc = s.here.pc + 4
  count : t.here.migCount = (s.here.countRetired false).migCount
  value : ∀ r : Reg, t.rdG r = if r = d ∧ r ≠ 0 then old else s.rdG r
  cr : t.here.cr = cr
  rest : { t.here with g := s.here.g, pc := s.here.pc, migCount := s.here.migCount, cr := s.here.cr, clocks := s.here.clocks } = s.here

/-- The instruction has retired with the home core changed to `k` and a value in g[d] (R78): nothing else has changed. -/
structure WritesCore (s : State) (d : Reg) (old : Word) (k : Core) (t : State) : Prop where
  core : OnlyCore s s.homeCore k t
  others : OthersAsBefore s t
  pc : t.here.pc = s.here.pc + 4
  count : t.here.migCount = (s.here.countRetired false).migCount
  value : ∀ r : Reg, t.rdG r = if r = d ∧ r ≠ 0 then old else s.rdG r
  rest : { t.here with g := s.here.g, pc := s.here.pc, migCount := s.here.migCount } = s.here

/-- LCLK of the executing context after drift (R127). -/
def State.clock (s : State) : Stamp := maxStamp s.here.cr.lclk (s.lf s.here.partNo (tileOf s.execCore))

/-- The executing context with LCLK after drift (R127) and one more register to come (R15). -/
def State.awaiting (s : State) (r : Option RegRef) : Ctx :=
  { (s.here.awaitMaybe r) with cr := { s.here.cr with lclk := s.clock } }

/-- One request of the executing context has been sent, with its core's incarnation, and it is the last that is on its way (R115, R358, R362): its core has used one
sequence number and may have looked up its PLB (R307); but for the executing context nothing else has changed. -/
structure Sends (s : State) (k : FKind) (t : State) : Prop where
  flight : ∃ f : Flight, t.net = { s.net with flights := s.net.flights ++ [f] } ∧ f.kind = k ∧ f.ctx = s.cur ∧ f.uid = s.here.uid ∧
    f.part = s.here.partNo ∧ f.domain = s.here.accessDomain ∧ f.launch = s.here.launch ∧ f.seq = (s.core s.execCore).reqSeq ∧ t.current f = true
  core : { t.core s.execCore with plb := (s.core s.execCore).plb } = { s.core s.execCore with reqSeq := (s.core s.execCore).reqSeq + 1 }
  cores : ∀ i, i ≠ s.execCore → t.core i = s.core i
  others : OthersAsBefore s t
  rest : { t with ctxs := s.ctxs, cores := s.cores, net := s.net } = s

/-- Bytes of one core's LM have been written (R110): `n` bytes at an offset hold `v`, every other byte of memory and LM is as
before, poison goes where a whole word is covered (R357), and of the core only its fetch buffer may have changed (R116). -/
structure WritesLm (s : State) (core off n v : Nat) (t : State) : Prop where
  value : t.mem.readNat (lmAddr core off) n = v % 256 ^ n
  frame : ∀ y, y < lmAddr core off ∨ lmAddr core off + n ≤ y → t.mem.read y = s.mem.read y
  kept : { t.core core with fetch := (s.core core).fetch } = s.core core
  cores : ∀ i, i ≠ core → t.core i = s.core i
  rest : { t with ctxs := s.ctxs, cores := s.cores, mem := s.mem, poison := s.poison } = s

/-- The registers that a word names outside g exist in the executing context: 16 of f and of v, 8 of them in a handler (R41, R42). -/
def State.hasReg (s : State) (r : Reg) : Prop := r.toNat < (if s.inHandler then 8 else 16)

/-- Nothing of the executing context is on its way: no access, no push, no full/empty instruction. -/
def State.Idle (s : State) : Prop :=
  s.flightsOf s.cur = [] ∧ s.waitersOf s.cur = [] ∧ (∀ n, s.gamosOf s.cur n = []) ∧ ∀ n, s.pushing s.cur n = false

/-- A vectored trap has been entered (R90): TRAPPC, TRAPADDR, TRAPVAL and TRAPCAUSE are written, PC stands at TRAPVEC, and of
the context nothing else has changed but the spin table, which is cleared (R130). -/
structure TakesTrap (s : State) (code : BitVec 8) (addr val ret : Word) (t : State) : Prop where
  only : OnlyHere s t
  pc : t.here.pc = s.here.cr.trapvec
  trappc : t.here.cr.trappc = ret
  trapaddr : t.here.cr.trapaddr = addr
  trapval : t.here.cr.trapval = val
  code : t.here.cr.trapcause.setWidth 8 = code
  nest : t.here.cr.trapcause.getLsbD 8 = true
  int : t.here.cr.trapcause.getLsbD 9 = false
  rest : { t.here with
      pc := s.here.pc, spin := s.here.spin
      cr := { t.here.cr with trappc := s.here.cr.trappc, trapaddr := s.here.cr.trapaddr, trapval := s.here.cr.trapval, trapcause := s.here.cr.trapcause } } = s.here

/-- A trap of the executing context is vectored, no result is still to come to it and no load of it is unanswered (R90, R344, R348). -/
def State.CanTrap (s : State) : Prop := s.vectored s.cur = true ∧ s.here.pend = [] ∧ s.answersOut s.cur = false

/-! ### What is on its way -/

/-- Flight n is on its way, with what it carries. -/
def State.Carries (s : State) (n : Nat) (f : Flight) (k : FKind) : Prop := s.flight? n = some f ∧ f.kind = k

/-- Flight n has been answered: it is gone, and its answer, with its sender's incarnation (R362), is the last that is on its way. -/
def Answered (s : State) (n : Nat) (f : Flight) (k : FKind) (t : State) : Prop :=
  t.net.flights = s.net.flights.eraseIdx n ++ [t.stamped { f with kind := k }]

/-- A store meets nothing at its home that holds it back: its page is mapped, it has not performed before (R359), no check of R119 applies, and leases, the horizon and PUB
allow the stamp `w` of R100. -/
structure StoreReady (s s1 : State) (f : Flight) (q : StoreReq) (sl : Nat) (host : Option Nat) (w : Stamp) : Prop where
  home : s.atHome f.part q.addr true (some f.sentAt) = (.ready sl host, s1)
  det : s.isDet f.part = false
  fresh : s1.keptAnswer sl (coreOf f.ctx) f = none
  first : s1.refusedBefore f q.addr = false
  stamp : w = maxStamp (if q.rel then maxStamp q.l (if s.alive f then s.lclkOf f.ctx else q.l) + 1 else q.l) ((s1.sector sl f.part q.addr).rts + 1)
  leased : s1.leased sl host f.part q.attr (s1.sector sl f.part q.addr) = false
  horizon : later w (s.horizon f.part (homeDie sl host)) = false
  pub : s.mayGrant sl w = true

/-- The end of the interval of a pushed version: 64 ticks after its stamp, within the horizon (R144). -/
def State.pushEnd (s : State) (f : Flight) (sl : Nat) (host : Option Nat) (w : Stamp) : Stamp := minStamp (w + 64) (s.horizon f.part (homeDie sl host))

/-- Every recorded word that a write of `n` bytes has changed has been woken with its new value, and its record is gone (R199). -/
def State.WakesWaiters (s : State) (sl p a n : Nat) (w : Stamp) (t : State) : Prop :=
  ∀ r ∈ s.net.waits, ∀ k, r.slice = sl → r.part = p → r.key = .word k → overlaps k 8 a n = true → s.wordAt k ≠ t.wordAt k →
    r ∉ t.net.waits ∧ ∃ g ∈ t.net.flights, g.part = p ∧ g.kind = .wake (.word k) (t.wordAt k) w (elevatorPort sl) false

/-- Store n has performed at its home (R100, R144): its bytes are in memory, the sector has the new version's stamps, an acknowledgement
with the version is on its way, and no context has changed but for the push counts of a release. Of a push store with a good PSET a copy goes to every receiver, once PUB
allows the end of their interval and the sector's rts covers it; with none the thread learns that its push was skipped (R146). -/
structure StorePerforms (s s1 : State) (f : Flight) (q : StoreReq) (sl : Nat) (host : Option Nat) (w : Stamp) (t : State) : Prop where
  mem : t.mem = s1.mem.writeNat q.addr q.size q.data.toNat
  stamps : (t.sector sl f.part q.addr).wts = w ∧ (t.sector sl f.part q.addr).level = 0 ∧ (t.sector sl f.part q.addr).rts =
    if q.pushes host = true ∧ s.mayGrant sl (s.pushEnd f sl host w) = true then maxStamp w (s.pushEnd f sl host w) else w
  ack : ∃ v : SecCopy, v.wts = w ∧ v.data = BitVec.ofNat 512 (t.mem.readNat (sectorOf q.addr) 64) ∧
    t.stamped { f with kind := .storeAck q v } ∈ t.net.flights
  pushed : q.pushes host = true → s.mayGrant sl (s.pushEnd f sl host w) = true → ∀ k ∈ psetCores q.pset, s.enabled k = true → ∃ v g, v.wts = w ∧
    v.rts = s.pushEnd f sl host w ∧ t.stamped { f with kind := .push (lineOf q.addr) (sectorNo q.addr) v k g, sentAt := s.gtr } ∈ t.net.flights
  waits : q.pushes host = true → s.mayGrant sl (s.pushEnd f sl host w) = false → ∃ v : SecCopy, v.wts = w ∧
    t.stamped { f with kind := .pushDue q v (s.pushEnd f sl host w), sentAt := s.gtr } ∈ t.net.flights
  skips : q.push = true → q.pushes host = false → t.stamped { f with kind := .pushAck q.addr 0 0 true, sentAt := s.gtr } ∈ t.net.flights
  regs : ∀ id, (t.ctx id).g = (s.ctx id).g ∧ (t.ctx id).f = (s.ctx id).f ∧ (t.ctx id).v = (s.ctx id).v ∧ (t.ctx id).pc = (s.ctx id).pc
  others : ∀ id, id ≠ f.ctx ∨ q.rel = false → t.ctx id = s.ctx id
  cores : t.cores = s.cores
  wakes : s1.WakesWaiters sl f.part q.addr q.size w t

/-- An atomic meets nothing at its home that holds it back: its page is mapped, it has not performed before (R359), no check of R119 applies and its word carries no poison. -/
structure AtomReady (s s1 : State) (f : Flight) (q : AtomReq) (sl : Nat) (host : Option Nat) : Prop where
  home : s.atHome f.part q.addr true (some f.sentAt) = (.ready sl host, s1)
  det : s.isDet f.part = false
  fresh : s1.keptAnswer sl (coreOf f.ctx) f = none
  first : s1.refusedBefore f q.addr = false
  clean : s1.poisoned q.addr q.size = false

/-- The stamp of R100 for an atomic that writes, which leases, the horizon and PUB allow. -/
structure AtomMayStamp (s s1 : State) (f : Flight) (q : AtomReq) (sl : Nat) (host : Option Nat) (w : Stamp) : Prop where
  stamp : w = maxStamp (if q.rel then maxStamp q.clock (if s.alive f then s.lclkOf f.ctx else q.clock) + 1 else q.clock) ((s1.sector sl f.part q.addr).rts + 1)
  leased : s1.leased sl host f.part q.attr (s1.sector sl f.part q.addr) = false
  horizon : later w (s.horizon f.part (homeDie sl host)) = false
  pub : s.mayGrant sl w = true

/-- Atomic n has read `old` and written `new` as one step at its home, which it reached in state s (R102): the bytes, the stamps of one new version, and the result on
its way; no context has changed but for the push counts of a release. -/
structure AtomPerforms (s : State) (n : Nat) (f : Flight) (q : AtomReq) (sl : Nat) (old new : Nat) (w : Stamp) (t : State) : Prop where
  mem : t.mem = s.mem.writeNat q.addr q.size new
  stamps : (t.sector sl f.part q.addr).wts = w ∧ (t.sector sl f.part q.addr).rts = w ∧ (t.sector sl f.part q.addr).level = 0
  result : t.stamped { f with kind := .atomicResult q (.done (BitVec.ofNat 64 old) (BitVec.ofNat 64 new) (some w)) } ∈ t.net.flights
  others : ∀ id, id ≠ f.ctx ∨ q.rel = false → t.ctx id = s.ctx id
  cores : t.cores = s.cores
  wakes : s.WakesWaiters sl f.part q.addr q.size w t

/-! ### The mailbox -/

/-- A command written with GO is carried out at once (R373): bring-up has reached step 9 and no command is in progress. -/
def State.MailboxFree (s : State) : Prop := s.mgmt.main = true ∧ s.mgmt.busy = false ∧ s.mgmt.step = 9

/-- A command has ended with a code, and MBDATA begins with its output (R373). -/
def State.Reports (t : State) (code : BitVec 7) (out : List Word) : Prop :=
  t.mgmt.busy = false ∧ t.mgmt.code = code ∧ t.mgmt.length = BitVec.ofNat 32 (8 * out.length) ∧ t.mgmt.mbdata.take out.length = out

/-! ### Partitions that are wiped and saved -/

/-- The cores of a partition have been wiped (R324, R351): their contexts are free, their registers have their reset values but for the sequence
number, every byte of their LMs is 0, and contexts, cores and memory elsewhere are as before. -/
structure WipesCores (s : State) (q : Part) (t : State) : Prop where
  ctxs : ∀ id, t.ctx id = if q.coversCore (coreOf id) then {} else s.ctx id
  cores : ∀ i, t.core i = if q.coversCore i then { reqSeq := (s.core i).reqSeq } else s.core i
  lm : ∀ a i, lmCore? a = some i → q.coversCore i = true → t.mem.read a = 0

/-- A partition has been saved (R351 to R354): its cores are wiped and no other byte has changed, every core with a context has an image with its
contexts, its LM and the records of what was outstanding, and a command that waited for it has ended with CODE 0. -/
structure SavedAs (s : State) (p : Nat) (q : Part) (records : List Flight) (t : State) : Prop where
  part : t.parts.get p = some { q with st := .saved, savedAt := (List.range 16).map s.gtrOf }
  wiped : WipesCores s q t
  frame : ∀ a, (∀ i, lmCore? a = some i → q.coversCore i = false) → t.mem.read a = s.mem.read a
  image : ∀ id, q.coversCore (coreOf id) = true → numberOf id < 6 → (s.ctx id).st ≠ .free → ∃ x : SavedCore, t.saved.get (saveKey p (coreOf id)) = some x ∧ x.part = p ∧
    x.ctxs[numberOf id]? = some { s.ctx id with
      spin := [], clocks := [], charge := none, wait := if (s.ctx id).st = .staging then .none else (s.ctx id).wait
      cr := { (s.ctx id).cr with lclk := s.lclkOf id } } ∧ x.replay = records.filter (fun f => coreOf f.ctx == coreOf id) ∧
    ∀ o, o < 0x6000 → ((x.lm.find? fun b => b.1 == o).map Prod.snd).getD 0 = s.mem.read (lmAddr (coreOf id) o)
  command : s.mgmt.busy = true → s.mgmt.nextLife = none → s.mgmt.busyPart = p → t.Reports 0 []

end Sys2Proof.Machine
end

