-- ==== Sys2Proof/Certificates/Slice0/Obligations.lean ====
section
/-!
DEFINITION. The statements of this model, from the numbered rules of the manual.
-/
open Sys2Proof Sys2Proof.Machine

/-- R71 and R74, and NOP. CLZ is the number of bits above the highest one bit, CTZ of those below the lowest, POPC the number of one bits. -/
def Obligations.IntegerOperations : Prop :=
  (∀ (s : State) (d a b : Reg),
     let x := s.rdG a
     let y := s.rdG b
     let n := y.toNat % 64
     let pc := s.here.pc + 4
     Completes (.add d a b) s (WritesG s false d (x + y) pc) ∧
     Completes (.sub d a b) s (WritesG s false d (x - y) pc) ∧
     Completes (.and d a b) s (WritesG s false d (x &&& y) pc) ∧
     Completes (.or d a b) s (WritesG s false d (x ||| y) pc) ∧
     Completes (.xor d a b) s (WritesG s false d (x ^^^ y) pc) ∧
     Completes (.andn d a b) s (WritesG s false d (x &&& ~~~y) pc) ∧
     Completes (.sll d a b) s (WritesG s false d (x <<< n) pc) ∧
     Completes (.srl d a b) s (WritesG s false d (x >>> n) pc) ∧
     Completes (.sra d a b) s (WritesG s false d (x.sshiftRight n) pc) ∧
     Completes (.slt d a b) s (WritesG s false d (if x.toInt < y.toInt then 1 else 0) pc) ∧
     Completes (.sltu d a b) s (WritesG s false d (if x.toNat < y.toNat then 1 else 0) pc) ∧
     Completes (.min d a b) s (WritesG s false d (BitVec.ofInt 64 (min x.toInt y.toInt)) pc) ∧
     Completes (.max d a b) s (WritesG s false d (BitVec.ofInt 64 (max x.toInt y.toInt)) pc) ∧
     Completes (.minu d a b) s (WritesG s false d (BitVec.ofNat 64 (min x.toNat y.toNat)) pc) ∧
     Completes (.maxu d a b) s (WritesG s false d (BitVec.ofNat 64 (max x.toNat y.toNat)) pc) ∧
     Completes (.mul d a b) s (WritesG s false d (BitVec.ofNat 64 (x.toNat * y.toNat)) pc) ∧
     Completes (.mulh d a b) s (WritesG s false d ((BitVec.ofInt 128 (x.toInt * y.toInt)).extractLsb' 64 64) pc) ∧
     Completes (.mulhu d a b) s (WritesG s false d ((BitVec.ofNat 128 (x.toNat * y.toNat)).extractLsb' 64 64) pc) ∧
     (∃ v, Completes (.clz d a) s (WritesG s false d v pc) ∧ v.toNat ≤ 64 ∧ (x = 0 → v = 64) ∧
       x.toNat < 2 ^ (64 - v.toNat) ∧ (v.toNat < 64 → x.toNat.testBit (63 - v.toNat) = true)) ∧
     (∃ v, Completes (.ctz d a) s (WritesG s false d v pc) ∧ v.toNat ≤ 64 ∧ (x = 0 → v = 64) ∧
       2 ^ v.toNat ∣ x.toNat ∧ (v.toNat < 64 → x.toNat.testBit v.toNat = true)) ∧
     (∃ v, Completes (.popc d a) s (WritesG s false d v pc) ∧
       v.toNat = ((List.range 64).filter fun i => x.toNat.testBit i).length)) ∧
  (∀ (s : State) (d a : Reg) (imm : BitVec 16) (n : BitVec 6),
     let x := s.rdG a
     let pc := s.here.pc + 4
     Completes .nop s (GoesOn s false pc) ∧
     Completes (.addi d a imm) s (WritesG s false d (x + imm.signExtend 64) pc) ∧
     Completes (.andi d a imm) s (WritesG s false d (x &&& imm.zeroExtend 64) pc) ∧
     Completes (.ori d a imm) s (WritesG s false d (x ||| imm.zeroExtend 64) pc) ∧
     Completes (.xori d a imm) s (WritesG s false d (x ^^^ imm.zeroExtend 64) pc) ∧
     Completes (.slti d a imm) s (WritesG s false d (if x.toInt < imm.toInt then 1 else 0) pc) ∧
     Completes (.sltiu d a imm) s (WritesG s false d (if x.toNat < (imm.signExtend 64).toNat then 1 else 0) pc) ∧
     Completes (.slli d a n) s (WritesG s false d (x <<< n.toNat) pc) ∧
     Completes (.srli d a n) s (WritesG s false d (x >>> n.toNat) pc) ∧
     Completes (.srai d a n) s (WritesG s false d (x.sshiftRight n.toNat) pc) ∧
     Completes (.lhi d imm) s (WritesG s false d (imm.signExtend 64 <<< 16) pc) ∧
     Completes (.shori d a imm) s (WritesG s false d (BitVec.append (x.setWidth 48) imm) pc)) ∧
  (∀ d a b : Reg,
    let w (fn : Nat) : Nat := d.toNat * 2 ^ 21 + a.toNat * 2 ^ 16 + b.toNat * 2 ^ 11 + fn;
    (w 0 ≠ 0 → decode (w 0) = some (.add d a b)) ∧ decode (w 1) = some (.sub d a b) ∧ decode (w 2) = some (.and d a b) ∧ decode (w 3) = some (.or d a b) ∧
    decode (w 4) = some (.xor d a b) ∧ decode (w 5) = some (.andn d a b) ∧ decode (w 6) = some (.sll d a b) ∧ decode (w 7) = some (.srl d a b) ∧
    decode (w 8) = some (.sra d a b) ∧ decode (w 9) = some (.slt d a b) ∧ decode (w 10) = some (.sltu d a b) ∧ decode (w 11) = some (.min d a b) ∧
    decode (w 12) = some (.max d a b) ∧ decode (w 13) = some (.minu d a b) ∧ decode (w 14) = some (.maxu d a b) ∧ decode (w 15) = some (.mul d a b) ∧
    decode (w 16) = some (.mulh d a b) ∧ decode (w 17) = some (.mulhu d a b) ∧
    decode (w 18) = (if b = 0 then some (.clz d a) else none) ∧ decode (w 19) = (if b = 0 then some (.ctz d a) else none) ∧
    decode (w 20) = if b = 0 then some (.popc d a) else none) ∧
  (∀ (d a : Reg) (imm : BitVec 16),
    let w (op : Nat) : Nat := op * 2 ^ 26 + d.toNat * 2 ^ 21 + a.toNat * 2 ^ 16 + imm.toNat
    let n : BitVec 6 := imm.setWidth 6;
    decode (w 2) = some (if d = 0 ∧ a = 0 ∧ imm = 0 then .nop else .addi d a imm) ∧ decode (w 3) = some (.andi d a imm) ∧ decode (w 4) = some (.ori d a imm) ∧
    decode (w 5) = some (.xori d a imm) ∧ decode (w 6) = some (.slti d a imm) ∧ decode (w 7) = some (.sltiu d a imm) ∧
    decode (w 8) = (if imm.toNat / 64 = 0 then some (.slli d a n) else if imm.toNat / 64 = 1 then some (.srli d a n) else if imm.toNat / 64 = 2 then some (.srai d a n) else none) ∧
    decode (w 9) = (if a = 0 then some (.lhi d imm) else none) ∧ decode (w 10) = some (.shori d a imm))

/-- R72, R73 and R198: division and where it executes. The hypothesis says on which kind of core the context is. -/
def Obligations.DivisionOnTheWCore : Prop :=
  ∀ (s : State) (d a b : Reg),
    let x := s.rdG a
    let y := s.rdG b
    let pc := s.here.pc + 4
    let ovf := x = 0x8000000000000000 ∧ y = 0xFFFFFFFFFFFFFFFF
    (isWCore s.execCore = true →
      Completes (.div d a b) s (WritesG s true d (if y = 0 then 0xFFFFFFFFFFFFFFFF else if ovf then x else BitVec.ofInt 64 (x.toInt.tdiv y.toInt)) pc) ∧
      Completes (.divu d a b) s (WritesG s true d (if y = 0 then 0xFFFFFFFFFFFFFFFF else BitVec.ofNat 64 (x.toNat / y.toNat)) pc) ∧
      Completes (.rem d a b) s (WritesG s true d
        (if y = 0 then x else if ovf then 0 else BitVec.ofInt 64 (x.toInt - x.toInt.tdiv y.toInt * y.toInt)) pc) ∧
      Completes (.remu d a b) s (WritesG s true d (if y = 0 then x else BitVec.ofNat 64 (x.toNat % y.toNat)) pc)) ∧
    (isWCore s.execCore = false → s.inHandler = false →
      ∀ i, (i = .div d a b ∨ i = .divu d a b ∨ i = .rem d a b ∨ i = .remu d a b) →
        Completes i s fun t =>
          t.here.st = .migrationWaiting ∧ { t.here with st := s.here.st } = s.here ∧
          t.migFifo.getD (clusterOf s.execCore) [] = s.migFifo.getD (clusterOf s.execCore) [] ++ [s.cur] ∧
          { t with ctxs := s.ctxs, migFifo := s.migFifo } = s ∧ ∀ id, id ≠ s.cur → t.ctx id = s.ctx id) ∧
    (let w := 0x04000000 + d.toNat * 2 ^ 21 + a.toNat * 2 ^ 16 + b.toNat * 2 ^ 11;
      decode w = some (.div d a b) ∧ decode (w + 1) = some (.divu d a b) ∧ decode (w + 2) = some (.rem d a b) ∧ decode (w + 3) = some (.remu d a b))

/-- R75. The fate of a misaligned target whose trap is not vectored is that of every trap (`TrapRaisesBreak`). -/
def Obligations.BranchesAndJumps : Prop :=
  ∀ (s : State) (a b d : Reg) (off : BitVec 16) (joff : BitVec 26) (imm : BitVec 16),
    let x := s.rdG a
    let y := s.rdG b
    let pc := s.here.pc
    let tgt := pc + off.signExtend 64 * 4
    Completes (.beq a b off) s (GoesOn s false (if x = y then tgt else pc + 4)) ∧
    Completes (.bne a b off) s (GoesOn s false (if x ≠ y then tgt else pc + 4)) ∧
    Completes (.blt a b off) s (GoesOn s false (if x.toInt < y.toInt then tgt else pc + 4)) ∧
    Completes (.bge a b off) s (GoesOn s false (if x.toInt ≥ y.toInt then tgt else pc + 4)) ∧
    Completes (.bltu a b off) s (GoesOn s false (if x.toNat < y.toNat then tgt else pc + 4)) ∧
    Completes (.bgeu a b off) s (GoesOn s false (if x.toNat ≥ y.toNat then tgt else pc + 4)) ∧
    Completes (.jal joff) s (WritesG s false 1 (pc + 4) (pc + joff.signExtend 64 * 4)) ∧
    ((x + imm.signExtend 64).toNat % 4 = 0 →
      Completes (.jalr d a imm) s (WritesG s false d (pc + 4) (x + imm.signExtend 64))) ∧
    (s.CanTrap → (x + imm.signExtend 64).toNat % 4 ≠ 0 → Completes (.jalr d a imm) s (TakesTrap s 3 (x + imm.signExtend 64) (x + imm.signExtend 64) pc)) ∧
    (let w (op : Nat) : Nat := op * 2 ^ 26 + a.toNat * 2 ^ 21 + b.toNat * 2 ^ 16 + off.toNat;
      decode (w 0x10) = some (.beq a b off) ∧ decode (w 0x11) = some (.bne a b off) ∧ decode (w 0x12) = some (.blt a b off) ∧ decode (w 0x13) = some (.bge a b off) ∧
      decode (w 0x14) = some (.bltu a b off) ∧ decode (w 0x15) = some (.bgeu a b off)) ∧
    decode (0x58000000 + joff.toNat) = some (.jal joff) ∧ decode (0x17 * 2 ^ 26 + d.toNat * 2 ^ 21 + a.toNat * 2 ^ 16 + imm.toNat) = some (.jalr d a imm)
/-- R77 and R78: what CRR reads under each number; R95, and R94's row of LCLKUP: what a deterministic partition forbids in this chapter. That HDRM does not count charges admitted since
the last estimate (log 21), and what BOUND is before the lock (log 45), are the model's choices. -/
def Obligations.ControlRegisterReads : Prop :=
  (∀ (s : State) (d : Reg),
     let cr := s.here.cr
     let k := s.core s.homeCore
     let die := tileOf s.execCore
     let reads (n : BitVec 12) (v : Word) : Prop := Completes (.crr d n) s (WritesG s false d v (s.here.pc + 4))
     let free := s.detHere = false
     reads 0x000 cr.tid ∧
     (free → reads 0x001 (BitVec.ofNat 64 s.execCore)) ∧
     reads 0x002 (if isWCore s.execCore then 3 else 1) ∧
     reads 0x003 (cr.domain.zeroExtend 64) ∧
     reads 0x004 (cr.part.zeroExtend 64) ∧
     (free → reads 0x008 (BitVec.ofNat 64 ((s.die die).cycle / 640))) ∧
     (free → reads 0x009 (BitVec.ofNat 64 (s.gtrOf die))) ∧
     (free → reads 0x00A (BitVec.ofNat 64 ((if (s.die die).locked then 2 ^ 15 else 0) + (if s.mgmt.ext then 2 ^ 14 else 0) +
       Nat.min 0xFFF (Nat.max (s.die die).bound.toNat (s.die die).offset.natAbs)))) ∧
     (free → Completes (.crr d 0x00B) s (WritesCr s d ((maxStamp cr.lclk (s.lf (cr.part.toNat % 16) die)).zeroExtend 64)
       { cr with lclk := maxStamp cr.lclk (s.lf (cr.part.toNat % 16) die) })) ∧
     reads 0x010 (cr.fflags.zeroExtend 64) ∧
     reads 0x011 (cr.ftrapen.zeroExtend 64) ∧
     reads 0x012 (cr.frm.zeroExtend 64) ∧
     reads 0x020 cr.trapvec ∧
     reads 0x021 cr.trappc ∧
     reads 0x022 (cr.trapcause.zeroExtend 64) ∧
     reads 0x023 cr.trapaddr ∧
     reads 0x024 cr.trapval ∧
     reads 0x030 cr.xferid ∧
     reads 0x031 (cr.xien.zeroExtend 64) ∧
     reads 0x038 (cr.pset.zeroExtend 64) ∧
     reads 0x039 (k.pquota.zeroExtend 64) ∧
     (free → reads 0x03A cr.pres) ∧
     reads 0x040 (cr.bounceq.zeroExtend 64) ∧
     (free → reads 0x041 (cr.bounces.zeroExtend 64)) ∧
     reads 0x042 (k.mboxd.zeroExtend 64) ∧
     reads 0x043 (k.hlimit.zeroExtend 64) ∧
     reads 0x048 k.traceb ∧
     (free → reads 0x049 (k.tracen.zeroExtend 64)) ∧
     (free → reads 0x050 (headroomOf (s.energy.getD (die * 16 + cr.part.toNat % 16) {}))) ∧
     reads 0x051 cr.jobst ∧
     ∀ q : BitVec 3, reads (0x060 + q.zeroExtend 12) (k.rings.getD q.toNat 0)) ∧
  (∀ (s : State) (d a : Reg) (n : BitVec 12) (r : BitVec 2) (x : BitVec 8),
     s.detHere = true → s.CanTrap →
     n ∈ [(0x001 : BitVec 12), 0x008, 0x009, 0x00A, 0x00B, 0x050, 0x049, 0x041, 0x03A] →
     let forbidden (i : Instr) : Prop := Completes i s (TakesTrap s 9 s.here.pc (BitVec.ofNat 64 (encode i)) s.here.pc)
     forbidden (.crr d n) ∧
     (d ≠ 0 → forbidden (.crw d a n) ∧ forbidden (.crs d a n) ∧ forbidden (.crc d a n) ∧ forbidden (.lclkup d a) ∧ forbidden (.lease d a r x)) ∧
     Completes (.crw 0 a n) s fun t => t.here.pc = s.here.pc + 4 ∧ ∀ q : Reg, t.rdG q = s.rdG q)

/-- R78 and R80, over the three instructions that present a value, and R95 for the registers that depend on timing. MBOXD, BOUNCEQ, TRACEB, TRACEN and the rings are in
`SharedRegisterWrites`. -/
def Obligations.ControlRegisterWrites : Prop :=
  ∀ (s : State) (d a : Reg) (op : Reg → Reg → BitVec 12 → Instr) (new : Word → Word → Word),
    (op, new) ∈ [(Instr.crw, fun _ x => x), (Instr.crs, fun old x => old ||| x), (Instr.crc, fun old x => old &&& ~~~x)] →
    let cr := s.here.cr
    let k := s.core s.homeCore
    let die := tileOf s.execCore
    let x := s.rdG a
    let writes (n : BitVec 12) (old : Word) (cr' : CtxCr) : Prop := Completes (op d a n) s (WritesCr s d old cr')
    let low2 : Word := 0xFFFFFFFFFFFFFFFC
    writes 0x010 (cr.fflags.zeroExtend 64) { cr with fflags := (new (cr.fflags.zeroExtend 64) x).setWidth 5 } ∧
    writes 0x011 (cr.ftrapen.zeroExtend 64) { cr with ftrapen := (new (cr.ftrapen.zeroExtend 64) x).setWidth 5 } ∧
    writes 0x012 (cr.frm.zeroExtend 64)
      (if ((new (cr.frm.zeroExtend 64) x).setWidth 3).toNat ≤ 4 then { cr with frm := (new (cr.frm.zeroExtend 64) x).setWidth 3 } else cr) ∧
    writes 0x020 cr.trapvec { cr with trapvec := new cr.trapvec x &&& low2 } ∧
    writes 0x021 cr.trappc { cr with trappc := new cr.trappc x &&& low2 } ∧
    writes 0x031 (cr.xien.zeroExtend 64) { cr with xien := (new (cr.xien.zeroExtend 64) x).setWidth 1 } ∧
    writes 0x038 (cr.pset.zeroExtend 64) { cr with pset := (new (cr.pset.zeroExtend 64) x).setWidth 41 } ∧
    (s.detHere = false ∨ d = 0 →
      writes 0x041 (cr.bounces.zeroExtend 64) { cr with bounces := (new (cr.bounces.zeroExtend 64) x).setWidth 32 }) ∧
    (∀ n old, (n, old) ∈ [((0x000 : BitVec 12), cr.tid), (0x002, if isWCore s.execCore then 3 else 1), (0x003, cr.domain.zeroExtend 64),
        (0x004, cr.part.zeroExtend 64), (0x022, cr.trapcause.zeroExtend 64), (0x023, cr.trapaddr), (0x024, cr.trapval), (0x030, cr.xferid), (0x051, cr.jobst)] →
      writes n old cr) ∧
    (s.detHere = false ∨ d = 0 →
      (∀ n old, (n, old) ∈ [((0x001 : BitVec 12), BitVec.ofNat 64 s.execCore), (0x008, BitVec.ofNat 64 ((s.die die).cycle / 640)), (0x009, BitVec.ofNat 64 (s.gtrOf die)),
          (0x00A, s.gtrsOf die), (0x03A, cr.pres), (0x050, headroomOf (s.energy.getD (die * 16 + cr.part.toNat % 16) {}))] →
        writes n old cr) ∧
      writes 0x00B ((maxStamp cr.lclk (s.lf (cr.part.toNat % 16) die)).zeroExtend 64) { cr with lclk := maxStamp cr.lclk (s.lf (cr.part.toNat % 16) die) }) ∧
    (48 < ((new (k.pquota.zeroExtend 64) x).setWidth 6).toNat → writes 0x039 (k.pquota.zeroExtend 64) cr) ∧
    (((new (k.pquota.zeroExtend 64) x).setWidth 6).toNat ≤ 48 → Completes (op d a 0x039) s
      (WritesCore s d (k.pquota.zeroExtend 64) { k with pquota := (new (k.pquota.zeroExtend 64) x).setWidth 6 })) ∧
    (s.inHandler = true ∨ ((new (k.hlimit.zeroExtend 64) x).setWidth 32).toNat < 256 → writes 0x043 (k.hlimit.zeroExtend 64) cr) ∧
    (s.inHandler = false → 256 ≤ ((new (k.hlimit.zeroExtend 64) x).setWidth 32).toNat → Completes (op d a 0x043) s
      (WritesCore s d (k.hlimit.zeroExtend 64) { k with hlimit := (new (k.hlimit.zeroExtend 64) x).setWidth 32 }))

/-- R80 with R28, R111 and R196: the per-core registers of CRW whose write has its own rule; the context that executes is ready. A lower MBOXD frees no slot and a
greater one makes the slots it adds units of the mailbox, so the statement about MBOXD is of its value only. -/
def Obligations.SharedRegisterWrites : Prop :=
  ∀ (s : State) (d a : Reg),
    let cr := s.here.cr
    let k := s.core s.homeCore
    let x := s.rdG a
    Completes (.crw d a 0x048) s (WritesCore s d k.traceb { k with traceb := x &&& 0x00000000008FFFFF }) ∧
    (s.detHere = false ∨ d = 0 → Completes (.crw d a 0x049) s (WritesCore s d (k.tracen.zeroExtend 64) { k with tracen := x.setWidth 32 })) ∧
    (x.getLsbD 3 = true → k.ringValid (k.rings.getD (x.toNat % 8) 0) = false →
      Completes (.crw d a 0x040) s (WritesCr s d (cr.bounceq.zeroExtend 64) cr)) ∧
    (x.getLsbD 3 = false ∨ k.ringValid (k.rings.getD (x.toNat % 8) 0) = true →
      Completes (.crw d a 0x040) s (WritesCr s d (cr.bounceq.zeroExtend 64) { cr with bounceq := x.setWidth 4 })) ∧
    (x.toNat % 16 = 0 ∨ 8 < x.toNat % 16 → Completes (.crw d a 0x042) s (WritesG s false d (k.mboxd.zeroExtend 64) (s.here.pc + 4))) ∧
    (1 ≤ x.toNat % 16 → x.toNat % 16 ≤ 8 → Completes (.crw d a 0x042) s fun t =>
      (t.core s.homeCore).mboxd.toNat = x.toNat % 16 ∧ (d ≠ 0 → t.rdG d = k.mboxd.zeroExtend 64) ∧ t.here.pc = s.here.pc + 4 ∧ t.mem = s.mem) ∧
    ∀ q : BitVec 3, s.here.st = .ready → Completes (.crw d a (0x060 + q.zeroExtend 12)) s fun t =>
      (t.core s.homeCore).rings.getD q.toNat 0 = x &&& 0xFFFFFFFFFF00FFFF ∧
      (∀ i, i ≠ q.toNat → (t.core s.homeCore).rings.getD i 0 = k.rings.getD i 0) ∧
      (∀ i, i ≠ s.homeCore → t.core i = s.core i) ∧
      (d ≠ 0 → t.rdG d = k.rings.getD q.toNat 0) ∧ t.here.pc = s.here.pc + 4 ∧ t.mem = s.mem

/-- R91, entered as R90 says, or with the fate that R345 to R347 give a trap that is not vectored; whose GTR the record holds is log 63, the model's choice. -/
def Obligations.TrapRaisesBreak : Prop :=
  (∀ (s : State) (c : BitVec 5), s.CanTrap → Completes (.trap c) s (TakesTrap s 14 s.here.pc (c.zeroExtend 64) (s.here.pc + 4))) ∧
  (∀ (s : State) (c : BitVec 5) (slot : Nat) (l : Launch),
     s.inHandler = false → s.here.pend = [] → s.answersOut s.cur = false → (s.here.cr.trapvec = 0 ∨ s.here.cr.trapcause.getLsbD 8 = true) →
     s.here.launch = some slot → s.launch? s.here.partNo slot = some l → l.pendingAbort = none →
     Completes (.trap c) s fun t =>
       t.here = { s.here with st := .stopped } ∧ OthersAsBefore s t ∧ t.mem = s.mem ∧ t.cores = s.cores ∧ t.net = s.net ∧
       t.launch? s.here.partNo slot = some (l.orderAbort
         { kind := 14, slot := slot, tid := s.here.cr.tid, pc := s.here.pc + 4, addr := s.here.pc, val := c.zeroExtend 64, gtr := s.gtrOf sDie }) ∧
       ∀ p q, (p, q) ≠ (s.here.partNo, slot) → t.launch? p q = s.launch? p q)

/-- R344: the records of the precise traps of this chapter; R92. -/
def Obligations.PreciseTrapsAndReturn : Prop :=
  (∀ (s : State) (d a b : Reg) (imm : BitVec 16) (r : BitVec 2) (o : BitVec 1) (sc h : BitVec 2) (x : BitVec 8) (word : IWord),
     s.CanTrap →
     let pc := s.here.pc
     let t := s.rdG a + imm.signExtend 64
     let addr := s.rdG a + x.signExtend 64 * 8
     (t.toNat % 4 ≠ 0 → Completes (.jalr d a imm) s (TakesTrap s 3 t t pc)) ∧
     ((s.rdG a).toNat % 4 ≠ 0 → Completes (.spawn d a b) s (TakesTrap s 3 (s.rdG a) (s.rdG a) pc)) ∧
     (s.here.cr.trapcause.getLsbD 8 = false → Completes .eret s (TakesTrap s 1 pc 0x60000100 pc)) ∧
     (placeOf s.homeCore addr = .unmapped → Completes (.ld d a r o sc h x) s (TakesTrap s 6 addr addr pc)) ∧
     (∀ off, placeOf s.homeCore addr = .lm s.homeCore off → s.enabled s.homeCore = true → off < (s.core s.homeCore).scratchEnd →
       addr.toNat % 8 ≠ 0 → Completes (.ld d a r o sc h x) s (TakesTrap s 3 addr addr pc)) ∧
     Completes (.illegalInstruction word) s (TakesTrap s 1 pc (word.zeroExtend 64) pc)) ∧
  (∀ (s : State), s.inHandler = false → s.here.cr.trapcause.getLsbD 8 = true →
      Completes .eret s fun t =>
        OnlyHere s t ∧ t.here.pc = s.here.cr.trappc ∧
        t.here.cr.trapcause.getLsbD 8 = false ∧ t.here.cr.trapcause.getLsbD 9 = false ∧
        t.here.cr.trapcause.setWidth 8 = s.here.cr.trapcause.setWidth 8 ∧
        { t.here with pc := s.here.pc, cr := { t.here.cr with trapcause := s.here.cr.trapcause } } = s.here)

/-- R86 to R89 and R93. -/
def Obligations.ThreadInstructions : Prop :=
  ∀ (s : State) (d a : Reg),
    let pc := s.here.pc + 4
    let die := tileOf s.execCore
    let lf := s.lf (s.here.cr.part.toNat % 16) die
    let old := maxStamp s.here.cr.lclk lf
    let x : Stamp := (s.rdG a).setWidth 40
    let v := if later x (lf + 2 ^ 32) then lf + 2 ^ 32 else x
    Completes .yield s (GoesOn s false pc) ∧
    Completes (.home d) s (WritesG s false d (BitVec.ofNat 64 (if s.inHandler then s.execCore else s.here.home)) pc) ∧
    (s.inHandler = false → (s.rdG a).toNat ≤ s.gtrOf die → Completes (.waitt a) s (GoesOn s false pc)) ∧
    (s.inHandler = false → s.gtrOf die < (s.rdG a).toNat → Completes (.waitt a) s fun t =>
      OnlyHere s t ∧ t.here = { s.here with st := .waiting, wait := .waitt (s.rdG a) }) ∧
    (s.detHere = false ∨ d = 0 → Completes (.lclkup d a) s
      (WritesCr s d (old.zeroExtend 64) { s.here.cr with lclk := if later v old then v else old })) ∧
    (s.flightsOf s.cur = [] → s.waitersOf s.cur = [] → Completes .iflush s fun t =>
      OnlyCore s s.execCore { s.core s.execCore with fetch := [] } t ∧ OthersAsBefore s t ∧ RetiresAs s s.here t)

/-- R83 to R85. The spawned thread's number in a deterministic partition is given at the barrier (R84). -/
def Obligations.SpawnAndExit : Prop :=
  ∀ (s : State) (d a b : Reg) (slot : Nat) (l : Launch),
    s.inHandler = false → s.here.launch = some slot → s.launch? s.here.partNo slot = some l →
    let e := s.rdG a
    let p := s.here.partNo
    let clk := maxStamp s.here.cr.lclk (s.lf p (tileOf s.execCore))
    let most := if l.group = 0 then 2 ^ 32 - 1 else 2 ^ 24 - 1
    (s.Idle → e.toNat % 4 = 0 → 0x00FE000000000400 ≤ e.toNat → e.toNat < 0x00FE000000000000 + (s.core s.here.home).scratchEnd →
      (l.threads < most → Completes (.spawn d a b) s fun t =>
        (∀ r : Reg, t.rdG r = if r = d ∧ r ≠ 0 then 0 else s.rdG r) ∧ t.here.pc = s.here.pc + 4 ∧ OthersAsBefore s t ∧ t.mem = s.mem ∧
        (s.isDet p = false → ∃ l', t.launch? p slot = some l' ∧ l'.threads = l.threads + 1 ∧
          l'.spawned = l.spawned ++ [{ number := l.threads, entry := e, arg := s.rdG b, tid := s.here.cr.tid, lclk := clk }]) ∧
        (s.isDet p = true → t.launch? p slot = some { l with due := l.due + 1 } ∧ ∃ q q', s.parts.get p = some q ∧ t.parts.get p = some q' ∧
          q'.phaseSpawns = q.phaseSpawns ++ [(slot, s.here.cr.tid.toNat % 2 ^ 32, ({ number := 0, entry := e, arg := s.rdG b, tid := s.here.cr.tid, lclk := clk } : Spawned))])) ∧
      (most ≤ l.threads → Completes (.spawn d a b) s (WritesG s false d 1 (s.here.pc + 4)))) ∧
    (s.isDet p = false → (isWCore s.execCore = false ∨ s.migFifo.getD (clusterOf s.execCore) [] = []) →
      Completes .exit s fun t =>
        t.here = {} ∧ OthersAsBefore s t ∧ t.mem = s.mem ∧ t.net = s.net ∧
        ∃ l', t.launch? p slot = some l' ∧ l'.live = l.live - 1 ∧ l'.clock = maxStamp l.clock clk ∧ l'.threads = l.threads)

/-- R94 and R218, with R345's fate of a handler's trap. -/
def Obligations.HandlersEndWithHret : Prop :=
  ∀ (s : State) (d a b : Reg),
    let slot := s.here.slot
    (s.inHandler = true → Completes .hret s fun t =>
      t.here = {} ∧ t.mem = s.mem ∧ (∀ i, i ≠ s.execCore → t.core i = s.core i) ∧
      (if numberOf s.cur = 5 then (t.core s.execCore).boxHi.get slot = none else (t.core s.execCore).boxLo.get slot = none) ∧
      (∀ k l, s.here.launch = some k → s.launch? s.here.partNo k = some l → ∃ l', t.launch? s.here.partNo k = some l' ∧
        l'.clock = maxStamp l.clock (maxStamp s.here.cr.lclk (s.lf s.here.partNo (tileOf s.execCore))))) ∧
    (s.inHandler = true → s.here.launch = none → s.here.pend = [] → s.answersOut s.cur = false → ∀ q, s.parts.get s.here.partNo = some q →
      ∀ i, i ∈ [Instr.spawn d a b, .exit, .waitt a, .eret] → Completes i s fun t =>
        t.here = {} ∧ t.mem = s.mem ∧ ∃ q' r rest, t.parts.get s.here.partNo = some q' ∧ q'.aborts = r :: rest ∧
          r.kind = 1 ∧ r.noLaunch = true ∧ r.pc = s.here.pc ∧ r.addr = s.here.pc ∧ r.val = (BitVec.ofNat 64 (encode i))) ∧
    (s.inHandler = false → s.CanTrap → Completes .hret s (TakesTrap s 1 s.here.pc (BitVec.ofNat 64 (encode .hret)) s.here.pc))
/-- R155 and R156 on LM, and R98; that a load performs at once or late as the agenda says is log 7, and that `ro` of the request is the lack of a write right is log 19, both the model's: the two ways a load of memory begins; the events HOME_LOAD, DEW_ANSWER and LOAD_REPLY carry it on. Where a target lies and the traps of R154 are in `AccessesAreClassified`. -/
def Obligations.LoadsBegin : Prop :=
  (∀ (s : State) (d a : Reg) (r : BitVec 2) (o : BitVec 1) (sc h : BitVec 2) (x : BitVec 8) (core off n : Nat),
     let addr := s.rdG a + x.signExtend 64 * BitVec.ofNat 64 n
     let b := s.mem.readNat (lmAddr core off) n
     s.locate s.cur .load addr n = (.lm core off, s) →
     s.acquiring s.cur (s.scopeOf s.cur (lmAddr core off) 0) = false → s.lmHeld s.cur core (lmAddr core off) n true = false →
     (s.late = true → ∀ op fmt, (op, fmt) ∈ [(Instr.lb, LoadFmt.sx 1), (Instr.lbu, .zx 1), (Instr.lh, .sx 2), (Instr.lhu, .zx 2), (Instr.lw, .sx 4), (Instr.lwu, .zx 4),
         (Instr.ld, .zx 8), (Instr.flw, .f32), (Instr.fld, .f64), (Instr.vld, .v128)] → fmt.size = n → (fmt ∈ [LoadFmt.f32, .f64, .v128] → s.hasReg d) →
       Completes (op d a r o sc h x) s fun t => Sends s (.lmLoad fmt d.toNat (lmAddr core off) (o == 1) sc.toNat) t ∧ RetiresAs s (s.here.awaitMaybe (fmt.target d.toNat)) t) ∧
     (s.late = false → s.poisoned (lmAddr core off) n = false →
     (∀ op, (op, n) ∈ [(Instr.lb, 1), (Instr.lh, 2), (Instr.lw, 4), (Instr.ld, 8)] →
       Completes (op d a r o sc h x) s (WritesG s false d ((BitVec.ofNat (8 * n) b).signExtend 64) (s.here.pc + 4))) ∧
     (∀ op, (op, n) ∈ [(Instr.lbu, 1), (Instr.lhu, 2), (Instr.lwu, 4), (Instr.ld, 8)] →
       Completes (op d a r o sc h x) s (WritesG s false d (BitVec.ofNat 64 b) (s.here.pc + 4))) ∧
     (s.hasReg d → n = 4 → Completes (.flw d a r o sc h x) s (WritesF s false d (BitVec.ofNat 64 (0xFFFFFFFF00000000 + b)) 0)) ∧
     (s.hasReg d → n = 8 → Completes (.fld d a r o sc h x) s (WritesF s false d (BitVec.ofNat 64 b) 0)) ∧
     (s.hasReg d → n = 16 → Completes (.vld d a r o sc h x) s (WritesV s d (BitVec.ofNat 128 b) 0)))) ∧
  (∀ (s s1 : State) (d a : Reg) (r : BitVec 2) (o : BitVec 1) (sc h : BitVec 2) (x : BitVec 8) (e : RightsEntry)
     (op : Reg → Reg → BitVec 2 → BitVec 1 → BitVec 2 → BitVec 2 → BitVec 8 → Instr) (fmt : LoadFmt),
     (op, fmt) ∈ [(Instr.lb, LoadFmt.sx 1), (Instr.lbu, .zx 1), (Instr.lh, .sx 2), (Instr.lhu, .zx 2), (Instr.lw, .sx 4), (Instr.lwu, .zx 4),
       (Instr.ld, .zx 8), (Instr.flw, .f32), (Instr.fld, .f64), (Instr.vld, .v128)] →
     (fmt ∈ [LoadFmt.f32, .f64, .v128] → s.hasReg d) →
     let addr := s.rdG a + x.signExtend 64 * BitVec.ofNat 64 fmt.size
     let p := s.here.partNo
     let copy := if !s.late && mayCache e.attr h.toNat && !s.sectorBusy s.cur (s.core s.execCore).reqSeq addr.toNat fmt.size then
       (s.core s.execCore).copy? p addr.toNat else none
     s.locate s.cur .load addr fmt.size = (.memory e, s1) →
     s.acquiring s.cur (s.scopeOf s.cur addr.toNat e.attr) = false → s.missTable (clusterOf s.execCore) < 16 → s.net.claims = [] →
     ((copy = none ∨ ∃ k, copy = some k ∧ s.ownHit s.cur s.clock k = false) → Completes (op d a r o sc h x) s fun t =>
       Sends s (.load { fmt := fmt, d := d.toNat, addr := addr.toNat, rc := r.toNat, acq := o == 1, sc := sc.toNat, hint := h.toNat, attr := e.attr, ro := !e.w, c := s.clock }) t ∧
       RetiresAs s (s.awaiting (fmt.target d.toNat)) t) ∧
     (∀ k, copy = some k → s.ownHit s.cur s.clock k = true → k.poisonedAt addr.toNat fmt.size = false →
       (∀ y ∈ s.here.spin, y.sector ≠ sectorOf addr.toNat) → Completes (op d a r o sc h x) s fun t =>
         t.here.cr = { s.here.cr with lclk := maxStamp s.clock k.wts } ∧ t.here.pc = s.here.pc + 4 ∧ t.mem = s.mem ∧ t.net = s.net ∧ OthersAsBefore s t ∧
         (∃ c, t.here.g = c.g ∧ t.here.f = c.f ∧ t.here.v = c.v ∧ c = s.here.deliver fmt d.toNat (k.bytes addr.toNat fmt.size)) ∧
         t.here.pend = s.here.pend))

/-- R158 and R159. Memory must be in its canonical form (`MemoryFormIsKept`). The home's step HOME_STORE writes a store to memory. -/
def Obligations.StoresBegin : Prop :=
  (∀ (s : State) (d a : Reg) (o sc : BitVec 2) (h : BitVec 1) (x : BitVec 8) (core off n : Nat) (v : Nat)
     (op : Reg → Reg → BitVec 2 → BitVec 2 → BitVec 1 → BitVec 8 → Instr),
     (op, n, v) ∈ [(Instr.sb, 1, (s.rdG d).toNat), (Instr.sh, 2, (s.rdG d).toNat), (Instr.sw, 4, (s.rdG d).toNat), (Instr.sd, 8, (s.rdG d).toNat),
       (Instr.fsw, 4, (s.rdF d).toNat), (Instr.fsd, 8, (s.rdF d).toNat), (Instr.vst, 16, (s.rdV d).toNat)] →
     s.hasReg d ∨ (op d a o sc h x) ∈ [Instr.sb d a o sc h x, .sh d a o sc h x, .sw d a o sc h x, .sd d a o sc h x] →
     let addr := s.rdG a + x.signExtend 64 * BitVec.ofNat 64 n
     let rel := o = 1 ∨ o = 3
     let push := o = 2 ∨ o = 3
     let c1 := if rel then s.here.recordPushes else s.here
     let skip (c : Ctx) : Ctx := if push then { c with pushSkipped := true } else c
     let k := s.core core
     let traced := s.execCore ≠ core ∧ traceOn k.traceb = true ∧ k.traceValid = true
     s.memWf → s.Idle → s.locate s.cur .store addr n = (.lm core off, s) → s.storeBuffer s.execCore < 16 →
     (core = s.homeCore → s.late = false → ¬traced → Completes (op d a o sc h x) s fun t => WritesLm s core off n v t ∧ OthersAsBefore s t ∧ RetiresAs s (skip c1) t) ∧
     (core = s.homeCore → s.late = false → traced → Completes (op d a o sc h x) s fun t =>
       (t.core core).tracen = k.tracen + (if n = 16 then 2 else 1) ∧ OthersAsBefore s t ∧ RetiresAs s (skip c1) t) ∧
     (core ≠ s.homeCore ∨ s.late = true → Completes (op d a o sc h x) s fun t =>
       Sends s (.lmWrite (lmAddr core off) (.store n (BitVec.ofNat 128 (v % 256 ^ n))) (decide rel) sc.toNat) t ∧
       (∀ f, t.net.flights.getLast? = some f → f.skip = decide push) ∧ RetiresAs s s.here t)) ∧
  (∀ (s s1 : State) (d a : Reg) (o sc : BitVec 2) (h : BitVec 1) (x : BitVec 8) (e : RightsEntry) (n : Nat) (v : Nat)
     (op : Reg → Reg → BitVec 2 → BitVec 2 → BitVec 1 → BitVec 8 → Instr),
     (op, n, v) ∈ [(Instr.sb, 1, (s.rdG d).toNat), (Instr.sh, 2, (s.rdG d).toNat), (Instr.sw, 4, (s.rdG d).toNat), (Instr.sd, 8, (s.rdG d).toNat),
       (Instr.fsw, 4, (s.rdF d).toNat), (Instr.fsd, 8, (s.rdF d).toNat), (Instr.vst, 16, (s.rdV d).toNat)] →
     s.hasReg d ∨ (op d a o sc h x) ∈ [Instr.sb d a o sc h x, .sh d a o sc h x, .sw d a o sc h x, .sd d a o sc h x] →
     let addr := s.rdG a + x.signExtend 64 * BitVec.ofNat 64 n
     s.locate s.cur .store addr n = (.memory e, s1) →
     s.acquiring s.cur (s.scopeOf s.cur addr.toNat e.attr) = false → s.storeBuffer s.execCore < 16 →
     Completes (op d a o sc h x) s fun t =>
       Sends s (.store { addr := addr.toNat, size := n, data := BitVec.ofNat 128 (v % 256 ^ n), rel := o == 1 || o == 3, push := o == 2 || o == 3, sc := sc.toNat, nl := h == 1, attr := e.attr, l := s.clock, pset := s.here.cr.pset, psetOk := s.psetValid s.here.partNo s.here.cr.pset }) t ∧
       RetiresAs s ({ s.here with cr := { s.here.cr with lclk := s.clock } }.clearSpin (sectorOf addr.toNat)) t)

/-- R162 and R163 at the port of the home core. -/
def Obligations.FullEmptyInstructions : Prop :=
  ∀ (s : State) (d a : Reg) (o : BitVec 1) (x : BitVec 8) (off : Nat),
    let addr := s.rdG a + x.signExtend 64 * 8
    let core := s.homeCore
    let w := lmAddr core off
    let v := s.mem.readNat w 8
    let k := s.core core
    let traced := s.execCore ≠ core ∧ traceOn k.traceb = true ∧ k.traceValid = true
    s.memWf → s.Idle → s.net.waiters = [] → s.net.turns = [] → s.enabled core = true →
    placeOf core addr = .lm core off → off + 8 ≤ (s.core core).scratchEnd → addr.toNat % 8 = 0 →
    (s.full w = true → s.poisoned w 8 = false →
      (Completes (.ldf d a o x) s fun t => (∀ r : Reg, t.rdG r = if r = d ∧ r ≠ 0 then BitVec.ofNat 64 v else s.rdG r) ∧ t.here.pc = s.here.pc + 4 ∧
        t.mem = s.mem ∧ t.emptied = s.emptied ∧ OthersAsBefore s t) ∧
      (Completes (.ldfe d a o x) s fun t => (∀ r : Reg, t.rdG r = if r = d ∧ r ≠ 0 then BitVec.ofNat 64 v else s.rdG r) ∧ t.here.pc = s.here.pc + 4 ∧
        t.mem = s.mem ∧ t.full w = false ∧ (∀ y, wordOf y ≠ wordOf w → t.full y = s.full y) ∧ OthersAsBefore s t)) ∧
    (s.full w = false →
      (¬traced → Completes (.sde d a o x) s fun t => t.mem.readNat w 8 = (s.rdG d).toNat ∧ (∀ y, y < w ∨ w + 8 ≤ y → t.mem.read y = s.mem.read y) ∧
        t.full w = true ∧ (∀ y, wordOf y ≠ wordOf w → t.full y = s.full y) ∧ t.here.pc = s.here.pc + 4 ∧ (∀ r : Reg, t.rdG r = s.rdG r) ∧ OthersAsBefore s t) ∧
      (Completes (.ldf d a o x) s fun t => (∃ q : Waiter, t.net.waiters = [q] ∧ q.addr = wordOf w ∧ q.op = .ldf d.toNat ∧ q.ctx = s.cur ∧ q.acq = (o == 1)) ∧
        (d ≠ 0 → RegRef.g d.toNat ∈ t.here.pend) ∧ t.here.pc = s.here.pc + 4 ∧ t.mem = s.mem ∧ t.emptied = s.emptied)) ∧
    (traced → (∀ i ∈ [Instr.fesetE a x, .fesetF a x], Completes i s fun t => (t.core core).tracen = k.tracen + 1 ∧ t.here.pc = s.here.pc + 4 ∧ t.full w = (i == .fesetF a x)) ∧
      (s.full w = false → Completes (.sde d a o x) s fun t => (t.core core).tracen = k.tracen + 1 ∧ t.here.pc = s.here.pc + 4 ∧ t.full w = true)) ∧
    (¬traced → Completes (.fesetE a x) s fun t => t.full w = false ∧ (∀ y, wordOf y ≠ wordOf w → t.full y = s.full y) ∧ t.mem = s.mem ∧ GoesOn { s with emptied := t.emptied } false (s.here.pc + 4) t) ∧
    (¬traced → Completes (.fesetF a x) s fun t => t.full w = true ∧ (∀ y, wordOf y ≠ wordOf w → t.full y = s.full y) ∧ t.mem = s.mem ∧ GoesOn { s with emptied := t.emptied } false (s.here.pc + 4) t)

/-- R165 to R168 on memory addresses; `ro` of the requests is log 19, the model's choice. -/
def Obligations.FencePurgeLeasePrefetch : Prop :=
  ∀ (s s1 : State) (sc : BitVec 2) (d a : Reg) (r : BitVec 2) (h : BitVec 1) (x : BitVec 8) (e : RightsEntry) (sl : Nat),
    let addr := s.rdG a + x.signExtend 64 * 64
    let p := s.here.partNo
    (s.Idle → Completes (.fence sc) s fun t => OnlyHere s t ∧
      RetiresAs s { (Ctx.recordPushes { s.here with cr := { s.here.cr with lclk := s.clock } }) with spin := [] } t) ∧
    (s.Idle → placeOf s.homeCore addr = .memory → s.plbLookup s.execCore s.here.accessDomain addr.toNat = (some e, s1) →
      s.missTable (clusterOf s.execCore) < 16 → s.net.claims = [] → s.homeSlice p addr.toNat = some sl →
      (e.r = true ∨ e.w = true ∨ e.x = true → Completes (.ppurge a r x) s fun t =>
        (∃ f, t.net.flights = s.net.flights ++ [f] ∧ f.kind = .purge (lineOf addr.toNat) r.toNat ∧ f.ctx = s.cur) ∧
        t.net.dew = s.net.dew.filter (fun l => !((requestPath r.toNat s.execCore sl).contains (l.x, l.y) && l.body.isAt p addr.toNat)) ∧
        (t.core s.execCore).cache = (s.core s.execCore).cache.filter (fun y => !(y.isAt p addr.toNat)) ∧
        (∀ i, i ≠ s.execCore → t.core i = s.core i) ∧ t.mem = s.mem ∧ OthersAsBefore s t ∧ RetiresAs s s.here t) ∧
      (e.r = true → (s.detHere = false ∨ d = 0) →
        (e.attr = 2 ∨ e.attr = 3 → Completes (.lease d a r x) s fun t =>
          (∀ q : Reg, t.rdG q = if q = d ∧ q ≠ 0 then 0 else s.rdG q) ∧ t.here.pc = s.here.pc + 4 ∧ t.mem = s.mem ∧ t.net = s.net ∧ OthersAsBefore s t) ∧
        (e.attr = 0 ∨ e.attr = 1 → Completes (.lease d a r x) s fun t =>
          Sends s (.load { fmt := .lease, d := d.toNat, addr := addr.toNat, rc := r.toNat, acq := false, sc := 0, hint := 0, attr := e.attr, ro := !e.w, c := s.clock }) t ∧
          RetiresAs s (s.awaiting (if d = 0 then none else some (.g d.toNat))) t)) ∧
      (e.r = true → s.detHere = false → (s.core s.execCore).copy? p addr.toNat = none → Completes (.pref a r h x) s fun t =>
        Sends s (.load { fmt := .pref, d := 0, addr := addr.toNat, rc := r.toNat, acq := false, sc := 0, hint := h.toNat, attr := e.attr, ro := !e.w, c := s.clock }) t ∧
        RetiresAs s { s.here with cr := { s.here.cr with lclk := s.clock } } t))

/-- R173 and R174: the issue of an atomic. HOME_ATOMIC and LM_ATOMIC perform it. -/
def Obligations.AtomicsAreSent : Prop :=
  ∀ (s s1 : State) (d a b : Reg) (o sc : BitVec 2) (z : BitVec 1) (e : RightsEntry) (core off : Nat)
    (op : Reg → Reg → Reg → BitVec 2 → BitVec 2 → BitVec 1 → Instr) (k : Nat),
    (op, k) ∈ [(Instr.aadd, 0), (Instr.aand, 1), (Instr.aor, 2), (Instr.axor, 3), (Instr.amin, 4), (Instr.amax, 5), (Instr.aminu, 6),
      (Instr.amaxu, 7), (Instr.aswap, 8), (Instr.acas, 9), (Instr.afadd, 10)] →
    s.detHere = false ∨ (k ≠ 10 ∧ (8 ≤ k ∨ d = 0)) →
    let addr := s.rdG a
    let size := if z = 0 then 4 else 8
    let q (at_ attr : Nat) (l : Stamp) : AtomReq :=
      { op := .amo k, addr := at_, size := size, b := s.rdG b, cmp := s.rdG d, d := d.toNat, acq := o == 1 || o == 3, rel := o == 2 || o == 3, sc := sc.toNat, attr := attr, l := l }
    let r := if d = 0 then none else some (RegRef.g d.toNat)
    s.storeBuffer s.execCore < 16 →
    (s.locate s.cur .atomic addr size = (.memory e, s1) → s.acquiring s.cur (s.scopeOf s.cur addr.toNat e.attr) = false →
      Completes (op d a b o sc z) s fun t => Sends s (.atomic (q addr.toNat e.attr s.clock)) t ∧
        RetiresAs s ((s.awaiting r).clearSpin (sectorOf addr.toNat)) t) ∧
    (s.locate s.cur .atomic addr size = (.lm core off, s) → s.acquiring s.cur (s.scopeOf s.cur (lmAddr core off) 0) = false →
      s.lmHeld s.cur core (lmAddr core off) size true = false →
      Completes (op d a b o sc z) s fun t => Sends s (.atomic (q (lmAddr core off) 0 0)) t ∧ RetiresAs s (s.here.awaitMaybe r) t)

/-- R206 to R210: the issue of the group instructions. The atomic unit of the home performs them (HOME_ATOMIC). -/
def Obligations.GroupInstructionsAreSent : Prop :=
  ∀ (s s1 : State) (d a b : Reg) (e : RightsEntry),
    let addr := s.rdG a
    let n := addr.toNat
    let sc := s.scopeOf s.cur n e.attr
    let q (op : AtomOp) (dd : Nat) (acq rel : Bool) (scope : Nat) : FKind :=
      .atomic { op := op, addr := n, size := 8, b := 0, cmp := 0, d := dd, acq := acq, rel := rel, sc := scope, attr := e.attr, l := s.clock }
    let r := if d = 0 then none else some (RegRef.g d.toNat)
    let after (x : Option RegRef) : Ctx := (s.awaiting x).clearSpin (sectorOf n)
    s.inHandler = false → s.detHere = false → s.Idle → s.storeBuffer s.execCore < 16 → placeOf s.homeCore addr = .memory →
    (s.locate s.cur .atomic addr 8 = (.memory e, s1) →
      ((s.rdG b).toNat ≤ 0xFFFFFE → Completes (.join d a b) s fun t =>
        Sends s (q (.join (s.rdG b).toNat) d.toNat false false 0) t ∧ RetiresAs s (after r) t) ∧
      (Completes (.leave a) s fun t => Sends s (q (.leave ((s.here.rankEntry? n).map (·.gen))) 0 false false 0) t ∧
        RetiresAs s { after none with ranks := s.here.ranks.filter fun y => y.addr != n } t) ∧
      (Completes (.bar d a) s fun t => Sends s (q .bar d.toNat true true sc) t ∧ RetiresAs s { after r with st := .waiting } t) ∧
      (Completes (.cwait d a b) s fun t => Sends s (q (.cwait (s.rdG b)) d.toNat true false sc) t ∧ RetiresAs s { after r with st := .waiting } t) ∧
      (Completes (.ticket d a) s fun t => Sends s (q .ticket d.toNat true false sc) t ∧ RetiresAs s { after r with st := .waiting } t) ∧
      (Completes (.serve a) s fun t => Sends s (q .serve 0 false true sc) t ∧ RetiresAs s (after none) t)) ∧
    (∀ op size, (op, size) ∈ [(Instr.gamoD, 8), (Instr.gamoW, 4)] → s.locate s.cur .atomic addr size = (.memory e, s1) →
      s.net.gamo = [] → Completes (op d a b) s fun t =>
        RetiresAs s (after r) t ∧ t.mem = s.mem ∧ t.net.flights = s.net.flights ∧ OthersAsBefore s t ∧
        ∃ g x : _, t.net.gamo = [g] ∧ g.parts = [x] ∧ g.cluster = clusterOf s.execCore ∧ g.addr = n ∧ g.size = size ∧ g.returning = decide (d ≠ 0) ∧
          x.ctx = s.cur ∧ x.d = d.toNat ∧ x.add = s.rdG b ∧ x.l = s.clock)

/-- R170 to R172 with the counts of R29. HEAD is descriptor [47:32] and TAIL [63:48] (R28). What an earlier acquire holds back is R104's; what the agenda delays is log 7. -/
def Obligations.RingInstructions : Prop :=
  ∀ (s : State) (d a : Reg) (q : BitVec 3) (n : BitVec 9) (t0 w : BitVec 1) (i o : BitVec 8),
    let core := s.homeCore
    let k := s.core core
    let desc := k.rings.getD q.toNat 0
    let tail := (desc.toNat / 2 ^ 48) % 2 ^ 16
    let head := (desc.toNat / 2 ^ 32) % 2 ^ 16
    let filled := (tail + 65536 - head) % 65536
    let slots := 2 ^ (desc.toNat / 2 ^ 24 % 16)
    let slot := 8 * 2 ^ (desc.toNat / 2 ^ 28 % 16)
    let count := (s.rdG a).toNat + n.toNat
    let size := if w = 0 then 8 else 16
    let off := desc.toNat % 2 ^ 16 + ((if t0 = 1 then tail else head) + i.toNat) % slots * slot + o.toNat * size
    s.memWf → s.acquiring s.cur 0 = false →
    (s.CanTrap →
      let faults (i : Instr) (v : Nat) : Prop := Completes i s (TakesTrap s 10 0 (BitVec.ofNat 64 v) s.here.pc)
      (k.ringValid desc = false ∨ slots < count → faults (.rwait d a q n) count ∧ faults (.rroom d a q n) count) ∧
      (k.ringValid desc = false ∨ filled < count → faults (.radvh d a q n) count) ∧
      (k.ringValid desc = false ∨ slots - filled < count → faults (.radvt d a q n) count) ∧
      (w = 0 ∨ s.hasReg d → k.ringValid desc = false ∨ slots ≤ i.toNat ∨ slot < o.toNat * size + size →
        faults (.rld d t0 w q i o) i.toNat ∧ faults (.rst d t0 w q i o) i.toNat)) ∧
    (k.ringValid desc = true → count ≤ slots →
      (count ≤ filled → Completes (.rwait d a q n) s (WritesG s false d (BitVec.ofNat 64 filled) (s.here.pc + 4))) ∧
      (filled < count → Completes (.rwait d a q n) s fun t => OnlyHere s t ∧ t.here = { s.here with st := .waiting, wait := .rwait q.toNat count d.toNat }) ∧
      (count ≤ slots - filled → Completes (.rroom d a q n) s (WritesG s false d (BitVec.ofNat 64 (slots - filled)) (s.here.pc + 4))) ∧
      (slots - filled < count → Completes (.rroom d a q n) s fun t => OnlyHere s t ∧ t.here = { s.here with st := .waiting, wait := .rroom q.toNat count d.toNat }) ∧
      (s.Idle → s.here.st = .ready → count ≤ filled → Completes (.radvh d a q n) s fun t =>
        (t.core core).rings.getD q.toNat 0 = BitVec.ofNat 64 (tail * 2 ^ 48 + (head + count) % 65536 * 2 ^ 32 + desc.toNat % 2 ^ 32) ∧
        (d ≠ 0 → t.rdG d = BitVec.ofNat 64 ((head + count) % 65536)) ∧ t.here.pc = s.here.pc + 4 ∧ t.mem = s.mem ∧ ∀ j, j ≠ core → t.core j = s.core j) ∧
      (s.Idle → s.here.st = .ready → count ≤ slots - filled → Completes (.radvt d a q n) s fun t =>
        (t.core core).rings.getD q.toNat 0 = BitVec.ofNat 64 ((tail + count) % 65536 * 2 ^ 48 + head * 2 ^ 32 + desc.toNat % 2 ^ 32) ∧
        (d ≠ 0 → t.rdG d = BitVec.ofNat 64 ((tail + count) % 65536)) ∧ t.here.pc = s.here.pc + 4 ∧ t.mem = s.mem ∧ ∀ j, j ≠ core → t.core j = s.core j)) ∧
    (k.ringValid desc = true → i.toNat < slots → o.toNat * size + size ≤ slot → s.Idle →
      (s.late = true → w = 0 ∨ s.hasReg d → Completes (.rld d t0 w q i o) s fun t =>
        Sends s (.lmLoad (if w = 0 then .zx 8 else .v128) d.toNat (lmAddr core off) false 0) t ∧
        RetiresAs s (s.here.awaitMaybe (LoadFmt.target (if w = 0 then .zx 8 else .v128) d.toNat)) t) ∧
      (s.late = false → s.poisoned (lmAddr core off) size = false →
        (w = 0 → Completes (.rld d t0 w q i o) s (WritesG s false d (BitVec.ofNat 64 (s.mem.readNat (lmAddr core off) 8)) (s.here.pc + 4))) ∧
        (w = 1 → s.hasReg d → Completes (.rld d t0 w q i o) s (WritesV s d (BitVec.ofNat 128 (s.mem.readNat (lmAddr core off) 16)) 0))) ∧
      (s.detHere = false → s.storeBuffer s.execCore < 16 → s.late = true → w = 0 ∨ s.hasReg d → Completes (.rst d t0 w q i o) s fun t =>
        Sends s (.lmWrite (lmAddr core off) (.store size (if w = 0 then (s.rdG d).zeroExtend 128 else s.rdV d)) false 0) t ∧ RetiresAs s s.here t) ∧
      (s.detHere = false → s.storeBuffer s.execCore < 16 → s.late = false → ¬(s.execCore ≠ core ∧ traceOn k.traceb = true ∧ k.traceValid = true) →
        (w = 0 → Completes (.rst d t0 w q i o) s fun t => WritesLm s core off 8 (s.rdG d).toNat t ∧ OthersAsBefore s t ∧ RetiresAs s s.here t) ∧
        (w = 1 → s.hasReg d → Completes (.rst d t0 w q i o) s fun t => WritesLm s core off 16 (s.rdV d).toNat t ∧ OthersAsBefore s t ∧ RetiresAs s s.here t)))
/-- R214 with its checks in their order, on SENDR, and R120's prohibition. The statuses come back by MESSAGE_ARRIVAL and MESSAGE_ANSWER. -/
def Obligations.MessagesAreSentOrTrap : Prop :=
  (∀ (s : State) (d a b : Reg) (v : BitVec 5),
     let dest := (s.rdG a).toNat
     let x := s.rdG b
     let m (kind : Nat) : Msg :=
       { kind := kind, dest := dest, target := x, payload := s.payload v, tid := s.here.cr.tid, lclk := s.clock, domain := s.here.accessDomain, launch := s.here.launch, part := s.here.partNo }
     let r := if d = 0 then none else some (RegRef.g d.toNat)
     v.toNat + 3 < (if s.inHandler then 8 else 16) → dest < 2 ^ 20 → s.enabled dest = true → s.inPart s.here.partNo dest = true →
     (s.detHere = false → x.toNat % 4 = 0 → 0x00FE000000000400 ≤ x.toNat → x.toNat ≤ 0x00FE000000005FFC →
       (Completes (.sendLo d a b v) s fun t => Sends s (.msg (m 0) d.toNat) t ∧ RetiresAs s (s.awaiting r) t) ∧
       (Completes (.sendHi d a b v) s fun t => Sends s (.msg (m 1) d.toNat) t ∧ RetiresAs s (s.awaiting r) t)) ∧
     (x.toNat ≤ 7 → Completes (.sendr d a b v) s fun t => Sends s (.msg (m 2) d.toNat) t ∧ RetiresAs s (s.awaiting r) t)) ∧
  (∀ (s : State) (d a b : Reg) (v : BitVec 5),
     let dest := (s.rdG a).toNat
     let pc := s.here.pc
     s.CanTrap → v.toNat + 3 < 16 →
     (2 ^ 20 ≤ dest ∨ s.enabled dest = false → Completes (.sendr d a b v) s (TakesTrap s 11 pc (s.rdG a) pc)) ∧
     (s.enabled dest = true → s.inPart s.here.partNo dest = false → Completes (.sendr d a b v) s (TakesTrap s 4 pc (s.rdG a) pc)) ∧
     (s.enabled dest = true → s.inPart s.here.partNo dest = true → 7 < (s.rdG b).toNat → Completes (.sendr d a b v) s (TakesTrap s 11 pc (s.rdG b) pc)) ∧
     (s.detHere = true → ∀ i, i ∈ [Instr.sendLo d a b v, .sendHi d a b v] → Completes i s (TakesTrap s 9 pc (BitVec.ofNat 64 (encode i)) pc)))

/-- R213 with R179, R181 and R185. The words are those that `State.readRecord` reads as loads of route home (R213), all in one step, which is the model's choice and unsafe (log 11); a LAUNCH
that is late is log 7, the model's choice. -/
def Obligations.LaunchEntersTheTable : Prop :=
  ∀ (s s1 s2 : State) (d a : Reg) (e : RightsEntry) (r : Record) (w : Stamp) (dom : Nat) (q : Part),
    let addr := s.rdG a

    s.Idle → placeOf s.homeCore addr = .memory → s.locate s.cur .load addr 64 = (.memory e, s1) →
    (s1.drift s.cur).readRecord addr.toNat e ((s1.drift s.cur).lclkOf s.cur) = (.ok (r, w, false), s2) →
    let t0 := s2.raiseLclk s2.cur w
    t0.recordDomain t0.here.partNo (some t0.here.accessDomain) (bitsOf (r.word 6) 0 16) = some dom → r.firstBad true = none →
    t0.parts.get t0.here.partNo = some q → q.det = false → t0.net.turns = [] →
    (∀ slot, q.freeSlot = some slot → 0 < q.freeSlots → t0.late = false → Completes (.launch d a) s fun t =>
      (d ≠ 0 → t.rdG d = BitVec.ofNat 64 slot) ∧ t.here.pc = t0.here.pc + 4 ∧ t.mem = t0.mem ∧
      ∃ l, t.launch? t0.here.partNo slot = some l ∧
        l.threads = bitsOf (r.word 0) 32 32 ∧ l.entry = bitsOf (r.word 0) 0 16 ∧ l.args = r.word 1 ∧ l.group = (r.word 2).toNat ∧
        l.gate = (r.word 3).toNat ∧ l.gateVal = r.word 4 ∧ l.done = (r.word 5).toNat ∧ l.domain = dom ∧ l.cache = bitsOf (r.word 0) 18 2 ∧
        l.policy = bitsOf (r.word 0) 20 2 ∧ l.foots = r.foots ∧ l.parent = t0.here.cr.tid ∧ l.start = t0.lclkOf t0.cur ∧ l.clock = t0.lf t0.here.partNo sDie ∧
        (r.word 3 ≠ 0 → l.st = .gated)) ∧
    (q.freeSlots = 0 → t0.late = false → Completes (.launch d a) s fun t =>
      (d ≠ 0 → t.rdG d = 0x100) ∧ t.here.pc = t0.here.pc + 4 ∧ t.mem = t0.mem ∧ ∀ p' slot, t.launch? p' slot = t0.launch? p' slot) ∧
    (t0.late = true → Completes (.launch d a) s fun t =>
      (∃ f : Flight, t.net.flights = t0.net.flights ++ [f] ∧ f.ctx = s.cur ∧ f.uid = t0.here.uid ∧ f.seq = (t0.core t0.execCore).reqSeq ∧
        f.kind = .launchReq d.toNat r.words r.list dom (t0.lclkOf t0.cur) t0.here.cr.tid) ∧
      (d ≠ 0 → RegRef.g d.toNat ∈ t.here.pend) ∧ (∀ q : Reg, t.rdG q = t0.rdG q) ∧ t.here.pc = t0.here.pc + 4 ∧ t.mem = t0.mem ∧ t.parts = t0.parts)

/-- R221 and R224. That XPUSH checks DST and TABLE by steps 1 and 2 of R154 alone, in `copyBadField`, is log 36: the model's reading of R221, which another could deny. -/
def Obligations.CopiesAreSubmittedAndAsked : Prop :=
  ∀ (s : State) (d a : Reg) (off : Nat) (x : CopyRec),
    let addr := s.rdG a
    let core := s.homeCore
    let k := s.core core
    let b := (List.range 8).map fun i => BitVec.ofNat 64 (s.mem.readNat (lmAddr core (off + 8 * i)) 8)
    let id := BitVec.ofNat 64 ((b.getD 3 0).toNat / 2 ^ 16 % 2 ^ 16 + k.xseq.toNat * 2 ^ 16 + core * 2 ^ 24 + numberOf s.cur * 2 ^ 44)
    (s.Idle → placeOf core addr = .lm core off → addr.toNat % 64 = 0 → off < k.scratchEnd → s.poisoned (lmAddr core off) 64 = false →
      s.copyBadField s.here.partNo core b = none → b.getD 2 0 = 0 → s.queueRoom core = true → k.copyBusy k.xseq.toNat = false →
      Completes (.xpush d a) s fun t =>
        (∀ r : Reg, t.rdG r = if r = d ∧ r ≠ 0 then id else s.rdG r) ∧ t.here.pc = s.here.pc + 4 ∧ t.mem = s.mem ∧ SameNet s t ∧ OthersAsBefore s t ∧
        (t.core core).xseq = k.xseq + 1 ∧ (∀ i, i ≠ core → t.core i = s.core i) ∧
        ∃ y, (t.core core).copies.get k.xseq.toNat = some y ∧ y.id = id ∧ y.block = b ∧ y.status = 1 ∧ y.tid = s.here.cr.tid ∧ y.ctx = s.cur ∧
          y.launch = s.here.launch ∧ y.part = s.here.partNo ∧ y.domain = s.here.accessDomain ∧ y.lclk = s.clock ∧ (t.core core).copyEntries = k.copyEntries ++ [(id, s.here.uid)]) ∧
    (s.detHere = false →
      (k.copies.get (addr.toNat / 2 ^ 16 % 256) = none → Completes (.xstat d a) s (WritesG s false d 0 (s.here.pc + 4))) ∧
      (k.copies.get (addr.toNat / 2 ^ 16 % 256) = some x →
        (x.id ≠ addr ∨ x.tid ≠ s.here.cr.tid → Completes (.xstat d a) s (WritesG s false d 0 (s.here.pc + 4))) ∧
        (x.id = addr → x.tid = s.here.cr.tid → x.status ≠ 4 → Completes (.xstat d a) s (WritesG s false d (BitVec.ofNat 64 x.status) (s.here.pc + 4))) ∧
        (x.id = addr → x.tid = s.here.cr.tid → x.status = 4 → Completes (.xstat d a) s
          (WritesCr s d 4 { s.here.cr with lclk := maxStamp s.clock x.w }))))

/-- R279, R293 and R294; R288, R296 and R297: the submission. The rings and sources are read at dispatch (R289). -/
def Obligations.EngineInstructions : Prop :=
  (∀ (s : State) (d a : Reg) (e : BitVec 4) (c : BitVec 2),
     let core := s.homeCore
     let k := s.core core
     let x := s.rdG a
     let w := ((k.jobStatus.find? fun y => y.1 == x.toNat).map Prod.snd).getD 0
     let code := w.toNat % 16
     (k.jobs = [] →
       Completes (.ewr a e) s fun t => OthersAsBefore s t ∧ RetiresAs s s.here t ∧ OnlyCore s core
         (if e.toNat < 4 then { k with scales := k.scales.set e.toNat x }
           else if e.toNat < 8 ∧ x.toNat % 4 ≠ 3 then { k with kinds := k.kinds.set (e.toNat - 4) (x.setWidth 2) } else k) t) ∧
     (k.jobs = [] → Completes (.erd d e) s (WritesG s false d
       (if e.toNat < 4 then k.scales.getD e.toNat 0x3F8000003F800000 else if e.toNat < 8 then (k.kinds.getD (e.toNat - 4) 0).zeroExtend 64
         else if e = 8 then k.eseq.zeroExtend 64 else if e = 9 then k.last.zeroExtend 64 else 0) (s.here.pc + 4))) ∧
     (s.inHandler = false → code = 1 ∨ code = 2 → Completes (.jwait d a) s fun t =>
       OnlyHere s t ∧ t.here = { s.here with st := .waiting, wait := .jwait x.toNat d.toNat }) ∧
     (s.inHandler = false → code ≠ 1 → code ≠ 2 → Completes (.jwait d a) s
       (WritesCr s d w (if 3 ≤ code then { s.here.cr with jobst := w } else s.here.cr))) ∧
     (s.detHere = false → Completes (.jpoll d a) s (WritesCr s d w (if 3 ≤ code then { s.here.cr with jobst := w } else s.here.cr))) ∧
     (s.queueRoom core = true → Completes (.mzero c) s fun t => OthersAsBefore s t ∧ RetiresAs s s.here t ∧
       SameNet s t ∧ ∃ j : Job, OnlyCore { s with net := t.net } core { k with jobs := k.jobs ++ [j] } t ∧ j.id = none ∧ j.kind = .mzero c.toNat ∧ j.running = false ∧ j.ctx = s.cur)) ∧
  (∀ (s : State) (d a b : Reg) (p : BitVec 4) (f : BitVec 5) (c : BitVec 2) (q : BitVec 3) (core' off : Nat),
     let core := s.homeCore
     let k := s.core core
     let x := s.rdG a
     let opts := s.rdG b
     let id := core % 8 * 2 ^ 13 + k.eseq.toNat
     let field (w : Word) (lo n : Nat) : Nat := w.toNat / 2 ^ lo % 2 ^ n
     let queued (i : Instr) (kind : JobKind) : Prop := Completes i s fun t =>
       (∀ r : Reg, t.rdG r = if r = d ∧ r ≠ 0 then BitVec.ofNat 64 id else s.rdG r) ∧ t.here.pc = s.here.pc + 4 ∧ t.mem = s.mem ∧ SameNet s t ∧
       OthersAsBefore s t ∧ (∀ i, i ≠ core → t.core i = s.core i) ∧
       ∃ j, t.core core = { k with eseq := k.eseq + 1, jobs := k.jobs ++ [j], jobStatus := ((id, BitVec.ofNat 64 (id * 2 ^ 16 + 1)) :: k.jobStatus).take 256 } ∧
         j.id = some id ∧ j.kind = kind ∧ j.running = false ∧ j.ctx = s.cur ∧ j.launch = s.here.launch ∧ j.part = s.here.partNo
     s.Idle → s.queueRoom core = true →
     (∀ op sparse, (op, sparse) ∈ [(Instr.mma, false), (Instr.mmasp, true)] → s.hasReg f →
       field x 15 49 = 0 → 1 ≤ field x 8 7 → field x 8 7 ≤ 64 → field x 0 3 ≠ field x 3 3 → field opts 3 61 = 0 →
       k.ringHolds (field x 0 3) (panelNeed sparse (pairElems p.toNat).1) = true → k.ringHolds (field x 3 3) (panelNeed sparse (pairElems p.toNat).2) = true →
       queued (op d a b p f) (.mma sparse p.toNat x opts (s.rdF f))) ∧
     (∀ fmt size, mstFormat (field opts 0 8) = some (fmt, size) → field opts 32 32 = 0 → field opts 8 8 = 0 → field opts 16 16 % 8 = 0 →
       16 * size ≤ field opts 16 16 → x.toNat % 8 = 0 → s.clusterScratch x (15 * field opts 16 16 + 16 * size) = some (core', off) →
       queued (.mst d a b c) (.mst (BitVec.ofNat 64 (lmAddr core' off)) opts c.toNat)) ∧
     (field opts 32 32 = 0 → field opts 5 3 = 0 → field opts 16 16 % 8 = 0 → field opts 8 8 % 4 = 0 → k.ringHolds q.toNat 1024 = true → x.toNat % 8 = 0 →
       let os := mldtOffsets opts
       let lo := os.foldl Nat.min (os.headD 0)
       s.clusterScratch (x + BitVec.ofNat 64 lo) (os.foldl Nat.max 0 + 2 - lo) = some (core', off) →
       queued (.mldt d a b q) (.mldt (BitVec.ofNat 64 (lmAddr core' off - lo)) opts q.toNat)))
/-- R265 lane by lane, with R262's masking; the list is in the order of the minors. `sg` reads a lane as signed, `wr` takes an integer modulo 2^w, `cl` clamps. -/
def Obligations.VectorIntegerOperations : Prop :=
  ∀ (s : State) (d a b : Reg) (k : BitVec 3) (r : BitVec 2) (op : Reg → Reg → Reg → BitVec 3 → BitVec 2 → Instr) (f : Nat → Nat → Nat) (fn : Nat),
    let w := 8 * 2 ^ r.toNat
    let sg (x : Nat) : Int := if x < 2 ^ (w - 1) then (x : Int) else (x : Int) - (2 ^ w : Nat)
    let wr (x : Int) : Nat := (x % (2 ^ w : Nat)).toNat
    let cl (lo hi x : Int) : Nat := wr (max lo (min hi x))
    let top : Int := (2 ^ (w - 1) : Nat)
    let at_ (x : Quad) (i : Nat) : Nat := x.toNat / 2 ^ (i * w) % 2 ^ w
    let table : List ((Reg → Reg → Reg → BitVec 3 → BitVec 2 → Instr) × (Nat → Nat → Nat)) := [
      (Instr.vadd, fun (p q : Nat) => (p + q) % 2 ^ w), (Instr.vsub, fun (p q : Nat) => wr ((p : Int) - q)), (Instr.vmul, fun (p q : Nat) => p * q % 2 ^ w),
      (Instr.vmulh, fun (p q : Nat) => wr (sg p * sg q / (2 ^ w : Nat))), (Instr.vmulhu, fun (p q : Nat) => p * q / 2 ^ w),
      (Instr.vand, fun (p q : Nat) => p &&& q), (Instr.vor, fun (p q : Nat) => p ||| q), (Instr.vxor, fun (p q : Nat) => p ^^^ q),
      (Instr.vsll, fun (p q : Nat) => p * 2 ^ (q % w) % 2 ^ w), (Instr.vsrl, fun (p q : Nat) => p / 2 ^ (q % w)),
      (Instr.vsra, fun (p q : Nat) => wr (sg p / (2 ^ (q % w) : Nat))),
      (Instr.vmin, fun (p q : Nat) => wr (min (sg p) (sg q))), (Instr.vmax, fun (p q : Nat) => wr (max (sg p) (sg q))),
      (Instr.vminu, fun (p q : Nat) => min p q), (Instr.vmaxu, fun (p q : Nat) => max p q),
      (Instr.vadds, fun (p q : Nat) => cl (-top) (top - 1) (sg p + sg q)), (Instr.vsubs, fun (p q : Nat) => cl (-top) (top - 1) (sg p - sg q)),
      (Instr.vaddus, fun (p q : Nat) => min (p + q) (2 ^ w - 1)), (Instr.vsubus, fun (p q : Nat) => p - q)]
    table[fn]? = some (op, f) →
    decode (0x39 * 2 ^ 26 + d.toNat * 2 ^ 21 + a.toNat * 2 ^ 16 + b.toNat * 2 ^ 11 + k.toNat * 2 ^ 8 + r.toNat * 2 ^ 5 + fn) = some (op d a b k r) ∧
    (s.hasReg d → s.hasReg a → s.hasReg b →
      ∃ v, Completes (op d a b k r) s (WritesV s d v 0) ∧
        ∀ i, i < 128 / w → at_ v i = if (s.rdK k.toNat).getLsbD i then f (at_ (s.rdV a) i) (at_ (s.rdV b) i) else at_ (s.rdV d) i)

/-- R266 and R267, with the mask operations of R268; words that name k0 as a destination, or a k register above 7, do not decode (R277). -/
def Obligations.VectorComparesMovesAndSums : Prop :=
  (∀ (s : State) (d a b : Reg) (k : BitVec 3) (r : BitVec 2),
     let w := 8 * 2 ^ r.toNat
     let sg (x : Nat) : Int := if x < 2 ^ (w - 1) then (x : Int) else (x : Int) - (2 ^ w : Nat)
     let at_ (x : Quad) (i : Nat) : Nat := x.toNat / 2 ^ (i * w) % 2 ^ w
     let isK (x : Reg) : Prop := 1 ≤ x.toNat ∧ x.toNat ≤ 7
     (∀ (op : Reg → Reg → Reg → BitVec 3 → BitVec 2 → Instr) (f : Nat → Nat → Bool),
       (op, f) ∈ [(Instr.vcmpeq, fun (p q : Nat) => decide (p = q)), (Instr.vcmplt, fun (p q : Nat) => decide (sg p < sg q)), (Instr.vcmpltu, fun (p q : Nat) => decide (p < q))] →
       isK d → s.hasReg a → s.hasReg b →
       ∃ m, Completes (op d a b k r) s (WritesK s d.toNat m 0) ∧
         ∀ i, i < 16 → m.getLsbD i = (decide (i < 128 / w) && (s.rdK k.toNat).getLsbD i && f (at_ (s.rdV a) i) (at_ (s.rdV b) i))) ∧
     (isK d → a.toNat ≤ 7 → b.toNat ≤ 7 → Completes (.kand d a b) s (WritesK s d.toNat (s.rdK a.toNat &&& s.rdK b.toNat) 0)) ∧
     (isK d → a.toNat ≤ 7 → b.toNat ≤ 7 → Completes (.kor d a b) s (WritesK s d.toNat (s.rdK a.toNat ||| s.rdK b.toNat) 0)) ∧
     (isK d → a.toNat ≤ 7 → b.toNat ≤ 7 → Completes (.kxor d a b) s (WritesK s d.toNat (s.rdK a.toNat ^^^ s.rdK b.toNat) 0)) ∧
     (isK d → a.toNat ≤ 7 → b.toNat ≤ 7 → Completes (.kandn d a b) s (WritesK s d.toNat (s.rdK a.toNat &&& ~~~(s.rdK b.toNat)) 0)) ∧
     (isK d → Completes (.kmovg d a) s (WritesK s d.toNat ((s.rdG a).setWidth 16) 0)) ∧
     (a.toNat ≤ 7 → Completes (.gmovk d a) s (WritesG s false d ((s.rdK a.toNat).zeroExtend 64) (s.here.pc + 4)))) ∧
  (∀ (s : State) (d a b : Reg) (k : BitVec 3) (r : BitVec 2) (h : BitVec 1),
     let w := 8 * 2 ^ r.toNat
     let n := 128 / w
     let sgn (e x : Nat) : Int := if x < 2 ^ (e - 1) then (x : Int) else (x : Int) - (2 ^ e : Nat)
     let at_ (e : Nat) (x : Quad) (i : Nat) : Nat := x.toNat / 2 ^ (i * e) % 2 ^ e
     let on (i : Nat) : Bool := (s.rdK k.toNat).getLsbD i
     let x := s.rdV a
     let y := s.rdV b
     let j := (s.rdG b).toNat % n
     let e := if h = 0 then 8 else 16
     let c := 32 / e
     (s.hasReg d → s.hasReg a → s.hasReg b →
       (∃ v, Completes (.vsel d a b k r) s (WritesV s d v 0) ∧ ∀ i, i < n → at_ w v i = if on i then at_ w x i else at_ w y i) ∧
       (∃ v, Completes (.vperm d a b k r) s (WritesV s d v 0) ∧ ∀ i, i < n → at_ w v i = if on i then at_ w x (at_ w y i % n) else at_ w (s.rdV d) i) ∧
       (∃ v, Completes (.vdot d a b k h) s (WritesV s d v 0) ∧ ∀ i, i < 4 → at_ 32 v i = if on i then
         ((sgn 32 (at_ 32 (s.rdV d) i) + ((List.range c).map fun m => sgn e (at_ e x (c * i + m)) * sgn e (at_ e y (c * i + m))).sum) % (2 ^ 32 : Int)).toNat
         else at_ 32 (s.rdV d) i)) ∧
     (s.hasReg d →
       (∃ v, Completes (.vsplat d a k r) s (WritesV s d v 0) ∧ ∀ i, i < n → at_ w v i = if on i then (s.rdG a).toNat % 2 ^ w else at_ w (s.rdV d) i) ∧
       (∃ v, Completes (.vins d a b r) s (WritesV s d v 0) ∧ ∀ i, i < n → at_ w v i = if i = j then (s.rdG a).toNat % 2 ^ w else at_ w (s.rdV d) i)) ∧
     (s.hasReg a →
       Completes (.vext d a b r) s (WritesG s false d (BitVec.ofInt 64 (sgn w (at_ w x j))) (s.here.pc + 4)) ∧
       Completes (.vred d a k r) s (WritesG s false d
         (BitVec.ofInt 64 (sgn w (((List.range n).map fun i => if on i then at_ w x i else 0).sum % 2 ^ w))) (s.here.pc + 4))))
/-- R269 and R272 over R240 and R241. The value of each operation is that of its function of `Machine/Float.lean`;
`RoundingIsExactOnValues` and `FloatingSpecialCases` say what those give. -/
def Obligations.ScalarFloatingArithmetic : Prop :=
  ∀ (s : State) (d a b : Reg) (p : BitVec 1) (m : BitVec 3),
    let t := precisionOf p
    let mode := roundingOf m s.here.cr.frm
    let x (t : FloatFmt) (r : Reg) : Nat := unboxed t (s.rdF r)
    let gives (i : Instr) (w : Bool) (t : FloatFmt) (r : Rounded) : Prop :=
      (r.2 &&& s.here.cr.ftrapen = 0 → Completes i s (WritesF s w d (BitVec.ofNat 64 (2 ^ 64 - 2 ^ t.width + r.1 % 2 ^ t.width)) r.2)) ∧
      (r.2 &&& s.here.cr.ftrapen ≠ 0 → s.CanTrap → Completes i s
        (TakesTrap (s.orFlags r.2) 7 s.here.pc (BitVec.ofNat 64 (r.2.toNat + 256)) s.here.pc))
    s.hasReg d → s.hasReg a → s.hasReg b →
    gives (.fadd d a b p m) false t (fpAdd t mode (x t a) (x t b)) ∧
    gives (.fsub d a b p m) false t (fpSub t mode (x t a) (x t b)) ∧
    gives (.fmul d a b p m) false t (fpMul t mode (x t a) (x t b)) ∧
    gives (.fdivS d a b m) false .f32 (fpDiv .f32 mode (x .f32 a) (x .f32 b)) ∧
    gives (.fsqrtS d a m) false .f32 (fpSqrt .f32 mode (x .f32 a)) ∧
    gives (.fmin d a b p) false t (fpMinMax t false (x t a) (x t b)) ∧
    gives (.fmax d a b p) false t (fpMinMax t true (x t a) (x t b)) ∧
    gives (.fma d a b p m) false t (fpFma t mode false false (x t a) (x t b) (x t d)) ∧
    gives (.fms d a b p m) false t (fpFma t mode false true (x t a) (x t b) (x t d)) ∧
    gives (.fnma d a b p m) false t (fpFma t mode true false (x t a) (x t b) (x t d)) ∧
    gives (.fnms d a b p m) false t (fpFma t mode true true (x t a) (x t b) (x t d)) ∧
    (isWCore s.execCore = true →
      gives (.fdivD d a b m) true .f64 (fpDiv .f64 mode (x .f64 a) (x .f64 b)) ∧
      gives (.fsqrtD d a m) true .f64 (fpSqrt .f64 mode (x .f64 a)))

/-- R270 and R235. `n` is the sign bit's place of the precision, `frac` the width of its fraction; the NaN cases of the relations, their order and the ten classes are written out by the fields of the operands. -/
def Obligations.ScalarFloatingComparesAndMoves : Prop :=
  ∀ (s : State) (d a b : Reg) (p : BitVec 1),
    let t := precisionOf p
    let n := if p = 0 then 63 else 31
    let x := unboxed t (s.rdF a)
    let y := unboxed t (s.rdF b)
    let frac := if p = 0 then 52 else 23
    let ones := if p = 0 then 2047 else 255
    let mag (v : Nat) : Nat := v % 2 ^ n
    let nan (v : Nat) : Prop := ones * 2 ^ frac < mag v
    let sig (v : Nat) : Prop := nan v ∧ mag v % 2 ^ frac < 2 ^ (frac - 1)
    let neg (v : Nat) : Bool := v.testBit n
    let key (v : Nat) : Int := if neg v then -(mag v : Int) else (mag v : Int)
    let cls (v : Nat) (k : Nat) : Prop :=
      (k = 0 ∧ mag v = ones * 2 ^ frac ∧ neg v = true) ∨ (k = 1 ∧ 2 ^ frac ≤ mag v ∧ mag v < ones * 2 ^ frac ∧ neg v = true) ∨
      (k = 2 ∧ 0 < mag v ∧ mag v < 2 ^ frac ∧ neg v = true) ∨ (k = 3 ∧ mag v = 0 ∧ neg v = true) ∨ (k = 4 ∧ mag v = 0 ∧ neg v = false) ∨
      (k = 5 ∧ 0 < mag v ∧ mag v < 2 ^ frac ∧ neg v = false) ∨ (k = 6 ∧ 2 ^ frac ≤ mag v ∧ mag v < ones * 2 ^ frac ∧ neg v = false) ∨
      (k = 7 ∧ mag v = ones * 2 ^ frac ∧ neg v = false) ∨ (k = 8 ∧ sig v) ∨ (k = 9 ∧ nan v ∧ ¬sig v)
    let fa := (s.rdF a).toNat
    let fb := (s.rdF b).toNat
    let box (v : Nat) : Word := BitVec.ofNat 64 (2 ^ 64 - 2 ^ (n + 1) + v)
    let signed (sign : Bool) : Word := box (fa % 2 ^ n + if sign then 2 ^ n else 0)
    (s.hasReg a → s.hasReg b →
      (∀ (i : Instr) (quiet : Bool) (holds : Prop),
        (i = .feq d a b p ∧ quiet = true ∧ (holds ↔ key x = key y)) ∨ (i = .flt d a b p ∧ quiet = false ∧ (holds ↔ key x < key y)) ∨
          (i = .fle d a b p ∧ quiet = false ∧ (holds ↔ key x ≤ key y)) →
        (nan x ∨ nan y → ∀ flags : BitVec 5, (quiet = true → ¬sig x → ¬sig y → flags = 0) → (quiet = false ∨ sig x ∨ sig y → flags = 16) →
          flags &&& s.here.cr.ftrapen = 0 → Completes i s (WritesGFlags s d 0 flags)) ∧
        (¬nan x → ¬nan y → (holds → Completes i s (WritesGFlags s d 1 0)) ∧ (¬holds → Completes i s (WritesGFlags s d 0 0)))) ∧
      (∀ k, cls x k → Completes (.fclass d a p) s (WritesG s false d (BitVec.ofNat 64 (2 ^ k)) (s.here.pc + 4))) ∧
      Completes (.fmvgf d a p) s (WritesG s false d (BitVec.ofNat 64 (fa % 2 ^ (n + 1))) (s.here.pc + 4))) ∧
    (s.hasReg d → s.hasReg a → s.hasReg b →
      Completes (.fsgnj d a b p) s (WritesF s false d (signed (fb.testBit n)) 0) ∧
      Completes (.fsgnjn d a b p) s (WritesF s false d (signed (!fb.testBit n)) 0) ∧
      Completes (.fsgnjx d a b p) s (WritesF s false d (signed (fa.testBit n != fb.testBit n)) 0)) ∧
    (s.hasReg d → Completes (.fmvfg d a p) s (WritesF s false d (box ((s.rdG a).toNat % 2 ^ (n + 1))) 0))

/-- R244, R273 and R274. The free value is the model's own (log 9): the statement holds whatever it is. -/
def Obligations.FunctionsChecksumAndConversion : Prop :=
  ∀ (s : State) (d a b : Reg) (p : BitVec 1) (m : BitVec 3) (src dst : BitVec 5),
    let t := precisionOf p
    let mode := roundingOf m s.here.cr.frm
    let x := unboxed t (s.rdF a)
    let free : Word := Config.freeValue s.free
    let fl : BitVec 5 := 1 ||| ((Config.freeValue (s.free + 1)).setWidth 5 &&& 6)
    (isWCore s.execCore = true → s.hasReg d → s.hasReg a →
      ∀ (op : Reg → Reg → BitVec 1 → BitVec 3 → Instr) (fn : FloatFmt → Rounding → Nat → Option Rounded),
        (op, fn) ∈ [(Instr.fexp, fpExp), (Instr.flog, fpLog), (Instr.ferf, fpErf)] →
        (∀ r, fn t mode x = some r → r.2 &&& s.here.cr.ftrapen = 0 → Completes (op d a p m) s (WritesF s true d (boxed t r.1) r.2)) ∧
        (fn t mode x = none → s.here.cr.ftrapen = 0 → Completes (op d a p m) s (WritesF { s with free := s.free + 2 } true d (boxed t free.toNat) fl))) ∧
    (isWCore s.execCore = true → s.hasReg b →
      Completes (.vcrc d a b) s (WritesG s true d ((crcBytes 16 (s.rdV b).toNat ((s.rdG a).setWidth 32)).zeroExtend 64) (s.here.pc + 4))) ∧
    (∀ r, r = convert (convFmt dst) (convFmt src) mode (s.rdConv (convFmt src) a) →
      (intCode dst = false → s.hasReg d) → (intCode src = false → s.hasReg a) → r.2 &&& s.here.cr.ftrapen = 0 →
      (∀ sg w, convFmt dst = .int sg w → intCode dst = true → Completes (.fcvt d a src m dst) s
        (WritesGFlags s d (BitVec.ofInt 64 (intValue sg w r.1)) r.2)) ∧
      (∀ u, convFmt dst = .float u → intCode dst = false → Completes (.fcvt d a src m dst) s (WritesF s false d (boxed u r.1) r.2)) ∧
      (convFmt dst = .scale → intCode dst = false → Completes (.fcvt d a src m dst) s (WritesF s false d (BitVec.ofNat 64 (2 ^ 64 - 256 + r.1)) r.2)))

/-- R275, R274's VCVT, R257 and R276. -/
def Obligations.VectorFloatingOperations : Prop :=
  ∀ (s : State) (d a b : Reg) (k m : BitVec 3) (c : BitVec 2) (rel : BitVec 2) (src dst : BitVec 5),
    let t := vectorFmt c
    let w := t.width
    let n := 128 / w
    let mode := roundingOf m s.here.cr.frm
    let at_ (e : Nat) (x : Quad) (i : Nat) : Nat := x.toNat / 2 ^ (i * e) % 2 ^ e
    let on (i : Nat) : Bool := (s.rdK k.toNat).getLsbD i
    let x (i : Nat) : Nat := at_ w (s.rdV a) i
    let y (i : Nat) : Nat := at_ w (s.rdV b) i
    let z (i : Nat) : Nat := at_ w (s.rdV d) i
    let flagsOf (n : Nat) (r : Nat → BitVec 5) : BitVec 5 := ((List.range n).map fun i => if on i then r i else 0).foldl (· ||| ·) 0
    s.hasReg d → s.hasReg a → s.hasReg b →
    (∀ (i : Instr) (r : Nat → Rounded),
      (i, r) ∈ [(Instr.vfadd d a b k m c, fun j => fpAdd t mode (x j) (y j)), (Instr.vfsub d a b k m c, fun j => fpSub t mode (x j) (y j)),
        (Instr.vfmul d a b k m c, fun j => fpMul t mode (x j) (y j)), (Instr.vfma d a b k m c, fun j => fpFma t mode false false (x j) (y j) (z j)),
        (Instr.vfnma d a b k m c, fun j => fpFma t mode true false (x j) (y j) (z j)),
        (Instr.vfmin d a b k c, fun j => fpMinMax t false (x j) (y j)), (Instr.vfmax d a b k c, fun j => fpMinMax t true (x j) (y j))] →
      flagsOf n (fun j => (r j).2) &&& s.here.cr.ftrapen = 0 →
      ∃ v, Completes i s (WritesV s d v (flagsOf n fun j => (r j).2)) ∧ ∀ j, j < n → at_ w v j = if on j then (r j).1 % 2 ^ w else z j) ∧
    (let r (j : Nat) : Bool × BitVec 5 := fpCompare t rel.toNat (x j) (y j);
      flagsOf n (fun j => (r j).2) &&& s.here.cr.ftrapen = 0 →
      1 ≤ d.toNat → d.toNat ≤ 7 → ∃ b', Completes (.vfcmp d a b k rel c) s (WritesK s d.toNat b' (flagsOf n fun j => (r j).2)) ∧
        ∀ j, j < 16 → b'.getLsbD j = (decide (j < n) && on j && (r j).1)) ∧
    (let cs := convFmt src
      let cd := convFmt dst
      let l := 128 / max cs.lane cd.lane
      let r (j : Nat) := convert cd cs mode (at_ cs.lane (s.rdV a) j % 2 ^ cs.width)
      flagsOf l (fun j => (r j).2) &&& s.here.cr.ftrapen = 0 →
      ∃ v, Completes (.vcvt d a src k m dst) s (WritesV s d v (flagsOf l fun j => (r j).2)) ∧
        (∀ j, j < l → at_ cd.lane v j = if on j then (r j).1 % 2 ^ cd.lane else at_ cd.lane (s.rdV d) j) ∧ v.toNat < 2 ^ (l * cd.lane)) ∧
    (∀ (i : Instr) (neutral : Nat) (f : Nat → Nat → Rounded),
      (i, neutral, f) ∈ [(Instr.vfredSum d a k m c, t.signBit, fpAdd t mode), (Instr.vfredMin d a k c, t.infinity, fpMinMax t false),
        (Instr.vfredMax d a k c, t.signBit + t.infinity, fpMinMax t true)] →
      let r := reduceTree f (Nat.log2 n) ((List.range n).map fun j => (if on j then x j else neutral, 0))
      r.2 &&& s.here.cr.ftrapen = 0 → Completes i s (WritesF s false d (boxed t r.1) r.2))

/-- R234 and R235, over the functions of `Machine/Float.lean`. Operands are encodings of the format. -/
def Obligations.FloatingSpecialCases : Prop :=
  ∀ (t : FloatFmt), t ∈ [FloatFmt.f64, .f32, .f16, .bf16] → ∀ (mode : Rounding) (a b d : Nat),
    a < 2 ^ t.width → b < 2 ^ t.width → d < 2 ^ t.width →
    let quietBit := 2 ^ (t.frac - 1)
    let quieted (x : Nat) : Nat := x ||| quietBit
    let nv (xs : List Nat) : BitVec 5 := if xs.any (isSignalling t) then 16 else 0
    let bad : Rounded := (t.infinity + quietBit, 16)
    (∀ f, f ∈ [fpAdd t mode, fpSub t mode, fpMul t mode, fpDiv t mode] →
      (isNaN t a = true → f a b = (quieted a, nv [a, b])) ∧
      (isNaN t a = false → isNaN t b = true → f a b = (quieted b, nv [a, b]))) ∧
    (isNaN t a = true → fpSqrt t mode a = (quieted a, nv [a])) ∧
    (∀ np nd,
      (isNaN t a = true → fpFma t mode np nd a b d = (quieted a, nv [a, b, d])) ∧
      (isNaN t a = false → isNaN t b = true → fpFma t mode np nd a b d = (quieted b, nv [a, b, d])) ∧
      (isNaN t a = false → isNaN t b = false → isNaN t d = true →
        (∀ n n' e, ¬(unpack t a = .inf n ∧ unpack t b = .fin n' 0 e) ∧ ¬(unpack t a = .fin n' 0 e ∧ unpack t b = .inf n)) →
        fpFma t mode np nd a b d = (quieted d, nv [a, b, d])) ∧
      (∀ n n' e, unpack t a = .inf n → unpack t b = .fin n' 0 e →
        let r : Rounded := if isNaN t d then (quieted d, 16) else bad
        fpFma t mode np nd a b d = r ∧ fpFma t mode np nd b a d = r) ∧
      (∀ n n' n'', unpack t a = .inf n → unpack t b = .inf n' → unpack t d = .inf n'' → (n'' != nd) ≠ ((n != n') != np) →
        fpFma t mode np nd a b d = bad)) ∧
    (unpack t a = .inf false → unpack t b = .inf true → fpAdd t mode a b = bad ∧ fpAdd t mode b a = bad) ∧
    (∀ n n' e, unpack t a = .inf n → unpack t b = .fin n' 0 e → fpMul t mode a b = bad ∧ fpMul t mode b a = bad) ∧
    (∀ n n' e e', unpack t a = .fin n 0 e → unpack t b = .fin n' 0 e' → fpDiv t mode a b = bad) ∧
    (∀ n n', unpack t a = .inf n → unpack t b = .inf n' → fpDiv t mode a b = bad) ∧
    (∀ n n' m e e', unpack t a = .fin n m e → m ≠ 0 → unpack t b = .fin n' 0 e' →
      fpDiv t mode a b = ((if n = n' then 0 else t.signBit) + t.infinity, 8)) ∧
    (∀ m e, unpack t a = .fin true m e → m ≠ 0 → fpSqrt t mode a = bad) ∧ (unpack t a = .inf true → fpSqrt t mode a = bad) ∧
    (∀ mx, isNaN t a = true → isNaN t b = false → fpMinMax t mx a b = (b, nv [a, b]) ∧ fpMinMax t mx b a = (b, nv [a, b])) ∧
    (∀ mx, isNaN t a = true → isNaN t b = true → fpMinMax t mx a b = (t.infinity + quietBit, nv [a, b]))

/-- R236: the exact result rounded once, on exact results; R237. -/
def Obligations.RoundingIsExactOnValues : Prop :=
  ∀ (t : FloatFmt) (mode : Rounding),
    (∀ x neg m e, x < 2 ^ t.width → unpack t x = .fin neg m e → m ≠ 0 → roundTo t mode neg m e = (x, 0)) ∧
    (∀ (neg : Bool) (k : Nat), t ∈ [FloatFmt.f64, .f32, .f16, .bf16, .e5m2] → t.bias < k →
      roundTo t mode neg 1 k = ((if neg then t.signBit else 0) +
        (match mode with
          | .rne => t.infinity
          | .rna => t.infinity
          | .rtz => t.largest
          | .rdn => if neg then t.infinity else t.largest
          | .rup => if neg then t.largest else t.infinity), 5))
/-- R98: where a load performs, and what its answer does. `s1` is the state once the access has reached its home: a host line that another virtual address reached last has moved (R331). Which
regions are read-only, `ro`, is log 19; a stale plshared reply is log 62; a late load of LM is log 7: the model's choices. -/
def Obligations.LoadsAreAnswered : Prop :=
  (∀ (s s1 : State) (n : Nat) (f : Flight) (q : LoadReq) (c : Stamp) (passed sl : Nat) (host : Option Nat),
    let x := s1.sector sl f.part q.addr
    let attr := homeAttr host q.attr
    let die := homeDie sl host
    let lf := s.lf f.part die
    let ro := q.ro && !(s1.writable f.part q.addr)
    s.Carries n f (.load q) → s.mayLoad n f q = true → s.clockOk f q c = true →
    (s.takesDew f q = false ∨ ∀ r ∈ (s.pathOf f q.rc q.addr).drop q.hop, s.dewHit f q c r = none) → (s.pathOf f q.rc q.addr).length ≤ passed →
    s.isDet f.part = false → s.atHome f.part q.addr false (some f.sentAt) = (.ready sl host, s1) → s.mayGrant sl (s1.grant die f.part attr ro true c x).sec.rts = true →
    Completes (.homeLoad n c passed) s fun t => t.mem = s1.mem ∧ t.ctxs = s.ctxs ∧ t.cores = s.cores ∧ ∃ (v : SecCopy) (give : Bool),
      Answered s n f (.loadReply { q with c := c } (.copy v true (s.pathOf f q.rc q.addr).length give)) t ∧
      v.data = BitVec.ofNat 512 (s1.mem.readNat (sectorOf q.addr) 64) ∧ v.wts = x.wts ∧
      (attr = attrUncached → v.rts = maxStamp x.rts c ∧ give = false) ∧
      (attr = attrPlshared → v.rts = maxStamp x.rts c ∧ give = (s.die die).locked ∧ v.expiry = if give then some (s.gtrOf die + 32000) else none) ∧
      (attr ≤ 1 → give = true ∧ v.expiry = none ∧ v.rts =
        if ro then maxStamp (maxStamp x.rts (lf + 2 ^ 31)) c
        else if later c x.rts then minStamp (maxStamp c lf + BitVec.ofNat 40 (8 * 2 ^ x.level)) (lf + 2 ^ 32) else x.rts)) ∧
  (∀ (s : State) (n : Nat) (f : Flight) (q : LoadReq) (c : Stamp) (x : SecCopy),
    let own := if mayCache q.attr q.hint && q.fmt != .lease && s.alive f then (s.core (coreOf f.ctx)).copy? f.part q.addr else none
    let path := s.pathOf f q.rc q.addr
    s.Carries n f (.load q) → s.mayLoad n f q = true → s.clockOk f q c = true →
    (∀ passed, q.hop < passed → passed < path.length → (∀ r ∈ (path.take passed).drop q.hop, s.dewHit f q c r = none) →
      exec (.homeLoad n c passed) s = .next (s.putFlight n { f with kind := .load { q with hop := passed, c := c } })) ∧
    (own = some x → s.ownHit f.ctx c x = true → Completes (.dewAnswer n c) s (Answered s n f (.loadReply { q with c := c } (.copy x false 0 false)))) ∧
    (∀ i r, own = none → s.takesDew f q = true → q.hop ≤ i → path[i]? = some r → s.dewHit f q c r = some x →
        (∀ j p, q.hop ≤ j → j < i → path[j]? = some p → s.dewHit f q c p = none) →
      Completes (.dewAnswer n c) s fun t => Answered s n f (.loadReply { q with c := c } (.copy x false i true)) t ∧ later c x.rts = false ∧ t.mem = s.mem ∧ t.ctxs = s.ctxs)) ∧
  (∀ (s : State) (n : Nat) (f : Flight) (q : LoadReq) (x : SecCopy) (atHome give : Bool) (hop : Nat),
    let d := f.ctx
    s.Carries n f (.loadReply q (.copy x atHome hop give)) → s.inOrder n = true → s.staleReply f x = false → s.alive f = true → q.fmt ≠ .pref → q.fmt ≠ .lease →
    x.poisonedAt q.addr q.fmt.size = false → (s.ctx d).st ≠ .faultWaiting → (∀ e ∈ (s.ctx d).spin, e.sector ≠ sectorOf q.addr) →
    Completes (.loadReply n) s fun t =>
      t.net.flights = ((s.dropFlight n).bumpLoads d f.uid (f.seq + 1) (sectorOf q.addr) 64 (maxStamp q.c x.wts)).net.flights ∧ t.mem = s.mem ∧ (∀ id, id ≠ d → t.ctx id = s.ctx id) ∧
      (t.ctx d).cr = { (s.ctx d).cr with lclk := maxStamp (s.lclkOf d) x.wts } ∧ (t.ctx d).pc = (s.ctx d).pc ∧
      (∃ c, c = (s.ctx d).deliver q.fmt q.d (x.bytes q.addr q.fmt.size) ∧ (t.ctx d).g = c.g ∧ (t.ctx d).f = c.f ∧ (t.ctx d).v = c.v) ∧
      (t.ctx d).pend = (s.ctx d).pend.filter fun r => some r ≠ q.fmt.target q.d) ∧
  (∀ (s : State) (n : Nat) (f : Flight) (fmt : LoadFmt) (d core off : Nat) (acq : Bool) (sc : Nat),
    let a := lmAddr core off
    s.Carries n f (.lmLoad fmt d a acq sc) → s.inOrder n = true → s.alive f = true → off < 0x6000 → s.poisoned a fmt.size = false → fmt ≠ .pref → fmt ≠ .lease →
    Completes (.loadReply n) s fun t =>
      t.net.flights = s.net.flights.eraseIdx n ∧ t.mem = s.mem ∧ (∀ id, id ≠ f.ctx → t.ctx id = s.ctx id) ∧ (t.ctx f.ctx).cr = (s.ctx f.ctx).cr ∧ (t.ctx f.ctx).pc = (s.ctx f.ctx).pc ∧
      (∃ c, c = (s.ctx f.ctx).deliver fmt d (s.mem.readNat a fmt.size) ∧ (t.ctx f.ctx).g = c.g ∧ (t.ctx f.ctx).f = c.f ∧ (t.ctx f.ctx).v = c.v) ∧
      (t.ctx f.ctx).pend = (s.ctx f.ctx).pend.filter fun r => some r ≠ fmt.target d) ∧
  (∀ (s : State) (n : Nat) (f : Flight) (q : LoadReq),
    let now := s.gtrOf (tileOf (coreOf f.ctx))
    (∀ (x : SecCopy) (atHome give : Bool) (hop : Nat), s.Carries n f (.loadReply q (.copy x atHome hop give)) → s.inOrder n = true → s.staleReply f x = true →
      exec (.loadReply n) s = .next (s.putFlight n { f with kind := .load { q with hop := 0 } })) ∧
    (s.Carries n f (.loadReply q .pageAbsent) → s.inOrder n = true → s.alive f = true → Completes (.loadReply n) s fun t =>
      t.ctx f.ctx = { s.ctx f.ctx with st := .faultWaiting, wait := .page q.addr, waitSent := now, unrecorded := false } ∧
      ∃ g : Flight, t.net.flights = s.net.flights.set n (t.stamped { f with kind := .load { q with fault := 1 } }) ++ [g] ∧ g.ctx = f.ctx ∧ g.uid = f.uid ∧
        g.kind = .wait (.page (pageOf q.addr)) (pageOf q.addr * 65536) 0 0 (.core (coreOf f.ctx)))) ∧
  (∀ (s : State) (n : Nat) (f : Flight) (q : LoadReq) (slot : Nat) (l : Launch),
    s.Carries n f (.loadReply q .noTranslation) → s.inOrder n = true → isXu f.ctx = false → f.launch = some slot → s.launch? f.part slot = some l →
    l.pendingAbort = none → Completes (.loadReply n) s fun t => ∃ (l' : Launch) (r : AbortRec), t.launch? f.part slot = some l' ∧ l'.st = .aborted ∧ l'.pendingAbort = some r ∧
      r.kind = 17 ∧ r.pc = 0 ∧ r.addr = BitVec.ofNat 64 q.addr)

/-- R100 and R158, in a partition that is not deterministic; `s1` is the state once the store has reached its home. -/
def Obligations.StoresPerformAtTheirHome : Prop :=
  (∀ (s s1 : State) (n : Nat) (f : Flight) (q : StoreReq) (sl : Nat) (host : Option Nat) (w : Stamp),
    s.Carries n f (.store q) → StoreReady s s1 f q sl host w →
    ((q.parked = false ∧ q.refused = false ∧ q.held = 0 ∧ s.inOrder n = true ∧ s.parkedBefore f.part q.addr = false ∧
        (isAgent f.ctx = false → s.writeBehind f.ctx f.uid f.seq q.addr = false) ∧ (q.rel = true → s.releaseHeld f q.sc = false)) →
      Completes (.homeStore n) s (StorePerforms s s1 f q sl host w)) ∧
    (q.held = 4 → s.parkedBehind n f.part q.addr = false → Completes (.homeStore n) s (StorePerforms s s1 f { q with held := 0 } sl host w)) ∧
    (q.held = 1 → Completes (.horizonWaitEnd n) s (StorePerforms s s1 f { q with held := 0 } sl host w)) ∧
    (q.held = 2 → Completes (.plsharedWriteRelease n) s (StorePerforms s s1 f { q with held := 0 } sl host w))) ∧
  (∀ (s s1 : State) (n : Nat) (f : Flight) (q : StoreReq) (sl : Nat) (host : Option Nat),
    let x := s1.sector sl f.part q.addr
    let w := maxStamp (if q.rel then maxStamp q.l (if s.alive f then s.lclkOf f.ctx else q.l) + 1 else q.l) (x.rts + 1)
    s.Carries n f (.store q) → s.atHome f.part q.addr true (some f.sentAt) = (.ready sl host, s1) → s.isDet f.part = false → s1.keptAnswer sl (coreOf f.ctx) f = none →
    s1.refusedBefore f q.addr = false →
    q.parked = false → q.refused = false → q.held = 0 → s.inOrder n = true → s.parkedBefore f.part q.addr = false →
    (isAgent f.ctx = false → s.writeBehind f.ctx f.uid f.seq q.addr = false) → (q.rel = true → s.releaseHeld f q.sc = false) →
    (s1.leased sl host f.part q.attr x = true → Completes (.homeStore n) s fun t => t.mem = s1.mem ∧ t.ctxs = s.ctxs ∧
      t.net.flights = s.net.flights.set n (t.stamped { f with kind := .store { q with held := 2 } })) ∧
    (s1.leased sl host f.part q.attr x = false → later w (s.horizon f.part (homeDie sl host)) = true → Completes (.homeStore n) s fun t =>
      t.mem = s1.mem ∧ t.ctxs = s.ctxs ∧ t.net.flights = s.net.flights.set n (t.stamped { f with kind := .store { q with held := 1 } })) ∧
    (s1.leased sl host f.part q.attr x = false → later w (s.horizon f.part (homeDie sl host)) = false → s.mayGrant sl w = false →
      exec (.homeStore n) s = .next (s1.wantStamp sl w))) ∧
  (∀ (s s1 : State) (n : Nat) (f : Flight) (q : StoreReq) (sl : Nat) (host : Option Nat) (k : FKind),
    s.Carries n f (.store q) → s.atHome f.part q.addr true (some f.sentAt) = (.ready sl host, s1) → s1.keptAnswer sl (coreOf f.ctx) f = some k →
    q.parked = false → q.refused = false → q.held = 0 → s.inOrder n = true → s.parkedBefore f.part q.addr = false →
    (isAgent f.ctx = false → s.writeBehind f.ctx f.uid f.seq q.addr = false) → (q.rel = true → s.releaseHeld f q.sc = false) →
    exec (.homeStore n) s = .next (s1.answer n f k)) ∧
  (∀ (s s1 : State) (n : Nat) (f : Flight) (q : StoreReq) (sl : Nat),
    s.Carries n f (.store q) → s.atHome f.part q.addr true (some f.sentAt) = (.absent sl, s1) → s1.refusedBefore f q.addr = false → s.net.turns = [] → isXu f.ctx = false →
    q.parked = false → q.refused = false → q.held = 0 → s.inOrder n = true → s.parkedBefore f.part q.addr = false →
    (isAgent f.ctx = false → s.writeBehind f.ctx f.uid f.seq q.addr = false) → (q.rel = true → s.releaseHeld f q.sc = false) →
    Completes (.homeStore n) s fun t => t.mem = s.mem ∧ t.ctxs = s.ctxs ∧ (∃ r ∈ t.net.faults, r.part = f.part ∧ r.page = pageOf q.addr) ∧
      (s1.parkedAt sl < Config.parkEntries → t.net.flights =
        s.net.flights.set n (t.stamped { f with kind := .store { q with parked := true, refused := false } })) ∧
      (Config.parkEntries ≤ s1.parkedAt sl → t.net.flights =
        s.net.flights.set n (t.stamped { f with kind := .store { q with refused := true }, offered := s.gtrOf (sliceDie sl) }))) ∧
  (∀ (s : State) (n : Nat) (f : Flight) (q : StoreReq) (v : SecCopy),
    s.Carries n f (.storeAck q v) → s.inOrder n = true → s.alive f = true → isXu f.ctx = false → Completes (.storeAck n) s fun t =>
      { t.ctx f.ctx with clocks := [] } = { s.ctx f.ctx with clocks := [], cr := { (s.ctx f.ctx).cr with lclk := maxStamp (s.lclkOf f.ctx) v.wts } } ∧
      (∀ id, id ≠ f.ctx → t.ctx id = s.ctx id) ∧ t.mem = s.mem ∧ t.net.flights.length + 1 = s.net.flights.length ∧
      (∀ k l, f.launch = some k → s.launch? f.part k = some l → ∃ l' : Launch, t.launch? f.part k = some l' ∧ l'.clock = maxStamp l.clock v.wts)) ∧
  (∀ (s : State) (n : Nat) (f : Flight) (a slot : Nat) (l : Launch),
    s.Carries n f (.lmAck a true) → s.inOrder n = true → isXu f.ctx = false → f.launch = some slot → s.launch? f.part slot = some l → l.pendingAbort = none →
    Completes (.storeAck n) s fun t => t.net.flights = s.net.flights.eraseIdx n ∧ ∃ (l' : Launch) (r : AbortRec), t.launch? f.part slot = some l' ∧ l'.st = .aborted ∧
      l'.pendingAbort = some r ∧ r.kind = 16 ∧ r.addr = BitVec.ofNat 64 a)
/-- R102 and R173 to R175, with R205 to R210, in a partition that is not deterministic; `s1` is the state once the atomic has reached its home. -/
def Obligations.AtomicsPerformAtTheirHome : Prop :=
  (∀ (size c : Nat) (x y : BitVec (8 * size)), size = 4 ∨ size = 8 →
    let f (op : Nat) := amoStep op size x.toNat y.toNat c
    f 0 = some (x + y).toNat ∧ f 1 = some (x &&& y).toNat ∧ f 2 = some (x ||| y).toNat ∧ f 3 = some (x ^^^ y).toNat ∧
    f 4 = some (if y.slt x then y else x).toNat ∧ f 5 = some (if x.slt y then y else x).toNat ∧
    f 6 = some (Nat.min x.toNat y.toNat) ∧ f 7 = some (Nat.max x.toNat y.toNat) ∧ f 8 = some y.toNat ∧
    f 9 = (if x.toNat = c % 2 ^ (8 * size) then some y.toNat else none)) ∧
  (∀ gen arr mem : Nat, gen < 2 ^ 16 → arr < mem → mem < 2 ^ 24 →
    let word (g a m : Nat) := g * 2 ^ 48 + a * 2 ^ 24 + m
    let w := word gen arr mem
    groupStep .bar w = some (if arr + 1 = mem then word ((gen + 1) % 2 ^ 16) 0 mem else word gen (arr + 1) mem) ∧
    (∀ r, groupStep (.join r) w = if mem = 2 ^ 24 - 1 then none else some (word gen (arr + 1) (mem + 1))) ∧
    (∀ j, groupStep (.leave j) w =
      let a := if j = some gen ∧ arr ≠ 0 then arr - 1 else arr
      some (if mem - 1 ≤ a then word ((gen + 1) % 2 ^ 16) 0 (mem - 1) else word gen a (mem - 1)))) ∧
  (∀ (q : AtomReq) (next serving : Nat), next < 2 ^ 32 → serving < 2 ^ 32 →
    (q.op = .ticket → q.step (next * 2 ^ 32 + serving) = some ((next + 1) % 2 ^ 32 * 2 ^ 32 + serving)) ∧
    (q.op = .serve → q.step (next * 2 ^ 32 + serving) = if next = serving then none else some (next * 2 ^ 32 + (serving + 1) % 2 ^ 32)) ∧
    (∀ t m, q.op = .cwait t → q.step m = none) ∧
    (∀ m, q.op = .gamo → q.step m = some ((m + (q.parts.map fun x => x.add.toNat).sum) % 2 ^ (8 * q.size)))) ∧
  (∀ (s s1 : State) (n : Nat) (f : Flight) (q : AtomReq) (sl : Nat) (host : Option Nat) (w : Stamp),
    let old := s1.mem.readNat q.addr q.size
    let free := q.addr < globalBase ∧ q.parked = false ∧ q.held = 0 ∧ q.fault ≠ 1 ∧ s.inOrder n = true ∧ s.atomHeld f q = false
    s.Carries n f (.atomic q) → AtomReady s s1 f q sl host →
    (∀ new, q.step old = some new → AtomMayStamp s s1 f q sl host w →
      (free → Completes (.homeAtomic n) s (AtomPerforms s1 n f q sl old new w)) ∧
      (q.held = 4 → s.parkedBehind n f.part q.addr = false → Completes (.homeAtomic n) s (AtomPerforms s1 n f { q with held := 0 } sl old new w)) ∧
      (q.held = 1 → Completes (.horizonWaitEnd n) s (AtomPerforms s1 n f { q with held := 0 } sl old new w)) ∧
      (q.held = 2 → Completes (.plsharedWriteRelease n) s (AtomPerforms s1 n f { q with held := 0 } sl old new w))) ∧
    (q.step old = none → free → s.mayGrant sl (maxStamp (s1.sector sl f.part q.addr).rts q.clock) = true → Completes (.homeAtomic n) s fun t =>
      t.mem = s1.mem ∧ t.cores = s.cores ∧ (t.sector sl f.part q.addr).rts = maxStamp (s1.sector sl f.part q.addr).rts q.clock ∧
      Answered s n f (.atomicResult q (.done (BitVec.ofNat 64 old) (BitVec.ofNat 64 old) (some (s1.sector sl f.part q.addr).wts))) t)) ∧
  (∀ (s : State) (n : Nat) (f : Flight) (q : AtomReq) (old new : Word) (w : Stamp) (r : Nat),
    let c := s.ctx f.ctx
    let lclk := maxStamp (s.lclkOf f.ctx) w
    let pend (d : Nat) := c.pend.filter fun x => x ≠ .g d
    s.Carries n f (.atomicResult q (.done old new (some w))) → s.inOrder n = true → q.parts = [] → s.alive f = true → c.st = .ready ∨ c.st = .waiting →
    Completes (.atomicResult n) s fun t =>
      let e := t.ctx f.ctx
      (∀ id, id ≠ f.ctx → t.ctx id = s.ctx id) ∧ t.mem = s.mem ∧ e.pc = c.pc ∧ ((∀ k, q.op ≠ .cwait k) ∧ q.op ≠ .bar ∧ q.op ≠ .ticket → e.cr = { c.cr with lclk := lclk }) ∧
      (∀ op, q.op = .amo op → e.pend = (if q.d = 0 then c.pend else pend q.d) ∧ ∀ m, e.rdG m = if m = q.d ∧ m ≠ 0 then
        (if q.size = 8 then old else if op ∈ [6, 7, 10] then (old.setWidth 32).setWidth 64 else (old.setWidth 32).signExtend 64) else c.rdG m) ∧
      (q.op = .join r → (∀ m, e.rdG m = if m = q.d ∧ m ≠ 0 then old else c.rdG m) ∧
        e.ranks = ({ addr := q.addr, rank := r, gen := groupGen old.toNat } :: c.ranks.filter fun x => x.addr != q.addr).take 4) ∧
      (∀ k v, (q.op = .bar ∧ k = Wait.bar q.addr (groupGen old.toNat) q.d ∧ v = new) ∨ (∃ x, q.op = .cwait x ∧ k = Wait.cwait q.addr x q.d ∧ v = old) ∨
          (q.op = .ticket ∧ k = Wait.ticket q.addr (old.toNat / 2 ^ 32) q.d ∧ v = old) →
        (k.holds v = true → e.st = .ready ∧ e.wait = .none ∧ e.cr = { c.cr with lclk := maxStamp (maxStamp lclk (s.lfOf f.ctx)) w } ∧ (∀ m, e.rdG m = if m = q.d ∧ m ≠ 0 then (k.result c v).2 else c.rdG m)) ∧
        (k.holds v = false → e.st = .waiting ∧ e.wait = k ∧ e.g = c.g ∧ e.cr = { c.cr with lclk := lclk } ∧ ∃ g ∈ t.net.flights, g.ctx = f.ctx ∧ g.uid = f.uid ∧
          g.kind = .wait (.word q.addr) q.addr k.target 0 (.core (coreOf f.ctx))))) ∧
  (∀ (s : State) (n : Nat) (f : Flight) (q : AtomReq) (old new : Word) (w : Stamp) (x : GamoPart),
    s.Carries n f (.atomicResult q (.done old new (some w))) → s.inOrder n = true → q.op = .gamo → q.size = 4 ∨ q.size = 8 →
    q.parts.Pairwise (fun y z => y.ctx ≠ z.ctx) → (∀ y ∈ q.parts, (s.ctx y.ctx).uid = y.uid ∧ (s.ctx y.ctx).st = .ready) → x ∈ q.parts → x.d ≠ 0 →
    Completes (.atomicResult n) s fun t =>
      let m := BitVec.ofNat (8 * q.size) (old.toNat + ((q.parts.filter fun y => decide (y.ctx < x.ctx)).map fun y => y.add.toNat).sum)
      (t.ctx x.ctx).rdG x.d = m.signExtend 64 ∧ (t.ctx x.ctx).cr.lclk = maxStamp (s.lclkOf x.ctx) w ∧ t.mem = s.mem) ∧
  (∀ (s : State) (n : Nat) (f : Flight) (q : AtomReq) (core off : Nat),
    let old := s.mem.readNat q.addr q.size
    s.Carries n f (.atomic q) → q.addr = lmAddr core off → 0x400 ≤ off → off + q.size ≤ (s.core core).scratchEnd → s.inOrder n = true →
    s.atomicTurn core = true → s.refuses (tileOf core) (some f.sentAt) = false → (q.rel = true → s.releaseHeld f q.sc = false) → s.poisoned q.addr q.size = false →
    traceOn (s.core core).traceb = false → Completes (.lmAtomic n) s fun t =>
      Answered s n f (.atomicResult q (.done (BitVec.ofNat 64 old) (BitVec.ofNat 64 old) none)) t ∧
      t.mem = match q.step old with
        | some new => s.mem.writeNat q.addr q.size new
        | none => s.mem) ∧
  (∀ (s : State) (n : Nat) (e : GamoEntry) (x : GamoPart) (xs : List GamoPart),
    s.net.gamo[n]? = some e → e.parts = x :: xs → e.opened + 32 ≤ (s.die (tileOf (e.cluster * 8))).cycle / 640 → Completes (.gamoWindowEnd n) s fun t =>
      t.net.gamo = s.net.gamo.eraseIdx n ∧ t.mem = s.mem ∧ t.ctxs = s.ctxs ∧ ∃ (g : Flight) (q : AtomReq), t.net.flights = s.net.flights ++ [g] ∧ g.kind = .atomic q ∧
        q.op = .gamo ∧ q.addr = e.addr ∧ q.size = e.size ∧ q.parts = e.parts ∧ (q.d ≠ 0 ↔ e.returning = true))

/-- R110, R112 and R162 to R164 at a port; R161 and R200. -/
def Obligations.PortsAndRefusedOffers : Prop :=
  (∀ (s : State) (n : Nat) (f : Flight) (a core off : Nat) (w : LmWrite) (rel : Bool) (sc : Nat),
    s.Carries n f (.lmWrite a w rel sc) → s.inOrder n = true → (rel = true → s.releaseHeld f sc = false) → a = lmAddr core off → off < 0x6000 →
    coreOf f.ctx ≠ core → f.home ≠ core → s.refuses (tileOf core) (some f.sentAt) = false →
    (off < 0x400 ∨ (s.core core).scratchEnd ≤ off → Completes (.remoteLmStore n) s fun t => t.mem = s.mem ∧ Answered s n f (.lmAck a true) t) ∧
    (0x400 ≤ off → off < (s.core core).scratchEnd → traceOn (s.core core).traceb = false →
      (∀ size v, w = .store size v → Completes (.remoteLmStore n) s fun t => t.mem = s.mem.writeNat a size v.toNat ∧ Answered s n f (.lmAck a false) t) ∧
      (∀ full, w = .feset full → s.net.waiters = [] → Completes (.remoteLmStore n) s fun t =>
        t.mem = s.mem ∧ t.full a = full ∧ (∀ b, wordOf b ≠ wordOf a → t.full b = s.full b) ∧ Answered s n f (.lmAck a false) t) ∧
      (∀ v, w = .sde v → s.net.turns = [] → s.full a = false → s.net.waiters = [] → Completes (.remoteLmStore n) s fun t =>
        t.mem = s.mem.writeNat a 8 v.toNat ∧ t.full a = true ∧ t.net.flights = s.net.flights.eraseIdx n) ∧
      (∀ v, w = .sde v → s.net.turns = [] → 32 ≤ s.waitersAt core → Completes (.remoteLmStore n) s fun t =>
        t.mem = s.mem ∧ t.emptied = s.emptied ∧ ∃ g : Flight, t.net.flights = s.net.flights.set n g ∧ g.kind = .feOffer a (.sde v (f.poison != 0)) false)) ∧
    (0x400 ≤ off → off < (s.core core).scratchEnd → traceOn (s.core core).traceb = true → (s.core core).traceValid = true →
      ∀ v, w = .store 8 v → off % 8 = 0 → Completes (.remoteLmStore n) s fun t =>
        let k := s.core core
        let o := lmAddr core (traceBase k.traceb + k.tracen.toNat % 2 ^ traceLog k.traceb * 32)
        let m := s.mem.writeNat a 8 v.toNat
        t.mem = (((m.writeNat o 8 (s.gtrOf (tileOf core))).writeNat (o + 8) 8 (coreOf f.ctx % 2 ^ 20 + 3 * 2 ^ 24)).writeNat (o + 16) 8 off).writeNat (o + 24) 8 (m.readNat a 8) ∧
        (t.core core).tracen = k.tracen + 1)) ∧
  (∀ (s s1 : State) (n : Nat) (f : Flight) (q : StoreReq) (sl : Nat) (host : Option Nat) (w : Stamp),
    let now := s.gtrOf (tileOf (coreOf f.ctx))
    let g : Flight := { f with offered := now }
    s.Carries n f (.store q) → q.refused = true → s.offersNext f q.addr = true → f.offered + 16000 ≤ now →
    StoreReady (s.putFlight n g) s1 g q sl host w → Completes (.refusedOfferRetry n) s (StorePerforms (s.putFlight n g) s1 g { q with refused := false } sl host w)) ∧
  (∀ (s : State) (n : Nat) (f : Flight) (core off d : Nat) (acq : Bool),
    let a := lmAddr core off
    let c := s.ctx f.ctx
    s.Carries n f (.feOffer a (.ldf d) acq) → f.offered + 16000 ≤ s.gtrOf (tileOf (coreOf f.ctx)) → off < 0x6000 → off % 8 = 0 → s.net.turns = [] →
    s.net.waiters = [] → s.refuses (tileOf core) (some f.sentAt) = false → s.alive f = true → s.poisoned a 8 = false → s.full a = true → Completes (.refusedOfferRetry n) s fun t =>
      t.net.flights = s.net.flights.eraseIdx n ∧ t.mem = s.mem ∧ t.full a = true ∧ (∀ id, id ≠ f.ctx → t.ctx id = s.ctx id) ∧
      ∀ m, (t.ctx f.ctx).rdG m = if m = d ∧ m ≠ 0 then BitVec.ofNat 64 (s.mem.readNat a 8) else c.rdG m) ∧
  (∀ (s : State) (n x y e : Nat) (rest : List Nat) (t : Turns),
    s.net.turns[n]? = some t → s.turnsOf t.res = t → t.sources = x :: y :: rest → x ≠ y → x ∉ rest → t.holds = [(x, e)] → x ∉ t.asked →
    e ≤ s.gtrOf t.res.die → s.gtrOf t.res.die < e + 64000 → Completes (.reservedHoldLapse n) s fun u =>
      u.turnsOf t.res = { t with sources := y :: rest, holds := [(y, e + 64000)] } ∧ u.mem = s.mem ∧ u.ctxs = s.ctxs ∧ u.net.flights = s.net.flights) ∧
  (∀ (s : State) (n : Nat) (f : Flight) (line rc : Nat), s.Carries n f (.purge line rc) → s.inOrder n = true →
    exec (.purgeAck n) s = .next { s with net := { s.net with flights := s.net.flights.eraseIdx n } })
/-- R132, R134, R145 and R146. -/
def Obligations.PushesAndStampUpkeep : Prop :=
  (∀ (s : State) (slice : Nat) (v : Stamp), s.net.wanted.get slice = some v → later v (s.net.pub.getD slice 0) = true →
    Completes (.pubPublish slice v) s fun t =>
      t = { s with net := { s.net with wanted := s.net.wanted.del slice, pub := s.net.pub.set slice v } } ∧ t.mayGrant slice v = true) ∧
  (∀ s : State, s.mgmt.main = true → Completes .homeSweep s fun t =>
    t.mem = s.mem ∧ t.ctxs = s.ctxs ∧ t.net.flights = s.net.flights ∧ t.net.recs.length = s.net.recs.length ∧
    (∀ r ∈ t.net.recs, ∀ x ∈ r.sectors, let floor := s.lf r.part (sliceDie r.slice) - 2 ^ 38
      later floor x.2.wts = false ∧ later floor x.2.rts = false) ∧
    (∀ r ∈ s.net.recs, (∀ x ∈ r.sectors, let floor := s.lf r.part (sliceDie r.slice) - 2 ^ 38
      later floor x.2.wts = false ∧ later floor x.2.rts = false) → r ∈ t.net.recs) ∧
    (∀ k, ∀ l ∈ (t.core k).cache, ∀ x ∈ l.sectors, later (s.lf l.part (tileOf k)) x.2.rts = false)) ∧
  (∀ (s : State) (n : Nat) (f : Flight) (line sec dest g : Nat) (copy : SecCopy),
    let a := line + 64 * sec
    let k := s.core dest
    let counted := (k.cache.filter fun l => l.push).length
    let refuses (t : State) := (t.core dest).cache = k.cache ∧ Answered s n f (.pushAnswer g dest false) t ∧ t.mem = s.mem ∧ t.ctxs = s.ctxs
    s.Carries n f (.push line sec copy dest g) → s.inOrder n = true → s.refuses (tileOf dest) (some f.sentAt) = false →
    (k.cacheSize = 0 ∨ s.coreDomain dest = none → Completes (.pushReceive n) s refuses) ∧
    (∀ d e s1, k.cacheSize ≠ 0 → s.coreDomain dest = some d → s.plbLookup dest d a = (some e, s1) → k.cacheLine? f.part a = none →
      (e.p = false ∨ k.pquota.toNat ≤ counted → Completes (.pushReceive n) s refuses) ∧
      (e.p = true → counted < k.pquota.toNat → k.cache.length < k.cacheLines → Completes (.pushReceive n) s fun t =>
        (t.core dest).copy? f.part a = some copy ∧ (t.core dest).cache.length = k.cache.length + 1 ∧
        ((t.core dest).cache.filter fun l => l.push).length = counted + 1 ∧ Answered s n f (.pushAnswer g dest true) t ∧ t.mem = s.mem))) ∧
  (∀ (s : State) (n core : Nat) (f : Flight) (ok : Bool) (x : Gather),
    let d := x.delivered + (if ok then 1 else 0)
    let r := x.refused + (if ok then 0 else 1)
    s.Carries n f (.pushAnswer x.id core ok) → s.inOrder n = true → s.net.gathers = [x] →
    (x.left = 1 → Completes (.pushAnswer n) s fun t => t.net.gathers = [] ∧ Answered s n f (.pushAck x.addr d r false) t) ∧
    (1 < x.left → Completes (.pushAnswer n) s fun t => t.net.flights = s.net.flights.eraseIdx n ∧
      t.net.gathers = [{ x with left := x.left - 1, delivered := d, refused := r }])) ∧
  (∀ (s : State) (n : Nat) (f : Flight) (a d r : Nat) (skipped : Bool), s.Carries n f (.pushAck a d r skipped) → s.inOrder n = true → s.alive f = true →
    Completes (.pushAck n) s fun t => t.net.flights = s.net.flights.eraseIdx n ∧ t.mem = s.mem ∧ (∀ id, id ≠ f.ctx → t.ctx id = s.ctx id) ∧
      let c := s.ctx f.ctx
      t.ctx f.ctx = { c with pushDelivered := c.pushDelivered + d, pushRefused := c.pushRefused + r, pushSkipped := c.pushSkipped || skipped })

/-- R199, with the page waits of R350. That an answer met at once goes directly to the waiter's port with the version's stamp is log 29, and the path of a gate's wait and answer is log 57, which
is unsafe: both are the model's choices. `u` is the state once the word has been reached: a host line may have moved there (R331). -/
def Obligations.SquallTablesCombineWaits : Prop :=
  (∀ (s : State) (n : Nat) (f : Flight) (key : Key) (a hop x y : Nat) (target : Word) (port : Port),
    let on := { f with kind := .wait key a target (hop + 1) (.router x y) }
    s.Carries n f (.wait key a target hop port) → s.inOrder n = true → (s.waitPath f key)[hop]? = some (x, y) →
    (s.squall? x y f.part key = none → (s.net.squall.filter fun e => e.x == x && e.y == y).length < 16 → Completes (.squallWait n) s fun t =>
      t.net.flights = s.net.flights.set n (t.stamped on) ∧ t.mem = s.mem ∧ t.ctxs = s.ctxs ∧ t.squall? x y f.part key = some
        { x := x, y := y, part := f.part, key := key, children := [port], min := target, expiry := s.gtrOf (tileOf (coreAt x y 0)) + 1024000 }) ∧
    (s.squall? x y f.part key = none → 16 ≤ (s.net.squall.filter fun e => e.x == x && e.y == y).length → Completes (.squallWait n) s fun t =>
      t.net.flights = s.net.flights.set n (t.stamped on) ∧ t.net.squall = s.net.squall) ∧
    (∀ e, s.squall? x y f.part key = some e → Completes (.squallWait n) s fun t =>
      let children := if port ∈ e.children then e.children else e.children ++ [port]
      (target.toNat < e.min.toNat → t.net.flights = s.net.flights.set n (t.stamped on) ∧ t.squall? x y f.part key = some { e with children := children, min := target }) ∧
      (e.min.toNat ≤ target.toNat → t.net.flights = s.net.flights.eraseIdx n ∧ t.squall? x y f.part key = some { e with children := children }))) ∧
  (∀ (s : State) (n : Nat) (f : Flight) (key : Key) (v : Word) (wts : Stamp) (x y : Nat) (unrec : Bool), s.Carries n f (.wake key v wts (.router x y) unrec) → s.inOrder n = true →
    (s.squall? x y f.part key = none → Completes (.squallWake n) s fun t => t.net.flights = s.net.flights.eraseIdx n ∧ t.net.squall = s.net.squall) ∧
    (∀ e, s.squall? x y f.part key = some e → Completes (.squallWake n) s fun t => e ∉ t.net.squall ∧ t.mem = s.mem ∧ t.ctxs = s.ctxs ∧
      t.net.flights.length + 1 = s.net.flights.length + e.children.length ∧
      ∀ port ∈ e.children, ∃ g ∈ t.net.flights, g.part = f.part ∧ g.kind = .wake key v wts port unrec)) ∧
  (∀ (s : State) (n : Nat) (e : SquallEntry), s.net.squall[n]? = some e → e.expiry ≤ s.gtrOf (tileOf (coreAt e.x e.y 0)) →
    exec (.squallEntryExpiry n) s = .next { s with net := { s.net with squall := s.net.squall.eraseIdx n } }) ∧
  (∀ (s : State) (n : Nat) (f : Flight) (key : Key) (a hop sl : Nat) (target : Word) (last : Port),
    let full := 256 ≤ (s.net.waits.filter fun w => w.slice == sl).length
    let r : WaitRec := { slice := sl, part := f.part, key := key }
    let wakes (v : Word) (wts : Stamp) (unrec : Bool) (t : State) := t.mem = s.mem ∧ t.ctxs = s.ctxs ∧
      ∃ g ∈ t.net.flights, g.part = f.part ∧ g.kind = .wake key v wts f.waiterPort unrec
    let records (t : State) := t.net.flights = s.net.flights.eraseIdx n ∧ r ∈ t.net.waits ∧ t.mem = s.mem ∧ t.ctxs = s.ctxs
    s.Carries n f (.wait key a target hop last) → s.inOrder n = true → s.homeSlice f.part a = some sl → (s.waitPath f key).length ≤ hop →
    (∀ page, key = .page page →
      ((∀ x ∈ s.net.faults, ¬ (x.part = f.part ∧ x.page = page)) → Completes (.homeWaitRecord n) s (wakes 1 0 false)) ∧
      ((∃ x ∈ s.net.faults, x.part = f.part ∧ x.page = page) → r ∈ s.net.waits ∨ ¬ full → Completes (.homeWaitRecord n) s records) ∧
      ((∃ x ∈ s.net.faults, x.part = f.part ∧ x.page = page) → r ∉ s.net.waits → full → Completes (.homeWaitRecord n) s (wakes 0 0 true))) ∧
    (∀ w at_ u, key = .word w → s.atHome f.part w false (some f.sentAt) = (.absent at_, u) →
      (r ∈ s.net.waits ∨ ¬ full → Completes (.homeWaitRecord n) s records) ∧
      (r ∉ s.net.waits → full → Completes (.homeWaitRecord n) s (wakes (s.wordAt w) (s.sector sl f.part w).wts true))) ∧
    (∀ w at_ host u, key = .word w → s.atHome f.part w false (some f.sentAt) = (.ready at_ host, u) →
      let full := 256 ≤ (u.net.waits.filter fun w => w.slice == sl).length
      let v := u.wordAt w
      let x := u.sector sl f.part w
      let wakes (unrec : Bool) (t : State) := t.mem = u.mem ∧ t.ctxs = u.ctxs ∧ ∃ g ∈ t.net.flights, g.part = f.part ∧ g.kind = .wake key v x.wts f.waiterPort unrec
      let gate := numberOf f.ctx = 7 ∧ target.toNat ≤ v.toNat
      let met := u.alive f = true ∧ (u.ctx f.ctx).wait.word? = some w ∧ (u.ctx f.ctx).wait.holds v = true
      (gate → Completes (.homeWaitRecord n) s (wakes false)) ∧
      (¬ gate → met → u.mayGrant sl (holdRead (u.lclkOf f.ctx) x).rts = true → Completes (.homeWaitRecord n) s (wakes false)) ∧
      (¬ gate → ¬ met → r ∈ u.net.waits ∨ ¬ full → Completes (.homeWaitRecord n) s fun t =>
        t.net.flights = u.net.flights.eraseIdx n ∧ r ∈ t.net.waits ∧ t.mem = u.mem ∧ t.ctxs = u.ctxs) ∧
      (¬ gate → ¬ met → r ∉ u.net.waits → full → Completes (.homeWaitRecord n) s (wakes true))))

/-- R199, R348 and R350 at the waiters. -/
def Obligations.WaitersWakeAndPagesResolve : Prop :=
  (∀ (s : State) (n : Nat) (f : Flight) (a core num : Nat) (v : Word) (wts : Stamp),
    let id := core * 8 + num
    let c := s.ctx id
    s.Carries n f (.wake (.word a) v wts (.core core) false) → s.inOrder n = true → num < 6 → c.st = .waiting → c.partNo = f.part → c.wait.word? = some a →
    Completes (.waitWake n) s fun t => t.mem = s.mem ∧ t.cores = s.cores ∧
      (c.wait.holds v = true → (t.ctx id).st = .ready ∧ (t.ctx id).wait = .none ∧ (t.ctx id).cr = { c.cr with lclk := maxStamp (s.lclkOf id) wts } ∧
        ∀ m, (t.ctx id).rdG m = if m = (c.wait.result c v).1 ∧ m ≠ 0 then (c.wait.result c v).2 else c.rdG m) ∧
      (c.wait.holds v = false → (t.ctx id).st = .waiting ∧ (t.ctx id).wait = c.wait ∧ (t.ctx id).g = c.g ∧
        ∃ g ∈ t.net.flights, g.ctx = id ∧ g.uid = c.uid ∧ g.kind = .wait (.word a) a c.wait.target 0 (.core core))) ∧
  (∀ (s : State) (id a : Nat),
    let c := s.ctx id
    let now := s.gtrOf (tileOf (coreOf id))
    let resent (t : State) := t.ctx id = { c with waitSent := now, unrecorded := false } ∧ t.mem = s.mem ∧ (∀ i, i ≠ id → t.ctx i = s.ctx i) ∧
      ∃ g : Flight, t.net.flights = s.net.flights ++ [g] ∧ g.ctx = id ∧ g.uid = c.uid ∧ g.kind = .wait (.word a) a c.wait.target 0 (.core (coreOf id))
    numberOf id < 6 → c.st = .waiting → c.wait.word? = some a →
    (c.waitSent + 1024000 ≤ now → Completes (.waitRepoll id) s resent) ∧
    (c.unrecorded = true → c.waitSent + 64000 ≤ now → Completes (.unrecordedResend id) s resent)) ∧
  (∀ (s : State) (id : Nat) (v : Word), (s.ctx id).st = .waiting → (s.ctx id).wait = .waitt v → v.toNat ≤ s.gtrOf (tileOf (coreOf id)) →
    exec (.waittExpiry id) s = .next (s.setCtx id { s.ctx id with st := .ready, wait := .none, unrecorded := false })) ∧
  (∀ (s : State) (p page : Nat) (r : FaultRec), s.net.faults.find? (fun x => x.part == p && x.page == page) = some r →
    let closed (v : Word) (t : State) := (∀ x ∈ t.net.faults, ¬ (x.part = p ∧ x.page = page)) ∧ ∀ w ∈ s.net.waits, w.part = p → w.key = .page page →
      ∃ g ∈ t.net.flights, g.part = p ∧ g.kind = .wake (.page page) v 0 (elevatorPort w.slice) false
    (∀ e, leafFor e p = true → s.mayWrite 4 page e = true → (∀ o, s.pagePlace 4 (page * 65536) = some o → dataMoves o e = false) → s.firstParked p page = none → Completes (.pageResolve p page (some e)) s fun t =>
      t.pte.getD (pteKey 4 (page * 65536)) 0 = e ∧ closed 1 t ∧ (∀ x ∈ t.net.trans, x.page ≠ page) ∧ t.ctxs = s.ctxs) ∧
    (∀ e n f q sl host w s1, leafFor e p = true → s.mayWrite 4 page e = true → (∀ o, s.pagePlace 4 (page * 65536) = some o → dataMoves o e = false) → s.Carries n f (.store q) → s.firstParked p page = some n →
      let m := s.writeLeaf 4 page e
      let u := (m.unitFreed (.park ((m.homeSlice p q.addr).getD r.slice))).putFlight n { f with kind := .store { q with parked := false, held := 4 } }
      u.firstParked p page = none → u.parkedBehind n p q.addr = false → StoreReady u s1 f { q with parked := false } sl host w →
      Completes (.pageResolve p page (some e)) s fun t => closed 1 t ∧ t.mem = s1.mem.writeNat q.addr q.size q.data.toNat ∧
        ∃ v, t.stamped { f with kind := .storeAck { q with parked := false } v } ∈ t.net.flights) ∧
    (∀ n f q slot l, s.Carries n f (.store q) → s.firstParked p page = some n → isXu f.ctx = false → f.launch = some slot → s.launch? p slot = some l →
      l.pendingAbort = none → (∀ m g q', m ≠ n → s.Carries m g (.store q') → q'.parked = false) → (∀ m g q', s.Carries m g (.atomic q') → q'.parked = false) →
      Completes (.pageResolve p page none) s fun t => closed 2 t ∧ t.mem = s.mem ∧ ∃ (l' : Launch) (x : AbortRec), t.launch? p slot = some l' ∧ l'.st = .aborted ∧
        l'.pendingAbort = some x ∧ x.kind = 17 ∧ x.addr = BitVec.ofNat 64 q.addr)) ∧
  (∀ (s : State) (n : Nat) (f g : Flight) (page core : Nat) (v : Word) (wts : Stamp) (u : Bool) (q : LoadReq),
    s.Carries n f (.wake (.page page) v wts (.core core) u) → s.inOrder n = true → g ∈ s.net.flights → g.kind = .load q → q.fault = 1 → pageOf q.addr = page →
    s.alive g = true → coreOf g.ctx = core → numberOf g.ctx < 6 → (s.ctx g.ctx).partNo = f.part →
    (v = 1 → Completes (.faultWake n) s fun t => { g with kind := .load { q with fault := 2 } } ∈ t.net.flights ∧ t.mem = s.mem) ∧
    (∀ slot l, v = 2 → g.part = f.part → g.launch = some slot → s.launch? f.part slot = some l → l.pendingAbort = none → Completes (.faultWake n) s fun t =>
      ∃ (l' : Launch) (x : AbortRec), t.launch? f.part slot = some l' ∧ l'.st = .aborted ∧ l'.pendingAbort = some x ∧ x.kind = 17))
/-- R215 to R217, outside deterministic partitions, with no reserved turn held at the mailbox or ring and the trace ring off. -/
def Obligations.MessagesAndHandlers : Prop :=
  (∀ (s : State) (n : Nat) (f : Flight) (m : Msg) (d : Nat),
    let k := s.core m.dest
    let q := m.target.toNat
    let w := k.ring q
    let answers (status : Nat) := Answered s n f (.msgAnswer m d status none)
    s.Carries n f (.msg m d) → s.inOrder n = true → s.releaseBefore f = false → s.refuses (tileOf m.dest) (some f.sentAt) = false → m.dest < 2 ^ 20 → f.poison = 0 →
    (s.absentCore m.part m.dest = true → Completes (.messageArrival n) s fun t => answers 2 t ∧ t.mem = s.mem ∧ t.cores = s.cores) ∧
    (s.absentCore m.part m.dest = false → m.kind ≤ 1 → s.net.turns = [] →
      let high := m.kind == 1
      (0x00FE000000000000 + k.scratchEnd ≤ q → Completes (.messageArrival n) s fun t => answers 4 t ∧ t.mem = s.mem ∧ t.cores = s.cores) ∧
      (q < 0x00FE000000000000 + k.scratchEnd → k.freeBoxes high = [] → Completes (.messageArrival n) s fun t => answers 1 t ∧ t.mem = s.mem ∧ t.cores = s.cores) ∧
      (∀ slot rest, q < 0x00FE000000000000 + k.scratchEnd → k.freeBoxes high = slot :: rest → (s.ctx (m.dest * 8 + if high then 5 else 4)).st ≠ .faultWaiting → Completes (.messageArrival n) s fun t =>
        answers 0 t ∧ t.mem = s.mem.writeNat (lmAddr m.dest ((if high then 0x200 else 0) + slot * 0x40)) 64 m.payload.toNat ∧
        (if high then (t.core m.dest).boxHi.get slot = some m ∧ (t.core m.dest).orderHi = k.orderHi ++ [slot] ∧ (t.core m.dest).boxLo = k.boxLo
         else (t.core m.dest).boxLo.get slot = some m ∧ (t.core m.dest).orderLo = k.orderLo ++ [slot] ∧ (t.core m.dest).boxHi = k.boxHi))) ∧
    (s.absentCore m.part m.dest = false → m.kind = 2 → q ≤ 7 → s.net.turns = [] → s.isDet f.part = false → traceOn k.traceb = false →
      (k.ringValid w = false ∨ ringSlotSize w < 64 → Completes (.messageArrival n) s fun t => answers 4 t ∧ t.mem = s.mem ∧ t.cores = s.cores) ∧
      (k.ringValid w = true → 64 ≤ ringSlotSize w → ringFree w = 0 → Completes (.messageArrival n) s fun t => answers 1 t ∧ t.mem = s.mem ∧ t.cores = s.cores) ∧
      (k.ringValid w = true → 64 ≤ ringSlotSize w → 0 < ringFree w → Completes (.messageArrival n) s fun t =>
        answers 0 t ∧ t.mem = s.mem.writeNat (lmAddr m.dest (ringSlotAt w (ringTail w) 0)) 64 m.payload.toNat ∧
        (t.core m.dest).ring q = withTail w ((ringTail w + 1) % 65536)))) ∧
  (∀ (s : State) (core slot : Nat) (rest : List Nat) (m : Msg) (high : Bool),
    let lo := core * 8 + 4
    let hi := core * 8 + 5
    let k := s.core core
    let quad (i : Nat) : Quad := BitVec.ofNat 128 (m.payload.toNat / 2 ^ (128 * i))
    let v := maxStamp m.lclk (s.lf m.part (tileOf core))
    let clock := if (s.die (tileOf core)).returned then maxStamp s.pubFloor v else v
    let starts (id : Nat) (t : State) := let c := t.ctx id
      c.st = .ready ∧ c.pc = m.target ∧ c.launch = m.launch ∧ c.accessDomain = m.domain ∧ c.slot = slot ∧ t.mem = s.mem ∧
      c.g = [(3, m.tid), (4, BitVec.ofNat 64 m.payload.toNat), (5, BitVec.ofNat 64 (0x00FE000000000000 + (if high then 0x200 else 0) + slot * 0x40))] ∧
      c.v = [(0, quad 0), (1, quad 1), (2, quad 2), (3, quad 3)] ∧ c.f = [] ∧ c.k = [] ∧ c.cr.lclk = clock ∧ c.cr.part = s.partReg m.part
    s.partRuns m.part = true → s.turnsTaken core = true → (s.ctx hi).st = .free →
    (high = false → k.orderLo = slot :: rest → k.boxLo.get slot = some m → (s.ctx lo).st = .free → k.orderHi = [] →
      Completes (.handlerStart core high) s fun t => starts lo t ∧ (t.core core).orderLo = rest) ∧
    (high = true → k.orderHi = slot :: rest → k.boxHi.get slot = some m → (s.ctx lo).st = .free →
      Completes (.handlerStart core high) s fun t => starts hi t ∧ (t.core core).orderHi = rest) ∧
    (high = true → k.orderHi = slot :: rest → k.boxHi.get slot = some m → (s.ctx lo).st = .ready → (s.ctx lo).onceSuspended = false →
      Completes (.handlerStart core high) s fun t => starts hi t ∧ t.ctx lo = { s.ctx lo with suspended := true, onceSuspended := true })) ∧
  (∀ (s : State) (n : Nat) (f : Flight) (m : Msg) (d status : Nat),
    let c := s.ctx f.ctx
    let takes (v : Nat) (t : State) := ∀ r, (t.ctx f.ctx).rdG r = if r = d ∧ r ≠ 0 then BitVec.ofNat 64 v else c.rdG r
    let home := s.homeOf f.ctx
    let q := c.cr.bounceq.toNat % 8
    let w := (s.core home).ring q
    s.Carries n f (.msgAnswer m d status none) → s.inOrder n = true → s.alive f = true →
    (status ≠ 1 → Completes (.messageAnswer n) s fun t => takes status t ∧ t.net.flights = s.net.flights.eraseIdx n ∧ t.mem = s.mem ∧
      (t.ctx f.ctx).cr = c.cr ∧ (∀ id, id ≠ f.ctx → t.ctx id = s.ctx id)) ∧
    (status = 1 → c.cr.bounces ≠ 0xFFFFFFFF → s.bounceReady f.ctx = false → Completes (.messageAnswer n) s fun t =>
      takes 3 t ∧ t.mem = s.mem ∧ (t.ctx f.ctx).cr = { c.cr with bounces := c.cr.bounces + 1 }) ∧
    (status = 1 → c.cr.bounces ≠ 0xFFFFFFFF → s.bounceReady f.ctx = true → Completes (.messageAnswer n) s fun t =>
      takes 1 t ∧ (t.ctx f.ctx).cr = { c.cr with bounces := c.cr.bounces + 1 } ∧ (t.core home).ring q = withTail w ((ringTail w + 1) % 65536) ∧
      t.mem = s.mem.writeNat (lmAddr home (ringSlotAt w (ringTail w) 0)) 128
        (m.dest + m.kind * 2 ^ 20 + m.target.toNat * 2 ^ 64 + s.gtrOf (tileOf (coreOf f.ctx)) * 2 ^ 128 + m.payload.toNat * 2 ^ 512))) ∧
  (∀ (s : State) (id slot : Nat) (l : Launch),
    let c := s.ctx id
    isHandler id = true → c.st ≠ .free → (s.core (coreOf id)).hlimit.toNat < c.hcount / 640 → c.launch = some slot → s.launch? c.partNo slot = some l →
    l.pendingAbort = none → Completes (.handlerOverrun id) s fun t => t.ctx id = {} ∧ t.mem = s.mem ∧
      (if numberOf id = 5 then (t.core (coreOf id)).boxHi.get c.slot = none else (t.core (coreOf id)).boxLo.get c.slot = none) ∧
      ∃ (l' : Launch) (r : AbortRec), t.launch? c.partNo slot = some l' ∧ l'.st = .aborted ∧ l'.pendingAbort = some r ∧ r.kind = 12 ∧ r.tid = c.cr.tid ∧ r.pc = c.pc)

/-- R73 and R198; R90 with R223. -/
def Obligations.ThreadsMoveAndTakeInterrupts : Prop :=
  (∀ (s : State) (cluster a b : Nat) (rest : List Nat), s.migFifo.getD cluster [] = a :: rest → s.freeThread (cluster * 8 + 7) = some b →
    s.drained a = true → (s.ctx a).st = .migrationWaiting → Completes (.migrateToWCore cluster) s fun t =>
      t.ctx b = { s.ctx a with
        spin := [], clocks := [], cr := { (s.ctx a).cr with lclk := s.lclkOf a }, st := .ready, migrated := true, migSince := s.gtrOf (tileOf b), migCount := 0 } ∧
      t.ctx a = {} ∧
      coreOf b = cluster * 8 + 7 ∧ numberOf b < 4 ∧ (∀ id, id ≠ a → id ≠ b → t.ctx id = s.ctx id) ∧ t.mem = s.mem ∧ t.cores = s.cores ∧
      t.migFifo.getD cluster [] = rest) ∧
  (∀ (s : State) (id b : Nat),
    let c := s.ctx id
    let fifo := s.migFifo.getD (clusterOf (coreOf id)) []
    let moved : Ctx := { c with spin := [], clocks := [], cr := { c.cr with lclk := s.lclkOf id }, migrated := false, migCount := 0 }
    c.migrated = true → s.returnPlace id = some b →
    (256 ≤ c.migCount → c.st = .ready → s.drained id = true → fifo = [] → Completes (.migrateReturn id) s fun t =>
      t.ctx b = moved ∧ t.ctx id = {} ∧ (∀ i, i ≠ id → i ≠ b → t.ctx i = s.ctx i) ∧ t.mem = s.mem ∧ t.cores = s.cores) ∧
    (∀ a, fifo ≠ [] → (∀ x ∈ fifo, (s.ctx x).st = .migrationWaiting) → c.st = .waiting → c.wait.word? = some a → s.drainedWait id = true → Completes (.wCoreEarlyReturn id) s fun t =>
      t.ctx b = { moved with waitSent := s.gtrOf (tileOf (coreOf b)), unrecorded := false } ∧ t.mem = s.mem ∧
      ∃ g ∈ t.net.flights, g.ctx = b ∧ g.uid = c.uid ∧ g.kind = .wait (.word a) a c.wait.target 0 (.core (coreOf b))) ∧
    (fifo ≠ [] → (∀ x ∈ fifo, (s.ctx x).st = .migrationWaiting) → c.st = .ready → c.migSince + 1024000 ≤ s.gtrOf (tileOf (coreOf id)) →
      s.nextIsW id = false → s.drained id = true → Completes (.wCoreEarlyReturn id) s fun t => t.ctx b = moved ∧ t.mem = s.mem ∧ t.cores = s.cores)) ∧
  (∀ (s : State) (id : Nat) (x h : Word) (w : Stamp) (rest : List (Word × Word × Stamp)),
    let c := s.ctx id
    isHandler id = false → c.st = .ready → c.cr.xien = 1 → c.nested = false → c.comps = (x, h, w) :: rest → c.pend = [] →
    Completes (.copyCompletionInterrupt id) s fun t =>
      let e := t.ctx id
      e.pc = h ∧ e.cr.trappc = c.pc ∧ e.cr.xferid = x ∧ e.cr.trapcause = c.cr.trapcause ||| 0x300 ∧ e.cr.lclk = maxStamp (s.lclkOf id) w ∧ e.spin = [] ∧
      e.comps = rest ∧ e.g = c.g ∧ e.f = c.f ∧ e.v = c.v ∧ e.cr.trapaddr = c.cr.trapaddr ∧ e.cr.trapval = c.cr.trapval ∧
      (∀ i, i ≠ id → t.ctx i = s.ctx i) ∧ t.mem = s.mem)
/-- R181 to R192. -/
def Obligations.LaunchesOpenPlaceAndStage : Prop :=
  (∀ (s s1 : State) (p slot : Nat) (l : Launch) (e : RightsEntry), s.launch? p slot = some l → l.st = .gated → s.partRuns p = true → l.gateSent = none → l.pendingAbort = none →
    let waits (u : State) (key : Key) (a : Nat) (target : Word) (t : State) := t.mem = u.mem ∧ t.ctxs = s.ctxs ∧
      t.launch? p slot = some { l with gateSent := some (s.gtrOf sDie), gateUnrecorded := false } ∧
      ∃ g : Flight, t.net.flights = u.net.flights ++ [g] ∧ g.part = p ∧ g.launch = some slot ∧ g.kind = .wait key a target 0 (.table slot)
    let aborts (kind : Nat) (t : State) := t.mem = s.mem ∧ ∃ (l' : Launch) (r : AbortRec), t.launch? p slot = some l' ∧ l'.st = .aborted ∧ l'.pendingAbort = some r ∧ r.kind = kind ∧
      r.addr = BitVec.ofNat 64 l.gate
    (s.rightsFor l.domain l.gate = none ∨ (s.rightsFor l.domain l.gate = some e ∧ e.r = false) → Completes (.gateOpen p slot) s (aborts 4)) ∧
    (s.rightsFor l.domain l.gate = some e → e.r = true → ∀ x,
      s.fetchAt p none none (maxStamp l.start (s.lf p sDie)) e.attr (!e.w) l.gate 8 = (x, s1) →
      (∀ a, x = .missing a → Completes (.gateOpen p slot) s (aborts 17)) ∧
      (∀ v w, x = .got v w true → Completes (.gateOpen p slot) s (aborts 13)) ∧
      (∀ v w, x = .got v w false → v < l.gateVal.toNat → Completes (.gateOpen p slot) s (waits s (.word l.gate) l.gate l.gateVal)) ∧
      (∀ a, x = .absent a → Completes (.gateOpen p slot) s (waits s1 (.page (pageOf l.gate)) (pageOf l.gate * 65536) 0)) ∧
      (∀ v w, x = .got v w false → l.gateVal.toNat ≤ v → Completes (.gateOpen p slot) s fun t => t.mem = s1.mem ∧ ∃ l' : Launch, t.launch? p slot = some l' ∧
        l'.start = maxStamp l.start w ∧ l'.clock = l.clock ∧ l'.lastPlaced = s.gtrOf sDie ∧ l'.threads = l.threads ∧
        (l.nextNumber < l.threads → l'.st = .open_) ∧ (l.threads = 0 → l.live = 0 → l.due = 0 → l'.st = .draining)))) ∧
  (∀ (s : State) (p slot : Nat) (l : Launch), s.launch? p slot = some l → l.st = .open_ → l.lastPlaced + 16000000 ≤ s.gtrOf sDie →
    Completes (.launchAged p slot) s fun t => t.launch? p slot = some { l with aged := true } ∧ t.mem = s.mem ∧ t.ctxs = s.ctxs) ∧
  (∀ (s : State) (p core id : Nat) (q : Part) (l : Launch) (rest : List Launch),
    let x : Spawned := (l.spawned.find? fun x => x.number == l.nextNumber).getD
      { number := l.nextNumber, entry := BitVec.ofNat 64 (0x00FE000000000000 + l.entry), arg := l.args, tid := l.parent, lclk := l.start }
    let tile := tileOf core
    let v := maxStamp x.lclk (s.lf p tile)
    s.parts.get p = some q → q.st = .running → q.openLaunches = l :: rest → q.launches.get l.slot = some l → l.part = p → s.chosenCore p q l (s.candidate p l) = some core →
    s.freeThread core = some id → p < 16 →
    Completes (.threadPlace p) s fun t => let c := t.ctx id
      s.enabled core = true ∧ q.coversCore core = true ∧ coreOf id = core ∧ numberOf id < 4 ∧ ((s.core core).cacheSize = l.cache ∨ s.idle core = true) ∧
      (s.core core).pinsClash p l.slot l.foots = false ∧
      c.st = .staging ∧ c.pc = x.entry ∧ c.g = [(3, x.tid), (4, x.arg)] ∧ c.f = [] ∧ c.v = [] ∧ c.k = [] ∧ c.home = core ∧ c.launch = some l.slot ∧
      c.cr.tid = BitVec.ofNat 64 (p * 2 ^ 60 + l.slot * 2 ^ 52 + l.nextNumber) ∧ c.cr.lclk = (if (s.die tile).returned then maxStamp s.pubFloor v else v) ∧
      c.cr.domain = BitVec.ofNat 16 l.domain ∧ (∀ i, i ≠ id → t.ctx i = s.ctx i) ∧ t.mem = s.mem ∧
      (t.core core).cacheSize = l.cache ∧ ((t.core core).pins.any fun y => y.launch == l.slot && y.part == p) = (l.foots != [] || (s.core core).pins.any fun y => y.launch == l.slot && y.part == p) ∧
      (∃ l' : Launch, t.launch? p l.slot = some l' ∧ l'.nextNumber = l.nextNumber + 1 ∧ l'.live = l.live + 1 ∧ l'.lastPlaced = s.gtrOf sDie ∧ l'.aged = false) ∧
      (t.energy.getD (tile * 16 + p) {}).pending = (s.energy.getD (tile * 16 + p) {}).pending +
        ((([60, 120, 250, 500, 1000, 2000, 3000, 4000].getD l.eclass 0) * (20 + (s.die tile).step) : Nat) : Int)) ∧
  (∀ (s : State) (id slot : Nat) (l : Launch),
    let c := s.ctx id
    let core := coreOf id
    let p := c.partNo
    c.st = .staging → s.partRuns p = true → c.wait = .none → c.launch = some slot → s.launch? p slot = some l → l.slot = slot → l.st ≠ .aborted →
    (l.group = 0 → (∀ f ∈ l.foots, ∃ x ∈ (s.core core).pins, x.launch = slot ∧ x.part = p ∧ x.off = f.off ∧ x.staged = true) →
      Completes (.stagingDone id) s fun t => t.ctx id = { c with st := .ready } ∧ t.mem = s.mem ∧ t.cores = s.cores) ∧
    (∀ f e s1 s2 v w, l.group = 0 → l.foots = [f] → f.len = 8 → ((s.core core).pins.any fun x => x.launch == slot && x.part == p && x.off == f.off && x.staged) = false →
      s.plbLookup core l.domain f.addr = (some e, s1) → e.r = true → e.x = true → s.net.waiters = [] →
      s1.fetchAt p (some core) none c.cr.lclk e.attr (!e.w) f.addr 8 = (.got v w false, s2) → Completes (.stagingDone id) s fun t =>
        (t.ctx id).st = .ready ∧ t.mem = s2.mem.writeNat (lmAddr core f.off) 8 v ∧ t.full (lmAddr core f.off) = true) ∧
    (∀ f e s1, l.foots = [f] → 8 ≤ f.len → ((s.core core).pins.any fun x => x.launch == slot && x.part == p && x.off == f.off && x.staged) = false →
      l.pendingAbort = none → s.plbLookup core l.domain f.addr = (some e, s1) → (e.r && e.x) = false → Completes (.stagingDone id) s fun t =>
        t.mem = s.mem ∧ ∃ (l' : Launch) (r : AbortRec), t.launch? p slot = some l' ∧ l'.st = .aborted ∧ l'.pendingAbort = some r ∧ r.kind = 4 ∧ r.addr = BitVec.ofNat 64 f.addr) ∧
    (∀ e s1 s2 sl host new,
      let x := s2.sector sl p l.group
      let old := s2.mem.readNat l.group 8
      let w := maxStamp (s.lclkOf id) (x.rts + 1)
      let rank := c.cr.tid.toNat % 2 ^ 32
      l.group ≠ 0 → (∀ f ∈ l.foots, ∃ y ∈ (s.core core).pins, y.launch = slot ∧ y.part = p ∧ y.off = f.off ∧ y.staged = true) → s.isDet p = false →
      s.plbLookup core c.accessDomain l.group = (some e, s1) → e.r = true → e.w = true → s1.atHome p l.group true none = (.ready sl host, s2) →
      s2.poisoned l.group 8 = false → s2.parkedBefore p l.group = false → s2.leased sl host p e.attr x = false → s2.mayStamp sl host p w = true → groupStep (.join rank) old = some new →
      Completes (.stagingDone id) s fun t => t.mem = s2.mem.writeNat l.group 8 new ∧ (t.ctx id).st = .ready ∧ (t.ctx id).cr.lclk = maxStamp (s.lclkOf id) w ∧
        (t.ctx id).ranks = ({ addr := l.group, rank := rank, gen := groupGen old } :: c.ranks.filter fun y => y.addr != l.group).take 4))

/-- R185, R338, R346 and R364. A context that waits at a JWAIT may be woken by a job that is dropped (R293). -/
def Obligations.LaunchesCompleteAndAbort : Prop :=
  (∀ (s : State) (p slot : Nat) (l : Launch) (q : Part), s.parts.get p = some q → q.det = false → s.launch? p slot = some l → l.slot = slot → l.st = .draining →
    s.launchQuiet p slot = true → s.postRoom p l = true →
    let ends (t : State) := t.launch? p slot = none ∧ (∀ k, k ≠ slot → t.launch? p k = s.launch? p k) ∧ t.ctxs = s.ctxs ∧
      ∃ q' : Part, t.parts.get p = some q' ∧ q'.posts = q.posts ++ (match l.vf with
        | some v => [(v, slot, 1, s.gtrOf sDie)]
        | none => [])
    (l.done = 0 → Completes (.launchComplete p slot) s fun t => ends t ∧ t.mem = s.mem) ∧
    (∀ e s1 sl host,
      let x := s1.sector sl p l.done
      let w := maxStamp (maxStamp l.clock (s.lf p sDie) + 1) (x.rts + 1)
      l.done ≠ 0 → s.rightsFor l.domain l.done = some e → e.r = true → e.w = true → s.atHome p l.done true none = (.ready sl host, s1) → s1.poisoned l.done 8 = false → s1.parkedBefore p l.done = false →
      s1.leased sl host p e.attr x = false → s1.mayStamp sl host p w = true → Completes (.launchComplete p slot) s fun t =>
        ends t ∧ t.mem = s1.mem.writeNat l.done 8 ((s1.mem.readNat l.done 8 + 1) % 2 ^ 64) ∧ (t.sector sl p l.done).wts = w) ∧
    (l.done ≠ 0 → l.pendingAbort = none → s.rightsFor l.domain l.done = none → Completes (.launchComplete p slot) s fun t => t.mem = s.mem ∧
      ∃ (l' : Launch) (r : AbortRec), t.launch? p slot = some l' ∧ l'.st = .aborted ∧ l'.pendingAbort = some r ∧ r.kind = 4 ∧ r.addr = BitVec.ofNat 64 l.done)) ∧
  (∀ (s : State) (p v slot code gtr : Nat) (q : Part) (rest : List (Nat × Nat × Nat × Nat)),
    let f := s.host.vfs.getD v {}
    let size := 2 ^ (f.cqsize.toNat + 4)
    s.parts.get p = some q → q.posts = (v, slot, code, gtr) :: rest → (f.cqtail.toNat + 1) % size ≠ f.cqhead.toNat % size →
    Completes (.completionPost p) s fun t => (∃ q' : Part, t.parts.get p = some q' ∧ q'.posts = rest) ∧ t.mem = s.mem ∧
      t.host.vfs.getD v {} = { f with
        queue := f.queue.set f.cqtail.toNat (BitVec.ofNat 64 (slot + code * 256), BitVec.ofNat 64 gtr)
        cqtail := BitVec.ofNat 20 ((f.cqtail.toNat + 1) % size), msix := f.msix + 1 }) ∧
  (∀ (s : State) (p slot : Nat) (l : Launch) (r : AbortRec) (q : Part), s.parts.get p = some q → q.det = false → s.launch? p slot = some l → l.slot = slot →
    l.pendingAbort = some r → r.noLaunch = false → s.postRoom p l = true → s.migFifo = [] → Completes (.launchAbort p slot) s fun t =>
      t.launch? p slot = none ∧ (∀ k, k ≠ slot → t.launch? p k = s.launch? p k) ∧ t.mem = s.mem ∧
      (∀ id, isHandler id = false → (s.ctx id).st ≠ .free → (s.ctx id).launch = some slot → (s.ctx id).partNo = p → t.ctx id = {}) ∧
      (∀ id, isHandler id = false → (s.ctx id).wait.job? = none → (∀ x ∈ s.ctxs, x.1 = id → x.2.launch ≠ some slot ∨ x.2.partNo ≠ p) → t.ctx id = s.ctx id) ∧
      (∀ f ∈ t.net.flights, f.part = p → (∃ k, f.kind = .store k ∨ ∃ v, f.kind = .storeAck k v) → f.launch ≠ some slot) ∧
      (∀ i n x, (t.core i).copies.get n = some x → x.part = p → x.launch ≠ some slot) ∧
      ∃ q' : Part, t.parts.get p = some q' ∧ q'.aborts = ({ r with slot := slot } :: q.aborts).take 64 ∧
        q'.posts = q.posts ++ (match l.vf with
          | some v => if (s.host.vfs.getD v {}).resetAt.isSome then [] else [(v, slot, 2, s.gtrOf sDie)]
          | none => []))
/-- R289 with R252 and R255; R294, R296 and R297. R357 gives a job that reads poison no status word: that it is 0 is log 38, the model's reading; which words are read and written before the
retirement is log 12, the model's choice. -/
def Obligations.MatrixJobsRunAndRetire : Prop :=
  (∀ (s : State) (core id : Nat) (j : Job) (rest : List Job),
    let k := s.core core
    let cl := clusterOf core
    let e := s.energy.getD (tileOf core * 16 + j.part) {}
    nextTurn cl (s.rrJobs.getD cl (7, 7)).1 s.jobWaits = some core → k.jobs = j :: rest → j.id = some id → Completes (.jobDispatch core) s fun t =>
      s.admits j.part (tileOf core) j.kind.charge = true ∧ j.running = false ∧ t.mem = s.mem ∧ t.ctxs = s.ctxs ∧
      (t.core core).jobs = { j with running := true, snap := k.snapshot j.kind, charge := some (s.chargeOf j.part (tileOf core) j.kind.charge) } :: rest ∧ (∀ x ∈ (t.core core).jobStatus, x.1 = id → x.2 = BitVec.ofNat 64 (id * 2 ^ 16 + 2)) ∧
      (t.energy.getD (tileOf core * 16 + j.part) {}).pending = e.pending + ((j.kind.charge * (20 + (s.die (tileOf core)).step) : Nat) : Int)) ∧
  (∀ (s : State) (core id : Nat) (j : Job) (rest : List Job) (sparse : Bool) (pair : Nat) (desc opts scale wa wb : Word),
    let k := s.core core
    let x := pairElems pair
    let v := s.viewOf j
    let tile := bitsOf desc 6 2
    let ends (code : Nat) (t : State) := (t.core core).jobs = rest ∧ t.mem = s.mem ∧ (t.core core).last = BitVec.ofNat 16 id ∧
      ∀ y ∈ (t.core core).jobStatus, y.1 = id → y.2 = BitVec.ofNat 64 (id * 2 ^ 16 + code)
    k.jobs = j :: rest → j.running = true → j.id = some id → j.kind = .mma sparse pair desc opts scale → j.snap = [wa, wb] →
    (j.sick = true → Completes (.jobRetire core) s fun t => (t.core core).jobs = rest ∧ t.mem = s.mem ∧ (t.core core).acc = k.acc ∧
      ∀ y ∈ (t.core core).jobStatus, y.1 = id → y.2 = 0) ∧
    (j.sick = false → k.ringValid wa = false ∨ k.ringValid wb = false → Completes (.jobRetire core) s fun t => ends 6 t ∧ (t.core core).acc = k.acc) ∧
    (j.sick = false → k.ringValid wa = true → k.ringValid wb = true → opts.getLsbD 0 = false → k.kind tile ≠ 0 → k.kind tile ≠ pairKind pair →
      Completes (.jobRetire core) s fun t => ends 5 t ∧ (t.core core).acc = k.acc) ∧
    (∀ pa na pb nb, j.sick = false → k.ringValid wa = true → k.ringValid wb = true → opts.getLsbD 0 = true ∨ k.kind tile = 0 ∨ k.kind tile = pairKind pair →
      v.panelPlaces core wa x.1 sparse 0 (descK desc) = some (pa, na) → v.panelPlaces core wb x.2 sparse 0 (descK desc) = some (pb, nb) →
      v.ringPoisoned core wa pa = false → v.ringPoisoned core wb pb = false →
      (v.readPanels core wa x.1 sparse pa = none → Completes (.jobRetire core) s fun t => ends 4 t ∧ (t.core core).acc = k.acc) ∧
      (∀ as bs, v.readPanels core wa x.1 sparse pa = some as → v.readPanels core wb x.2 sparse pb = some bs → Completes (.jobRetire core) s fun t =>
        let r := accumulate x.1 x.2 (if opts.getLsbD 0 then List.replicate 256 0 else k.tile tile) (as.zip bs)
        let c := t.core core
        c.jobs = rest ∧ t.mem = s.mem ∧ (∀ i, i < 256 → c.accAt tile i = r.1.getD i 0 % 2 ^ 32) ∧
        (∀ u i, u ≠ tile → i < 256 → c.accAt u i = k.accAt u i) ∧ c.kind tile = pairKind pair ∧ c.scale tile = scale ∧
        (descA desc ≠ descB desc →
          c.ring (descA desc) = (if opts.getLsbD 1 then k.ring (descA desc) else withHead (k.ring (descA desc)) (ringHead (k.ring (descA desc)) + na)) ∧
          c.ring (descB desc) = (if opts.getLsbD 2 then k.ring (descB desc) else withHead (k.ring (descB desc)) (ringHead (k.ring (descB desc)) + nb))) ∧
        (∀ q, q ≠ descA desc → q ≠ descB desc → c.ring q = k.ring q) ∧
        ∀ y ∈ c.jobStatus, y.1 = id → y.2 = statusWord id 3 r.2.1 r.2.2))) ∧
  (∀ (s : State) (core off k : Nat) (j : Job) (rest : List Job) (opts addr : Word) (tile size : Nat) (fmt : ConvFmt) (q : Nat) (w : Word),
    let c := s.core core
    let stride := bitsOf opts 16 16
    c.jobs = j :: rest → j.running = true → j.sick = false → s.net.waiters = [] →
    (j.kind = .mzero tile → tile < 4 → Completes (.jobRetire core) s fun t => t.mem = s.mem ∧ (t.core core).kind tile = 0 ∧ (t.core core).jobs = rest ∧
      (∀ i, i < 256 → (t.core core).accAt tile i = 0) ∧ (∀ u i, u ≠ tile → i < 256 → (t.core core).accAt u i = c.accAt u i)) ∧
    (j.kind = .mst addr opts tile → mstFormat (bitsOf opts 0 8) = some (fmt, size) → addr.toNat = lmAddr k off → off + 15 * stride + 16 * size ≤ 0x6000 →
      Completes (.jobRetire core) s fun t =>
        let per := 8 / size
        let word (i k : Nat) := ((List.range per).map fun n => (mstValue fmt (c.scale tile) (c.kind tile) (c.accAt tile (16 * i + k * per + n))).1 * 2 ^ (8 * size * n)).sum
        let words := (List.range 16).flatMap fun i => (List.range (2 * size)).map fun k => (addr.toNat + i * stride + 8 * k, word i k)
        let left := words.zipIdx.filter fun x => !(j.put.contains x.2)
        t.mem = left.foldl (fun m x => m.writeNat x.1.1 8 x.1.2) s.mem ∧ (t.core core).jobs = rest ∧
        (t.core core).acc = c.acc ∧ ∀ x ∈ left, off % 8 = 0 → stride % 8 = 0 → t.full x.1.1 = true) ∧
    (j.kind = .mldt addr opts q → j.snap = [w] → c.ringValid w = true → (∀ o ∈ mldtOffsets opts, (s.viewOf j).poisoned (addr.toNat + o) 2 = false) →
      Completes (.jobRetire core) s fun t =>
        let n := (1024 + ringSlotSize w - 1) / ringSlotSize w
        let place (x : Nat) := lmAddr core (ringSlotAt w (ringTail w) (x / ringSlotSize w) + x % ringSlotSize w)
        let word (col g : Nat) := ((List.range 4).map fun i => (s.viewOf j).mem.readNat (addr.toNat + mldtOffset opts (4 * g + i) col) 2 * 2 ^ (16 * i)).sum
        t.mem = ((List.range 64).filter fun x => !(j.put.contains x)).foldl
          (fun m x => m.writeNat (place (x / 4 * 64 + 32 * bitsOf opts 0 1 + 8 * (x % 4))) 8 (word (x / 4) (x % 4))) s.mem ∧
        (t.core core).ring q = (if bitsOf opts 1 1 = 1 then withTail (c.ring q) (ringTail (c.ring q) + n) else c.ring q) ∧ (t.core core).jobs = rest)) ∧
  (∀ (acc : BitVec 32) (v : Int), let r := addInt acc.toNat v
    (BitVec.ofNat 32 r.value).toInt = max (-2 ^ 31) (min (2 ^ 31 - 1) (acc.toInt + v)) ∧ (r.sat = true ↔ acc.toInt + v < -2 ^ 31 ∨ 2 ^ 31 - 1 < acc.toInt + v)) ∧
  (∀ (wa wb : Nat) (a b : Panel) (i j : Nat) (u v : List Nat), a.groups[i]? = some u → b.groups[j]? = some v → u.length = 32 → v.length = 32 →
    a.maps[i]? = some (2 ^ 32 - 1) → b.maps[j]? = some (2 ^ 32 - 1) →
    oiSum (.oi wa) (.oi wb) a b i j = ((List.range 32).map fun n => ((u.getD n 0 : Int) - (a.metas.getD i 0 % 2 ^ wa : Nat)) * ((v.getD n 0 : Int) - (b.metas.getD j 0 % 2 ^ wb : Nat))).sum)

/-- R222 and R223. -/
def Obligations.CopiesMoveTheirElements : Prop :=
  (∀ (s : State) (core seq : Nat) (x : CopyRec),
    let cl := clusterOf core
    let e := s.energy.getD (tileOf core * 16 + x.part) {}
    nextTurn cl (s.rrJobs.getD cl (7, 7)).2 s.copyWaits = some core → (s.core core).nextCopy = some (seq, x) → Completes (.copyDispatch core) s fun t =>
      (t.core core).copies.get seq = some { x with status := 2, charge := some (s.chargeOf x.part (tileOf core) 3000) } ∧ x.status = 1 ∧ t.mem = s.mem ∧ t.ctxs = s.ctxs ∧
      (t.energy.getD (tileOf core * 16 + x.part) {}).pending = e.pending + ((3000 * (20 + (s.die (tileOf core)).step) : Nat) : Int)) ∧
  (∀ (s : State) (core side e : Nat) (x : CopyRec), copyBt x.block ≠ side + 1 →
    s.copyAddr core x side e = (.got (((x.block.getD side 0).toNat + 2 ^ copyEsz x.block * ((List.range (copyDims x.block)).map fun k =>
      copyIndex x.block e k * (if k = 0 then 1 else bitsOf (x.block.getD (5 + side) 0) (21 * (k - 1)) 21)).sum) % 2 ^ 64) 0, s)) ∧
  (∀ (s s1 s2 s3 : State) (core seq e src dst v : Nat) (x : CopyRec) (p0 p1 : BitVec 2) (r : XuRead),
    let n := 2 ^ copyEsz x.block
    (s.core core).copies.get seq = some x → x.status = 2 → s.partRuns x.part = true → e ∉ x.moved → e < copyTotal x.block →
    s.copyAddr core x 0 e = (.got src p0, s1) → s1.copyAddr core x 1 e = (.got dst p1, s2) → s2.xuRead core x (BitVec.ofNat 64 src) n = (r, s3) →
    (∀ k off, r = .got v 0 → placeOf core (BitVec.ofNat 64 dst) = .lm k off → s.enabled k = true → k = core ∨ s.inPart x.part k = true → 0x400 ≤ off →
      off + n ≤ (s.core k).scratchEnd → n ≤ 8 → s.net.waiters = [] → Completes (.copyElement core seq e) s fun t =>
        t.mem = s3.mem.writeNat (lmAddr k off) n v ∧ t.full (lmAddr k off) = true ∧ (t.core core).copies.get seq = some { x with moved := e :: x.moved }) ∧
    (∀ g s4, r = .got v 0 → placeOf core (BitVec.ofNat 64 dst) = .memory → s3.plbLookup core x.domain (dst % 2 ^ 64) = (some g, s4) → g.w = true →
      Completes (.copyElement core seq e) s fun t => t.mem = s3.mem ∧ (t.core core).copies.get seq = some { x with moved := e :: x.moved } ∧
        ∃ (f : Flight) (q : StoreReq), t.net.flights = s.net.flights ++ [f] ∧ f.ctx = core * 8 + 6 ∧ f.uid = seq + 1 ∧ f.kind = .store q ∧ q.addr = dst % 2 ^ 64 ∧ q.size = n ∧
          q.data = BitVec.ofNat 128 v ∧ q.l = x.lclk ∧ q.rel = false) ∧
    (∀ a, r = .park a → Completes (.copyElement core seq e) s fun t => t.mem = s3.mem ∧
      (∃ y : CopyRec, (t.core core).copies.get seq = some y ∧ y.status = 3 ∧ y.parked = some a ∧ y.moved = x.moved) ∧
      ∃ f ∈ t.net.flights, f.ctx = core * 8 + 6 ∧ f.uid = seq + 1 ∧ f.kind = .wait (.page (pageOf a)) (pageOf a * 65536) 0 0 (.core core)) ∧
    (∀ kind a slot l, r = .fail kind a none → x.launch = some slot → s.launch? x.part slot = some l → l.pendingAbort = none → x.block.getD 2 0 = 0 →
      Completes (.copyElement core seq e) s fun t => t.mem = s3.mem ∧ (∃ y : CopyRec, (t.core core).copies.get seq = some y ∧ y.status = 5) ∧
        ∃ (l' : Launch) (y : AbortRec), t.launch? x.part slot = some l' ∧ l'.st = .aborted ∧ l'.pendingAbort = some y ∧ y.kind = kind ∧ y.tid = x.tid ∧ y.addr = BitVec.ofNat 64 a ∧ y.val = x.id)) ∧
  (∀ (s : State) (n : Nat) (f : Flight) (page core seq : Nat) (x : CopyRec) (v : Word) (wts : Stamp) (u : Bool),
    s.Carries n f (.wake (.page page) v wts (.core core) u) → s.inOrder n = true → s.copiesParked core f.part page = [seq] → (s.core core).copies.get seq = some x →
    x.status = 3 → (v = 1 → Completes (.copyResume n) s fun t => (t.core core).copies.get seq = some { x with status := 2, parked := none } ∧ t.mem = s.mem) ∧
    (v = 2 → Completes (.copyResume n) s fun t => (∃ y : CopyRec, (t.core core).copies.get seq = some y ∧ y.status = 5) ∧ t.mem = s.mem)) ∧
  (∀ (s : State) (core seq id : Nat) (x : CopyRec), (s.core core).copies.get seq = some x → x.status = 2 → copyTotal x.block ≤ x.moved.length →
    s.copyStores core seq = false →
    (x.block.getD 2 0 = 0 → Completes (.copyDone core seq) s fun t => (t.core core).copies.get seq = some { x with status := 4, parked := none, charge := none } ∧ (t.core core).copyEntries = (s.core core).copyEntries.erase (x.id, x.uid) ∧
      t.ctxs = s.ctxs ∧ t.mem = s.mem) ∧
    (x.block.getD 2 0 ≠ 0 → s.copyOwner x = some id → Completes (.copyDone core seq) s fun t =>
      (t.core core).copies.get seq = some { x with status := 4, parked := none, charge := none } ∧ (t.core core).copyEntries = (s.core core).copyEntries ∧ t.mem = s.mem ∧
      t.ctx id = { s.ctx id with comps := (s.ctx id).comps ++ [(x.id, x.block.getD 2 0, x.w)] }))
/-- R191, R193, R321, R369 and R370. -/
def Obligations.IsobarRenewsHeadroomAndClocks : Prop :=
  (∀ (s : State) (m : List (Nat × Int)), s.mgmt.isobar = true → s.mgmt.lastEstimate + 16000 ≤ s.gtrOf sDie → Completes (.isobarEstimate m) s fun t =>
    t.mgmt.cap = s.mgmt.capNext ∧ t.mgmt.lastEstimate = s.gtrOf sDie ∧ t.mem = s.mem ∧ t.ctxs = s.ctxs ∧
    (∀ x ∈ t.energy, x.2.pending = 0) ∧
    (∀ tile, tile < 16 → (t.die tile).step = if t.energy.any (fun x => x.1 / 16 == tile && decide (x.2.target < x.2.estimate)) then (s.die tile).step - 1 else (s.die tile).step) ∧
    (∀ (p : Nat) (q : Part) (tile : Nat), s.parts = [(p, q)] → p < 16 → tile < 16 → 0 < q.quadrantsOn tile → q.st = .running → (∀ x ∈ m, x.1 < 256) →
      (∀ d ∈ tileDies tile, ∀ x ∈ (s.die d).sensors, x.2 ≤ 95 * 16) → t.energy.get (tile * 16 + p) = some {
        target := ((q.quadrantsOn tile * 53125000 + (s.mgmt.capNext - 3400) * 1000000 * q.weight * q.quadrantsOn tile / (q.weight * (q.qw * q.qh)) : Nat) : Int)
        estimate := ((m.find? fun x => x.1 == tile * 16 + p).map Prod.snd).getD 0
        pending := 0 })) ∧
  (∀ (s : State) (tile core t0 : Nat) (k : Core) (j : Job), s.mgmt.isobar = true → (s.die tile).lastAged ≠ s.mgmt.lastEstimate → tileOf core = tile →
    s.cores.get core = some k → j ∈ k.jobs → j.waitedFrom = some t0 → t0 + 1600000 < s.gtrOf sDie → Completes (.workAged tile) s fun t =>
      t.die tile = { s.die tile with step := (s.die tile).step - 1, lastAged := s.mgmt.lastEstimate } ∧ (∀ d, d ≠ tile → t.die d = s.die d) ∧
      { t with dies := s.dies } = s) ∧
  (∀ (s : State) (tile : Nat), s.mgmt.isobar = true → tile < 16 → (s.die tile).lastRaise + 160000 ≤ s.gtrOf sDie →
    ((∀ x ∈ s.waitsOn tile, s.gtrOf sDie ≤ x + 160000) → (∀ d ∈ sDie :: tileDies tile, (s.die d).clamped = false) →
      (∀ x ∈ s.energy, x.1 / 16 = tile → x.2.estimate ≤ x.2.target ∧ 40 * x.2.target < 10 * s.headroom (x.1 % 16) tile) → (s.die tile).hotAt + 160000 ≤ s.gtrOf sDie →
      Completes (.clockRaiseCheck tile) s fun t => t.die tile = { s.die tile with lastRaise := s.gtrOf sDie, step := Nat.min 20 ((s.die tile).step + 1) } ∧
        (∀ d, d ≠ tile → t.die d = s.die d) ∧ { t with dies := s.dies } = s) ∧
    (∀ x ∈ s.energy, x.1 / 16 = tile → x.2.target < x.2.estimate → Completes (.clockRaiseCheck tile) s fun t =>
      (t.die tile).step = (s.die tile).step ∧ (∀ d, d ≠ tile → t.die d = s.die d))) ∧
  (∀ (s : State) (deg : Nat), s.mgmt.main = true → 105 ≤ deg →
    (∀ tile, tile < 16 → Completes (.cDieClamp tile deg) s fun t => t.die tile = { s.die tile with clamped := true, step := 0 } ∧
      (∀ d, d ≠ tile → t.die d = s.die d) ∧ { t with dies := s.dies } = s) ∧
    (∀ die, 16 ≤ die → die < 64 → Completes (.baseDieClamp die deg) s fun t =>
      let tile := if die < 32 then die - 16 else (die - 32) / 2
      t.die die = { s.die die with clamped := true } ∧ t.die tile = { s.die tile with step := 0 } ∧
      (∀ d, d ≠ die → d ≠ tile → t.die d = s.die d) ∧ { t with dies := s.dies } = s) ∧
    Completes (.sDieClamp deg) s fun t => t.die 64 = { s.die 64 with clamped := true } ∧ (∀ tile, tile < 16 → t.die tile = { s.die tile with step := 0 }) ∧
      (∀ d, d ≠ 64 → 16 ≤ d → t.die d = s.die d) ∧ { t with dies := s.dies } = s) ∧
  (∀ (s : State) (die deg : Nat), deg < 100 → (s.die die).clamped = true → Completes (.clampLift die deg) s fun t =>
    t.die die = { s.die die with clamped := false } ∧ (∀ d, d ≠ die → t.die d = s.die d) ∧ { t with dies := s.dies } = s)

/-- R368, R370, R372 and R375. What survives a loss of Main, and which cap follows it, is log 47, the model's reading and unsafe for what R368 and R372 do not name. -/
def Obligations.LosingMainAndComingUp : Prop :=
  (∀ (s : State), s.mgmt.main = true →
    let off (t : State) := t.mgmt.main = false ∧ t.mem = [] ∧ t.ctxs = [] ∧ t.cores = [] ∧ t.parts = [] ∧ t.domains = [] ∧
      t.mgmt.lifecycle = s.mgmt.lifecycle ∧ t.mgmt.ownerKey = s.mgmt.ownerKey ∧ t.mgmt.minVersion = s.mgmt.minVersion ∧ t.mgmt.capNext = 4000
    let up (t : State) := t.mgmt.main = true ∧ t.mgmt.step = 1 ∧ t.mgmt.error = 0 ∧ t.mgmt.stopped = false ∧ t.mgmt.capNext = s.mgmt.capNext ∧
      (∀ d, (t.die d).clamped = (s.die d).clamped) ∧
      t.mem = [] ∧ t.ctxs = [] ∧ t.cores = [] ∧ t.parts = [] ∧ t.domains = [] ∧ t.mgmt.lifecycle = s.mgmt.lifecycle ∧ t.mgmt.ownerKey = s.mgmt.ownerKey
    (∀ die deg, 110 ≤ deg → die < 65 → Completes (.thermalTrip die deg) s fun t => off t ∧ t.mgmt.trip = some die) ∧
    (Completes .mainUndervoltage s fun t => off t ∧ t.mgmt.trip = s.mgmt.trip) ∧
    (Completes .i3cMainOff s fun t => off t ∧ t.mgmt.trip = s.mgmt.trip) ∧
    Completes .cxlHotReset s up ∧ Completes (.reset true) s up ∧
    (s.mgmt.busy = false → s.mgmt.step = 9 → Completes (.reset false) s up)) ∧
  (∀ (s : State), s.mgmt.main = false →
    (∀ watts, capAllowed watts = true → Completes (.setCap watts true) s fun t => t = { s with mgmt := { s.mgmt with capNext := watts } }) ∧
    Completes .mainPowerOn s fun t =>
      t.mgmt.main = true ∧ t.mgmt.step = 1 ∧ t.mgmt.stopped = false ∧ t.mgmt.trip = none ∧ t.mgmt.capNext = s.mgmt.capNext ∧ t.mem = [] ∧ t.ctxs = [] ∧
      (s.mgmt.trip = none → t.mgmt.error = 0) ∧ ∀ die, s.mgmt.trip = some die → t.mgmt.error = 0x0A ∧ t.mgmt.detail = BitVec.ofNat 16 die) ∧
  (∀ (s : State), s.mgmt.main = true → s.mgmt.stopped = false →
    let after (n : BitVec 4) (t : State) := t = { s with mgmt := { s.mgmt with step := n } }
    let fails (code : BitVec 8) (detail : Nat) (t : State) := t = { s with mgmt := { s.mgmt with error := code, detail := BitVec.ofNat 16 detail, stopped := true } }
    (s.mgmt.step = 1 → Completes (.primroseSelfTest true) s (after 2) ∧ Completes (.primroseSelfTest false) s (fails 1 0)) ∧
    (s.mgmt.step = 2 → ∀ v image, Completes (.firmwareVerify false (v, image)) s (fails 2 0) ∧
      (v < s.mgmt.minVersion → Completes (.firmwareVerify true (v, image)) s (fails 3 0)) ∧
      (s.mgmt.minVersion ≤ v → Completes (.firmwareVerify true (v, image)) s fun t =>
        t = { s with mgmt := { s.mgmt with fwVersion := v, fwImage := image, step := 3 } })) ∧
    (s.mgmt.step = 3 → Completes (.stewardStart none) s (after 4) ∧ ∀ n, Completes (.stewardStart (some n)) s (fails 4 n)) ∧
    (s.mgmt.step = 4 → Completes (.hbmTraining none) s (after 5) ∧ ∀ n, Completes (.hbmTraining (some n)) s (fails 5 n)) ∧
    (s.mgmt.step = 5 → ∀ clusters : List Nat, clusters.Nodup → (∀ c ∈ clusters, c < 131072) →
      ((∀ tile, tile < 16 → (clusters.filter fun c => c / 8192 == tile).length ≤ 128) → Completes (.disableMapLoad clusters) s fun t =>
        t = { s with disabled := t.disabled, mgmt := { s.mgmt with step := 6 } } ∧ ∀ c, c ∈ t.disabled ↔ c ∈ clusters) ∧
      (∀ tile, tile < 16 → (∀ i, i < tile → (clusters.filter fun c => c / 8192 == i).length ≤ 128) → 128 < (clusters.filter fun c => c / 8192 == tile).length →
        Completes (.disableMapLoad clusters) s (fails 6 tile))) ∧
    (s.mgmt.step = 6 → (∀ n, Completes (.moduleWipe (some n)) s (fails 7 n)) ∧ Completes (.moduleWipe none) s fun t =>
      t.mgmt.step = 7 ∧ t.mgmt.wipePending = false ∧ t.mem = [] ∧ t.emptied = [] ∧ t.poison = [] ∧ t.ctxs = [] ∧ t.parts = [] ∧ t.domains = [] ∧ t.pte = [] ∧
      ∀ i, t.core i = { reqSeq := (s.core i).reqSeq }) ∧
    (s.mgmt.step = 7 → (∀ n, Completes (.gtrInitialLock (some n)) s (fails 8 n)) ∧ Completes (.gtrInitialLock none) s fun t =>
      t.mgmt.step = 8 ∧ (∀ d, d < 65 → (t.die d).locked = true ∧ (t.die d).bound = 0x040 ∧ t.gtrOf d = s.gtr % 2 ^ 64) ∧ t.mem = s.mem ∧ t.ctxs = s.ctxs) ∧
    (s.mgmt.step = 8 → s.mgmt.isobar = false → Completes (.isobarStart false) s (fails 9 0) ∧ Completes (.isobarStart true) s fun t =>
      t = { s with mgmt := { s.mgmt with isobar := true, cap := s.mgmt.capNext, lastEstimate := s.gtrOf sDie } }) ∧
    (s.mgmt.step = 8 → s.mgmt.isobar = true → Completes .ready s (after 9)))

/-- R148 to R150 and R340. Log 57: the offset that is judged. Log 45: the first exchange, the unlocked BOUND as an input, the slewing of the master. Log 40: the numbering of time sources and
CODE 4 for a number above 9. All are the model's, and 40 and 45 are unsafe. -/
def Obligations.ReplicasAndMasterAreCorrected : Prop :=
  (∀ (s : State) (die : Nat) (bound : BitVec 12), die < 65 → s.mgmt.main = true → (s.die die).frosted = false → (s.die die).lastExchange + 128000 ≤ s.gtr →
    let d := s.die die
    let keeps (t : State) := (t.die die).lastExchange = s.gtr ∧ (∀ i, i ≠ die → t.die i = s.die i) ∧ { t with dies := s.dies } = s
    (∀ m : Int, d.canMeasure m = true → Completes (.gtrExchange die (some m) bound) s fun t => keeps t ∧
      (d.loaded = false → (t.die die).offset = d.offset - m ∧ (t.die die).loaded = true) ∧
      (d.loaded = true → d.locked = false → m < 0 → (t.die die).offset = d.offset - m ∧ (t.die die).slew = 0) ∧
      (d.loaded = true → d.locked = true ∨ 0 ≤ m → (t.die die).offset = d.offset ∧ (t.die die).slew = -m) ∧
      (-64 ≤ m → m ≤ 64 → -64 ≤ d.offset → d.offset ≤ 64 → (t.die die).missed = 0 ∧ (t.die die).locked = (d.locked || decide (3 ≤ d.good)) ∧
        ((t.die die).locked = true → (t.die die).bound = 0x040) ∧ ((t.die die).locked = false → (t.die die).bound = bound)) ∧
      (m < -64 ∨ 64 < m ∨ d.offset < -64 ∨ 64 < d.offset → (t.die die).good = 0 ∧ (t.die die).locked = (d.locked && decide (d.missed = 0)))) ∧
    Completes (.gtrExchange die none bound) s fun t => keeps t ∧ (t.die die).good = 0 ∧ (t.die die).offset = d.offset ∧
      (t.die die).locked = (d.locked && decide (d.missed = 0)) ∧
      ((t.die die).locked = true → (t.die die).bound = 0x040) ∧ ((t.die die).locked = false → (t.die die).bound = bound)) ∧
  (∀ (s : State) (m : Int),
    let slews (t : State) := t = { s with mgmt := { s.mgmt with slew := -m, lastTime := s.gtr } }
    (∀ port, s.mgmt.timeSource = 2 + port → s.mgmt.lastTime + 128000 ≤ s.gtr → Completes (.zwionTimeExchange port m) s slews) ∧
    (s.mgmt.timeSource = 1 → Completes (.ptmTimeExchange m) s slews)) ∧
  (∀ (s : State) (n : Nat), s.MailboxFree → (n < 10 → Completes (.timeSource n) s fun t => t.Reports 0 [] ∧ t.mgmt.timeSource = n ∧ t.mgmt.ext = decide (n ≠ 0) ∧
      t.mem = s.mem ∧ t.ctxs = s.ctxs) ∧
    (10 ≤ n → Completes (.timeSource n) s fun t => t.Reports 4 [] ∧ t.mgmt.timeSource = s.mgmt.timeSource))
/-- R304, R306, R308, R309, R311, R315, R316 and R324. The lowest free id (log 41), the moment of a page's wipe (log 42) and the moment at which lines are dropped (log 19) are the model's choices. -/
def Obligations.DomainsRightsRegionsAndPages : Prop :=
  (∀ (s : State) (p id : Nat) (owner : Option Nat) (q : Part), s.MailboxFree → s.parts.get p = some q → q.st ≠ .ended → (owner = none ∨ ∃ v ∈ q.vfs, owner = some v) →
    s.domains.length < 4096 → 1 ≤ id → id ≤ 4096 → s.domains.get id = none → (∀ i, 1 ≤ i → i < id → (s.domains.get i).isSome = true) →
    Completes (.domainCreate p owner) s fun t => t.Reports 0 [BitVec.ofNat 64 id] ∧ t.domains.get id = some { part := p, owner := owner, rights := [] } ∧
      (∀ i, i ≠ id → t.domains.get i = s.domains.get i) ∧ { t with domains := s.domains, mgmt := s.mgmt } = s) ∧
  (∀ (s : State) (id : Nat) (d : Domain), s.MailboxFree → s.domains.get id = some d → Completes (.domainRetire id) s fun t => t.Reports 0 [] ∧
    t.domains.get id = none ∧ (∀ i, i ≠ id → t.domains.get i = s.domains.get i) ∧ { t with domains := s.domains, mgmt := s.mgmt } = s) ∧
  (∀ (s : State) (id : Nat) (index : List Nat) (word0 word1 : List Word) (d : Domain), s.MailboxFree → s.domains.get id = some d →
    let entries := index.zip (word0.zip word1)
    let entry (x : Nat × Word × Word) : RightsEntry :=
      { base := bitsOf x.2.1 16 40 * 65536, log2size := bitsOf x.2.2 0 6, attr := bitsOf x.2.2 10 2
        p := x.2.2.getLsbD 9, x := x.2.2.getLsbD 8, w := x.2.2.getLsbD 7, r := x.2.2.getLsbD 6 }
    let table := entries.foldl (fun (m : FMap RightsEntry) x => if x.2.2.getLsbD 12 then m.set x.1 (entry x) else m.del x.1) d.rights
    let formed := ∀ x ∈ entries, x.1 < 256 ∧ (x.2.2.getLsbD 12 = true → rightsFormed x.2.1 x.2.2 = true)
    let apart := ∀ x ∈ table, ∀ y ∈ table, x.1 ≠ y.1 → x.2.base + 2 ^ x.2.log2size ≤ y.2.base ∨ y.2.base + 2 ^ y.2.log2size ≤ x.2.base
    let opens (line : Nat) := ∃ x ∈ entries, x.2.2.getLsbD 12 = true ∧ (entry x).w = true ∧
      (∀ o ∈ d.rights, o.2.w = true → (entry x).base < o.2.base ∨ o.2.base + 2 ^ o.2.log2size < (entry x).base + 2 ^ (entry x).log2size) ∧
      (entry x).base < line + 256 ∧ line < (entry x).base + 2 ^ (entry x).log2size
    let inside (l : CopyLine) := l.part = d.part ∧ opens l.line
    let others (t : State) := (∀ i, i ≠ id → t.domains.get i = s.domains.get i) ∧
      { t with domains := s.domains, mgmt := s.mgmt, cores := s.cores, saved := s.saved, parts := s.parts, net := { t.net with dew := s.net.dew, flights := s.net.flights, lost := s.net.lost } } = s ∧
      (∀ k, { t.core k with cache := (s.core k).cache } = s.core k ∧ ∀ l, l ∈ (t.core k).cache ↔ l ∈ (s.core k).cache ∧ ¬inside l) ∧
      (∀ x, x ∈ t.net.dew ↔ x ∈ s.net.dew ∧ ¬inside x.body) ∧ t.net.flights.length = s.net.flights.length ∧
      (∀ f ∈ t.net.flights, ∀ q : LoadReq, f.kind = .load q → f.part = d.part → opens (lineOf q.addr) → q.ro = false) ∧
      ((∀ line, ¬opens line) → t.net.flights = s.net.flights ∧ t.parts = s.parts ∧ t.saved = s.saved)
    (formed → apart → Completes (.rightsWrite id index word0 word1) s fun t => others t ∧
      (s.rightsCores id = [] → t.Reports 0 [] ∧ t.domains.get id = some { d with rights := table, shown := table }) ∧
      (s.rightsCores id ≠ [] → t.mgmt.busy = true ∧ t.mgmt.busyPart = 2 ^ 20 + id ∧ t.domains.get id = some { d with rights := table, purging := s.rightsCores id })) ∧
    (formed → ¬apart → Completes (.rightsWrite id index word0 word1) s fun t => t.Reports 1 [] ∧ { t with mgmt := s.mgmt } = s) ∧
    (¬formed → Completes (.rightsWrite id index word0 word1) s fun t => t.Reports 4 [] ∧ { t with mgmt := s.mgmt } = s)) ∧
  (∀ (s : State) (core dom : Nat), Completes (.rightsPurge core dom) s fun t =>
    t.core core = { s.core core with plb := (s.core core).plb.filter fun e => e.1 != dom } ∧ (∀ i, i ≠ core → t.core i = s.core i) ∧
    { t with cores := s.cores, domains := s.domains, mgmt := s.mgmt } = s ∧
    ((∀ d : Domain, s.domains.get dom = some d → core ∉ d.purging ∨ s.underDomain core dom = true) → t.domains = s.domains ∧ t.mgmt = s.mgmt) ∧
    ∀ d : Domain, s.domains.get dom = some d → core ∈ d.purging → s.underDomain core dom = false →
      let rest := d.purging.filter (· != core)
      (rest ≠ [] → t.domains.get dom = some { d with purging := rest } ∧ t.mgmt = s.mgmt) ∧
      (rest = [] → t.domains.get dom = some { d with purging := [], shown := d.rights } ∧ (s.mgmt.busy = true → s.mgmt.busyPart = 2 ^ 20 + dom → t.Reports 0 []))) ∧
  (∀ (s : State) (p index : Nat) (w0 w1 : Word) (q : Part), s.parts.get p = some q → index < 64 →
    let e : RegionEntry := { base := bitsOf w0 25 31 * 2 ^ 25, log2size := bitsOf w1 20 6, hash := bitsOf w1 18 2, gran := bitsOf w1 16 2, tiles := w1.setWidth 16 }
    let others (t : State) := (∀ i, i ≠ p → t.parts.get i = s.parts.get i) ∧ { t with parts := s.parts } = s;
    (q.regions.get index = none → w1.getLsbD 26 = true → q.regionFormed w0 w1 = true → s.pagesMapped p e.base e.log2size = false →
      (∀ x ∈ q.regions, x.1 ≠ index → e.base + 2 ^ e.log2size ≤ x.2.base ∨ x.2.base + 2 ^ x.2.log2size ≤ e.base) →
      Completes (.regionMapWrite p index w0 w1) s fun t => others t ∧ t.parts.get p = some { q with regions := q.regions.set index e }) ∧
    (∀ old : RegionEntry, q.regions.get index = some old → w1.getLsbD 26 = false → s.pagesMapped p old.base old.log2size = false → s.unwipedIn old.base (2 ^ old.log2size) = false →
      s.linesKept p old.base old.log2size = false → Completes (.regionMapWrite p index w0 w1) s fun t => others t ∧ t.parts.get p = some { q with regions := q.regions.filter fun x => x.1 != index }) ∧
    (∀ old : RegionEntry, q.regions.get index = some old → s.pagesMapped p old.base old.log2size = true ∨ s.unwipedIn old.base (2 ^ old.log2size) = true ∨ s.linesKept p old.base old.log2size = true → Completes (.regionMapWrite p index w0 w1) s fun t => t = s)) ∧
  (∀ (s : State) (slice page : Nat),
    let dropped : State := { s with net := { s.net with trans := s.net.trans.filter fun x => !(x.slice == slice && x.page == page) } }
    let still (x : Nat × Nat × Nat) := ∃ e ∈ dropped.net.trans, x.1 ≤ e.page * 65536 ∧ e.page * 65536 < x.1 + x.2.1
    let due (a : Nat) := ∃ x ∈ s.net.unwiped, ¬still x ∧ x.1 ≤ a ∧ a < x.1 + x.2.1;
    ((∀ x ∈ s.net.unwiped, still x) → Completes (.translationPurge slice page) s fun t => t = dropped) ∧
    (s.mem.wf = true → Completes (.translationPurge slice page) s fun t =>
      t.net.trans = dropped.net.trans ∧ t.ctxs = s.ctxs ∧ t.cores = s.cores ∧ (∀ x, x ∈ t.net.unwiped ↔ x ∈ s.net.unwiped ∧ still x) ∧
      (∀ a, a < 2 ^ 61 → due a → t.mem.read a = 0) ∧ ∀ a, a < 2 ^ 61 → ¬due a → t.mem.read a = s.mem.read a)) ∧
  (∀ (s : State) (page : Nat) (large : Bool) (leaf : Word) (data : List (Nat × BitVec 512)),
    let k := if large then 512 else 1
    let a := page / k * k * 65536
    let level := if large then 3 else 4
    let key := pteKey level a
    let old := (s.pagePlace level a).getD 0
    let below (x : Nat) := x / 2 ^ 56 = 4 ∧ x % 2 ^ 56 / 512 = a / 2 ^ 25
    let alone := large = true → ∀ x ∈ s.pte, ¬below x.1
    let written (t : State) := t.pte.get key = some leaf ∧ t.net.trans = s.net.trans ∧ t.ctxs = s.ctxs ∧ t.cores = s.cores ∧ (large = true → ∀ x ∈ t.pte, ¬below x.1);
    (bitsOf leaf 63 1 = 1 → ((∃ x ∈ s.net.trans, x.page / k = page / k) ∨ ∃ x ∈ s.net.unwiped, x.1 < a + 65536 * k ∧ a < x.1 + x.2.1) →
      Completes (.pageMigration page large (leaf, data)) s fun t => t = s) ∧
    (bitsOf leaf 63 1 = 1 → ∀ r ∈ s.net.recs, r.line / 65536 / k = page / k → (∃ x ∈ r.sectors, s.gtrOf (sliceDie r.slice) < x.2.expiry) →
      Completes (.pageMigration page large (leaf, data)) s fun t => t = s) ∧
    (s.mgmt.main = false → Completes (.pageMigration page large (leaf, data)) s fun t => t = s) ∧
    (s.mgmt.main = true → s.mayWrite level page leaf = true →
      (bitsOf leaf 63 1 = 0 → Completes (.pageMigration page large (leaf, data)) s fun t =>
        written t ∧ t.net.flights = s.net.flights ∧ (alone → sameOwner (s.pte.getD key 0) leaf = true → t.mem = s.mem)) ∧
      (bitsOf leaf 63 1 = 1 → s.leasesOver page k = true →
        (dataMoves old leaf = false → (∀ r ∈ s.net.faults, r.page / k ≠ page / k) → Completes (.pageMigration page large (leaf, data)) s fun t =>
          written t ∧ (∀ x ∈ t.net.trans, x.page / k ≠ page / k) ∧ t.net.flights = s.net.flights ∧ (alone → sameOwner (s.pte.getD key 0) leaf = true → t.mem = s.mem) ∧
          (large = true → s.mem.wf = true → ∀ x ∈ s.pte, below x.1 → keepsData x.2 = true → sameOwner x.2 leaf = false → ∀ o, o < 65536 → t.mem.read (x.1 % 2 ^ 56 * 65536 + o) = 0)) ∧
        (dataMoves old leaf = true → s.mayMove old leaf large a (65536 * k) = false → Completes (.pageMigration page large (leaf, data)) s fun t => t = s) ∧
        (dataMoves old leaf = true → alone → sameOwner (s.pte.getD key 0) leaf = true → s.host.lines = [] → s.mem.wf = true → (∀ r ∈ s.net.faults, r.page / k ≠ page / k) →
          (bitsOf old 61 1 = 1 → bitsOf leaf 61 1 = 0 → (data.map Prod.fst).Nodup → Completes (.pageMigration page large (leaf, data)) s fun t => written t ∧
            (∀ x ∈ data, 64 * x.1 < 65536 * k → t.mem.readNat (a + 64 * x.1) 64 = x.2.toNat) ∧
            ∀ x, x < a ∨ a + 65536 * k ≤ x → t.mem.read x = s.mem.read x) ∧
          (bitsOf old 61 1 = 0 → bitsOf leaf 61 1 = 1 → Completes (.pageMigration page large (leaf, data)) s fun t => written t ∧ t.mem = s.mem ∧
            ∀ i, i < 1024 * k → ∃ x ∈ t.host.sent, x.addr = hostAddr leaf large a + 64 * i ∧ x.data = BitVec.ofNat 512 (s.mem.readNat (a + 64 * i) 64))) ∧
        (dataMoves old leaf = false → ∀ r : FaultRec, s.net.faults = [r] → r.page = page → r.part = bitsOf leaf 56 4 → bitsOf leaf 62 2 = 3 →
          (∀ f ∈ s.net.flights, ∀ q : StoreReq, f.kind = .store q → q.parked = false) → (∀ f ∈ s.net.flights, ∀ q : AtomReq, f.kind = .atomic q → q.parked = false) →
          ({ slice := r.slice, part := r.part, key := .page page } : WaitRec) ∈ s.net.waits → Completes (.pageMigration page large (leaf, data)) s fun t =>
            t.pte.get key = some leaf ∧ t.net.faults = [] ∧ ∃ g ∈ t.net.flights, g.part = r.part ∧ g.kind = .wake (.page page) 1 0 (elevatorPort r.slice) false))))
/-- R318, R324 to R326, R351 to R355, R363 and R374. Which deadline a PART_PREEMPT without one takes, and the other choices of the commands, are the model's (log 41). -/
def Obligations.PartitionsStartPreemptAndEnd : Prop :=
  (∀ (s : State) (desc : List Word) (p : Nat),
    let w := desc.getD 0 0
    let q : Part := { qx0 := bitsOf w 0 3, qy0 := bitsOf w 3 3, qw := bitsOf w 6 3 + 1, qh := bitsOf w 9 3 + 1, det := w.getLsbD 12, tick := bitsOf w 13 3,
                      weight := bitsOf w 16 8, phaseGroup := (desc.getD 1 0).toNat,
                      vfs := bitsSet (desc.getD 2 0) ++ (bitsSet (desc.getD 3 0)).map (64 + ·) };
    s.MailboxFree → desc.length = 8 → p < 16 → s.parts.get p = none → (∀ i, i < p → (s.parts.get i).isSome = true) →
    (s.mgmt.lifecycle = .deployed → descriptorGood desc = true → (∀ x ∈ s.parts, x.2.st ≠ .saved → q.meets x.2 = false) → (∀ x ∈ s.parts, ∀ v ∈ x.2.vfs, v ∉ q.vfs) →
      Completes (.partCreate desc) s fun t => t.Reports 0 [BitVec.ofNat 64 p] ∧ t.parts.get p = some q ∧ (∀ i, i ≠ p → t.parts.get i = s.parts.get i) ∧
        t.net.mwiped.get p = some (BitVec.ofNat 40 (s.gtrOf sDie / 2 ^ (9 + q.tick))) ∧ (∀ r ∈ t.net.recs, r.part ≠ p) ∧ t.mem = s.mem ∧ t.ctxs = s.ctxs) ∧
    (s.mgmt.lifecycle ≠ .deployed → Completes (.partCreate desc) s fun t => t.Reports 1 [] ∧ t.parts = s.parts) ∧
    (∀ x ∈ s.parts, x.1 ≠ p → x.2.st ≠ .saved → q.meets x.2 = true → Completes (.partCreate desc) s fun t => t.Reports 1 [] ∧ t.parts = s.parts)) ∧
  (∀ (s : State) (p : Nat) (q : Part), s.MailboxFree → s.parts.get p = some q →
    let others (t : State) := (∀ i, i ≠ p → t.parts.get i = s.parts.get i) ∧ t.mem = s.mem ∧ t.ctxs = s.ctxs ∧ t.cores = s.cores;
    (q.st = .running ∨ q.st = .saved → Completes (.partEnd p) s fun t => t.Reports 0 [] ∧ others t ∧ (∀ x ∈ t.saved, x.2.part ≠ p) ∧
      (∃ q' : Part, t.parts.get p = some q' ∧ q'.st = .ended ∧ q'.vfs = []) ∧
      ∀ slot (l : Launch), q.launches.get slot = some l → l.pendingAbort = none →
        t.launch? p slot = some { l with st := .aborted, pendingAbort := some { kind := 20, slot := slot, gtr := s.gtrOf sDie } }) ∧
    (∀ time, (10 ≤ time → time ≤ 1000 → Completes (.partDrain p time) s fun t => t.Reports 0 [] ∧ others t ∧ t.parts.get p = some { q with drainTime := time }) ∧
      (time < 10 ∨ 1000 < time → Completes (.partDrain p time) s fun t => t.Reports 1 [] ∧ t.parts = s.parts)) ∧
    (∀ time, q.st = .running → time = 0 ∨ (10 ≤ time ∧ time ≤ 1000) → Completes (.partPreempt p time) s fun t => others t ∧ t.mgmt.busy = true ∧ t.mgmt.busyPart = p ∧
      t.parts.get p = some { q with st := .draining (s.gtrOf sDie + (if time = 0 then q.drainTime else time) * 16000) }) ∧
    (∀ time, q.st ≠ .running → Completes (.partPreempt p time) s fun t => t.Reports 1 [] ∧ t.parts = s.parts) ∧
    (∀ (desc : List Word) (forced : Bool), desc.length = 8 → q.st = .running →
      let r := partOf desc
      let resized : Part := { q with qx0 := r.qx0, qy0 := r.qy0, qw := r.qw, qh := r.qh };
      (descriptorGood desc = false → Completes (.partResize p desc forced) s fun t => t.Reports 1 [] ∧ t.parts = s.parts) ∧
      (descriptorGood desc = true → (∀ x ∈ s.parts, x.1 ≠ p → x.2.st ≠ .saved → r.meets x.2 = false) → q.sameHomes resized = true →
        (q.inside r = false → r.inside q = true → forced = false → q.det = true ∨ s.shrinkFits p q resized = false → Completes (.partResize p desc forced) s fun t =>
          t.Reports 1 [] ∧ { t with mgmt := s.mgmt } = s) ∧
        (q.inside r = true → Completes (.partResize p desc forced) s fun t => t.Reports 0 [] ∧ others t ∧ t.parts.get p = some resized) ∧
        (q.inside r = false → r.inside q = true → forced = true ∨ (q.det = false ∧ s.shrinkFits p q resized = true) → Completes (.partResize p desc forced) s fun t => others t ∧ t.mgmt.busy = true ∧
          t.mgmt.busyPart = p ∧ t.parts.get p = some { q with
            st := .draining (s.gtrOf sDie + q.drainTime * 16000), shrink := some (r.qx0, r.qy0, r.qw, r.qh, forced) })) ∧
      (q.sameHomes resized = false → Completes (.partResize p desc forced) s fun t => t.Reports 1 [] ∧ t.parts = s.parts))) ∧
  (∀ (s : State) (p t0 : Nat) (q : Part), s.parts.get p = some q → q.st = .draining t0 → q.shrink = none → s.net.lost = [] → s.net.gathers = [] → s.net.waiters = [] →
    s.net.gamo = [] → (∀ x ∈ s.ctxs, x.2.migrated = false) →
    (s.net.flights = [] → (∀ x ∈ s.cores, q.coversCore x.1 = true → ∀ j ∈ x.2.jobs, j.running = false) → Completes (.drainComplete p) s (SavedAs s p q [])) ∧
    (s.net.flights = [] → t0 ≤ s.gtrOf sDie → Completes (.preemptDrainDeadline p) s (SavedAs s p q [])) ∧
    (∀ (f : Flight) (r : LoadReq), s.net.flights = [f] → f.kind = .load r → q.coversCore (coreOf f.ctx) = true → numberOf f.ctx < 6 → t0 ≤ s.gtrOf sDie →
      Completes (.preemptDrainDeadline p) s fun t => SavedAs s p q [f] t ∧ t.net.flights = [])) ∧
  (∀ (s : State) (p t0 x y w h : Nat) (q : Part), s.parts.get p = some q → q.st = .draining t0 → q.shrink = some (x, y, w, h, false) → s.net.gamo = [] → t0 ≤ s.gtrOf sDie →
    s.shrinkFits p q { q with qx0 := x, qy0 := y, qw := w, qh := h } = false → Completes (.preemptDrainDeadline p) s fun t =>
      t.parts.get p = some { q with st := .running, shrink := none } ∧ (∀ i, i ≠ p → t.parts.get i = s.parts.get i) ∧ { t with parts := s.parts, mgmt := s.mgmt } = s ∧
      (s.mgmt.busy = true → s.mgmt.nextLife = none → s.mgmt.busyPart = p → t.Reports 1 [])) ∧
  (∀ (s : State) (p : Nat) (q : Part), s.MailboxFree → s.parts.get p = some q → q.st = .saved → (∀ x ∈ s.parts, x.1 ≠ p → x.2.st ≠ .saved → q.meets x.2 = false) →
    q.later = [] → q.restored = [] →
    let runs (t : State) := t.Reports 0 [] ∧ t.parts.get p = some { q with st := .running, resetBy := none, shrink := none } ∧ ∀ i, i ≠ p → t.parts.get i = s.parts.get i;
    ((∀ x ∈ s.saved, x.2.part ≠ p) → s.fetching q = false → s.loading q = false → Completes (.partRestore p) s fun t => runs t ∧ t.mem = s.mem ∧ t.ctxs = s.ctxs ∧ t.cores = s.cores) ∧
    ((∀ x ∈ s.saved, x.2.part ≠ p) → s.fetching q = true ∨ s.loading q = true → Completes (.partRestore p) s fun t =>
      t.mgmt.busy = true ∧ t.mgmt.busyPart = p ∧ t.parts.get p = some { q with st := .restoring } ∧ t.mem = s.mem ∧ t.ctxs = s.ctxs ∧ t.cores = s.cores) ∧
    (s.fetching q = false → s.loading q = false → ∀ (core o : Nat) (b : Byte) (x : SavedCore), s.saved = [(saveKey p core, x)] → core < coreCount → x.part = p → x.parked = false → x.replay = [] → x.lm = [(o, b)] → b ≠ 0 → x.empty = [] → x.poison = [] →
      (∀ c ∈ x.ctxs, c.st = .ready ∨ c.st = .free) → (∀ c ∈ x.ctxs, ∀ l, c.launch = some l → (s.launch? p l).isSome = true) →
      (∀ n, n < 6 → (s.ctx (core * 8 + n)).st = .free) → Completes (.partRestore p) s fun t => runs t ∧ t.saved = [] ∧
        t.mem.read (lmAddr core o) = b ∧ (∀ a, a ≠ lmAddr core o → t.mem.read a = s.mem.read a) ∧
        (∀ n c, n < 6 → x.ctxs[n]? = some c → c.st = .ready → t.ctx (core * 8 + n) = c) ∧
        ∀ id, (∀ n, n < 6 → id ≠ core * 8 + n) → t.ctx id = s.ctx id)) ∧
  (∀ (s : State) (p : Nat) (q : Part) (rest : List Move), s.agenda = .resume p :: rest → s.parts.get p = some q → q.st = .restoring →
    (s.fetching q = true ∨ s.loading q = true → step s = .next { s with agenda := rest }) ∧
    (s.fetching q = false → s.loading q = false → q.later = [] → q.restored = [] → s.mgmt.busy = true → s.mgmt.nextLife = none → s.mgmt.busyPart = p → ∃ t, step s = .next t ∧
      t.agenda = rest ∧ t.parts.get p = some { q with st := .running, resetBy := none, shrink := none } ∧ (∀ i, i ≠ p → t.parts.get i = s.parts.get i) ∧
      t.Reports s.mgmt.code [] ∧ t.mem = s.mem ∧ t.ctxs = s.ctxs ∧ t.cores = s.cores)) ∧
  (∀ (s : State) (p : Nat),
    (∀ q : Part, s.mgmt.nextLife = none → s.parts.get p = some q → q.st = .ended → q.launches = [] → q.posts = [] → (∀ i, q.coversCore i = true → s.coreElsewhere p i = false) → s.mem.wf = true → Completes (.wipe p) s fun t =>
      t.parts.get p = none ∧ (∀ i, i ≠ p → t.parts.get i = s.parts.get i) ∧ (∀ d ∈ t.domains, d.2.part ≠ p) ∧ WipesCores s q t ∧
      (∀ a, s.pageOfPart p a = true ∨ s.keptOfPart p a = true → t.mem.read a = 0) ∧
      (∀ a, a < 2 ^ 61 → s.pageOfPart p a = false → s.keptOfPart p a = false → (∀ i, lmCore? a = some i → q.coversCore i = false) →
        (∀ x ∈ s.net.unwiped, a < x.1 ∨ x.1 + x.2.1 ≤ a) → t.mem.read a = s.mem.read a) ∧
      ((s.mgmt.busy = true → s.mgmt.busyPart < 2 ^ 20) → t.mgmt = s.mgmt)) ∧
    (∀ (life : LifeCycle) (key : BitVec 512), s.mgmt.nextLife = some (life, key) → Completes (.wipe p) s fun t => t.Reports 0 [] ∧ t.mem = [] ∧ t.ctxs = [] ∧
      t.parts = [] ∧ t.domains = [] ∧ t.mgmt.lifecycle = life ∧ t.mgmt.nextLife = none ∧ t.mgmt.wipePending = false ∧
      t.mgmt.ownerKey = match life with
        | .provisioned => key
        | .blank => 0
        | _ => s.mgmt.ownerKey))
/-- R339, R356 to R362. With which KIND launches on a dead die abort is the model's choice (log 44). -/
def Obligations.LinksTimersAndDiesRecover : Prop :=
  (∀ (s : State) (n : Nat) (f : Flight), s.flight? n = some f →
    (Completes (.linkCrcRetry n false) s fun t => let d := tileOf (coreOf f.ctx); t.die d = { s.die d with errors := (s.die d).errors + 1 } ∧
      (∀ i, i ≠ d → t.die i = s.die i) ∧ { t with dies := s.dies } = s) ∧
    let becomes (k : List Flight) (lost : List Flight) (t : State) := t = { s with net := { s.net with flights := k, lost := lost } };
    (∀ q, f.kind = .store q → Completes (.linkCrcRetry n true) s (becomes (s.net.flights.set n (s.stamped { f with poison := if q.size ≤ 8 then 1 else 3 })) s.net.lost)) ∧
    (∀ q x h hop give, f.kind = .loadReply q (.copy x h hop give) → Completes (.linkCrcRetry n true) s
      (becomes (s.net.flights.set n (s.stamped { f with kind := .loadReply q (.copy { x with poison := 0xFF } h hop give) })) s.net.lost)) ∧
    (∀ q, f.kind = .load q → Completes (.linkCrcRetry n true) s (becomes (s.net.flights.eraseIdx n) (s.net.lost ++ [f]))) ∧
    (∀ key a v hop last, f.kind = .wait key a v hop last → Completes (.linkCrcRetry n true) s (becomes (s.net.flights.eraseIdx n) s.net.lost)) ∧
    (∀ g core ok, f.kind = .pushAnswer g core ok →
      Completes (.linkCrcRetry n true) s (becomes (s.net.flights.set n (s.stamped { f with kind := .pushAnswer g core false })) s.net.lost))) ∧
  (∀ (s : State) (n : Nat) (f : Flight), s.net.lost[n]? = some f →
    let now := s.gtrOf (tileOf (coreOf f.ctx));
    f.sentAt + 320000 ≤ now →
    (∀ q, f.kind = .load q → Completes (.replyTimeout n) s fun t =>
      t = { s with net := { s.net with lost := s.net.lost.eraseIdx n, flights := s.net.flights ++ [s.stamped { f with kind := .load { q with hop := 0 }, sentAt := now }] } }) ∧
    (∀ q, f.kind = .store q → Completes (.replyTimeout n) s fun t =>
      t = { s with net := { s.net with lost := s.net.lost.set n { f with sentAt := now },
                                       flights := s.net.flights ++ [s.stamped { f with kind := .seqFetch f.seq (coreOf f.ctx), sentAt := now }] } }) ∧
    (∀ a d r skipped, f.kind = .pushAck a d r skipped → (s.ctx f.ctx).uid = f.uid → Completes (.replyTimeout n) s fun t =>
      t.net.lost = s.net.lost.eraseIdx n ∧ t.net.flights = s.net.flights ∧ t.mem = s.mem ∧ (∀ id, id ≠ f.ctx → t.ctx id = s.ctx id) ∧
      t.ctx f.ctx = { s.ctx f.ctx with pushRefused := (s.ctx f.ctx).pushRefused + d + r, pushSkipped := (s.ctx f.ctx).pushSkipped || skipped }) ∧
    (∀ m d, f.kind = .msg m d → d ≠ 0 → (s.ctx f.ctx).uid = f.uid → Completes (.replyTimeout n) s fun t => t.net.lost = s.net.lost.eraseIdx n ∧ t.net.flights = s.net.flights ∧
      t.ctx f.ctx = ((s.ctx f.ctx).wrG d 3).arrived (.g d) ∧ (∀ id, id ≠ f.ctx → t.ctx id = s.ctx id) ∧ t.mem = s.mem)) ∧
  (∀ (s : State) (n : Nat) (f g : Flight) (seq source : Nat), s.flight? n = some f → f.kind = .seqFetch seq source → s.net.lost = [g] → g.ctx = f.ctx → g.uid = f.uid →
    g.seq = seq →
    let kept (sl : Nat) (x : SeqAnswer) : Bool := x.slice == sl && x.core == source && x.agent == isAgent g.ctx && x.incarnation == g.incarnation && x.seq == seq
    let sent (k : FKind) (t : State) := t = { s with net := { s.net with
      lost := [], flights := s.net.flights.eraseIdx n ++ [s.stamped { g with kind := k, sentAt := s.gtrOf (tileOf (coreOf g.ctx)) }] } };
    (∀ sl a, g.accessed = some a → s.homePoint g.part a = .slice sl → s.refuses (sliceDie sl) (some g.sentAt) = false → sl ∉ s.net.returning →
      (∀ x, s.net.answers.find? (kept sl) = some x → Completes (.seqFetch n) s (sent x.answer)) ∧
      (s.net.answers.find? (kept sl) = none →
        (∀ q v, g.kind = .storeAck q v → Completes (.seqFetch n) s (sent (.store q))) ∧ (∀ q, g.kind = .store q → Completes (.seqFetch n) s (sent (.store q))))) ∧
    (g.launching = true →
      (∀ x, s.net.answers.find? (kept tableSlice) = some x → Completes (.seqFetch n) s (sent x.answer)) ∧
      (s.net.answers.find? (kept tableSlice) = none → Completes (.seqFetch n) s (sent g.kind)))) ∧
  (∀ (s : State) (w d : Nat), s.stackDie w = some d → Completes (.hbmPatrol w 0) s (fun t => t = s) ∧
    (Completes (.hbmPatrol w 1) s fun t => t.die d = { s.die d with errors := (s.die d).errors + 1 } ∧ { t with dies := s.dies } = s) ∧
    (∀ e, 2 ≤ e → Completes (.hbmPatrol w e) s fun t => w / 8 * 8 ∈ t.poison ∧ { t with poison := s.poison } = s)) ∧
  (∀ (s : State) (port : Nat), s.mgmt.main = true → port < 8 →
    let z := s.port port
    let only (t : State) := (∀ i, i ≠ port → t.port i = s.port i) ∧ { t with zwion := s.zwion } = s
    let left (last : BitVec 12) := z.replay.filter fun f => decide (2048 ≤ (last - f.seq).toNat);
    (∀ seq ack cls payload, z.queue = [] →
      (seq = z.rxLast + 1 → Completes (.zwionFlitReceive port 0 seq ack cls payload true false) s fun t => only t ∧ (t.port port).rxLast = seq ∧ (t.port port).answered = 1 ∧
        (t.port port).received = z.received ++ [{ seq := seq, cls := cls, payload := payload }] ∧ (t.port port).replay = left ack ∧
        (t.port port).line = z.line ++ [{ seq := seq, cls := cls, payload := [], kind := 1, ack := seq }]) ∧
      (seq = z.rxLast + 1 → Completes (.zwionFlitReceive port 0 seq ack cls payload true true) s fun t => only t ∧ (t.port port).rxLast = z.rxLast ∧ (t.port port).answered = 3 ∧
        (t.port port).received = z.received ∧ (t.port port).line = z.line ++ [{ seq := seq, cls := cls, payload := [], kind := 3, ack := z.rxLast }]) ∧
      (seq ≠ z.rxLast + 1 → ∀ full, Completes (.zwionFlitReceive port 0 seq ack cls payload true full) s fun t => only t ∧ (t.port port).rxLast = z.rxLast ∧
        (t.port port).answered = 2 ∧ (t.port port).received = z.received ∧
        (t.port port).line = z.line ++ [{ seq := z.rxLast + 1, cls := 0, payload := [], kind := 2, ack := z.rxLast }]) ∧
      (∀ kind full, Completes (.zwionFlitReceive port kind seq ack cls payload false full) s fun t => only t ∧ (t.port port).rxLast = z.rxLast ∧ (t.port port).answered = 2 ∧
        (t.port port).received = z.received ∧ (t.port port).replay = z.replay) ∧
      (∀ full, Completes (.zwionFlitReceive port 3 seq ack cls payload true full) s fun t => only t ∧
        (t.port port).resend = some (seq, s.gtrOf sDie + 1600) ∧ (t.port port).replay = left ack ∧ (t.port port).received = z.received)) ∧
    (∀ last, z.queue = [] → Completes (.zwionNak port last) s fun t => only t ∧ (t.port port).replay = left last ∧ (t.port port).line = z.line ++ left last ∧
      (t.port port).naks = if z.nakOf = last + 1 then z.naks + 1 else 1) ∧
    (∀ seq t0, z.resend = some (seq, t0) → t0 ≤ s.gtrOf sDie → Completes (.zwionBusyReplay port seq) s fun t => only t ∧ (t.port port).resend = none ∧
      (t.port port).replay = z.replay ∧ (t.port port).line = z.line ++ left (seq - 1)) ∧
    (∀ good, 16 ≤ z.naks ∨ 16 ≤ z.sentNaks → Completes (.zwionRetrain port good) s fun t => only t ∧
      t.port port = { z with naks := 0, sentNaks := 0, lanes := if good then z.lanes else 4 })) ∧
  (∀ (s : State) (die : Nat),
    let frozen (t : State) := (t.die die).frosted = true ∧ (t.die die).quiesce = none ∧ (t.die die).replays = 0 ∧ die ∈ t.net.absent ∧
      (∀ f ∈ t.net.flights, s.frosts die f = false ∨ ∃ a d r, f.kind = .pushAck a d r false) ∧
      (∀ f ∈ s.net.flights, tileOf (coreOf f.ctx) ≠ die → s.refuses die (some f.sentAt) = true → f ∈ t.net.flights) ∧ (∀ f ∈ t.net.lost, t.touchesDie die f = false ∨ f.orphaned die = some f) ∧
      t.mem = s.mem ∧
      (s.saved = [] → (∀ f ∈ s.net.flights ++ s.net.lost, s.touchesDie die f = false) → (∀ x ∈ s.cores, tileOf x.1 = die → x.2.copies = []) → t.ctxs = s.ctxs) ∧
      ∀ id slot l, (s.ctx id).st ≠ .free → tileOf (coreOf id) = die → (s.ctx id).launch = some slot → s.launch? (s.ctx id).partNo slot = some l → l.pendingAbort = none →
        ∃ (l' : Launch) (r : AbortRec), t.launch? (s.ctx id).partNo slot = some l' ∧ l'.st = .aborted ∧ l'.pendingAbort = some r ∧ (r.kind = 18 ∨ r.kind = 21)
    let onlyDie (d : Die) (t : State) := t.die die = d ∧ (∀ i, i ≠ die → t.die i = s.die i) ∧ { t with dies := s.dies } = s;
    (∀ t0, die < 65 → (s.die die).quiesce = some t0 → t0 ≤ s.gtrOf sDie → Completes (.quiesceDeadline die) s frozen) ∧
    (die < 64 → s.mgmt.main = true → (s.die die).frosted = false →
      Completes (.crossingReplay die true) s (onlyDie { s.die die with errors := (s.die die).errors + 1, replays := 0 }) ∧
      ((s.die die).replays < 15 → Completes (.crossingReplay die false) s (onlyDie { s.die die with replays := (s.die die).replays + 1 })) ∧
      (15 ≤ (s.die die).replays → Completes (.crossingReplay die false) s frozen) ∧
      ((s.die die).quiesce = none → Completes (.dieReset die false) s fun t => (t.die die).quiesce = some (s.gtrOf sDie + s.mgmt.quiesceTime * 16000) ∧ die ∈ t.net.absent ∧
        t.ctxs = s.ctxs ∧ t.mem = s.mem) ∧
      (∀ p q, (s.die die).quiesce = none → s.parts = [(p, q)] → q.st = .running → 0 < q.quadrantsOn (dieTile die) → Completes (.dieReset die true) s fun t =>
        t.parts.get p = some { q with st := .draining (s.gtrOf sDie + q.drainTime * 16000), resetBy := some die } ∧ { t with parts := s.parts } = s)) ∧
    (die < 16 → s.mgmt.main = true → (s.die die).frosted = true → (∀ x ∈ s.parts, x.2.resetBy ≠ some die) → ∀ answers, Completes (.dieReset die answers) s fun t =>
      (t.die die).frosted = false ∧ (t.die die).returned = true ∧ (t.die die).quiesce = none ∧ (t.die die).incarnation = (s.die die).incarnation + 1 ∧ die ∉ t.net.absent ∧
      (∀ id, t.ctx id = if tileOf (coreOf id) = die then {} else s.ctx id) ∧ (∀ a i, lmCore? a = some i → tileOf i = die → t.mem.read a = 0) ∧
      (∀ i, tileOf i = die → t.core i = { reqSeq := (s.core i).reqSeq }) ∧
      (∀ i, tileOf i ≠ die → t.core i = s.core i)) ∧
    (16 ≤ die → die < 32 → s.mgmt.main = true → (s.die die).frosted = true → (∀ x ∈ s.parts, x.2.resetBy ≠ some die) → ∀ answers, Completes (.dieReset die answers) s fun t =>
      (t.die die).frosted = false ∧ die ∉ t.net.absent ∧ (∀ sl, sl < 1024 → sliceDie sl = die → sl ∈ t.net.returning) ∧ (∀ r ∈ t.net.recs, sliceDie r.slice ≠ die) ∧
      t.ctxs = s.ctxs ∧ t.cores = s.cores ∧ (s.net.unwiped = [] → t.mem = s.mem))) ∧
  (∀ (s : State) (die : Nat) (answers : Bool), s.mgmt.main = false → Completes (.dieReset die answers) s fun t => t = s) ∧
  (∀ (s : State) (answers : Bool), s.mgmt.main = true → Completes (.dieReset 64 answers) s fun t => t.mgmt.main = true ∧ t.mgmt.step = 1 ∧ t.mem = [] ∧ t.ctxs = [] ∧ t.cores = []) ∧
  (∀ (s : State) (sl : Nat), sl ∈ s.net.returning →
    let m : Stamp := s.net.pub.getD sl 0 + 1048577;
    (∀ x ∈ s.parts, later m (s.horizon x.1 (sliceDie sl)) = false) → Completes (.homeReturn sl) s fun t => (∀ p, p < 16 → t.net.mreturned.get (returnKey p sl) = some m) ∧ t.net.pub.get sl = some m ∧
      sl ∉ t.net.returning ∧ (∀ i, i ∈ s.net.returning → i ≠ sl → i ∈ t.net.returning) ∧ t.mem = s.mem ∧ t.ctxs = s.ctxs)
/-- R331 to R337 and R364. LSTAT of an unreadable list (log 24), and of a partition that does not run (log 46), are the model's choices; so are where a running job ends that a VF's reset
takes back (log 64), and that ownership without data leaves the line's bytes (log 65). -/
def Obligations.HostLinesBiasAndVirtualFunctions : Prop :=
  (∀ (s : State) (l : HostLine), s.host.lines = [l] →
    let after (m : HostLine) (sent : List HostAnswer) (t : State) := t = { s with host := { s.host with lines := [m], sent := sent ++ s.host.sent } }
    let data : BitVec 512 := BitVec.ofNat 512 (s.mem.readNat l.va 64)
    let expired := l.expiry = 0 ∨ l.expiry + (if (s.die sDie).locked then 128 else (s.die sDie).boundNow) ≤ s.gtrOf sDie;
    (∀ (st : BitVec 2) (d : BitVec 512), s.mgmt.main = true → s.mgmt.step = 9 → l.pending = 1 ∨ l.pending = 2 → Completes (.hostGrant l.hpa st d) s fun t =>
      t.mem = s.mem.writeNat l.va 64 d.toNat ∧ t.ctxs = s.ctxs ∧
      t.host = { s.host with lines := [{ l with mesi := if st = 0 then .i else if st = 1 then .s else if st = 2 then .e else .m, seq := l.seq + 1, pending := 0 }] }) ∧
    (∀ (st : BitVec 2) (d : BitVec 512), s.mgmt.main = true → s.mgmt.step = 9 → l.pending = 4 → Completes (.hostGrant l.hpa st d) s
      (after { l with mesi := if st = 0 then .i else if st = 1 then .s else if st = 2 then .e else .m, seq := l.seq + 1, pending := 0 } [])) ∧
    (∀ inv, s.mgmt.main = true → s.mgmt.step = 9 → l.snoop = none →
      (l.evicted = none → Completes (.hostSnoop l.hpa inv) s (after { l with snoop := some inv } [])) ∧
      (∀ d, l.evicted = some d → inv = true → Completes (.hostSnoop l.hpa inv) s (after { l with evicted := none, seq := l.seq + 1 } [{ addr := l.hpa, data := d }]))) ∧
    (∀ inv, l.snoop = some inv →
      (l.pending ≠ 0 ∨ ¬expired → Completes (.snoopAnswer l.hpa) s fun t => t = s) ∧
      (l.pending = 0 → expired → Completes (.snoopAnswer l.hpa) s (after { l with mesi := if inv = true ∨ l.mesi = .i then .i else .s, seq := l.seq + 1, snoop := none }
        (if l.mesi = .m then [{ addr := l.hpa, data := data }] else [])))) ∧
    (l.pending = 3 → l.evicted = none → Completes (.writePullDrop l.hpa) s fun t => t = { s with host := { s.host with lines := [] } }) ∧
    (∀ d, l.pending = 3 → l.evicted = some d → Completes (.dirtyEvictionAnswer l.hpa) s fun t =>
      t = { s with host := { s.host with lines := [], sent := { addr := l.hpa, data := d } :: s.host.sent } })) ∧
  (∀ (s : State) (vf addr : Nat), s.mgmt.main = true → s.mgmt.step = 9 → s.mgmt.lifecycle = .deployed →
    let a := addr / 64 * 64
    let page := a / 4096
    let v := s.host.vfs.getD vf {};
    ((∀ d ∈ s.domains, d.2.owner = some vf → ∀ e ∈ d.2.rights, e.2.holds a = false) →
      (Completes (.hostMemAccess vf addr none) s fun t => (t.host.vfs.getD vf {}) = { v with errorLog := v.errorLog + 1 } ∧
        t.host.sent = { addr := a, data := 0, poison := true } :: s.host.sent ∧ t.mem = s.mem) ∧
      ∀ d, Completes (.hostMemAccess vf addr (some d)) s fun t => (t.host.vfs.getD vf {}) = { v with errorLog := v.errorLog + 1 } ∧ t.host.sent = s.host.sent ∧ t.mem = s.mem) ∧
    (∀ p w, s.vfPart vf = some p → s.pageOfPart p a = true → page ∈ s.host.flipping ∨ s.host.unbiasing = some page → s.hostReach vf a w.isSome = true →
      Completes (.hostMemAccess vf addr w) s fun t => t = s) ∧
    (∀ p, s.vfPart vf = some p → s.pageOfPart p a = true → page ∉ s.host.flipping → s.host.unbiasing ≠ some page →
      (∀ w, s.hostReach vf a w.isSome = true → page ∉ s.host.hostBias → Completes (.hostMemAccess vf addr w) s fun t =>
        t = { s with host := { s.host with flipping := s.host.flipping ++ [page] } }) ∧
      (page ∈ s.host.hostBias → (∀ l ∈ s.host.lines, l.hpa ≠ 2 ^ 60 + a) →
        (s.hostReach vf a false = true → Completes (.hostMemAccess vf addr none) s fun t => t = { s with host := { s.host with
          sent := { addr := a, data := BitVec.ofNat 512 (s.mem.readNat a 64), poison := (List.range 8).any fun i => s.poison.contains (a + 8 * i) } :: s.host.sent } }) ∧
        (∀ d, s.hostReach vf a true = true → Completes (.hostMemAccess vf addr (some d)) s fun t => t.mem = s.mem.writeNat a 64 d.toNat ∧ t.host = s.host)))) ∧
  (∀ (s : State) (page : Nat), page ∈ s.host.flipping →
    let ended (die e : Nat) : Prop := e = 0 ∨ e + 128 + (if (s.die die).locked then 0 else (s.die die).boundNow) ≤ s.gtrOf die
    let expired := (∀ r ∈ s.net.recs, r.line / 4096 = page → ∀ x ∈ r.sectors, ended (sliceDie r.slice) x.2.expiry) ∧
      ∀ x ∈ s.net.mexpiry, x.1 / 1024 % 2 ^ 52 / 64 = page → ended (sliceDie (x.1 % 1024)) x.2;
    (expired → Completes (.biasFlipToHost page) s fun t => page ∈ t.host.hostBias ∧ page ∉ t.host.flipping ∧ { t with host := s.host } = s) ∧
    (¬expired → Completes (.biasFlipToHost page) s fun t => t = s)) ∧
  (∀ (s : State) (addr : Nat),
    let n := addr / 4096
    let owned := ∀ a ∈ pageLines n, ∃ l : HostLine, s.hostLine? (biasKey a) (s.pagePart a) = some l ∧ l.owned = true
    let cleared (t : State) := t.Reports 0 [] ∧ n ∉ t.host.hostBias ∧ t.host.unbiasing = none ∧ (∀ l ∈ t.host.lines, 2 ^ 60 ≤ l.hpa → l.va / 4096 ≠ n) ∧ t.mem = s.mem ∧ t.ctxs = s.ctxs
    let asks (t : State) := t.mgmt.busy = true ∧ t.host.unbiasing = some n ∧ n ∈ t.host.hostBias ∧ t.mem = s.mem ∧ t.ctxs = s.ctxs ∧
      (s.host.lines = [] → ∀ a ∈ pageLines n, ∃ l : HostLine, t.hostLine? (biasKey a) (s.pagePart a) = some l ∧ l.pending = 4);
    (s.MailboxFree →
      (n ∈ s.host.flipping → Completes (.biasDevice addr) s fun t => t.Reports 1 [] ∧ { t with mgmt := s.mgmt } = s) ∧
      (n ∉ s.host.flipping → n ∉ s.host.hostBias ∨ owned → Completes (.biasDevice addr) s cleared) ∧
      (n ∉ s.host.flipping → n ∈ s.host.hostBias → ¬owned → Completes (.biasDevice addr) s asks)) ∧
    (s.mgmt.busy = true → s.host.unbiasing = some n →
      (n ∉ s.host.hostBias ∨ owned → Completes (.biasDevice addr) s cleared) ∧
      (n ∈ s.host.hostBias → ¬owned → Completes (.biasDevice addr) s asks))) ∧
  (∀ (s : State) (vf : Nat), s.mgmt.main = true → s.mgmt.step = 9 → s.mgmt.lifecycle = .deployed → vf < 128 →
    let lstatIs (n : Nat) (t : State) := t = { s with host := { s.host with vfs := s.host.vfs.set vf { s.host.vfs.getD vf {} with lstat := BitVec.ofNat 16 n } } };
    (∀ off bytes, off < 0x40 → off ≠ 0 ∨ bytes.length ≠ 64 → Completes (.launchPortWrite vf off bytes) s (lstatIs 0x4FF)) ∧
    (∀ bytes, bytes.length = 64 → s.vfPart vf = none → Completes (.launchPortWrite vf 0 bytes) s (lstatIs 0x300)) ∧
    (∀ (bytes : List Byte) (p : Nat) (q : Part), bytes.length = 64 → s.vfPart vf = some p → s.vfResetting vf = false → s.parts.get p = some q →
      (q.st ≠ .running → q.det = true → Completes (.launchPortWrite vf 0 bytes) s (lstatIs 0x100)) ∧
      (q.st ≠ .running → q.det = false → Completes (.launchPortWrite vf 0 bytes) s fun t => lstatIs 0x100 { t with net := s.net } ∧
        (s.net.turns = [] → t.turnsOf (.launchTable p) = { res := .launchTable p, sources := [vfSource vf] }) ∧
        ∀ u e, s.turnsOf (.launchTable p) = u → u.sources = [vfSource vf] → u.holds = [(vfSource vf, e)] → s.gtrOf sDie < e →
          t.turnsOf (.launchTable p) = { u with asked := vfSource vf :: u.asked.filter (· != vfSource vf) }) ∧
      (∀ (xs : List Word) (s1 : State) (q1 : Part),
        let r : Record := { words := wordsOf bytes, list := xs }
        let named := s1.recordDomain p (s.vfDomain vf) (bitsOf (r.word 6) 0 16);
        (q.st = .running → s.portList p (s.vfDomain vf) (wordsOf bytes) = (.bad, s1) → Completes (.launchPortWrite vf 0 bytes) s fun t =>
          ∃ off, off ≤ 0x38 ∧ (t.host.vfs.getD vf {}).lstat = BitVec.ofNat 16 (0x400 + off)) ∧ (
        q.st = .running → s.portList p (s.vfDomain vf) (wordsOf bytes) = (.list xs, s1) → s1.parts.get p = some q1 → q1.det = false → s1.net.turns = [] →
        (∀ off, r.firstBad named.isSome = some off → Completes (.launchPortWrite vf 0 bytes) s fun t =>
          (t.host.vfs.getD vf {}).lstat = BitVec.ofNat 16 (0x400 + off) ∧ t.parts = s1.parts) ∧
        (∀ dom, named = some dom → r.firstBad true = none → q1.freeSlots = 0 → Completes (.launchPortWrite vf 0 bytes) s fun t =>
          (t.host.vfs.getD vf {}).lstat = 0x100 ∧ t.parts = s1.parts) ∧
        (∀ dom slot, named = some dom → r.firstBad true = none → q1.freeSlot = some slot → 0 < q1.freeSlots → Completes (.launchPortWrite vf 0 bytes) s fun t =>
          (t.host.vfs.getD vf {}).lstat = BitVec.ofNat 16 slot ∧ t.mem = s1.mem ∧ ∃ l : Launch, t.launch? p slot = some l ∧
            l.threads = bitsOf (r.word 0) 32 32 ∧ l.entry = bitsOf (r.word 0) 0 16 ∧ l.args = r.word 1 ∧ l.gate = (r.word 3).toNat ∧ l.done = (r.word 5).toNat ∧
            l.domain = dom ∧ l.vf = some vf ∧ l.parent = 0 ∧ l.start = s1.lf p sDie ∧ l.clock = s1.lf p sDie)))) ∧
    (∀ value,
      let v := s.host.vfs.getD vf {}
      let only (t : State) := (∀ i, i ≠ vf → t.host.vfs.getD i {} = s.host.vfs.getD i {}) ∧ { t with host := s.host } = s;
      (Completes (.vfRegisterWrite vf 0x080 value) s fun t => only t ∧ t.host.vfs.getD vf {} = { v with cqbase := value &&& 0xFFFFFFFFFFFFF000 }) ∧
      (Completes (.vfRegisterWrite vf 0x088 value) s fun t => only t ∧ t.host.vfs.getD vf {} = { v with cqsize := value.setWidth 4 }) ∧
      (Completes (.vfRegisterWrite vf 0x090 value) s fun t => only t ∧ t.host.vfs.getD vf {} = { v with cqhead := value.setWidth 20 }) ∧
      ∀ off, off < 0x40 → Completes (.vfRegisterWrite vf off value) s (lstatIs 0x4FF))) ∧
  (∀ (s : State) (vf : Nat), s.MailboxFree → vf < 128 →
    let v := s.host.vfs.getD vf {}
    let begins (t : State) := t.mgmt.busy = true ∧ t.mem = s.mem ∧ t.ctxs = s.ctxs ∧ t.vfResetting vf = true ∧
      t.host.vfs.getD vf {} = { v with resetAt := some (s.gtrOf sDie + s.mgmt.quiesceTime * 16000) };
    (s.vfPart vf = none → Completes (.vfReset vf) s fun t => begins t ∧ t.parts = s.parts) ∧
    (∀ p q, s.vfPart vf = some p → s.parts.get p = some q → Completes (.vfReset vf) s fun t => begins t ∧
      (∀ slot (l : Launch), q.launches.get slot = some l → l.vf = some vf →
        t.launch? p slot = some { l with st := .aborted, pendingAbort := some { kind := 19, slot := slot, gtr := s.gtrOf sDie } }) ∧
      (∀ slot, (∀ x ∈ q.launches, x.1 = slot → x.2.vf ≠ some vf) → t.launch? p slot = q.launches.get slot))) ∧
  (∀ (s : State) (vf t0 : Nat), vf < 128 →
    let v := s.host.vfs.getD vf {}
    v.resetAt = some t0 →
    (s.gtrOf sDie < t0 → Completes (.quiesceDeadline (128 + vf)) s fun t => t = s) ∧
    (t0 ≤ s.gtrOf sDie → (∀ x ∈ s.parts, x.2.vfLaunches vf = []) → s.net.turns = [] → Completes (.quiesceDeadline (128 + vf)) s fun t =>
      t.host.vfs.getD vf {} = { v with cqbase := 0, cqsize := 0, cqhead := 0, cqtail := 0, queue := [], resetAt := none } ∧ t.mem = s.mem ∧
      ((∀ x ∈ s.cores, ∀ j ∈ x.2.jobs, j.vf ≠ some vf) → t.ctxs = s.ctxs ∧ t.parts = s.parts) ∧ (∀ k, ∀ j ∈ (t.core k).jobs, j.vf ≠ some vf) ∧
      (s.mgmt.busy = true → s.mgmt.busyPart = 2 ^ 21 + vf → t.Reports 0 []) ∧
      ∀ k i m, i ∈ (t.core k).orderLo → (t.core k).boxLo.get i = some m → m.vf ≠ some vf))

/-- R259 and R341 to R343, with R181 and R199 for the gate, R201 for a refused chunk and R174 for the increment; the model's choices are those of log 25 for what goes to the other ranks,
for a refusal and for an ending that must wait, and of log 57 for the gate's wait; the bytes are spelled out where no host memory backs the words. -/
def Obligations.CollectivesFoldAndEnd : Prop :=
  (∀ (s : State) (p slot : Nat) (desc : List Word) (q : Part), s.MailboxFree → slot < 64 → desc.length = 8 → s.parts.get p = some q → q.st ≠ .ended → s.collGood p desc = true →
    ((∀ c : CollSlot, s.coll? p slot = some c → c.open_ = false ∧ c.due = none) → Completes (.collWrite p slot desc) s fun t => t.Reports 0 [] ∧ t.coll? p slot = some { desc := desc } ∧
      (∀ k, k ≠ slot → t.coll? p k = s.coll? p k)) ∧
    (∀ c : CollSlot, s.coll? p slot = some c → c.open_ = true → Completes (.collWrite p slot desc) s fun t => t.Reports 1 [] ∧ t.parts = s.parts)) ∧
  (∀ (s : State) (p slot : Nat) (c : CollSlot) (e : RightsEntry), s.coll? p slot = some c → c.open_ = false → c.given = false → c.withdrawn = false → c.due = none →
    let gate := (c.word 4).toNat
    let lf := s.lf p sDie
    let port := Config.collPort (bitsOf (c.word 0) 0 8) 0 % 8
    (c.gateSent ≠ none → Completes (.collStart p slot) s fun t => t = s) ∧
    (∀ (v : Nat) (w : Stamp) (s1 : State), c.gateSent = none → isMemory gate = true → s.rightsFor c.domain gate = some e → e.r = true →
      s.fetchAt p none none lf e.attr (!e.w) gate 8 = (.got v w false, s1) →
      (v < (c.word 5).toNat → Completes (.collStart p slot) s fun t => t.coll? p slot = some { c with gateSent := some (s.gtrOf sDie), gateUnrecorded := false } ∧ t.mem = s.mem ∧
        t.ctxs = s.ctxs ∧ ∃ f : Flight, t.net.flights = s.net.flights ++ [f] ∧ f.kind = .wait (.word gate) gate (c.word 5) 0 (.coll slot) ∧ f.ctx = collCtx p slot ∧ f.part = p) ∧
      (∀ xs s2, (c.word 5).toNat ≤ v → 0 < c.count → c.count ≤ c.perChunk → s1.coll? p slot = some c →
        s1.collRead p c.domain (maxStamp lf w) (c.word 2).toNat c.size c.count = ((some xs, .done), s2) → xs.length = c.count → s2.coll? p slot = some c →
        (c.rank = 0 → c.fold = [] → c.nextRank = [] → c.buffered = [] → Completes (.collStart p slot) s fun t => t.mem = s2.mem ∧ ∃ c' : CollSlot, t.coll? p slot = some c' ∧
          c'.desc = c.desc ∧ c'.open_ = true ∧ c'.given = true ∧ c'.openedAt = s1.gtrOf sDie ∧ c'.clock = maxStamp lf w ∧ c'.fold.get 0 = some xs ∧ c'.nextRank.get 0 = some 1) ∧
        (c.rank ≠ 0 → Completes (.collStart p slot) s fun t => t.mem = s2.mem ∧ t.coll? p slot = some { c with
            open_ := true, openedAt := s1.gtrOf sDie, clock := maxStamp lf w, given := true, kept := [xs] } ∧
          t.port port = (s2.port port).send 0 (pieces 244 (elementBytes c.size xs)))))) ∧
  (∀ (s : State) (p slot n : Nat) (c : CollSlot) (f : Flight) (v : Word) (w : Stamp) (unrec : Bool), s.flight? n = some f → f.part = p →
    f.kind = .wake (.word (c.word 4).toNat) v w (.coll slot) unrec → s.inOrder n = true → s.coll? p slot = some c → c.gateSent ≠ none → unrec = false ∨ c.word 5 ≤ v →
    Completes (.waitWake n) s fun t => t.coll? p slot = some { c with gateSent := none } ∧ t.mem = s.mem ∧ t.net.flights = s.net.flights.eraseIdx n) ∧
  (∀ (s : State) (p slot rank chunk : Nat) (data : List Word) (c : CollSlot), s.coll? p slot = some c → c.rank = 0 → rank < c.nrank → chunk < c.chunks →
    data.length = Nat.min c.perChunk (c.count - chunk * c.perChunk) →
    let waits := c.nextRank.getD chunk 0 < rank ∧ ∀ b ∈ c.buffered, b.1 ≠ rank ∨ b.2.1 ≠ chunk
    let bytes := (c.buffered.map fun b => b.2.2.length * c.size).sum + data.length * c.size
    let port := Config.collPort (bitsOf (c.word 0) 0 8) rank % 8;
    (c.withdrawn = true ∨ c.due ≠ none → Completes (.collChunk p slot rank chunk data) s fun t => t = s) ∧
    (c.withdrawn = false → c.due = none →
      (c.open_ = false ∨ (waits ∧ 4194304 < bytes) → Completes (.collChunk p slot rank chunk data) s fun t =>
        t.port port = (s.port port).send 0 (pieces 244 (elementBytes 8 [BitVec.ofNat 64 (15 + chunk * 2 ^ 24)])) ∧ (∀ i, i ≠ port → t.port i = s.port i) ∧
        { t with zwion := s.zwion } = s) ∧
      (∀ ys, c.open_ = true → c.type = 2 → c.nextRank.getD chunk 0 = rank → c.fold.get chunk = some ys → (∀ b ∈ c.buffered, b.1 ≠ rank + 1 ∨ b.2.1 ≠ chunk) →
        Completes (.collChunk p slot rank chunk data) s fun t => t.mem = s.mem ∧ ∃ c' : CollSlot, t.coll? p slot = some c' ∧ c'.nextRank.get chunk = some (rank + 1) ∧
          c'.flags = c.flags ∧ c'.buffered = c.buffered ∧ c'.fold.get chunk = some ((ys.zip data).map fun v =>
            if c.op = 0 then v.1 + v.2 else if c.op = 1 then (if v.2.toInt < v.1.toInt then v.2 else v.1) else if v.1.toInt < v.2.toInt then v.2 else v.1)) ∧
      (c.open_ = true → waits → bytes ≤ 4194304 →
        Completes (.collChunk p slot rank chunk data) s fun t => t.coll? p slot = some { c with buffered := c.buffered ++ [(rank, chunk, data)] } ∧ t.mem = s.mem))) ∧
  (∀ (s : State) (p slot : Nat) (c : CollSlot), s.coll? p slot = some c → c.withdrawn = false → c.rank ≠ 0 →
    let becomes (c' : CollSlot) (t : State) := t.coll? p slot = some c' ∧ t.mem = s.mem ∧ t.zwion = s.zwion
    let port := Config.collPort (bitsOf (c.word 0) 0 8) 0 % 8;
    (∀ (r : List Word) (f : BitVec 5) (peer : BitVec 8), c.open_ = true →
      Completes (.collResult p slot r f 15 peer) s (becomes { c with refused := c.refused ++ [((r.getD 0 0).toNat, s.gtrOf sDie)] })) ∧
    (∀ (chunk t0 : Nat), c.refused = [(chunk, t0)] → c.due = none →
      (t0 + 16000 ≤ s.gtrOf sDie → Completes (.collDeadline p slot) s fun t => t.coll? p slot = some { c with refused := [] } ∧ t.mem = s.mem ∧
        t.port port = (s.port port).send 0 (pieces 244 (elementBytes c.size (c.kept.getD chunk [])))) ∧
      (s.gtrOf sDie < t0 + 16000 → Completes (.collDeadline p slot) s (becomes c))) ∧
    (∀ (r : List Word) (f : BitVec 5) (ending : BitVec 4) (peer : BitVec 8), 1 ≤ ending.toNat → ending.toNat ≤ 4 →
      (0 < c.echo → Completes (.collResult p slot r f ending peer) s (becomes { c with echo := c.echo - 1 })) ∧
      (∀ code fl res told, c.echo = 0 → c.due = some (code, c.rank, fl, res, told) → told = 3 ∨ told = 4 →
        Completes (.collResult p slot r f ending peer) s (becomes { c with due := some (code, c.rank, fl, res, 0) })))) ∧
  (∀ (s s1 s2 : State) (p slot : Nat) (c : CollSlot), s.coll? p slot = some c →
    let noHost (a : Nat) := ∀ sl, s.hostKey sl p a = none
    let l := maxStamp c.clock (s.lf p sDie)
    let done := (c.word 6).toNat
    let gate := (c.word 4).toNat
    let increments (u v : State) := u.collUpdate p c.domain (l + 1) done 8 true (fun x => (x.mem.readNat done 8 + 1) % 2 ^ 64) = (.done, v)
    let status (code peer : Nat) (f : BitVec 5) := peer * 2 ^ 24 + f.toNat * 256 + code
    let closed (told peer : Nat) (t : State) := t.coll? p slot = some { desc := c.desc.set 5 (c.word 5 + 1), withdrawn := c.withdrawn,
                                                                         echo := c.echo + if c.rank ≠ 0 ∧ (told = 3 ∨ told = 4) ∧ peer = c.rank then 1 else 0 };
    (∀ (ending : BitVec 4) (peer : BitVec 8) (f : BitVec 5) (r : List Word),
      let k := ending.toNat
      let from_ := if ending = 2 then 0xFF else peer.toNat
      let st := status k from_ f
      let writes (told : Nat) (t : State) := closed told from_ t ∧ t.mem = s2.mem ∧ (noHost done → noHost (done + 8) →
        t.mem = (s.mem.writeNat (done + 8) 8 st).writeNat done 8 (((s.mem.writeNat (done + 8) 8 st).readNat done 8 + 1) % 2 ^ 64))
      2 ≤ k → k ≤ 4 →
      (c.withdrawn = false → c.due = none → c.rank = 0 ∨ c.echo = 0 → s.collStore p c.domain (l + 1) (done + 8) 8 st = (.wait, s1) → Completes (.collResult p slot r f ending peer) s fun t =>
        t.coll? p slot = some { c with due := some (k, from_, f, [], k) } ∧ t.mem = s1.mem) ∧
      (s.collStore p c.domain (l + 1) (done + 8) 8 st = (.done, s1) → increments s1 s2 →
        (c.withdrawn = false → c.due = none → c.rank = 0 ∨ c.echo = 0 → Completes (.collResult p slot r f ending peer) s (writes k)) ∧
        (c.withdrawn = false → c.due = none → c.open_ = false → c.given = false → c.gateSent = none → isMemory gate = false ∨ s.rightsFor c.domain gate = none → k = 4 → f = 0 →
          peer.toNat = c.rank → Completes (.collStart p slot) s (writes 4)) ∧
        (∀ told, c.due = some (k, from_, f, [], told) → Completes (.collDeadline p slot) s (writes told)))) ∧
    (∀ (peer : BitVec 8) (f : BitVec 5) (v : Word) (s0 : State),
      let m0 := s.mem.writeNat (c.word 3).toNat c.size v.toNat
      let m1 := m0.writeNat (done + 8) 8 (status 1 0xFF f)
      c.open_ = true → c.withdrawn = false → c.due = none → c.echo = 0 → c.rank ≠ 0 → c.count = 1 → s.collStore p c.domain l (c.word 3).toNat c.size v.toNat = (.done, s0) →
      s0.collStore p c.domain (l + 1) (done + 8) 8 (status 1 0xFF f) = (.done, s1) → increments s1 s2 → Completes (.collResult p slot [v] f 1 peer) s fun t => closed 1 0xFF t ∧
        t.mem = s2.mem ∧ (noHost (c.word 3).toNat → noHost done → noHost (done + 8) → t.mem = m1.writeNat done 8 ((m1.readNat done 8 + 1) % 2 ^ 64))) ∧
    (c.open_ = true → c.due = none → c.rank = 0 → c.folded = false → c.openedAt + 32000000 ≤ s.gtrOf sDie →
      let st := status 2 0xFF c.flags
      s.collStore p c.domain (l + 1) (done + 8) 8 st = (.done, s1) → increments s1 s2 → Completes (.collDeadline p slot) s fun t => closed 2 0xFF t ∧
        (let port := Config.collPort (bitsOf (c.word 0) 0 8) 1 % 8
         c.nrank = 2 → t.port port = (s.port port).send 0 (pieces 244 (elementBytes 8 [BitVec.ofNat 64 st]))) ∧
        t.mem = s2.mem ∧ (noHost done → noHost (done + 8) →
          t.mem = (s.mem.writeNat (done + 8) 8 st).writeNat done 8 (((s.mem.writeNat (done + 8) 8 st).readNat done 8 + 1) % 2 ^ 64))))
/-- R328 to R330. What is signed and with which bytes is the model's opaque choice, and so is that the device identity key signs the answer to CHALLENGE (log 13). -/
def Obligations.PrimroseAnswersRequests : Prop :=
  ∀ (s : State) (fn : Nat), s.mgmt.main = true → fn = 0 ∨ (fn ≤ 128 ∧ s.mgmt.step = 9 ∧ s.mgmt.lifecycle = .deployed) →
    let x := s.spdm fn
    let cert := Config.certificate (Config.digest s.mgmt.fwImage)
    let gives (y : Spdm) (a : SpdmAnswer) (t : State) := t = { s with trust := { s.trust with sessions := s.trust.sessions.set fn { y with answers := a :: x.answers } } };
    (Completes (.getVersion fn) s (gives { x with stage := 1, exchanged := false, inSession := false } (.version 0x13))) ∧
    (1 ≤ x.stage → Completes (.getCapabilities fn) s (gives { x with stage := Nat.max x.stage 2 } .capabilities)) ∧
    (x.stage = 0 → Completes (.getCapabilities fn) s (gives x (.error false))) ∧
    (2 ≤ x.stage → Completes (.negotiateAlgorithms fn true true) s (gives { x with stage := 3 } .algorithms)) ∧
    (∀ p h, x.stage < 2 ∨ p = false ∨ h = false → Completes (.negotiateAlgorithms fn p h) s (gives x (.error false))) ∧
    (3 ≤ x.stage →
      Completes (.getDigests fn) s (gives x (.digests (Config.digest cert))) ∧
      Completes (.getCertificate fn 0) s (gives x (.certificate cert)) ∧
      (∀ slot, slot ≠ 0 → Completes (.getCertificate fn slot) s (gives x (.error false))) ∧
      (∀ nonce, Completes (.challenge fn nonce) s (gives x (.challengeAuth (Config.sign (Config.digest (cert ++ nonce)))))) ∧
      (∀ share, Completes (.keyExchange fn share) s (gives { x with exchanged := true, inSession := false } (.keyExchange (Config.keyShare share)))) ∧
      (x.exchanged = true → Completes (.finish fn true) s (gives { x with exchanged := false, inSession := true } .finished)) ∧
      (∀ ok, x.exchanged = false ∨ ok = false → Completes (.finish fn ok) s (gives x (.error false))) ∧
      (x.inSession = true → Completes (.endSession fn) s (gives { x with inSession := false } .ended)) ∧
      (x.inSession = false → Completes (.endSession fn) s (gives x (.error false))) ∧
      (∀ index nonce text, s.blockText fn index = some text → Completes (.getMeasurements fn index nonce) s (gives x (.measurements [(index, Config.digest text)]
        (Config.signMeasured (Config.digest s.mgmt.fwImage) (Config.digest (Config.digest text ++ nonce)))))) ∧
      (∀ nonce, Completes (.getMeasurements fn 4 nonce) s (gives x (.measurements
        [(4, Config.digest (wordBytes [BitVec.ofNat 64 s.mgmt.minVersion, BitVec.ofNat 64 s.mgmt.fwVersion]))]
        (Config.signMeasured (Config.digest s.mgmt.fwImage)
          (Config.digest (Config.digest (wordBytes [BitVec.ofNat 64 s.mgmt.minVersion, BitVec.ofNat 64 s.mgmt.fwVersion]) ++ nonce)))))) ∧
      (∀ nonce, fn = 0 → Completes (.getMeasurements fn 7 nonce) s (gives x (.error false))) ∧
      (∀ stream key, x.inSession = true → Completes (.ideKeyProgramming fn stream key) s fun t =>
        t.trust.ideKeys = (stream, key) :: s.trust.ideKeys.filter (fun k => k.1 != stream) ∧ t.spdm fn = { x with answers := .ideProgrammed :: x.answers } ∧
        { t with trust := s.trust } = s) ∧
      (∀ stream key, x.inSession = false → Completes (.ideKeyProgramming fn stream key) s (gives x (.error false)))) ∧
    (x.stage < 3 → Completes (.getDigests fn) s (gives x (.error false)) ∧ (∀ nonce, Completes (.challenge fn nonce) s (gives x (.error false))) ∧
      ∀ share, Completes (.keyExchange fn share) s (gives x (.error false))) ∧
    (∀ rest, s.agenda = .otherRequest fn :: rest → step s = .next { s with agenda := rest, trust := { s.trust with sessions := s.trust.sessions.set fn { x with answers := .error true :: x.answers } } })

/-- R369 and R373 to R375. That MBDATA keeps the command's input under its output is the model's choice (log 27), and so is the layout of the output (log 40). -/
def Obligations.MailboxCommandsReport : Prop :=
  (∀ (s : State), s.mgmt.main = true → s.mgmt.busy = false →
    let same (t : State) := { t with mgmt := s.mgmt } = s;
    (Completes .getStatus s fun t => same t ∧ t.Reports 0
      ([BitVec.ofNat 64 (s.mgmt.detail.toNat * 65536 + s.mgmt.error.toNat * 256 + s.mgmt.step.toNat), BitVec.ofNat 64 s.mgmt.capNext, BitVec.ofNat 64 s.mgmt.powerEstimate] ++
        (List.range 256).map fun k => BitVec.ofNat 64 (s.sensorOn (k / 16) (k % 16)))) ∧
    (Completes .readErrors s fun t => same t ∧ t.Reports 0 ((List.range 65).map fun d => BitVec.ofNat 64 (s.die d).errors)) ∧
    (s.mgmt.step ≠ 9 → (Completes .getClocks s fun t => same t ∧ t.Reports 2 []) ∧ (∀ w, Completes (.setCap w false) s fun t => t.Reports 2 [] ∧ t.mgmt.capNext = s.mgmt.capNext) ∧
      ∀ p, Completes (.readAbortLog p) s fun t => same t ∧ t.Reports 2 [])) ∧
  (∀ (s : State), s.MailboxFree →
    let same (t : State) := { t with mgmt := s.mgmt } = s;
    (Completes .getClocks s fun t => same t ∧ t.Reports 0 ((List.range 16).map fun d => BitVec.ofNat 64 (s.die d).step)) ∧
    (∀ page c, s.disabled = [c] → c < 131072 → page < 4 →
      let b := c / 8192 * 8192 + c % 64 * 128 + c % 8192 / 64
      Completes (.readDisableMap page) s fun t => same t ∧ t.Reports 0 ((List.range 512).map fun w => if page * 512 + w = b / 64 then BitVec.ofNat 64 (2 ^ (b % 64)) else 0)) ∧
    (∀ page, 4 ≤ page → Completes (.readDisableMap page) s fun t => same t ∧ t.Reports 4 []) ∧
    (∀ p, s.parts.get p = none → Completes (.readAbortLog p) s fun t => same t ∧ t.Reports 1 []) ∧
    (∀ p q r rest, s.parts.get p = some q → q.aborts = r :: rest → Completes (.readAbortLog p) s fun t => same t ∧ t.mgmt.busy = false ∧ t.mgmt.code = 0 ∧ t.mgmt.length = 4096 ∧
      t.mgmt.mbdata.take 6 = [BitVec.ofNat 64 (r.kind * 2 ^ 24 + (if r.noLaunch then 256 else 0) + r.slot), r.tid, r.pc, r.addr, r.val, BitVec.ofNat 64 r.gtr]) ∧
    (∀ w, 4000 ≤ w → w ≤ 7500 → Completes (.setCap w false) s fun t => same t ∧ t.Reports 0 [] ∧ t.mgmt.capNext = w ∧ t.mgmt.cap = s.mgmt.cap) ∧
    (∀ w, w < 4000 ∨ 7500 < w → Completes (.setCap w false) s fun t => same t ∧ t.Reports 1 [] ∧ t.mgmt.capNext = s.mgmt.capNext) ∧
    (∀ (target : BitVec 2) key, s.mgmt.lifecycle.after = lifeCode target → Completes (.lifecycle target true key) s fun t => same t ∧ t.mgmt.busy = true ∧
      t.mgmt.nextLife = some (lifeCode target, key) ∧ t.mgmt.wipePending = true ∧ t.mgmt.lifecycle = s.mgmt.lifecycle) ∧
    (∀ (target : BitVec 2) signed key, signed = false ∨ s.mgmt.lifecycle.after ≠ lifeCode target → Completes (.lifecycle target signed key) s fun t => same t ∧ t.Reports 1 [] ∧
      t.mgmt.nextLife = s.mgmt.nextLife) ∧
    (Completes (.raiseCounter true) s fun t => same t ∧ t.Reports 0 [] ∧ t.mgmt.minVersion = Nat.max s.mgmt.minVersion s.mgmt.fwVersion) ∧
    (Completes (.raiseCounter false) s fun t => same t ∧ t.Reports 1 [] ∧ t.mgmt.minVersion = s.mgmt.minVersion) ∧
    (∀ op : BitVec 16, op.toNat ∉ [0x01, 0x02, 0x03, 0x04, 0x10, 0x11, 0x12, 0x13, 0x14, 0x15, 0x18, 0x19, 0x1A, 0x20, 0x21, 0x28, 0x30, 0x31, 0x38, 0x40, 0x41, 0x7F] →
      Completes (.unknownOpcode op) s fun t => same t ∧ t.Reports 3 [])) ∧
  (∀ (s : State) (w : Nat), (4000 ≤ w → w ≤ 7500 → Completes (.setCap w true) s fun t => t = { s with mgmt := { s.mgmt with capNext := w } }) ∧
    (w < 4000 ∨ 7500 < w → Completes (.setCap w true) s fun t => t = s)) ∧
  (∀ (s : State) (rest : List Move),
    let status : List Word := [BitVec.ofNat 64 (s.mgmt.detail.toNat * 65536 + s.mgmt.error.toNat * 256 + s.mgmt.step.toNat), BitVec.ofNat 64 s.mgmt.capNext,
      BitVec.ofNat 64 s.mgmt.powerEstimate] ++ (List.range 256).map fun k => BitVec.ofNat 64 (s.sensorOn (k / 16) (k % 16))
    (s.agenda = .i3cRead :: rest → step s = .next { s with agenda := rest, mgmt := { s.mgmt with i3cData := status } }) ∧
    (∀ i v, s.agenda = .mailboxData i v :: rest → s.mgmt.main = true → i < 512 → ∃ t, step s = .next t ∧ t.mgmt.mbdata.getD i 0 = v ∧
      (∀ k, k ≠ i → t.mgmt.mbdata.getD k 0 = s.mgmt.mbdata.getD k 0) ∧ { t with mgmt := { t.mgmt with mbdata := s.mgmt.mbdata } } = { s with agenda := rest })) ∧
  (∀ (s : State), s.mgmt.busy = true → Completes .getStatus s (fun t => t = s) ∧ Completes .getClocks s (fun t => t = s) ∧ Completes .readErrors s (fun t => t = s) ∧
    (∀ w, Completes (.setCap w false) s fun t => t = s) ∧ (∀ op, Completes (.unknownOpcode op) s fun t => t = s))
/-- R37, R42, R76 and R116. The agenda is the model's own input (log 3), soft errors on it too (log 56), and late issue turns, for stores, for LAUNCH, for loads of LM and for loads that
the core's own cache could answer (log 7). That the newest 64 words fetched run in memory's place (log 28), the order at a boundary (log 54) and the scoreboard's count (log 58) are the
model's choices. -/
def Obligations.StepRunsTheDecodedInstruction : Prop :=
  (∀ (s : State) (core id off : Nat) (rest : List Move),
    let k := s.core core
    let bytes := (List.range 4).map fun i => s.mem.read (lmAddr core (off + i))
    let word : IWord := BitVec.ofNat 32 (s.mem.readNat (lmAddr core off) 4)
    let ready (fetch : List (Nat × IWord)) (t : State) := t.cur = id ∧ t.agenda = rest ∧ t.core core = { k.takeTurn (numberOf id) with fetch := fetch } ∧
      (∀ i, i ≠ core → t.core i = s.core i) ∧ { t with cur := s.cur, agenda := s.agenda, cores := s.cores } = s;
    s.agenda = .issue core :: rest → s.mgmt.main = true → s.issueFrom core = some id → coreOf id = core → s.homeOf id = core →
    placeOf core (s.ctx id).pc = .lm core off → s.enabled core = true → off < k.scratchEnd → (s.ctx id).migrated = false → (s.ctx id).comps = [] →
    s.isDet (s.ctx id).partNo = false →
    (∀ x : DueTrap, (s.ctx id).due = some x → (s.ctx id).pend = [] → s.answersOut id = false → ∃ t, step s = .next (t.takeDue id x) ∧ ready k.fetch t) ∧
    ((s.ctx id).due = none → s.scoreboard core < 32 →
    ((∀ x ∈ k.fetch, x.1 ≠ off) → s.poisoned (lmAddr core off) 4 = false →
      (∀ i, decodeBytes bytes = some i → (s.ctx id).blocked i = false →
        ∃ t, step s = exec i t ∧ ready ((k.fetch ++ [(off, word)]).drop (k.fetch.length + 1 - 64)) t) ∧
      (decodeBytes bytes = none → ∃ t, step s = exec (.illegalInstruction word) t ∧ ready ((k.fetch ++ [(off, word)]).drop (k.fetch.length + 1 - 64)) t)) ∧
    (∀ w i, k.fetch.find? (fun x => x.1 == off) = some (off, w) → decodeBytes (bytesOf 4 w.toNat) = some i → (s.ctx id).blocked i = false →
      ∃ t, step s = exec i t ∧ ready k.fetch t))) ∧
  (∀ (s : State) (e : Instr) (rest : List Move), s.agenda = .event e :: rest → e.isWord = false → step s = exec e { s with agenda := rest }) ∧
  (∀ (s : State) (n : Nat) (rest : List Move), s.agenda = .tick n :: rest → ∃ t, step s = .next t ∧ t.agenda = rest ∧ t.mem = s.mem ∧ (s.mgmt.isobar = false → t.cores = s.cores) ∧
    (s.mgmt.slew = 0 → (∀ x ∈ s.dies, x.2.locked = true → -64 ≤ x.2.offset ∧ x.2.offset ≤ 64 ∧ -64 ≤ x.2.offset + x.2.slew ∧ x.2.offset + x.2.slew ≤ 64) → t.gtr = s.gtr + n)) ∧
  (∀ (s : State) (core : Nat) (rest : List Move), s.agenda = .issueLate core :: rest → s.mgmt.main = true →
    step s = Answer.onTime (State.issueCore { s with agenda := rest, late := true } core)) ∧
  (∀ (s : State) (core : Nat) (rest : List Move), s.agenda = .issue core :: rest → s.mgmt.main = false → step s = .fault .mainOff) ∧
  (∀ (s : State) (u : Upset) (c : Bool) (rest : List Move), s.agenda = .upset u c :: rest →
    step s = if s.mgmt.main then execUpset u c { s with agenda := rest } else .next { s with agenda := rest }) ∧
  (∀ (s : State) (fn : Nat) (rest : List Move), s.agenda = .otherRequest fn :: rest → step s = .next ({ s with agenda := rest }.otherRequest fn))

/-- The encodings that R74, R75, R78 and the worked programs print. -/
def Obligations.PrintedWordsDecode : Prop :=
  decode 0x00000000 = none ∧
  decode 0x01EF600F = some (.mul 15 15 12) ∧
  decode 0x08000000 = some .nop ∧
  decode 0x08848004 = some (.addi 4 4 0x8004) ∧
  decode 0x218C000F = some (.slli 12 12 15) ∧
  decode 0x216A0049 = some (.srli 11 10 9) ∧
  decode 0x4864FFFD = some (.blt 3 4 0xFFFD) ∧
  decode 0x60130080 = some (.waitt 19) ∧
  decode 0x640E1038 = some (.crw 0 14 0x038) ∧
  decode 0x6A404001 = some (.radvh 18 0 0 1) ∧
  decode 0x6C880004 = some (.rld 4 0 1 0 0 4) ∧
  decode 0x752A5904 = some (.sendLo 9 10 11 4) ∧
  decode 0x7676C8C0 = some (.gamoD 19 22 25) ∧
  decode 0x7617_0180 = some (.xpush 16 23) ∧
  decode 0x7E196941 = some (.mma 16 25 13 10 1) ∧
  decode 0x99F61908 = some (.ld 15 22 0 1 2 1 8) ∧
  decode 0xB5362802 = some (.sd 9 22 2 2 0 2) ∧
  decode 0xCCEB0000 = some (.sde 7 11 0 0) ∧
  decode 0xD00C1002 = some (.fesetF 12 2) ∧
  decode 0xD8160000 = some (.ppurge 22 0 0) ∧
  decode 0xE4D00057 = some (.vsplat 6 16 0 2) ∧
  decode 0xEE020113 = some (.fmvgf 16 2 1) ∧
  decode 0xF422_0804 = some (.vcvt 1 2 1 0 0 4) ∧
  decode 0xF8A6180B = some (.vfma 5 6 3 0 0 1) ∧
  decode 0xFC440008 = some (.vfredSum 2 4 0 0 1)

/-- R42 and the encoding tables R44 to R57: no bit of a word is dropped, and no two words mean the same. -/
def Obligations.EncodingsRoundTrip : Prop :=
  (∀ i : Instr, i.isWord = true → i.wf = true → encode i < 2 ^ 32 ∧ decode (encode i) = some i ∧ decodeBytes (bytesOf 4 (encode i)) = some i) ∧
  (∀ (w : Nat) (i : Instr), decode w = some i → i.isWord = true ∧ i.wf = true ∧ encode i = w)

/-- R154 with R153, R20, R33 and R307, on one instruction of each kind. -/
def Obligations.AccessesAreClassified : Prop :=
  ∀ (s : State) (d a b : Reg) (r : BitVec 2) (o1 : BitVec 1) (o sc h : BitVec 2) (h1 : BitVec 1) (x : BitVec 8) (i : Instr) (kind : AccessKind) (addr : Word),
    s.CanTrap → s.detHere = false →
    (i = .ld d a r o1 sc h x ∧ kind = .load ∧ addr = s.rdG a + x.signExtend 64 * 8) ∨ (i = .sd d a o sc h1 x ∧ kind = .store ∧ addr = s.rdG a + x.signExtend 64 * 8) ∨
      (i = .aadd d a b o sc 1 ∧ kind = .atomic ∧ addr = s.rdG a) →
    let traps (code : BitVec 8) := Completes i s (TakesTrap s code addr addr s.here.pc)
    let withPlb (plb : List (Nat × RightsEntry)) := s.onCore s.execCore fun k => { k with plb := plb }
    let entry := match (s.core s.execCore).plb.find? fun p => p.1 == s.here.accessDomain && p.2.holds addr.toNat with
      | some p => some p.2
      | none => s.rightsFor s.here.accessDomain addr.toNat;
    (placeOf s.homeCore addr = .unmapped → traps 6) ∧
    (∀ core off, placeOf s.homeCore addr = .lm core off →
      let admitted := s.enabled core = true ∧ ((core = s.homeCore ∧ off < (s.core core).scratchEnd) ∨ (core ≠ s.homeCore ∧ s.inPart s.here.partNo core = true ∧
        (kind = .load → clusterOf core = clusterOf s.execCore ∧ off < (s.core core).scratchEnd) ∧ (core = s.execCore → off < (s.core core).scratchEnd)))
      (s.enabled core = false → traps 6) ∧
      (s.enabled core = true → core = s.homeCore → (s.core core).scratchEnd ≤ off → traps 4) ∧
      (s.enabled core = true → core ≠ s.homeCore → s.inPart s.here.partNo core = false → traps 4) ∧
      (s.enabled core = true → core ≠ s.homeCore → kind = .load → clusterOf core ≠ clusterOf s.execCore → traps 4) ∧
      (s.enabled core = true → core ≠ s.homeCore → kind = .load → (s.core core).scratchEnd ≤ off → traps 4) ∧
      (s.enabled core = true → core ≠ s.homeCore → core = s.execCore → (s.core core).scratchEnd ≤ off → traps 4) ∧
      (admitted → addr.toNat % 8 ≠ 0 → traps 3) ∧
      (admitted → addr.toNat % 8 = 0 → s.locate s.cur kind addr 8 = (.lm core off, s))) ∧
    (placeOf s.homeCore addr = .memory →
      (entry = none → traps 4) ∧
      (∀ e, entry = some e →
        (kind ≠ .store ∧ e.r = false ∨ kind ≠ .load ∧ e.w = false → ∃ plb, Completes i s (TakesTrap (withPlb plb) 4 addr addr s.here.pc)) ∧
        ((kind = .store ∨ e.r = true) → (kind = .load ∨ e.w = true) →
          (addr.toNat % 8 ≠ 0 → ∃ plb, Completes i s (TakesTrap (withPlb plb) 3 addr addr s.here.pc)) ∧
          (addr.toNat % 8 = 0 → ∃ plb, s.locate s.cur kind addr 8 = (.memory e, withPlb plb)))))

/-- The invariant of the memory's form that the statements about bytes rest on. -/
def Obligations.MemoryFormIsKept : Prop := ∀ s t : State, s.memWf → Steps s t → t.memWf

/-- The reset values of R77, R149 and R372, with the model's own: the general registers (log 1), and the bytes of memory and LM before the module wipe (log 2). -/
def Obligations.ResetLeavesWhatTheManualGives : Prop :=
  let s := State.reset
  s.memWf ∧ s.mgmt.main = true ∧ s.mgmt.step = 1 ∧ s.mgmt.error = 0 ∧ (∀ p, s.parts.get p = none) ∧ (∀ d, s.domains.get d = none) ∧ (∀ a, s.walk a = .missing) ∧
  (∀ i, s.saved.get i = none) ∧
  (∀ id, (s.ctx id).st = .free ∧ (∀ n, (s.ctx id).rdG n = 0 ∧ (s.ctx id).rdF n = 0 ∧ (s.ctx id).rdV n = 0) ∧ (s.ctx id).rdK 0 = 0xFFFF ∧
    (s.ctx id).cr.fflags = 0 ∧ (s.ctx id).cr.ftrapen = 0 ∧ (s.ctx id).cr.frm = 0 ∧ (s.ctx id).cr.trapvec = 0 ∧ (s.ctx id).cr.trappc = 0 ∧ (s.ctx id).cr.trapcause = 0 ∧
    (s.ctx id).cr.trapaddr = 0 ∧ (s.ctx id).cr.trapval = 0 ∧ (s.ctx id).cr.xferid = 0 ∧ (s.ctx id).cr.xien = 0 ∧ (s.ctx id).cr.pset = 0 ∧ (s.ctx id).cr.pres = 0 ∧
    (s.ctx id).cr.bounceq = 0 ∧ (s.ctx id).cr.bounces = 0 ∧ (s.ctx id).cr.jobst = 0) ∧
  (∀ i, (s.core i).pquota = 8 ∧ (s.core i).mboxd = 8 ∧ (s.core i).hlimit = 65536 ∧ (s.core i).traceb = 0 ∧ (s.core i).tracen = 0 ∧ ∀ q, (s.core i).rings.getD q 0 = 0) ∧
  (∀ d, (s.die d).locked = false ∧ (s.die d).bound = 0xFFF) ∧ (∀ a, s.mem.read a = 0 ∧ s.full a = true ∧ ∀ n, s.poisoned a n = false)

/-- R304, R308, R311, R312 and R318 give these changes to stewards and to management commands alone. -/
def Obligations.ProgramsCannotTouchWhatStewardsKeep : Prop :=
  ∀ (s t : State) (i : Instr), i.isWord = true → exec i s = .next t →
    t.domains = s.domains ∧ t.pte = s.pte ∧ t.mgmt = s.mgmt ∧ t.disabled = s.disabled ∧ t.saved = s.saved ∧ t.dies = s.dies ∧ t.trust = s.trust ∧ t.zwion = s.zwion ∧
    t.gtr = s.gtr ∧ (∀ p, t.parts.get p = none ↔ s.parts.get p = none) ∧
    ∀ p q', t.parts.get p = some q' → ∃ q : Part, s.parts.get p = some q ∧ q'.qx0 = q.qx0 ∧ q'.qy0 = q.qy0 ∧ q'.qw = q.qw ∧ q'.qh = q.qh ∧ q'.det = q.det ∧
      q'.tick = q.tick ∧ q'.weight = q.weight ∧ q'.phaseGroup = q.phaseGroup ∧ q'.vfs = q.vfs ∧ q'.st = q.st ∧ q'.regions = q.regions
end

