-- ==== Sys2Proof/Laws/Fmap.lean ====
section
/-!
SUPPORT. Laws of finite maps: a read after a write gives the value written, and a write leaves every other key alone.
They hold of every list, whether or not its keys rise.
-/
namespace Sys2Proof.Machine

theorem FMap.get_set_self {β : Type} (m : FMap β) (j : Nat) (v : β) : FMap.get (FMap.set m j v) j = some v := by
  induction m with
  | nil => simp [FMap.set, FMap.get]
  | cons p m ih =>
    obtain ⟨k, w⟩ := p
    simp only [FMap.set]
    split
    · simp [FMap.get]
    · split
      · simp [FMap.get]
      · simp [FMap.get, *]

theorem FMap.get_set_ne {β : Type} (m : FMap β) {i j : Nat} (h : i ≠ j) (v : β) :
    FMap.get (FMap.set m j v) i = FMap.get m i := by
  induction m with
  | nil => simp [FMap.set, FMap.get, h]
  | cons p m ih =>
    obtain ⟨k, w⟩ := p
    simp only [FMap.set]
    split
    · simp [FMap.get, h]
    · split
      · rename_i hk
        simp [FMap.get, h, ← hk]
      · simp [FMap.get, ih]

theorem FMap.get_set {β : Type} (m : FMap β) (i j : Nat) (v : β) :
    FMap.get (FMap.set m j v) i = if i = j then some v else FMap.get m i := by
  by_cases h : i = j
  · subst h; simp [FMap.get_set_self]
  · simp [FMap.get_set_ne m h, h]

theorem FMap.getD_set_self {β : Type} (m : FMap β) (j : Nat) (v d : β) : FMap.getD (FMap.set m j v) j d = v := by
  simp [FMap.getD, FMap.get_set_self]

theorem FMap.getD_set_ne {β : Type} (m : FMap β) {i j : Nat} (h : i ≠ j) (v d : β) :
    FMap.getD (FMap.set m j v) i d = FMap.getD m i d := by
  simp [FMap.getD, FMap.get_set_ne m h]

theorem FMap.getD_set {β : Type} (m : FMap β) (i j : Nat) (v d : β) :
    FMap.getD (FMap.set m j v) i d = if i = j then v else FMap.getD m i d := by
  by_cases h : i = j
  · subst h; simp [FMap.getD_set_self]
  · simp [FMap.getD_set_ne m h, h]

theorem FMap.get_del {β : Type} (m : FMap β) (i j : Nat) :
    FMap.get (FMap.del m j) i = if i = j then none else FMap.get m i := by
  induction m with
  | nil => simp [FMap.del, FMap.get]
  | cons p m ih =>
    obtain ⟨k, w⟩ := p
    simp only [FMap.del, List.filter_cons] at ih ⊢
    by_cases hk : k = j
    · subst hk
      by_cases hi : i = k
      · subst hi; simpa using ih
      · simp [FMap.get, hi, ih]
    · simp only [bne_iff_ne, ne_eq, hk, not_false_eq_true, ↓reduceIte, FMap.get]
      by_cases hi : i = k
      · subst hi; simp [hk]
      · simp [hi, ih]

/-- A change that keeps the keys changes the value listed for each. -/
theorem FMap.get_map {β : Type} (m : FMap β) (f : Nat → β → β) (i : Nat) :
    FMap.get (m.map fun p => (p.1, f p.1 p.2)) i = (FMap.get m i).map (f i) := by
  induction m with
  | nil => simp [FMap.get]
  | cons p m ih =>
    obtain ⟨k, w⟩ := p
    simp only [List.map_cons, FMap.get]
    by_cases hi : i = k
    · subst hi; simp
    · simp [hi, ih]

end Sys2Proof.Machine
end

