-- ==== Sys2Proof/Laws/State.lean ====
section
/-!
SUPPORT. What the updates of the state leave alone, one lemma per field and update, and what they write. `onCtx`,
`onHere` and `onCore` are brought to `setCtx` and `setCore`.
-/
namespace Sys2Proof.Machine

@[simp] theorem State.onCtx_eq (s : State) (id : Nat) (f : Ctx → Ctx) : s.onCtx id f = s.setCtx id (f (s.ctx id)) := rfl

@[simp] theorem State.onHere_eq (s : State) (f : Ctx → Ctx) : s.onHere f = s.setCtx s.cur (f (s.ctx s.cur)) := rfl

@[simp] theorem State.onCore_eq (s : State) (i : Nat) (f : Core → Core) : s.onCore i f = s.setCore i (f (s.core i)) := rfl

@[simp] theorem State.here_eq (s : State) : s.here = s.ctx s.cur := rfl

@[simp] theorem State.mem_setCtx (s : State) (id : Nat) (c : Ctx) : (s.setCtx id c).mem = s.mem := rfl

@[simp] theorem State.emptied_setCtx (s : State) (id : Nat) (c : Ctx) : (s.setCtx id c).emptied = s.emptied := rfl

@[simp] theorem State.poison_setCtx (s : State) (id : Nat) (c : Ctx) : (s.setCtx id c).poison = s.poison := rfl

@[simp] theorem State.cores_setCtx (s : State) (id : Nat) (c : Ctx) : (s.setCtx id c).cores = s.cores := rfl

@[simp] theorem State.net_setCtx (s : State) (id : Nat) (c : Ctx) : (s.setCtx id c).net = s.net := rfl

@[simp] theorem State.cur_setCtx (s : State) (id : Nat) (c : Ctx) : (s.setCtx id c).cur = s.cur := rfl

@[simp] theorem State.agenda_setCtx (s : State) (id : Nat) (c : Ctx) : (s.setCtx id c).agenda = s.agenda := rfl

@[simp] theorem State.gtr_setCtx (s : State) (id : Nat) (c : Ctx) : (s.setCtx id c).gtr = s.gtr := rfl

@[simp] theorem State.dies_setCtx (s : State) (id : Nat) (c : Ctx) : (s.setCtx id c).dies = s.dies := rfl

@[simp] theorem State.disabled_setCtx (s : State) (id : Nat) (c : Ctx) : (s.setCtx id c).disabled = s.disabled := rfl

@[simp] theorem State.parts_setCtx (s : State) (id : Nat) (c : Ctx) : (s.setCtx id c).parts = s.parts := rfl

@[simp] theorem State.domains_setCtx (s : State) (id : Nat) (c : Ctx) : (s.setCtx id c).domains = s.domains := rfl

@[simp] theorem State.pte_setCtx (s : State) (id : Nat) (c : Ctx) : (s.setCtx id c).pte = s.pte := rfl

@[simp] theorem State.migFifo_setCtx (s : State) (id : Nat) (c : Ctx) : (s.setCtx id c).migFifo = s.migFifo := rfl

@[simp] theorem State.rrJobs_setCtx (s : State) (id : Nat) (c : Ctx) : (s.setCtx id c).rrJobs = s.rrJobs := rfl

@[simp] theorem State.energy_setCtx (s : State) (id : Nat) (c : Ctx) : (s.setCtx id c).energy = s.energy := rfl

@[simp] theorem State.mgmt_setCtx (s : State) (id : Nat) (c : Ctx) : (s.setCtx id c).mgmt = s.mgmt := rfl

@[simp] theorem State.host_setCtx (s : State) (id : Nat) (c : Ctx) : (s.setCtx id c).host = s.host := rfl

@[simp] theorem State.zwion_setCtx (s : State) (id : Nat) (c : Ctx) : (s.setCtx id c).zwion = s.zwion := rfl

@[simp] theorem State.trust_setCtx (s : State) (id : Nat) (c : Ctx) : (s.setCtx id c).trust = s.trust := rfl

@[simp] theorem State.saved_setCtx (s : State) (id : Nat) (c : Ctx) : (s.setCtx id c).saved = s.saved := rfl

@[simp] theorem State.nextUid_setCtx (s : State) (id : Nat) (c : Ctx) : (s.setCtx id c).nextUid = s.nextUid := rfl

@[simp] theorem State.free_setCtx (s : State) (id : Nat) (c : Ctx) : (s.setCtx id c).free = s.free := rfl

@[simp] theorem State.mem_setCore (s : State) (i : Nat) (c : Core) : (s.setCore i c).mem = s.mem := rfl

@[simp] theorem State.emptied_setCore (s : State) (i : Nat) (c : Core) : (s.setCore i c).emptied = s.emptied := rfl

@[simp] theorem State.poison_setCore (s : State) (i : Nat) (c : Core) : (s.setCore i c).poison = s.poison := rfl

@[simp] theorem State.ctxs_setCore (s : State) (i : Nat) (c : Core) : (s.setCore i c).ctxs = s.ctxs := rfl

@[simp] theorem State.net_setCore (s : State) (i : Nat) (c : Core) : (s.setCore i c).net = s.net := rfl

@[simp] theorem State.cur_setCore (s : State) (i : Nat) (c : Core) : (s.setCore i c).cur = s.cur := rfl

@[simp] theorem State.agenda_setCore (s : State) (i : Nat) (c : Core) : (s.setCore i c).agenda = s.agenda := rfl

@[simp] theorem State.gtr_setCore (s : State) (i : Nat) (c : Core) : (s.setCore i c).gtr = s.gtr := rfl

@[simp] theorem State.dies_setCore (s : State) (i : Nat) (c : Core) : (s.setCore i c).dies = s.dies := rfl

@[simp] theorem State.disabled_setCore (s : State) (i : Nat) (c : Core) : (s.setCore i c).disabled = s.disabled := rfl

@[simp] theorem State.parts_setCore (s : State) (i : Nat) (c : Core) : (s.setCore i c).parts = s.parts := rfl

@[simp] theorem State.domains_setCore (s : State) (i : Nat) (c : Core) : (s.setCore i c).domains = s.domains := rfl

@[simp] theorem State.pte_setCore (s : State) (i : Nat) (c : Core) : (s.setCore i c).pte = s.pte := rfl

@[simp] theorem State.migFifo_setCore (s : State) (i : Nat) (c : Core) : (s.setCore i c).migFifo = s.migFifo := rfl

@[simp] theorem State.rrJobs_setCore (s : State) (i : Nat) (c : Core) : (s.setCore i c).rrJobs = s.rrJobs := rfl

@[simp] theorem State.energy_setCore (s : State) (i : Nat) (c : Core) : (s.setCore i c).energy = s.energy := rfl

@[simp] theorem State.mgmt_setCore (s : State) (i : Nat) (c : Core) : (s.setCore i c).mgmt = s.mgmt := rfl

@[simp] theorem State.host_setCore (s : State) (i : Nat) (c : Core) : (s.setCore i c).host = s.host := rfl

@[simp] theorem State.zwion_setCore (s : State) (i : Nat) (c : Core) : (s.setCore i c).zwion = s.zwion := rfl

@[simp] theorem State.trust_setCore (s : State) (i : Nat) (c : Core) : (s.setCore i c).trust = s.trust := rfl

@[simp] theorem State.saved_setCore (s : State) (i : Nat) (c : Core) : (s.setCore i c).saved = s.saved := rfl

@[simp] theorem State.nextUid_setCore (s : State) (i : Nat) (c : Core) : (s.setCore i c).nextUid = s.nextUid := rfl

@[simp] theorem State.free_setCore (s : State) (i : Nat) (c : Core) : (s.setCore i c).free = s.free := rfl

@[simp] theorem State.mem_setFull (s : State) (a : Nat) (b : Bool) : (s.setFull a b).mem = s.mem := rfl

@[simp] theorem State.poison_setFull (s : State) (a : Nat) (b : Bool) : (s.setFull a b).poison = s.poison := rfl

@[simp] theorem State.ctxs_setFull (s : State) (a : Nat) (b : Bool) : (s.setFull a b).ctxs = s.ctxs := rfl

@[simp] theorem State.cores_setFull (s : State) (a : Nat) (b : Bool) : (s.setFull a b).cores = s.cores := rfl

@[simp] theorem State.net_setFull (s : State) (a : Nat) (b : Bool) : (s.setFull a b).net = s.net := rfl

@[simp] theorem State.cur_setFull (s : State) (a : Nat) (b : Bool) : (s.setFull a b).cur = s.cur := rfl

@[simp] theorem State.agenda_setFull (s : State) (a : Nat) (b : Bool) : (s.setFull a b).agenda = s.agenda := rfl

@[simp] theorem State.gtr_setFull (s : State) (a : Nat) (b : Bool) : (s.setFull a b).gtr = s.gtr := rfl

@[simp] theorem State.dies_setFull (s : State) (a : Nat) (b : Bool) : (s.setFull a b).dies = s.dies := rfl

@[simp] theorem State.disabled_setFull (s : State) (a : Nat) (b : Bool) : (s.setFull a b).disabled = s.disabled := rfl

@[simp] theorem State.parts_setFull (s : State) (a : Nat) (b : Bool) : (s.setFull a b).parts = s.parts := rfl

@[simp] theorem State.domains_setFull (s : State) (a : Nat) (b : Bool) : (s.setFull a b).domains = s.domains := rfl

@[simp] theorem State.pte_setFull (s : State) (a : Nat) (b : Bool) : (s.setFull a b).pte = s.pte := rfl

@[simp] theorem State.migFifo_setFull (s : State) (a : Nat) (b : Bool) : (s.setFull a b).migFifo = s.migFifo := rfl

@[simp] theorem State.rrJobs_setFull (s : State) (a : Nat) (b : Bool) : (s.setFull a b).rrJobs = s.rrJobs := rfl

@[simp] theorem State.energy_setFull (s : State) (a : Nat) (b : Bool) : (s.setFull a b).energy = s.energy := rfl

@[simp] theorem State.mgmt_setFull (s : State) (a : Nat) (b : Bool) : (s.setFull a b).mgmt = s.mgmt := rfl

@[simp] theorem State.host_setFull (s : State) (a : Nat) (b : Bool) : (s.setFull a b).host = s.host := rfl

@[simp] theorem State.zwion_setFull (s : State) (a : Nat) (b : Bool) : (s.setFull a b).zwion = s.zwion := rfl

@[simp] theorem State.trust_setFull (s : State) (a : Nat) (b : Bool) : (s.setFull a b).trust = s.trust := rfl

@[simp] theorem State.saved_setFull (s : State) (a : Nat) (b : Bool) : (s.setFull a b).saved = s.saved := rfl

@[simp] theorem State.nextUid_setFull (s : State) (a : Nat) (b : Bool) : (s.setFull a b).nextUid = s.nextUid := rfl

@[simp] theorem State.free_setFull (s : State) (a : Nat) (b : Bool) : (s.setFull a b).free = s.free := rfl

@[simp] theorem State.mem_setPoison (s : State) (a : Nat) (b : Bool) : (s.setPoison a b).mem = s.mem := rfl

@[simp] theorem State.emptied_setPoison (s : State) (a : Nat) (b : Bool) : (s.setPoison a b).emptied = s.emptied := rfl

@[simp] theorem State.ctxs_setPoison (s : State) (a : Nat) (b : Bool) : (s.setPoison a b).ctxs = s.ctxs := rfl

@[simp] theorem State.cores_setPoison (s : State) (a : Nat) (b : Bool) : (s.setPoison a b).cores = s.cores := rfl

@[simp] theorem State.net_setPoison (s : State) (a : Nat) (b : Bool) : (s.setPoison a b).net = s.net := rfl

@[simp] theorem State.cur_setPoison (s : State) (a : Nat) (b : Bool) : (s.setPoison a b).cur = s.cur := rfl

@[simp] theorem State.agenda_setPoison (s : State) (a : Nat) (b : Bool) : (s.setPoison a b).agenda = s.agenda := rfl

@[simp] theorem State.gtr_setPoison (s : State) (a : Nat) (b : Bool) : (s.setPoison a b).gtr = s.gtr := rfl

@[simp] theorem State.dies_setPoison (s : State) (a : Nat) (b : Bool) : (s.setPoison a b).dies = s.dies := rfl

@[simp] theorem State.disabled_setPoison (s : State) (a : Nat) (b : Bool) : (s.setPoison a b).disabled = s.disabled := rfl

@[simp] theorem State.parts_setPoison (s : State) (a : Nat) (b : Bool) : (s.setPoison a b).parts = s.parts := rfl

@[simp] theorem State.domains_setPoison (s : State) (a : Nat) (b : Bool) : (s.setPoison a b).domains = s.domains := rfl

@[simp] theorem State.pte_setPoison (s : State) (a : Nat) (b : Bool) : (s.setPoison a b).pte = s.pte := rfl

@[simp] theorem State.migFifo_setPoison (s : State) (a : Nat) (b : Bool) : (s.setPoison a b).migFifo = s.migFifo := rfl

@[simp] theorem State.rrJobs_setPoison (s : State) (a : Nat) (b : Bool) : (s.setPoison a b).rrJobs = s.rrJobs := rfl

@[simp] theorem State.energy_setPoison (s : State) (a : Nat) (b : Bool) : (s.setPoison a b).energy = s.energy := rfl

@[simp] theorem State.mgmt_setPoison (s : State) (a : Nat) (b : Bool) : (s.setPoison a b).mgmt = s.mgmt := rfl

@[simp] theorem State.host_setPoison (s : State) (a : Nat) (b : Bool) : (s.setPoison a b).host = s.host := rfl

@[simp] theorem State.zwion_setPoison (s : State) (a : Nat) (b : Bool) : (s.setPoison a b).zwion = s.zwion := rfl

@[simp] theorem State.trust_setPoison (s : State) (a : Nat) (b : Bool) : (s.setPoison a b).trust = s.trust := rfl

@[simp] theorem State.saved_setPoison (s : State) (a : Nat) (b : Bool) : (s.setPoison a b).saved = s.saved := rfl

@[simp] theorem State.nextUid_setPoison (s : State) (a : Nat) (b : Bool) : (s.setPoison a b).nextUid = s.nextUid := rfl

@[simp] theorem State.free_setPoison (s : State) (a : Nat) (b : Bool) : (s.setPoison a b).free = s.free := rfl

@[simp] theorem State.emptied_writeMem (s : State) (a n v : Nat) : (s.writeMem a n v).emptied = s.emptied := rfl

@[simp] theorem State.ctxs_writeMem (s : State) (a n v : Nat) : (s.writeMem a n v).ctxs = s.ctxs := rfl

@[simp] theorem State.cores_writeMem (s : State) (a n v : Nat) : (s.writeMem a n v).cores = s.cores := rfl

@[simp] theorem State.net_writeMem (s : State) (a n v : Nat) : (s.writeMem a n v).net = s.net := rfl

@[simp] theorem State.cur_writeMem (s : State) (a n v : Nat) : (s.writeMem a n v).cur = s.cur := rfl

@[simp] theorem State.agenda_writeMem (s : State) (a n v : Nat) : (s.writeMem a n v).agenda = s.agenda := rfl

@[simp] theorem State.gtr_writeMem (s : State) (a n v : Nat) : (s.writeMem a n v).gtr = s.gtr := rfl

@[simp] theorem State.dies_writeMem (s : State) (a n v : Nat) : (s.writeMem a n v).dies = s.dies := rfl

@[simp] theorem State.disabled_writeMem (s : State) (a n v : Nat) : (s.writeMem a n v).disabled = s.disabled := rfl

@[simp] theorem State.parts_writeMem (s : State) (a n v : Nat) : (s.writeMem a n v).parts = s.parts := rfl

@[simp] theorem State.domains_writeMem (s : State) (a n v : Nat) : (s.writeMem a n v).domains = s.domains := rfl

@[simp] theorem State.pte_writeMem (s : State) (a n v : Nat) : (s.writeMem a n v).pte = s.pte := rfl

@[simp] theorem State.migFifo_writeMem (s : State) (a n v : Nat) : (s.writeMem a n v).migFifo = s.migFifo := rfl

@[simp] theorem State.rrJobs_writeMem (s : State) (a n v : Nat) : (s.writeMem a n v).rrJobs = s.rrJobs := rfl

@[simp] theorem State.energy_writeMem (s : State) (a n v : Nat) : (s.writeMem a n v).energy = s.energy := rfl

@[simp] theorem State.mgmt_writeMem (s : State) (a n v : Nat) : (s.writeMem a n v).mgmt = s.mgmt := rfl

@[simp] theorem State.host_writeMem (s : State) (a n v : Nat) : (s.writeMem a n v).host = s.host := rfl

@[simp] theorem State.zwion_writeMem (s : State) (a n v : Nat) : (s.writeMem a n v).zwion = s.zwion := rfl

@[simp] theorem State.trust_writeMem (s : State) (a n v : Nat) : (s.writeMem a n v).trust = s.trust := rfl

@[simp] theorem State.saved_writeMem (s : State) (a n v : Nat) : (s.writeMem a n v).saved = s.saved := rfl

@[simp] theorem State.nextUid_writeMem (s : State) (a n v : Nat) : (s.writeMem a n v).nextUid = s.nextUid := rfl

@[simp] theorem State.free_writeMem (s : State) (a n v : Nat) : (s.writeMem a n v).free = s.free := rfl

@[simp] theorem State.emptied_lmWrite (s : State) (core off n v : Nat) : (s.lmWrite core off n v).emptied = s.emptied := rfl

@[simp] theorem State.ctxs_lmWrite (s : State) (core off n v : Nat) : (s.lmWrite core off n v).ctxs = s.ctxs := rfl

@[simp] theorem State.net_lmWrite (s : State) (core off n v : Nat) : (s.lmWrite core off n v).net = s.net := rfl

@[simp] theorem State.cur_lmWrite (s : State) (core off n v : Nat) : (s.lmWrite core off n v).cur = s.cur := rfl

@[simp] theorem State.agenda_lmWrite (s : State) (core off n v : Nat) : (s.lmWrite core off n v).agenda = s.agenda := rfl

@[simp] theorem State.gtr_lmWrite (s : State) (core off n v : Nat) : (s.lmWrite core off n v).gtr = s.gtr := rfl

@[simp] theorem State.dies_lmWrite (s : State) (core off n v : Nat) : (s.lmWrite core off n v).dies = s.dies := rfl

@[simp] theorem State.disabled_lmWrite (s : State) (core off n v : Nat) : (s.lmWrite core off n v).disabled = s.disabled := rfl

@[simp] theorem State.parts_lmWrite (s : State) (core off n v : Nat) : (s.lmWrite core off n v).parts = s.parts := rfl

@[simp] theorem State.domains_lmWrite (s : State) (core off n v : Nat) : (s.lmWrite core off n v).domains = s.domains := rfl

@[simp] theorem State.pte_lmWrite (s : State) (core off n v : Nat) : (s.lmWrite core off n v).pte = s.pte := rfl

@[simp] theorem State.migFifo_lmWrite (s : State) (core off n v : Nat) : (s.lmWrite core off n v).migFifo = s.migFifo := rfl

@[simp] theorem State.rrJobs_lmWrite (s : State) (core off n v : Nat) : (s.lmWrite core off n v).rrJobs = s.rrJobs := rfl

@[simp] theorem State.energy_lmWrite (s : State) (core off n v : Nat) : (s.lmWrite core off n v).energy = s.energy := rfl

@[simp] theorem State.mgmt_lmWrite (s : State) (core off n v : Nat) : (s.lmWrite core off n v).mgmt = s.mgmt := rfl

@[simp] theorem State.host_lmWrite (s : State) (core off n v : Nat) : (s.lmWrite core off n v).host = s.host := rfl

@[simp] theorem State.zwion_lmWrite (s : State) (core off n v : Nat) : (s.lmWrite core off n v).zwion = s.zwion := rfl

@[simp] theorem State.trust_lmWrite (s : State) (core off n v : Nat) : (s.lmWrite core off n v).trust = s.trust := rfl

@[simp] theorem State.saved_lmWrite (s : State) (core off n v : Nat) : (s.lmWrite core off n v).saved = s.saved := rfl

@[simp] theorem State.nextUid_lmWrite (s : State) (core off n v : Nat) : (s.lmWrite core off n v).nextUid = s.nextUid := rfl

@[simp] theorem State.free_lmWrite (s : State) (core off n v : Nat) : (s.lmWrite core off n v).free = s.free := rfl

@[simp] theorem State.mem_setTurns (s : State) (t : Turns) : (s.setTurns t).mem = s.mem := rfl

@[simp] theorem State.emptied_setTurns (s : State) (t : Turns) : (s.setTurns t).emptied = s.emptied := rfl

@[simp] theorem State.poison_setTurns (s : State) (t : Turns) : (s.setTurns t).poison = s.poison := rfl

@[simp] theorem State.ctxs_setTurns (s : State) (t : Turns) : (s.setTurns t).ctxs = s.ctxs := rfl

@[simp] theorem State.cores_setTurns (s : State) (t : Turns) : (s.setTurns t).cores = s.cores := rfl

@[simp] theorem State.cur_setTurns (s : State) (t : Turns) : (s.setTurns t).cur = s.cur := rfl

@[simp] theorem State.agenda_setTurns (s : State) (t : Turns) : (s.setTurns t).agenda = s.agenda := rfl

@[simp] theorem State.gtr_setTurns (s : State) (t : Turns) : (s.setTurns t).gtr = s.gtr := rfl

@[simp] theorem State.dies_setTurns (s : State) (t : Turns) : (s.setTurns t).dies = s.dies := rfl

@[simp] theorem State.disabled_setTurns (s : State) (t : Turns) : (s.setTurns t).disabled = s.disabled := rfl

@[simp] theorem State.parts_setTurns (s : State) (t : Turns) : (s.setTurns t).parts = s.parts := rfl

@[simp] theorem State.domains_setTurns (s : State) (t : Turns) : (s.setTurns t).domains = s.domains := rfl

@[simp] theorem State.pte_setTurns (s : State) (t : Turns) : (s.setTurns t).pte = s.pte := rfl

@[simp] theorem State.migFifo_setTurns (s : State) (t : Turns) : (s.setTurns t).migFifo = s.migFifo := rfl

@[simp] theorem State.rrJobs_setTurns (s : State) (t : Turns) : (s.setTurns t).rrJobs = s.rrJobs := rfl

@[simp] theorem State.energy_setTurns (s : State) (t : Turns) : (s.setTurns t).energy = s.energy := rfl

@[simp] theorem State.mgmt_setTurns (s : State) (t : Turns) : (s.setTurns t).mgmt = s.mgmt := rfl

@[simp] theorem State.host_setTurns (s : State) (t : Turns) : (s.setTurns t).host = s.host := rfl

@[simp] theorem State.zwion_setTurns (s : State) (t : Turns) : (s.setTurns t).zwion = s.zwion := rfl

@[simp] theorem State.trust_setTurns (s : State) (t : Turns) : (s.setTurns t).trust = s.trust := rfl

@[simp] theorem State.saved_setTurns (s : State) (t : Turns) : (s.setTurns t).saved = s.saved := rfl

@[simp] theorem State.nextUid_setTurns (s : State) (t : Turns) : (s.setTurns t).nextUid = s.nextUid := rfl

@[simp] theorem State.free_setTurns (s : State) (t : Turns) : (s.setTurns t).free = s.free := rfl

@[simp] theorem State.mem_onPart (s : State) (p : Nat) (f : Part → Part) : (s.onPart p f).mem = s.mem := by
  unfold State.onPart; split <;> rfl

@[simp] theorem State.emptied_onPart (s : State) (p : Nat) (f : Part → Part) : (s.onPart p f).emptied = s.emptied := by
  unfold State.onPart; split <;> rfl

@[simp] theorem State.poison_onPart (s : State) (p : Nat) (f : Part → Part) : (s.onPart p f).poison = s.poison := by
  unfold State.onPart; split <;> rfl

@[simp] theorem State.ctxs_onPart (s : State) (p : Nat) (f : Part → Part) : (s.onPart p f).ctxs = s.ctxs := by
  unfold State.onPart; split <;> rfl

@[simp] theorem State.cores_onPart (s : State) (p : Nat) (f : Part → Part) : (s.onPart p f).cores = s.cores := by
  unfold State.onPart; split <;> rfl

@[simp] theorem State.net_onPart (s : State) (p : Nat) (f : Part → Part) : (s.onPart p f).net = s.net := by
  unfold State.onPart; split <;> rfl

@[simp] theorem State.cur_onPart (s : State) (p : Nat) (f : Part → Part) : (s.onPart p f).cur = s.cur := by
  unfold State.onPart; split <;> rfl

@[simp] theorem State.agenda_onPart (s : State) (p : Nat) (f : Part → Part) : (s.onPart p f).agenda = s.agenda := by
  unfold State.onPart; split <;> rfl

@[simp] theorem State.gtr_onPart (s : State) (p : Nat) (f : Part → Part) : (s.onPart p f).gtr = s.gtr := by
  unfold State.onPart; split <;> rfl

@[simp] theorem State.dies_onPart (s : State) (p : Nat) (f : Part → Part) : (s.onPart p f).dies = s.dies := by
  unfold State.onPart; split <;> rfl

@[simp] theorem State.disabled_onPart (s : State) (p : Nat) (f : Part → Part) : (s.onPart p f).disabled = s.disabled := by
  unfold State.onPart; split <;> rfl

@[simp] theorem State.domains_onPart (s : State) (p : Nat) (f : Part → Part) : (s.onPart p f).domains = s.domains := by
  unfold State.onPart; split <;> rfl

@[simp] theorem State.pte_onPart (s : State) (p : Nat) (f : Part → Part) : (s.onPart p f).pte = s.pte := by
  unfold State.onPart; split <;> rfl

@[simp] theorem State.migFifo_onPart (s : State) (p : Nat) (f : Part → Part) : (s.onPart p f).migFifo = s.migFifo := by
  unfold State.onPart; split <;> rfl

@[simp] theorem State.rrJobs_onPart (s : State) (p : Nat) (f : Part → Part) : (s.onPart p f).rrJobs = s.rrJobs := by
  unfold State.onPart; split <;> rfl

@[simp] theorem State.energy_onPart (s : State) (p : Nat) (f : Part → Part) : (s.onPart p f).energy = s.energy := by
  unfold State.onPart; split <;> rfl

@[simp] theorem State.mgmt_onPart (s : State) (p : Nat) (f : Part → Part) : (s.onPart p f).mgmt = s.mgmt := by
  unfold State.onPart; split <;> rfl

@[simp] theorem State.host_onPart (s : State) (p : Nat) (f : Part → Part) : (s.onPart p f).host = s.host := by
  unfold State.onPart; split <;> rfl

@[simp] theorem State.zwion_onPart (s : State) (p : Nat) (f : Part → Part) : (s.onPart p f).zwion = s.zwion := by
  unfold State.onPart; split <;> rfl

@[simp] theorem State.trust_onPart (s : State) (p : Nat) (f : Part → Part) : (s.onPart p f).trust = s.trust := by
  unfold State.onPart; split <;> rfl

@[simp] theorem State.saved_onPart (s : State) (p : Nat) (f : Part → Part) : (s.onPart p f).saved = s.saved := by
  unfold State.onPart; split <;> rfl

@[simp] theorem State.nextUid_onPart (s : State) (p : Nat) (f : Part → Part) : (s.onPart p f).nextUid = s.nextUid := by
  unfold State.onPart; split <;> rfl

@[simp] theorem State.free_onPart (s : State) (p : Nat) (f : Part → Part) : (s.onPart p f).free = s.free := by
  unfold State.onPart; split <;> rfl

/-! ### Contexts and cores -/

@[simp] theorem State.ctx_setCtx_self (s : State) (id : Nat) (c : Ctx) : (s.setCtx id c).ctx id = c :=
  FMap.getD_set_self ..

theorem State.ctx_setCtx_ne (s : State) {i id : Nat} (h : i ≠ id) (c : Ctx) : (s.setCtx id c).ctx i = s.ctx i :=
  FMap.getD_set_ne _ h ..

theorem State.ctx_setCtx (s : State) (i id : Nat) (c : Ctx) :
    (s.setCtx id c).ctx i = if i = id then c else s.ctx i :=
  FMap.getD_set ..

@[simp] theorem State.core_setCtx (s : State) (id i : Nat) (c : Ctx) : (s.setCtx id c).core i = s.core i := rfl

@[simp] theorem State.ctx_setCore (s : State) (id i : Nat) (k : Core) : (s.setCore i k).ctx id = s.ctx id := rfl

@[simp] theorem State.core_setCore_self (s : State) (i : Nat) (k : Core) : (s.setCore i k).core i = k :=
  FMap.getD_set_self ..

theorem State.core_setCore_ne (s : State) {i j : Nat} (h : j ≠ i) (k : Core) : (s.setCore i k).core j = s.core j :=
  FMap.getD_set_ne _ h ..

theorem State.core_setCore (s : State) (i j : Nat) (k : Core) :
    (s.setCore i k).core j = if j = i then k else s.core j :=
  FMap.getD_set ..

/-! ### Registers of a context (R26, R41) -/

theorem Ctx.rdG_wrG (c : Ctx) (n m : Nat) (v : Word) :
    (c.wrG n v).rdG m = if m = n ∧ m ≠ 0 then v else c.rdG m := by
  unfold Ctx.wrG Ctx.rdG
  by_cases hn : n = 0
  · subst hn
    by_cases hm : m = 0 <;> simp [hm]
  · by_cases hm : m = 0
    · simp [hm]
    · simp [hn, hm, FMap.getD_set]

theorem Ctx.rdF_wrF (c : Ctx) (n m : Nat) (v : Word) : (c.wrF n v).rdF m = if m = n then v else c.rdF m := by
  simp [Ctx.wrF, Ctx.rdF, FMap.getD_set]

theorem Ctx.rdV_wrV (c : Ctx) (n m : Nat) (v : Quad) : (c.wrV n v).rdV m = if m = n then v else c.rdV m := by
  simp [Ctx.wrV, Ctx.rdV, FMap.getD_set]

theorem Ctx.rdK_wrK (c : Ctx) (n m : Nat) (v : BitVec 16) :
    (c.wrK n v).rdK m = if m = n ∧ m ≠ 0 then v else c.rdK m := by
  unfold Ctx.wrK Ctx.rdK
  by_cases hn : n = 0
  · subst hn
    by_cases hm : m = 0 <;> simp [hm]
  · by_cases hm : m = 0
    · simp [hm]
    · simp [hn, hm, FMap.getD_set]

end Sys2Proof.Machine
end

