-- ==== Sys2Proof/Laws/Memory.lean ====
section
/-!
SUPPORT. Laws of memory: read after write, and that every operation on memory keeps the canonical form.
-/
namespace Sys2Proof.Machine

/-! ### One byte -/

theorem Memory.read_of_wfFrom {lo : Nat} {m : Memory} (h : Memory.wfFrom lo m = true) {x : Nat} (hx : x < lo) :
    Memory.read m x = Memory.unlisted := by
  induction m generalizing lo with
  | nil => rfl
  | cons c m ih =>
    obtain ⟨a, b⟩ := c
    simp only [Memory.wfFrom, Bool.and_eq_true, decide_eq_true_eq] at h
    have : x ≠ a := by omega
    simp only [Memory.read, this, ↓reduceIte]
    exact ih h.2 (by omega)

/-- Memory reads back what was written, and only the byte written changes. -/
theorem Memory.read_write {m : Memory} (hm : Memory.wf m = true) (x y : Nat) (v : Byte) :
    (m.write x v).read y = if y = x then v else m.read y := by
  suffices h : ∀ (lo : Nat) (m : Memory), Memory.wfFrom lo m = true →
      (m.write x v).read y = if y = x then v else m.read y from h 0 m hm
  intro lo m
  induction m generalizing lo with
  | nil =>
    intro _
    by_cases hv : v = Memory.unlisted <;> by_cases hy : y = x <;> simp [Memory.write, Memory.read, hv, hy]
  | cons c m ih =>
    obtain ⟨a, b⟩ := c
    intro h
    have h' := h
    simp only [Memory.wfFrom, Bool.and_eq_true, decide_eq_true_eq] at h
    simp only [Memory.write]
    split
    · rename_i hlt
      by_cases hv : v = Memory.unlisted
      · by_cases hy : y = x
        · subst hy
          simp only [hv, ↓reduceIte]
          exact Memory.read_of_wfFrom (lo := a) (by simp [Memory.wfFrom, h.1.2, h.2]) hlt
        · simp [hv, hy]
      · by_cases hy : y = x <;> simp [hv, hy, Memory.read]
    · split
      · rename_i heq
        subst heq
        by_cases hv : v = Memory.unlisted
        · by_cases hy : y = x
          · subst hy
            simp only [hv, ↓reduceIte]
            exact Memory.read_of_wfFrom h.2 (by omega)
          · simp [hv, hy, Memory.read]
        · by_cases hy : y = x <;> simp [hv, hy, Memory.read]
      · rename_i hlt hne
        simp only [Memory.read, ih _ h.2]
        by_cases hy : y = a
        · subst hy
          have : y ≠ x := fun e => hne e.symm
          simp [this]
        · simp [hy]

theorem Memory.wfFrom_mono {lo lo' : Nat} (h : lo' ≤ lo) {m : Memory} (hm : Memory.wfFrom lo m = true) :
    Memory.wfFrom lo' m = true := by
  cases m with
  | nil => rfl
  | cons c m =>
    obtain ⟨a, b⟩ := c
    simp only [Memory.wfFrom, Bool.and_eq_true, decide_eq_true_eq] at hm ⊢
    exact ⟨⟨by omega, hm.1.2⟩, hm.2⟩

theorem Memory.wfFrom_write {lo : Nat} {m : Memory} (hm : Memory.wfFrom lo m = true) {x : Nat} (hx : lo ≤ x) (v : Byte) :
    Memory.wfFrom lo (m.write x v) = true := by
  induction m generalizing lo with
  | nil => by_cases hv : v = Memory.unlisted <;> simp [Memory.write, Memory.wfFrom, hv, hx]
  | cons c m ih =>
    obtain ⟨a, b⟩ := c
    have h := hm
    simp only [Memory.wfFrom, Bool.and_eq_true, decide_eq_true_eq] at h
    simp only [Memory.write]
    split
    · by_cases hv : v = Memory.unlisted
      · simp [hv, hm]
      · rename_i hlt
        simp [hv, Memory.wfFrom, hx, h.1.2, h.2, Nat.succ_le_of_lt hlt]
    · split
      · rename_i heq
        subst heq
        by_cases hv : v = Memory.unlisted
        · simp only [hv, ↓reduceIte]
          exact Memory.wfFrom_mono (by omega) h.2
        · simp [hv, Memory.wfFrom, hx, h.2]
      · rename_i hlt hne
        simp only [Memory.wfFrom, Bool.and_eq_true, decide_eq_true_eq]
        exact ⟨h.1, ih h.2 (by omega)⟩

/-- Writing a byte keeps the canonical form. -/
theorem Memory.wf_write {m : Memory} (hm : Memory.wf m = true) (x : Nat) (v : Byte) : Memory.wf (m.write x v) = true :=
  Memory.wfFrom_write hm (Nat.zero_le x) v

theorem Memory.wfFrom_filter {lo : Nat} {m : Memory} (hm : Memory.wfFrom lo m = true) (p : Host.Cell → Bool) :
    Memory.wfFrom lo (m.filter p) = true := by
  induction m generalizing lo with
  | nil => rfl
  | cons c m ih =>
    obtain ⟨a, b⟩ := c
    simp only [Memory.wfFrom, Bool.and_eq_true, decide_eq_true_eq] at hm
    simp only [List.filter_cons]
    split
    · simp [Memory.wfFrom, hm.1, ih hm.2]
    · exact Memory.wfFrom_mono (by omega) (ih hm.2)

/-- Taking bytes out keeps the canonical form. -/
theorem Memory.wf_filter {m : Memory} (hm : Memory.wf m = true) (p : Host.Cell → Bool) : Memory.wf (m.filter p) = true :=
  Memory.wfFrom_filter hm p

/-- A wipe keeps the canonical form. -/
theorem Memory.wf_wipe {m : Memory} (hm : Memory.wf m = true) (lo n : Nat) : Memory.wf (m.wipe lo n) = true :=
  Memory.wf_filter hm _

/-! ### Several bytes -/

/-- Writing several bytes keeps the canonical form. -/
theorem Memory.wf_writeNat {m : Memory} (hm : Memory.wf m = true) (x n v : Nat) :
    Memory.wf (m.writeNat x n v) = true := by
  induction n generalizing m x v with
  | zero => exact hm
  | succ n ih => exact ih (Memory.wf_write hm x _) (x + 1) (v / 256)

/-- Bytes outside a write read as before. -/
theorem Memory.read_writeNat_out {m : Memory} (hm : Memory.wf m = true) {x n : Nat} (v : Nat) {y : Nat}
    (h : y < x ∨ x + n ≤ y) : (m.writeNat x n v).read y = m.read y := by
  induction n generalizing m x v with
  | zero => rfl
  | succ n ih =>
    have hy : y ≠ x := by omega
    rw [Memory.writeNat, ih (Memory.wf_write hm x _) _ (by omega), Memory.read_write hm]
    simp [hy]

/-- A number that was written reads back, modulo its width. -/
theorem Memory.readNat_writeNat {m : Memory} (hm : Memory.wf m = true) (x n v : Nat) :
    (m.writeNat x n v).readNat x n = v % 256 ^ n := by
  induction n generalizing m x v with
  | zero => simp [Memory.readNat, Nat.mod_one]
  | succ n ih =>
    have hw := Memory.wf_write hm x (BitVec.ofNat 8 v)
    rw [Memory.writeNat, Memory.readNat, ih hw, Memory.read_writeNat_out hw _ (Or.inl (Nat.lt_succ_self x)),
      Memory.read_write hm]
    simp only [↓reduceIte, BitVec.toNat_ofNat]
    rw [show 2 ^ 8 = 256 from rfl, pow_succ, Nat.mul_comm (256 ^ n) 256, Nat.mod_mul]

/-- Reading outside a write. -/
theorem Memory.readNat_writeNat_out {m : Memory} (hm : Memory.wf m = true) {x n : Nat} (v : Nat) {y k : Nat}
    (h : y + k ≤ x ∨ x + n ≤ y) : (m.writeNat x n v).readNat y k = m.readNat y k := by
  induction k generalizing y with
  | zero => rfl
  | succ k ih =>
    rw [Memory.readNat, Memory.readNat, ih (by omega), Memory.read_writeNat_out hm _ (by omega)]

/-- Reset memory has the canonical form. -/
theorem Memory.wf_reset : Memory.wf State.reset.mem = true := rfl

end Sys2Proof.Machine
end

