-- ==== Sys2Proof/Laws/Homes.lean ====
section
/-!
SUPPORT. What arriving at a home can change (R310, R314, R331, R350), and that a sector's stamps read as they were written (R122, R123).
-/
namespace Sys2Proof.Machine

/-- Translating changes the translation caches alone (R314). -/
theorem State.translateAt_frame (s : State) (sl p a : Nat) :
    ∃ tr, (s.translateAt sl p a).2 = { s with net := { s.net with trans := tr } } := by
  unfold State.translateAt
  split
  · exact ⟨s.net.trans, rfl⟩
  · split
    · exact ⟨_, rfl⟩
    · exact ⟨s.net.trans, rfl⟩

/-- A fault record is all that reporting a fault adds (R350). -/
theorem State.reportFault_frame (s : State) (sl p page : Nat) :
    ∃ fa, s.reportFault sl p page = { s with net := { s.net with faults := fa } } := by
  unfold State.reportFault
  dsimp only
  split
  · exact ⟨s.net.faults, rfl⟩
  · exact ⟨_, rfl⟩

/-- Poisoning words one after another changes the poison bits alone (R357). -/
theorem State.poisonWords_frame (l : List Nat) (g : Nat → Nat) (s : State) :
    ∃ po, l.foldl (fun (s : State) i => s.setPoison (g i) true) s = { s with poison := po } := by
  induction l generalizing s with
  | nil => exact ⟨s.poison, rfl⟩
  | cons i l ih => exact ih (s.setPoison (g i) true)

/-- A host line reached by another virtual address moves its bytes in memory, whose form is kept, and changes the host-line store (R331). -/
theorem State.hostAt_frame (s : State) (l : HostLine) (a : Nat) :
    ∃ m po li, s.hostAt l a = { s with mem := m, poison := po, host := { s.host with lines := li } } ∧ (Memory.wf s.mem = true → Memory.wf m = true) := by
  unfold State.hostAt
  split
  · exact ⟨s.mem, s.poison, s.host.lines, rfl, id⟩
  · generalize (List.range 8).filter (fun i => s.poison.contains (l.va + 8 * i)) = bad
    generalize s.mem.readNat l.va 64 = v
    have hw (hm : Memory.wf s.mem = true) := Memory.wf_writeNat hm (sectorOf a) 64 v
    dsimp only
    unfold State.setHostLine State.writeMem State.unpoison
    generalize s.mem.writeNat (sectorOf a) 64 v = m at hw ⊢
    obtain ⟨po, h⟩ := State.poisonWords_frame bad (fun i => sectorOf a + 8 * i) _
    exact ⟨m, po, _, h, hw⟩

/-- Asking for a host line changes the host-line store, and, where it is served by one that another virtual address reached last, memory (R331, R332). -/
theorem State.hostNeed_frame (s : State) (p a hpa : Nat) (write : Bool) :
    ∃ m po li, (s.hostNeed p a hpa write).2 = { s with mem := m, poison := po, host := { s.host with lines := li } } ∧
      (Memory.wf s.mem = true → Memory.wf m = true) := by
  unfold State.hostNeed
  split
  · split
    · exact ⟨s.mem, s.poison, s.host.lines, rfl, id⟩
    · split
      · exact s.hostAt_frame _ a
      · split
        · exact ⟨s.mem, s.poison, _, rfl, id⟩
        · exact ⟨s.mem, s.poison, s.host.lines, rfl, id⟩
  · split
    · exact ⟨s.mem, s.poison, s.host.lines, rfl, id⟩
    · rename_i u hu
      have : ∃ li, u = { s with host := { s.host with lines := li } } := by
        unfold State.hostRoom at hu
        dsimp only at hu
        split at hu
        · cases hu; exact ⟨s.host.lines, rfl⟩
        · split at hu
          · cases hu
          · split at hu <;> cases hu <;> exact ⟨_, rfl⟩
      obtain ⟨li, rfl⟩ := this
      exact ⟨s.mem, s.poison, _, rfl, id⟩

/-- Arriving at a home changes translation caches, fault records and the host-line store, and nothing else: memory alone where a host line moves to the access's address. -/
theorem State.atHome_frame {s s1 : State} {p a : Nat} {w : Bool} {t : Option Nat} {r : HomeFate} (h : s.atHome p a w t = (r, s1)) :
    ∃ m po tr fa li, s1 = { s with mem := m, poison := po, net := { s.net with trans := tr, faults := fa }, host := { s.host with lines := li } } ∧
      (Memory.wf s.mem = true → Memory.wf m = true) ∧ ((∀ sl hpa, r ≠ .ready sl (some hpa)) → r ≠ .held → m = s.mem ∧ po = s.poison) := by
  unfold State.atHome at h
  split at h
  · cases h; exact ⟨s.mem, s.poison, s.net.trans, s.net.faults, s.host.lines, rfl, id, fun _ _ => ⟨rfl, rfl⟩⟩
  · split at h
    · cases h; exact ⟨s.mem, s.poison, s.net.trans, s.net.faults, s.host.lines, rfl, id, fun _ _ => ⟨rfl, rfl⟩⟩
    · rename_i sl _ _
      obtain ⟨tr, htr⟩ := s.translateAt_frame sl p a
      generalize s.translateAt sl p a = x at h htr
      obtain ⟨x1, x2⟩ := x
      dsimp only at htr
      subst htr
      cases x1 with
      | missing => cases h; exact ⟨s.mem, s.poison, tr, s.net.faults, s.host.lines, rfl, id, fun _ _ => ⟨rfl, rfl⟩⟩
      | absent =>
        simp only [Prod.mk.injEq] at h
        obtain ⟨fa, hfa⟩ := State.reportFault_frame { s with net := { s.net with trans := tr } } sl p (pageOf a)
        rw [hfa] at h
        exact ⟨s.mem, s.poison, tr, fa, s.host.lines, h.2.symm, id, fun _ _ => ⟨rfl, rfl⟩⟩
      | mapped b =>
        dsimp only at h
        split at h
        · cases h; exact ⟨s.mem, s.poison, tr, s.net.faults, s.host.lines, rfl, id, fun _ _ => ⟨rfl, rfl⟩⟩
        · split at h
          · cases h; exact ⟨s.mem, s.poison, tr, s.net.faults, s.host.lines, rfl, id, fun _ _ => ⟨rfl, rfl⟩⟩
          · rename_i hpa _
            obtain ⟨m, po, li, hli, hm⟩ := State.hostNeed_frame { s with net := { s.net with trans := tr } } p a hpa w
            generalize State.hostNeed { s with net := { s.net with trans := tr } } p a hpa w = y at h hli
            obtain ⟨y1, y2⟩ := y
            dsimp only at hli
            subst hli
            cases y1 <;> cases h
            · exact ⟨m, po, tr, s.net.faults, li, rfl, hm, fun _ hr => absurd rfl hr⟩
            · exact ⟨m, po, tr, s.net.faults, li, rfl, hm, fun hr _ => absurd rfl (hr _ _)⟩

/-- Writing a sector's stamps changes line records, memory stamps and what is kept of evicted records, and nothing else (R119, R122, R123, R126). -/
theorem State.setSector_frame (s : State) (sl p a : Nat) (x : SecRec) :
    ∃ re ms me mp, s.setSector sl p a x = { s with net := { s.net with recs := re, mstamps := ms, mexpiry := me, mparties := mp } } := by
  unfold State.setSector
  split
  · exact ⟨_, s.net.mstamps, s.net.mexpiry, s.net.mparties, rfl⟩
  · dsimp only
    split
    · exact ⟨_, s.net.mstamps, s.net.mexpiry, s.net.mparties, rfl⟩
    · split
      · exact ⟨_, _, _, _, rfl⟩
      · exact ⟨_, s.net.mstamps, s.net.mexpiry, s.net.mparties, rfl⟩

/-- A sector's stamps read as they were written (R122). -/
theorem State.sector_setSector (s : State) (sl p a : Nat) (x : SecRec) : (s.setSector sl p a x).sector sl p a = x := by
  have key : ∀ (t : State) (r : LineRec) (rest : List LineRec), t.net.recs = { r with sectors := r.sectors.set (sectorNo a) x } :: rest →
      r.slice = sl → r.part = p → r.line = lineOf a → t.sector sl p a = x := by
    intro t r rest h h1 h2 h3
    unfold State.sector State.record?
    simp [h, h1, h2, h3, FMap.getD, FMap.get_set]
  unfold State.setSector
  split
  · rename_i r hr
    unfold State.record? at hr
    have := List.find?_some hr
    simp only [Bool.and_eq_true, beq_iff_eq] at this
    exact key _ r _ rfl this.1.1 this.1.2 this.2
  · exact key _ { line := lineOf a, part := p, slice := sl, sectors := _ } _ rfl rfl rfl rfl

/-- A read at a home changes the record and the host line's lease, and nothing else (R98). -/
theorem State.serveRead_eq {s s2 : State} {sl : Nat} {host : Option Nat} {p a attr : Nat} {ro copyOut : Bool} {c : Stamp} {old x : SecRec}
    {v : SecCopy} {give : Bool} (h : s.serveRead sl host p a attr ro copyOut c old x = .ok ((v, give), s2)) :
    let g := s.grant (homeDie sl host) p (homeAttr host attr) (ro && !(s.writable p a)) copyOut c x
    v = s.version p a host g.sec g.expiry ∧ give = g.give ∧ s.mayGrant sl g.sec.rts = true ∧
      ∃ re ms me mp li, s2 = { s with net := { s.net with recs := re, mstamps := ms, mexpiry := me, mparties := mp }, host := { s.host with lines := li } } := by
  unfold State.serveRead at h
  dsimp only at h ⊢
  split at h
  · rename_i hg
    simp only [Except.ok.injEq, Prod.mk.injEq] at h
    obtain ⟨⟨rfl, rfl⟩, rfl⟩ := h
    refine ⟨rfl, rfl, hg, ?_⟩
    have hu : ∃ re ms me mp, s.useSector sl p a old (s.grant (homeDie sl host) p (homeAttr host attr) (ro && !(s.writable p a)) copyOut c x).sec =
        { s with net := { s.net with recs := re, mstamps := ms, mexpiry := me, mparties := mp } } := by
      unfold State.useSector
      split
      · exact ⟨s.net.recs, s.net.mstamps, s.net.mexpiry, s.net.mparties, rfl⟩
      · exact s.setSector_frame _ _ _ _
    obtain ⟨re, ms, me, mp, hu⟩ := hu
    rw [hu]
    refine ⟨re, ms, me, mp, ?_⟩
    unfold State.hostExpiry
    split
    · exact ⟨s.host.lines, rfl⟩
    · split
      · exact ⟨_, rfl⟩
      · exact ⟨s.host.lines, rfl⟩
  · cases h

end Sys2Proof.Machine
end

