-- ==== Sys2Proof/Laws/Ops.lean ====
section
/-!
SUPPORT. What the shared operations do, each said once: retiring an instruction, writing a register and retiring, entering a
trap.
-/
namespace Sys2Proof.Machine

theorem OnlyHere.setCtx (s : State) (c : Ctx) : OnlyHere s (s.setCtx s.cur c) :=
  ⟨rfl, fun _ h => s.ctx_setCtx_ne h c⟩

theorem OnlyHere.cur {s t : State} (h : OnlyHere s t) : t.cur = s.cur := by
  rw [← h.1]

theorem Ctx.countRetired_eq (c : Ctx) (w : Bool) :
    c.countRetired w = { c with migCount := (c.countRetired w).migCount } := by
  unfold Ctx.countRetired; split <;> [rfl; split] <;> rfl

/-- The count of R73. -/
@[simp] theorem Ctx.migCount_countRetired (c : Ctx) (w : Bool) :
    (c.countRetired w).migCount = if w then 0 else if c.migrated then Nat.min (c.migCount + 1) 256 else c.migCount := by
  unfold Ctx.countRetired; split <;> [rfl; split] <;> rfl

/-- Retiring at a target: PC and the count of R73 are all that changes. -/
theorem Ctx.retireAt_eq (c : Ctx) (w : Bool) (pc : Word) :
    c.retireAt w pc = { c with pc := pc, migCount := (c.countRetired w).migCount } := by
  unfold Ctx.retireAt; rw [Ctx.countRetired_eq]

theorem Ctx.wrG_eq (c : Ctx) (n : Nat) (v : Word) : c.wrG n v = { c with g := (c.wrG n v).g } := by
  unfold Ctx.wrG; split <;> rfl

theorem Ctx.wrK_eq (c : Ctx) (n : Nat) (v : BitVec 16) : c.wrK n v = { c with k := (c.wrK n v).k } := by
  unfold Ctx.wrK; split <;> rfl

theorem State.setCtx_setCtx_self (s : State) (id : Nat) (c d : Ctx) : (s.setCtx id c).setCtx id d = s.setCtx id d := by
  have h : ∀ (m : FMap Ctx), FMap.set (FMap.set m id c) id d = FMap.set m id d := by
    intro m
    induction m with
    | nil => simp [FMap.set]
    | cons p m ih =>
      obtain ⟨k, w⟩ := p
      by_cases h1 : id < k
      · simp [FMap.set, h1]
      · by_cases h2 : id = k
        · subst h2; simp [FMap.set]
        · simp [FMap.set, h1, h2, ih]
  simp [State.setCtx, h]

/-- Retiring with the next instruction at a target. -/
theorem State.retireTo_goesOn (s : State) (w : Bool) (pc : Word) :
    GoesOn s w pc (s.onHere fun c => c.retireAt w pc) := by
  refine ⟨OnlyHere.setCtx s _, ?_, ?_, ?_⟩ <;> simp [Ctx.retireAt_eq]

theorem State.retire_goesOn (s : State) : GoesOn s false (s.here.pc + 4) s.retire := s.retireTo_goesOn false _

theorem State.retireW_goesOn (s : State) : GoesOn s true (s.here.pc + 4) s.retireW := s.retireTo_goesOn true _

/-- Writing g[d] and retiring with the next instruction at a target. -/
theorem State.wrG_retireTo (s : State) (w : Bool) (d : Reg) (v pc : Word) :
    WritesG s w d v pc ((s.wrG d v).onHere fun c => c.retireAt w pc) := by
  have e : ((s.wrG d v).onHere fun c => c.retireAt w pc) = s.setCtx s.cur ((s.here.wrG d.toNat v).retireAt w pc) := by
    simp [State.wrG, State.setCtx_setCtx_self]
  rw [e, Ctx.retireAt_eq, Ctx.wrG_eq]
  refine ⟨OnlyHere.setCtx s _, by simp, by simp, ?_, by simp⟩
  · intro r
    have h := Ctx.rdG_wrG s.here d.toNat r.toNat v
    have z : r = 0 ↔ r.toNat = 0 := by simp [← BitVec.toNat_inj]
    have q : r = d ↔ r.toNat = d.toNat := by simp [← BitVec.toNat_inj]
    simp only [State.rdG, State.here_eq, State.cur_setCtx, State.ctx_setCtx_self, Ctx.rdG, z, q, ne_eq] at h ⊢
    exact h

/-- Writing a register leaves PC alone. -/
@[simp] theorem Ctx.pc_wrG (c : Ctx) (n : Nat) (v : Word) : (c.wrG n v).pc = c.pc := by rw [Ctx.wrG_eq]

theorem State.finishG_writes (s : State) (d : Reg) (v : Word) : WritesG s false d v (s.here.pc + 4) (s.finishG d v) := by
  have e : (s.wrG d v).here.pc = s.here.pc := by simp [State.wrG]
  rw [← e]
  exact s.wrG_retireTo false d v ((s.wrG d v).here.pc + 4)

/-- A W word that writes g[d] (R73). -/
theorem State.wrG_retireW (s : State) (d : Reg) (v : Word) :
    WritesG s true d v (s.here.pc + 4) (s.wrG d v).retireW := by
  have e : (s.wrG d v).here.pc = s.here.pc := by simp [State.wrG]
  rw [← e]
  exact s.wrG_retireTo true d v ((s.wrG d v).here.pc + 4)

/-! ### What becomes of the executing context, in one expression -/

theorem State.retire_eq (s : State) : s.retire = s.setCtx s.cur (s.here.retireAt false (s.here.pc + 4)) := rfl

theorem State.finishG_eq (s : State) (d : Reg) (v : Word) :
    s.finishG d v = s.setCtx s.cur ((s.here.wrG d.toNat v).retireAt false (s.here.pc + 4)) := by
  simp [State.finishG, State.retire, State.wrG, State.setCtx_setCtx_self]

/-- An instruction that changes its context and then retires. -/
theorem State.retire_setCtx (s : State) (c : Ctx) :
    (s.setCtx s.cur c).retire = s.setCtx s.cur (c.retireAt false (c.pc + 4)) := by
  simp [State.retire, State.setCtx_setCtx_self]

/-- An instruction that changes its context, writes g[d] and retires. -/
theorem State.finishG_setCtx (s : State) (c : Ctx) (d : Reg) (v : Word) :
    (s.setCtx s.cur c).finishG d v = s.setCtx s.cur ((c.wrG d.toNat v).retireAt false (c.pc + 4)) := by
  simp [State.finishG_eq, State.setCtx_setCtx_self]

/-- A g register of the context after a write, as `State.rdG` reads it. -/
theorem Ctx.rdG_of_wrG (c : Ctx) (d r : Reg) (v : Word) (x : Ctx) (h : x.g = (c.wrG d.toNat v).g) :
    x.rdG r.toNat = if r = d ∧ r ≠ 0 then v else c.rdG r.toNat := by
  have e := Ctx.rdG_wrG c d.toNat r.toNat v
  have z : r = 0 ↔ r.toNat = 0 := by simp [← BitVec.toNat_inj]
  have q : r = d ↔ r.toNat = d.toNat := by simp [← BitVec.toNat_inj]
  simp only [Ctx.rdG, z, q, ne_eq, h] at e ⊢
  exact e

/-- Changing the control registers, writing g[d] and retiring (R78). -/
theorem State.onCr_finishG (s : State) (d : Reg) (old : Word) (f : CtxCr → CtxCr) :
    WritesCr s d old (f s.here.cr) ((s.onCr f).finishG d old) := by
  have e : s.onCr f = s.setCtx s.cur ((s.ctx s.cur).onCr f) := rfl
  rw [e, State.finishG_setCtx, Ctx.retireAt_eq, Ctx.wrG_eq]
  refine ⟨OnlyHere.setCtx s _, by simp [Ctx.onCr], by simp [Ctx.onCr], ?_, by simp [Ctx.onCr], by simp [Ctx.onCr]⟩
  intro r
  simp only [State.rdG, State.here_eq, State.cur_setCtx, State.ctx_setCtx_self]
  exact Ctx.rdG_of_wrG ((s.ctx s.cur).onCr f) d r old _ rfl

/-- Taking a trap that is vectored (R90). -/
theorem State.trapOf_takes (s : State) (h : s.CanTrap) (c : Cause) (addr val ret : Word) :
    TakesTrap s c.code addr val ret (s.trapOf s.cur c addr val ret) := by
  have e : s.trapOf s.cur c addr val ret = s.setCtx s.cur ((s.ctx s.cur).enterTrap c addr val ret) := by
    have pend : (s.ctx s.cur).pend = [] := h.2.1
    simp [State.trapOf, pend, h.2.2, h.1]
  rw [e]
  refine ⟨OnlyHere.setCtx s _, ?_, ?_, ?_, ?_, ?_, ?_, ?_, ?_⟩ <;>
    simp only [State.here_eq, State.cur_setCtx, State.ctx_setCtx_self, Ctx.enterTrap]
  · cases c <;> rfl
  · cases c <;> rfl
  · cases c <;> rfl

/-- Taking a trap at the executing instruction that is vectored (R90). -/
theorem State.trap_takes (s : State) (h : s.CanTrap) (c : Cause) (addr val : Word) :
    TakesTrap s c.code addr val s.here.pc (s.trap c addr val) := s.trapOf_takes h c addr val _

end Sys2Proof.Machine
end

