-- ==== Sys2Proof/Machine/Image.lean ====
section
/-!
DEFINITION. The save region of a partition as words (R352 to R354): headers, core registers, context records, job records, replay records and LM, at
the offsets that the spec gives. The steward alone reads it (log 14).
-/
namespace Sys2Proof.Machine

/-- Bytes of one core's area (R352). -/
def areaSize : Nat := 0xA000

/-- A list of words read by a byte offset: past its end the rest is 0. -/
def wordAtByte (ws : List Word) (o : Nat) : Word := ws.getD (o / 8) 0

/-- A number as a word. -/
def wordOfNat (n : Nat) : Word := BitVec.ofNat 64 n

/-- Header: core index with its incarnation in [23:20], cache size code, occupied contexts, records, XPUSH SEQ and GTR (R352). -/
def SavedCore.header (x : SavedCore) : List Word :=
  let mask := ((List.range 6).map fun n => match x.ctxs[n]? with
    | some c => if c.st = .free then 0 else 2 ^ n
    | none => 0).sum
  [x.source + x.incarnation.toNat * 2 ^ 20, x.core.cacheSize, mask, x.replay.length, x.core.xseq.toNat, x.gtr].map wordOfNat

/-- Waiting mailbox slots in arrival order, one of 4 bits each from bit 0 and their number in [63:56]: a form of the model's (log 14). -/
def orderWord (l : List Nat) : Word :=
  wordOfNat (l.length % 256 * 2 ^ 56 + ((l.zip (List.range l.length)).map fun p => p.1 % 16 * 2 ^ (4 * p.2)).sum)

/-- Per-core registers in the order of R352. -/
def SavedCore.registers (x : SavedCore) : List Word :=
  let k := x.core
  ((List.range 8).map fun q => k.rings.getD q 0) ++
  [k.pquota.zeroExtend 64, k.mboxd.zeroExtend 64, k.hlimit.zeroExtend 64, k.traceb, k.tracen.zeroExtend 64, orderWord k.orderLo, orderWord k.orderHi]

/-- A v register as two words, the low one first. -/
def quadWords (q : Quad) : List Word := [q.setWidth 64, q.extractLsb' 64 64]

/-- The number of a context's state (R353); a placed thread that has not started is ready at its entry, since its staging begins again (R190). -/
def CtxSt.code : CtxSt → Nat
  | .free => 0
  | .staging => 1
  | .ready => 1
  | .waiting => 2
  | .faultWaiting => 3
  | .migrationWaiting => 4
  | .stopped => 1

/-- The number, address or job id, and target of a wait (R353). -/
def Wait.image : Wait → Nat × Word × Word
  | .none => (0, 0, 0)
  | .rwait q k _ => (1, wordOfNat q, wordOfNat k)
  | .rroom q k _ => (2, wordOfNat q, wordOfNat k)
  | .bar a g _ => (3, wordOfNat a, wordOfNat g)
  | .cwait a t _ => (4, wordOfNat a, t)
  | .ticket a t _ => (5, wordOfNat a, wordOfNat t)
  | .jwait id _ => (6, wordOfNat id, 0)
  | .waitt v => (7, 0, v)
  | .page a => (0, wordOfNat a, 0)

/-- Of a context that waits at RWAIT, RROOM or JWAIT, the register that the instruction will write (R24, R353). -/
def Wait.target? : Wait → Option Nat
  | .rwait _ _ d => some d
  | .rroom _ _ d => some d
  | .jwait _ d => some d
  | _ => .none

/-- PC of a context record: the first instruction not yet issued (R353). One that waits at RWAIT, RROOM, JWAIT or WAITT has issued that instruction (R24), which the model tests again
at the wake. -/
def Ctx.imagePc (c : Ctx) : Word :=
  if c.st ≠ .waiting then c.pc
  else match c.wait with
    | .rwait _ _ _ => c.pc + 4
    | .rroom _ _ _ => c.pc + 4
    | .jwait _ _ => c.pc + 4
    | .waitt _ => c.pc + 4
    | _ => c.pc

/-- The scoreboard's g registers that are still to come (R353). -/
def Ctx.pendMask (c : Ctx) : Nat :=
  let waited (n : Nat) : Bool := n != 0 && c.st == .waiting && c.wait.target? == some n
  ((List.range 32).map fun n => if c.pend.contains (.g n) || waited n then 2 ^ n else 0).sum

/-- The control registers and counts of a context record, in the order of R353. -/
def Ctx.imageCr (c : Ctx) : List Word :=
  let r := c.cr
  [r.tid, r.domain.zeroExtend 64, r.lclk.zeroExtend 64, r.fflags.zeroExtend 64, r.ftrapen.zeroExtend 64, r.frm.zeroExtend 64, r.trapvec, r.trappc,
   r.trapcause.zeroExtend 64, r.trapaddr, r.trapval, r.xferid, r.xien.zeroExtend 64, r.pset.zeroExtend 64, r.pres, r.bounceq.zeroExtend 64,
   r.bounces.zeroExtend 64, r.jobst, presOf c.pushSkipped c.pushRefused c.pushDelivered, wordOfNat (c.hcount / 640), wordOfNat c.migCount, wordOfNat c.home]

/-- The rank table: four entries of an address, and a generation above a rank (R207, R353). -/
def Ctx.imageRanks (c : Ctx) : List Word :=
  (List.range 4).flatMap fun n => match c.ranks[n]? with
    | some e => [wordOfNat e.addr, wordOfNat (e.gen * 2 ^ 32 + e.rank)]
    | none => [0, 0]

/-- A context record by byte offset (R353); zeros for a context that is not occupied. -/
def Ctx.image (c : Ctx) (o : Nat) : Word :=
  if c.st = .free then 0
  else
    let w := c.wait.image
    wordAtByte
      (((List.range 32).map fun n => if n = 0 then 0 else c.g.getD n 0) ++ ((List.range 16).map fun n => c.f.getD n 0) ++
       ((List.range 16).flatMap fun n => quadWords (c.v.getD n 0)) ++
       ((List.range 2).map fun h => wordOfNat (((List.range 4).map fun i =>
         (if h = 0 ∧ i = 0 then 0xFFFF else (c.k.getD (4 * h + i) 0).toNat) * 2 ^ (16 * i)).sum)) ++
       [c.imagePc, wordOfNat (c.st.code + w.1 * 16 + c.pendMask * 2 ^ 32), w.2.1, w.2.2] ++ c.imageCr ++ c.imageRanks ++
       (c.comps.map Prod.fst).take 4) o

/-- The engine registers e0 to e15 (R278, R352). -/
def SavedCore.engine (x : SavedCore) : List Word :=
  ((List.range 4).map fun n => x.core.scales.getD n 0x3F8000003F800000) ++ ((List.range 4).map fun n => (x.core.kinds.getD n 0).zeroExtend 64) ++
  [x.core.eseq.zeroExtend 64, x.core.last.zeroExtend 64]

/-- Two accumulator entries of a row: the accumulators stand row by row (R352). -/
def SavedCore.accWord (x : SavedCore) (o : Nat) : Word :=
  let e (n : Nat) : Nat := (x.core.acc.getD n 0).toNat
  wordOfNat (e (o / 4) + e (o / 4 + 1) * 2 ^ 32)

/-- A job record (R352): what it is, its id, its operands. The order within its 128 bytes is a form of the model's (log 14). -/
def Job.image (j : Job) : List Word :=
  let id := wordOfNat (j.id.getD 0)
  match j.kind with
  | .mma sparse pair desc opts scale => [wordOfNat ((if sparse then 2 else 1) + pair * 256), id, desc, opts, scale]
  | .mzero acc => [wordOfNat (3 + acc * 256), id]
  | .mst addr opts acc => [wordOfNat (4 + acc * 256), id, addr, opts]
  | .mldt addr opts ring => [wordOfNat (5 + ring * 256), id, addr, opts]

/-- The record of a copy: its transfer id, status and block (R352). -/
def CopyRec.image (x : CopyRec) : List Word := [wordOfNat (6 + x.status * 256), x.id] ++ x.block

/-- The four job records of a core: its jobs in order, then its copies that are not over (R352). -/
def SavedCore.jobRecords (x : SavedCore) : List (List Word) :=
  ((x.core.jobs.map Job.image) ++ ((x.core.copies.map Prod.snd).filter fun y => decide (1 ≤ y.status ∧ y.status ≤ 3)).map CopyRec.image).take 4

/-- KIND of a replay record (R354): a load, an acknowledgement, a result, a full/empty waiter or a fault wait. -/
def Flight.kindNo (f : Flight) : Nat :=
  match f.kind with
  | .load q => if q.fault = 0 then 1 else 5
  | .lmLoad _ _ _ _ _ => 1
  | .loadReply _ _ => 1
  | .atomic q => if q.fault = 0 then 3 else 5
  | .atomicResult _ _ => 3
  | .feOffer _ _ _ => 4
  | _ => 2

/-- The request clock of an access (R354). -/
def Flight.clock (f : Flight) : Stamp :=
  match f.kind with
  | .load q => q.c
  | .loadReply q _ => q.c
  | .store q => q.l
  | .storeAck q _ => q.l
  | .atomic q => q.l
  | .atomicResult q _ => q.l
  | _ => 0

/-- The address of an access. -/
def Flight.address (f : Flight) : Nat :=
  match f.kind with
  | .load q => q.addr
  | .lmLoad _ _ a _ _ => a
  | .loadReply q _ => q.addr
  | .store q => q.addr
  | .storeAck q _ => q.addr
  | .atomic q => q.addr
  | .atomicResult q _ => q.addr
  | .lmWrite a _ _ _ => a
  | .lmAck a _ => a
  | .feOffer a _ _ => a
  | _ => 0

/-- A replay record (R354). -/
def Flight.image (f : Flight) (source : Nat) : List Word :=
  [wordOfNat (f.kindNo + numberOf f.ctx * 16 + f.seq % 256 * 2 ^ 8 + (source % 2 ^ 20 + f.incarnation.toNat * 2 ^ 20) * 2 ^ 16), f.word.zeroExtend 64,
   wordOfNat f.address, f.clock.zeroExtend 64]

/-- Sixty-four full/empty bits: word w of the LM at bit w (R352). -/
def SavedCore.fullBits (x : SavedCore) (o : Nat) : Word :=
  wordOfNat (((List.range 64).map fun i => if x.empty.contains (8 * (8 * o + i)) then 0 else 2 ^ i).sum)

/-- Eight bytes of the LM; the cache region is zeros (R352). -/
def SavedCore.lmWord (x : SavedCore) (o : Nat) : Word :=
  if x.core.scratchEnd ≤ o then 0
  else wordOfNat (((List.range 8).map fun i => (((x.lm.find? fun b => b.1 == o + i).map Prod.snd).getD 0).toNat * 256 ^ i).sum)

/-- The word at a byte offset of a core's area (R352). -/
def SavedCore.word (x : SavedCore) (o : Nat) : Word :=
  if o < 0x100 then wordAtByte x.header o
  else if o < 0x200 then wordAtByte x.registers (o - 0x100)
  else if o < 0x1A00 then
    match x.ctxs[(o - 0x200) / 0x400]? with
    | some c => c.image ((o - 0x200) % 0x400)
    | none => 0
  else if o < 0x1A80 then wordAtByte x.engine (o - 0x1A00)
  else if o < 0x2A80 then x.accWord (o - 0x1A80)
  else if o < 0x2C80 then wordAtByte (x.jobRecords.getD ((o - 0x2A80) / 128) []) ((o - 0x2A80) % 128)
  else if o < 0x3280 then
    match x.replay[(o - 0x2C80) / 32]? with
    | some f => wordAtByte (f.image x.source) ((o - 0x2C80) % 32)
    | none => 0
  else if o < 0x3400 then x.fullBits (o - 0x3280)
  else if o < 0x9400 then x.lmWord (o - 0x3400)
  else 0

/-- The image of a core that held nothing when its partition was saved. -/
def State.emptyImage (s : State) (p core : Nat) (q : Part) : SavedCore :=
  { part := p, source := core, core := {}, ctxs := (List.range 6).map fun _ => {}, lm := [], empty := [], poison := [], replay := []
    gtr := q.savedAt.getD (tileOf core) 0, incarnation := (s.die (tileOf core)).incarnation }

/-- The word at an offset of the save region of a partition: the area of its k-th lowest core stands at k areas (R352). It is written by a save: of a partition that is not saved it
gives the images of parked launches alone (R363). -/
def State.saveWord (s : State) (p o : Nat) : Option Word :=
  match s.parts.get p with
  | none => none
  | some q =>
    match (q.cores.filter s.enabled)[o / areaSize]? with
    | none => none
    | some core =>
      let parked := (s.saved.find? fun x => x.2.part == p && x.2.parked && x.1 % coreCount == core).map Prod.snd
      let image := if q.st = .saved then some ((s.saved.get (saveKey p core)).getD (parked.getD (s.emptyImage p core q))) else parked
      image.map fun x => x.word (o % areaSize)

end Sys2Proof.Machine
end

