-- ==== Sys2Proof/Tests/Slice0.lean ====
section
/-!
SUPPORT. Tests: one word of every instruction, written from the opcode table's encoding of it, decodes to the instruction; an ill-formed term for
each check of WellFormed; for each obligation, states and operands that meet its hypotheses; and worked cases of the manual, one step each.
-/
namespace Sys2Proof.Tests
open Sys2Proof Sys2Proof.Machine

set_option Elab.async false

/-! ### Decoding, word by word of the opcode table -/

/-- Words of add to max from the table of the opcode map (R71). -/
theorem test_decode_Integer_1 :
    decode 0x02CBF000 = some (.add 22 11 30) ∧
    decode 0x02CBF001 = some (.sub 22 11 30) ∧
    decode 0x02CBF002 = some (.and 22 11 30) ∧
    decode 0x02CBF003 = some (.or 22 11 30) ∧
    decode 0x02CBF004 = some (.xor 22 11 30) ∧
    decode 0x02CBF005 = some (.andn 22 11 30) ∧
    decode 0x02CBF006 = some (.sll 22 11 30) ∧
    decode 0x02CBF007 = some (.srl 22 11 30) ∧
    decode 0x02CBF008 = some (.sra 22 11 30) ∧
    decode 0x02CBF009 = some (.slt 22 11 30) ∧
    decode 0x02CBF00A = some (.sltu 22 11 30) ∧
    decode 0x02CBF00B = some (.min 22 11 30) ∧
    decode 0x02CBF00C = some (.max 22 11 30) := by decide

/-- Words of minu to nop from the table of the opcode map (R43, R71, R72). -/
theorem test_decode_Integer_2 :
    decode 0x02CBF00D = some (.minu 22 11 30) ∧
    decode 0x02CBF00E = some (.maxu 22 11 30) ∧
    decode 0x02CBF00F = some (.mul 22 11 30) ∧
    decode 0x02CBF010 = some (.mulh 22 11 30) ∧
    decode 0x02CBF011 = some (.mulhu 22 11 30) ∧
    decode 0x02CB0012 = some (.clz 22 11) ∧
    decode 0x02CB0013 = some (.ctz 22 11) ∧
    decode 0x02CB0014 = some (.popc 22 11) ∧
    decode 0x06CBF000 = some (.div 22 11 30) ∧
    decode 0x06CBF001 = some (.divu 22 11 30) ∧
    decode 0x06CBF002 = some (.rem 22 11 30) ∧
    decode 0x06CBF003 = some (.remu 22 11 30) ∧
    decode 0x08000000 = some (.nop) := by decide

/-- Words of addi to shori from the table of the opcode map (R74). -/
theorem test_decode_Integer_3 :
    decode 0x0ACB8004 = some (.addi 22 11 32772) ∧
    decode 0x0ECB8004 = some (.andi 22 11 32772) ∧
    decode 0x12CB8004 = some (.ori 22 11 32772) ∧
    decode 0x16CB8004 = some (.xori 22 11 32772) ∧
    decode 0x1ACB8004 = some (.slti 22 11 32772) ∧
    decode 0x1ECB8004 = some (.sltiu 22 11 32772) ∧
    decode 0x22CB0029 = some (.slli 22 11 41) ∧
    decode 0x22CB0069 = some (.srli 22 11 41) ∧
    decode 0x22CB00A9 = some (.srai 22 11 41) ∧
    decode 0x26C08003 = some (.lhi 22 32771) ∧
    decode 0x2ACB8004 = some (.shori 22 11 32772) := by decide

/-- Words of beq to waitt from the table of the opcode map (R75, R83, R85, R86, R87, R88). -/
theorem test_decode_Control_1 :
    decode 0x42CB8004 = some (.beq 22 11 32772) ∧
    decode 0x46CB8004 = some (.bne 22 11 32772) ∧
    decode 0x4ACB8004 = some (.blt 22 11 32772) ∧
    decode 0x4ECB8004 = some (.bge 22 11 32772) ∧
    decode 0x52CB8004 = some (.bltu 22 11 32772) ∧
    decode 0x56CB8004 = some (.bgeu 22 11 32772) ∧
    decode 0x5A000003 = some (.jal 33554435) ∧
    decode 0x5ECB8004 = some (.jalr 22 11 32772) ∧
    decode 0x62CBF000 = some (.spawn 22 11 30) ∧
    decode 0x60000020 = some (.exit) ∧
    decode 0x60000040 = some (.yield) ∧
    decode 0x62C00060 = some (.home 22) ∧
    decode 0x60160080 = some (.waitt 22) := by decide

/-- Words of lclkup to crc from the table of the opcode map (R78, R89, R91, R92, R93). -/
theorem test_decode_Control_2 :
    decode 0x62CB00A0 = some (.lclkup 22 11) ∧
    decode 0x600000C0 = some (.iflush) ∧
    decode 0x600000F6 = some (.trap 22) ∧
    decode 0x60000100 = some (.eret) ∧
    decode 0x66C0003A = some (.crr 22 58) ∧
    decode 0x66CB103A = some (.crw 22 11 58) ∧
    decode 0x66CB203A = some (.crs 22 11 58) ∧
    decode 0x66CB303A = some (.crc 22 11 58) := by decide

/-- Words of rwait to gamoD from the table of the opcode map (R170, R171, R172, R206, R208, R209, R210). -/
theorem test_decode_Sync_1 :
    decode 0x6ACB10F1 = some (.rwait 22 11 4 241) ∧
    decode 0x6ACB30F1 = some (.rroom 22 11 4 241) ∧
    decode 0x6ACB50F1 = some (.radvh 22 11 4 241) ∧
    decode 0x6ACB70F1 = some (.radvt 22 11 4 241) ∧
    decode 0x6EDC8585 = some (.rld 22 1 1 4 133 133) ∧
    decode 0x72DC8585 = some (.rst 22 1 1 4 133 133) ∧
    decode 0x76CBF000 = some (.join 22 11 30) ∧
    decode 0x74160020 = some (.leave 22) ∧
    decode 0x76CB0040 = some (.bar 22 11) ∧
    decode 0x76CBF060 = some (.cwait 22 11 30) ∧
    decode 0x76CB0080 = some (.ticket 22 11) ∧
    decode 0x741600A0 = some (.serve 22) ∧
    decode 0x76CBF0C0 = some (.gamoD 22 11 30) := by decide

/-- Words of gamoW to amin from the table of the opcode map (R173, R210, R213, R214, R218, R221, R224). -/
theorem test_decode_Sync_2 :
    decode 0x76CBF0C1 = some (.gamoW 22 11 30) ∧
    decode 0x76CB00E0 = some (.launch 22 11) ∧
    decode 0x76CBF114 = some (.sendLo 22 11 30 20) ∧
    decode 0x76CBF134 = some (.sendHi 22 11 30 20) ∧
    decode 0x76CBF154 = some (.sendr 22 11 30 20) ∧
    decode 0x74000160 = some (.hret) ∧
    decode 0x76CB0180 = some (.xpush 22 11) ∧
    decode 0x76CB01A0 = some (.xstat 22 11) ∧
    decode 0x7ACBF034 = some (.aadd 22 11 30 1 2 1) ∧
    decode 0x7ACBF0B4 = some (.aand 22 11 30 1 2 1) ∧
    decode 0x7ACBF134 = some (.aor 22 11 30 1 2 1) ∧
    decode 0x7ACBF1B4 = some (.axor 22 11 30 1 2 1) ∧
    decode 0x7ACBF234 = some (.amin 22 11 30 1 2 1) := by decide

/-- Words of amax to afadd from the table of the opcode map (R173). -/
theorem test_decode_Sync_3 :
    decode 0x7ACBF2B4 = some (.amax 22 11 30 1 2 1) ∧
    decode 0x7ACBF334 = some (.aminu 22 11 30 1 2 1) ∧
    decode 0x7ACBF3B4 = some (.amaxu 22 11 30 1 2 1) ∧
    decode 0x7ACBF434 = some (.aswap 22 11 30 1 2 1) ∧
    decode 0x7ACBF4B4 = some (.acas 22 11 30 1 2 1) ∧
    decode 0x7ACBF534 = some (.afadd 22 11 30 1 2 1) := by decide

/-- Words of mma to jpoll from the table of the opcode map (R288, R293, R294, R296, R297). -/
theorem test_decode_Engine_1 :
    decode 0x7ECBF133 = some (.mma 22 11 30 9 19) ∧
    decode 0x7ECBF333 = some (.mmasp 22 11 30 9 19) ∧
    decode 0x7C160409 = some (.ewr 22 9) ∧
    decode 0x7EC00429 = some (.erd 22 9) ∧
    decode 0x7C000442 = some (.mzero 2) ∧
    decode 0x7ECBF461 = some (.mst 22 11 30 1) ∧
    decode 0x7ECBF484 = some (.mldt 22 11 30 4) ∧
    decode 0x7ECB04A0 = some (.jwait 22 11) ∧
    decode 0x7ECB04C0 = some (.jpoll 22 11) := by decide

/-- Words of lb to sw from the table of the opcode map (R155, R157). -/
theorem test_decode_Memory_1 :
    decode 0x82CB9985 = some (.lb 22 11 2 1 2 1 133) ∧
    decode 0x86CB9985 = some (.lbu 22 11 2 1 2 1 133) ∧
    decode 0x8ACB9985 = some (.lh 22 11 2 1 2 1 133) ∧
    decode 0x8ECB9985 = some (.lhu 22 11 2 1 2 1 133) ∧
    decode 0x92CB9985 = some (.lw 22 11 2 1 2 1 133) ∧
    decode 0x96CB9985 = some (.lwu 22 11 2 1 2 1 133) ∧
    decode 0x9ACB9985 = some (.ld 22 11 2 1 2 1 133) ∧
    decode 0x9ECB9985 = some (.flw 22 11 2 1 2 1 133) ∧
    decode 0xA2CB9985 = some (.fld 22 11 2 1 2 1 133) ∧
    decode 0xA6CB9985 = some (.vld 22 11 2 1 2 1 133) ∧
    decode 0xAACB2585 = some (.sb 22 11 2 1 1 133) ∧
    decode 0xAECB2585 = some (.sh 22 11 2 1 1 133) ∧
    decode 0xB2CB2585 = some (.sw 22 11 2 1 1 133) := by decide

/-- Words of sd to pref from the table of the opcode map (R157, R162, R165, R166, R167, R168). -/
theorem test_decode_Memory_2 :
    decode 0xB6CB2585 = some (.sd 22 11 2 1 1 133) ∧
    decode 0xBACB2585 = some (.fsw 22 11 2 1 1 133) ∧
    decode 0xBECB2585 = some (.fsd 22 11 2 1 1 133) ∧
    decode 0xC2CB2585 = some (.vst 22 11 2 1 1 133) ∧
    decode 0xC6CB1085 = some (.ldf 22 11 1 133) ∧
    decode 0xCACB1085 = some (.ldfe 22 11 1 133) ∧
    decode 0xCECB1085 = some (.sde 22 11 1 133) ∧
    decode 0xD0160085 = some (.fesetE 22 133) ∧
    decode 0xD0161085 = some (.fesetF 22 133) ∧
    decode 0xD4000800 = some (.fence 2) ∧
    decode 0xD8164085 = some (.ppurge 22 1 133) ∧
    decode 0xDECB8085 = some (.lease 22 11 2 133) ∧
    decode 0xE0164185 = some (.pref 22 1 1 133) := by decide

/-- Words of vadd to vmax from the table of the opcode map (R265). -/
theorem test_decode_VectorInteger_1 :
    decode 0xE6CBF440 = some (.vadd 22 11 30 4 2) ∧
    decode 0xE6CBF441 = some (.vsub 22 11 30 4 2) ∧
    decode 0xE6CBF442 = some (.vmul 22 11 30 4 2) ∧
    decode 0xE6CBF443 = some (.vmulh 22 11 30 4 2) ∧
    decode 0xE6CBF444 = some (.vmulhu 22 11 30 4 2) ∧
    decode 0xE6CBF445 = some (.vand 22 11 30 4 2) ∧
    decode 0xE6CBF446 = some (.vor 22 11 30 4 2) ∧
    decode 0xE6CBF447 = some (.vxor 22 11 30 4 2) ∧
    decode 0xE6CBF448 = some (.vsll 22 11 30 4 2) ∧
    decode 0xE6CBF449 = some (.vsrl 22 11 30 4 2) ∧
    decode 0xE6CBF44A = some (.vsra 22 11 30 4 2) ∧
    decode 0xE6CBF44B = some (.vmin 22 11 30 4 2) ∧
    decode 0xE6CBF44C = some (.vmax 22 11 30 4 2) := by decide

/-- Words of vminu to vins from the table of the opcode map (R265, R266). -/
theorem test_decode_VectorInteger_2 :
    decode 0xE6CBF44D = some (.vminu 22 11 30 4 2) ∧
    decode 0xE6CBF44E = some (.vmaxu 22 11 30 4 2) ∧
    decode 0xE6CBF44F = some (.vadds 22 11 30 4 2) ∧
    decode 0xE6CBF450 = some (.vsubs 22 11 30 4 2) ∧
    decode 0xE6CBF451 = some (.vaddus 22 11 30 4 2) ∧
    decode 0xE6CBF452 = some (.vsubus 22 11 30 4 2) ∧
    decode 0xE4ABF453 = some (.vcmpeq 5 11 30 4 2) ∧
    decode 0xE4ABF454 = some (.vcmplt 5 11 30 4 2) ∧
    decode 0xE4ABF455 = some (.vcmpltu 5 11 30 4 2) ∧
    decode 0xE6CBF456 = some (.vsel 22 11 30 4 2) ∧
    decode 0xE6CB0437 = some (.vsplat 22 11 4 1) ∧
    decode 0xE6CBF038 = some (.vext 22 11 30 1) ∧
    decode 0xE6CBF039 = some (.vins 22 11 30 1) := by decide

/-- Words of vperm to gmovk from the table of the opcode map (R266, R267, R268). -/
theorem test_decode_VectorInteger_3 :
    decode 0xE6CBF45A = some (.vperm 22 11 30 4 2) ∧
    decode 0xE6CBF43B = some (.vdot 22 11 30 4 1) ∧
    decode 0xE6CB043C = some (.vred 22 11 4 1) ∧
    decode 0xE4A6181D = some (.kand 5 6 3) ∧
    decode 0xE4A6183D = some (.kor 5 6 3) ∧
    decode 0xE4A6185D = some (.kxor 5 6 3) ∧
    decode 0xE4A6187D = some (.kandn 5 6 3) ∧
    decode 0xE4AB009D = some (.kmovg 5 11) ∧
    decode 0xE6C600BD = some (.gmovk 22 6) := by decide

/-- Words of fexp to fmax from the table of the opcode map (R269, R272, R273). -/
theorem test_decode_WAndScalar_1 :
    decode 0xEACB0180 = some (.fexp 22 11 1 4) ∧
    decode 0xEACB0181 = some (.flog 22 11 1 4) ∧
    decode 0xEACB0182 = some (.ferf 22 11 1 4) ∧
    decode 0xEACBF083 = some (.fdivD 22 11 30 4) ∧
    decode 0xEACB0084 = some (.fsqrtD 22 11 4) ∧
    decode 0xEACBF005 = some (.vcrc 22 11 30) ∧
    decode 0xEECBF180 = some (.fadd 22 11 30 1 4) ∧
    decode 0xEECBF181 = some (.fsub 22 11 30 1 4) ∧
    decode 0xEECBF182 = some (.fmul 22 11 30 1 4) ∧
    decode 0xEECBF183 = some (.fdivS 22 11 30 4) ∧
    decode 0xEECB0184 = some (.fsqrtS 22 11 4) ∧
    decode 0xEECBF105 = some (.fmin 22 11 30 1) ∧
    decode 0xEECBF106 = some (.fmax 22 11 30 1) := by decide

/-- Words of fma to fmvgf from the table of the opcode map (R269, R270). -/
theorem test_decode_WAndScalar_2 :
    decode 0xEECBF187 = some (.fma 22 11 30 1 4) ∧
    decode 0xEECBF188 = some (.fms 22 11 30 1 4) ∧
    decode 0xEECBF189 = some (.fnma 22 11 30 1 4) ∧
    decode 0xEECBF18A = some (.fnms 22 11 30 1 4) ∧
    decode 0xEECBF10B = some (.feq 22 11 30 1) ∧
    decode 0xEECBF10C = some (.flt 22 11 30 1) ∧
    decode 0xEECBF10D = some (.fle 22 11 30 1) ∧
    decode 0xEECB010E = some (.fclass 22 11 1) ∧
    decode 0xEECBF10F = some (.fsgnj 22 11 30 1) ∧
    decode 0xEECBF110 = some (.fsgnjn 22 11 30 1) ∧
    decode 0xEECBF111 = some (.fsgnjx 22 11 30 1) ∧
    decode 0xEECB0112 = some (.fmvfg 22 11 1) ∧
    decode 0xEECB0113 = some (.fmvgf 22 11 1) := by decide

/-- Words of fcvt to vfredMax from the table of the opcode map (R274, R275, R276). -/
theorem test_decode_VectorFloat_1 :
    decode 0xF2CB0891 = some (.fcvt 22 11 1 4 17) ∧
    decode 0xF6CB0C84 = some (.vcvt 22 11 1 4 4 4) ∧
    decode 0xFACBF488 = some (.vfadd 22 11 30 4 4 1) ∧
    decode 0xFACBF489 = some (.vfsub 22 11 30 4 4 1) ∧
    decode 0xFACBF48A = some (.vfmul 22 11 30 4 4 1) ∧
    decode 0xFACBF48B = some (.vfma 22 11 30 4 4 1) ∧
    decode 0xFACBF48C = some (.vfnma 22 11 30 4 4 1) ∧
    decode 0xFACBF415 = some (.vfmin 22 11 30 4 2) ∧
    decode 0xFACBF416 = some (.vfmax 22 11 30 4 2) ∧
    decode 0xF8ABF44F = some (.vfcmp 5 11 30 4 2 1) ∧
    decode 0xFECB0490 = some (.vfredSum 22 11 4 4 2) ∧
    decode 0xFECB0409 = some (.vfredMin 22 11 4 1) ∧
    decode 0xFECB040A = some (.vfredMax 22 11 4 1) := by decide

/-! ### Ill-formed terms -/

/-- Terms that well-formedness refuses, one for each check (R40, R41, R44 to R57, R274, R376). -/
theorem test_illFormed_1 :
    (Instr.add 0 0 0).wf = false ∧
    (Instr.addi 0 0 0).wf = false ∧
    (Instr.waittExpiry 8388608).wf = false ∧
    (Instr.waittExpiry 6).wf = false ∧
    (Instr.crr 0 5).wf = false ∧
    (Instr.crr 0 0x013).wf = false ∧
    (Instr.crr 0 0x068).wf = false ∧
    (Instr.crw 0 0 5).wf = false ∧
    (Instr.crw 0 0 0x013).wf = false ∧
    (Instr.crw 0 0 0x068).wf = false ∧
    (Instr.crs 0 0 5).wf = false ∧
    (Instr.crs 0 0 0x013).wf = false ∧
    (Instr.crs 0 0 0x068).wf = false ∧
    (Instr.crc 0 0 5).wf = false ∧
    (Instr.crc 0 0 0x013).wf = false ∧
    (Instr.crc 0 0 0x068).wf = false ∧
    (Instr.rwait 0 0 0 257).wf = false ∧
    (Instr.rroom 0 0 0 257).wf = false ∧
    (Instr.radvh 0 0 0 257).wf = false ∧
    (Instr.radvt 0 0 0 257).wf = false := by decide

/-- Terms that well-formedness refuses, one for each check (R40, R41, R44 to R57, R274, R376). -/
theorem test_illFormed_2 :
    (Instr.sendLo 0 0 0 6).wf = false ∧
    (Instr.sendHi 0 0 0 6).wf = false ∧
    (Instr.sendr 0 0 0 6).wf = false ∧
    (Instr.mma 0 0 0 14 0).wf = false ∧
    (Instr.mmasp 0 0 0 14 0).wf = false ∧
    (Instr.vcmpeq 0 0 0 0 0).wf = false ∧
    (Instr.vcmpeq 8 0 0 0 0).wf = false ∧
    (Instr.vcmplt 0 0 0 0 0).wf = false ∧
    (Instr.vcmplt 8 0 0 0 0).wf = false ∧
    (Instr.vcmpltu 0 0 0 0 0).wf = false ∧
    (Instr.vcmpltu 8 0 0 0 0).wf = false ∧
    (Instr.kand 0 1 1).wf = false ∧
    (Instr.kand 8 1 1).wf = false ∧
    (Instr.kand 1 8 1).wf = false ∧
    (Instr.kand 1 1 8).wf = false ∧
    (Instr.kor 0 1 1).wf = false ∧
    (Instr.kor 8 1 1).wf = false ∧
    (Instr.kor 1 8 1).wf = false ∧
    (Instr.kor 1 1 8).wf = false ∧
    (Instr.kxor 0 1 1).wf = false := by decide

/-- Terms that well-formedness refuses, one for each check (R40, R41, R44 to R57, R274, R376). -/
theorem test_illFormed_3 :
    (Instr.kxor 8 1 1).wf = false ∧
    (Instr.kxor 1 8 1).wf = false ∧
    (Instr.kxor 1 1 8).wf = false ∧
    (Instr.kandn 0 1 1).wf = false ∧
    (Instr.kandn 8 1 1).wf = false ∧
    (Instr.kandn 1 8 1).wf = false ∧
    (Instr.kandn 1 1 8).wf = false ∧
    (Instr.kmovg 0 0).wf = false ∧
    (Instr.kmovg 8 0).wf = false ∧
    (Instr.gmovk 0 8).wf = false ∧
    (Instr.fexp 0 0 0 5).wf = false ∧
    (Instr.fexp 0 0 0 6).wf = false ∧
    (Instr.flog 0 0 0 5).wf = false ∧
    (Instr.flog 0 0 0 6).wf = false ∧
    (Instr.ferf 0 0 0 5).wf = false ∧
    (Instr.ferf 0 0 0 6).wf = false ∧
    (Instr.fdivD 0 0 0 5).wf = false ∧
    (Instr.fdivD 0 0 0 6).wf = false ∧
    (Instr.fsqrtD 0 0 5).wf = false ∧
    (Instr.fsqrtD 0 0 6).wf = false := by decide

/-- Terms that well-formedness refuses, one for each check (R40, R41, R44 to R57, R274, R376). -/
theorem test_illFormed_4 :
    (Instr.fadd 0 0 0 0 5).wf = false ∧
    (Instr.fadd 0 0 0 0 6).wf = false ∧
    (Instr.fsub 0 0 0 0 5).wf = false ∧
    (Instr.fsub 0 0 0 0 6).wf = false ∧
    (Instr.fmul 0 0 0 0 5).wf = false ∧
    (Instr.fmul 0 0 0 0 6).wf = false ∧
    (Instr.fdivS 0 0 0 5).wf = false ∧
    (Instr.fdivS 0 0 0 6).wf = false ∧
    (Instr.fsqrtS 0 0 5).wf = false ∧
    (Instr.fsqrtS 0 0 6).wf = false ∧
    (Instr.fma 0 0 0 0 5).wf = false ∧
    (Instr.fma 0 0 0 0 6).wf = false ∧
    (Instr.fms 0 0 0 0 5).wf = false ∧
    (Instr.fms 0 0 0 0 6).wf = false ∧
    (Instr.fnma 0 0 0 0 5).wf = false ∧
    (Instr.fnma 0 0 0 0 6).wf = false ∧
    (Instr.fnms 0 0 0 0 5).wf = false ∧
    (Instr.fnms 0 0 0 0 6).wf = false ∧
    (Instr.fcvt 0 0 1 5 4).wf = false ∧
    (Instr.fcvt 0 0 1 6 4).wf = false := by decide

/-- Terms that well-formedness refuses, one for each check (R40, R41, R44 to R57, R274, R376). -/
theorem test_illFormed_5 :
    (Instr.fcvt 0 0 10 0 4).wf = false ∧
    (Instr.fcvt 0 0 1 0 24).wf = false ∧
    (Instr.fcvt 0 0 1 0 1).wf = false ∧
    (Instr.fcvt 0 0 16 0 17).wf = false ∧
    (Instr.vcvt 0 0 1 0 5 4).wf = false ∧
    (Instr.vcvt 0 0 1 0 6 4).wf = false ∧
    (Instr.vcvt 0 0 10 0 0 4).wf = false ∧
    (Instr.vcvt 0 0 1 0 0 24).wf = false ∧
    (Instr.vcvt 0 0 1 0 0 1).wf = false ∧
    (Instr.vcvt 0 0 16 0 0 17).wf = false ∧
    (Instr.vfadd 0 0 0 0 5 0).wf = false ∧
    (Instr.vfadd 0 0 0 0 6 0).wf = false ∧
    (Instr.vfsub 0 0 0 0 5 0).wf = false ∧
    (Instr.vfsub 0 0 0 0 6 0).wf = false ∧
    (Instr.vfmul 0 0 0 0 5 0).wf = false ∧
    (Instr.vfmul 0 0 0 0 6 0).wf = false ∧
    (Instr.vfma 0 0 0 0 5 0).wf = false ∧
    (Instr.vfma 0 0 0 0 6 0).wf = false ∧
    (Instr.vfnma 0 0 0 0 5 0).wf = false ∧
    (Instr.vfnma 0 0 0 0 6 0).wf = false := by decide

/-- Terms that well-formedness refuses, one for each check (R40, R41, R44 to R57, R274, R376). -/
theorem test_illFormed_6 :
    (Instr.vfcmp 0 0 0 0 0 0).wf = false ∧
    (Instr.vfcmp 8 0 0 0 0 0).wf = false ∧
    (Instr.vfcmp 1 0 0 0 3 0).wf = false ∧
    (Instr.vfredSum 0 0 0 5 0).wf = false ∧
    (Instr.vfredSum 0 0 0 6 0).wf = false ∧
    (Instr.migrateToWCore 131072).wf = false ∧
    (Instr.migrateReturn 8388608).wf = false ∧
    (Instr.migrateReturn 6).wf = false ∧
    (Instr.wCoreEarlyReturn 8388608).wf = false ∧
    (Instr.wCoreEarlyReturn 6).wf = false ∧
    (Instr.copyCompletionInterrupt 8388608).wf = false ∧
    (Instr.copyCompletionInterrupt 6).wf = false ∧
    (Instr.pubPublish 1024 0).wf = false ∧
    (Instr.waitRepoll 8388608).wf = false ∧
    (Instr.waitRepoll 6).wf = false ∧
    (Instr.unrecordedResend 8388608).wf = false ∧
    (Instr.unrecordedResend 6).wf = false ∧
    (Instr.handlerStart 1048576 true).wf = false ∧
    (Instr.handlerOverrun 8388608).wf = false ∧
    (Instr.handlerOverrun 6).wf = false := by decide

/-- Terms that well-formedness refuses, one for each check (R40, R41, R44 to R57, R274, R376). -/
theorem test_illFormed_7 :
    (Instr.pageResolve 16 0 none).wf = false ∧
    (Instr.gateOpen 16 0).wf = false ∧
    (Instr.gateOpen 0 256).wf = false ∧
    (Instr.launchAged 16 0).wf = false ∧
    (Instr.launchAged 0 256).wf = false ∧
    (Instr.threadPlace 16).wf = false ∧
    (Instr.stagingDone 8388608).wf = false ∧
    (Instr.stagingDone 6).wf = false ∧
    (Instr.launchComplete 16 0).wf = false ∧
    (Instr.launchComplete 0 256).wf = false ∧
    (Instr.completionPost 16).wf = false ∧
    (Instr.launchAbort 16 0).wf = false ∧
    (Instr.launchAbort 0 256).wf = false ∧
    (Instr.workAged 16).wf = false ∧
    (Instr.clockRaiseCheck 16).wf = false ∧
    (Instr.jobDispatch 1048576).wf = false ∧
    (Instr.jobRetire 1048576).wf = false ∧
    (Instr.copyDispatch 1048576).wf = false ∧
    (Instr.copyElement 1048576 0 0).wf = false ∧
    (Instr.copyDone 1048576 0).wf = false := by decide

/-- Terms that well-formedness refuses, one for each check (R40, R41, R44 to R57, R274, R376). -/
theorem test_illFormed_8 :
    (Instr.gtrExchange 65 none 0).wf = false ∧
    (Instr.zwionTimeExchange 8 0).wf = false ∧
    (Instr.rightsPurge 1048576 0).wf = false ∧
    (Instr.translationPurge 1024 0).wf = false ∧
    (Instr.wipe 16).wf = false ∧
    (Instr.preemptDrainDeadline 16).wf = false ∧
    (Instr.drainComplete 16).wf = false ∧
    (Instr.dieReset 65 true).wf = false ∧
    (Instr.quiesceDeadline 65).wf = false ∧
    (Instr.homeReturn 1024).wf = false ∧
    (Instr.crossingReplay 65 true).wf = false ∧
    (Instr.hostMemAccess 128 0 none).wf = false ∧
    (Instr.launchPortWrite 128 0 []).wf = false ∧
    (Instr.launchPortWrite 0 0 (List.replicate 65 0)).wf = false ∧
    (Instr.vfRegisterWrite 128 0 0).wf = false ∧
    (Instr.zwionFlitReceive 8 0 0 0 0 [] true true).wf = false ∧
    (Instr.zwionNak 8 0).wf = false ∧
    (Instr.zwionBusyReplay 8 0).wf = false ∧
    (Instr.zwionRetrain 8 true).wf = false ∧
    (Instr.collStart 16 0).wf = false := by decide

/-- Terms that well-formedness refuses, one for each check (R40, R41, R44 to R57, R274, R376). -/
theorem test_illFormed_9 :
    (Instr.collStart 0 64).wf = false ∧
    (Instr.collChunk 16 0 0 0 []).wf = false ∧
    (Instr.collChunk 0 64 0 0 []).wf = false ∧
    (Instr.collResult 16 0 [] 0 0 0).wf = false ∧
    (Instr.collResult 0 64 [] 0 0 0).wf = false ∧
    (Instr.collDeadline 16 0).wf = false ∧
    (Instr.collDeadline 0 64).wf = false ∧
    (Instr.cDieClamp 16 0).wf = false ∧
    (Instr.baseDieClamp 65 0).wf = false ∧
    (Instr.clampLift 65 0).wf = false ∧
    (Instr.thermalTrip 65 0).wf = false ∧
    (Instr.partCreate (List.replicate 9 0)).wf = false ∧
    (Instr.partEnd 16).wf = false ∧
    (Instr.partPreempt 16 0).wf = false ∧
    (Instr.partRestore 16).wf = false ∧
    (Instr.partResize 16 [] true).wf = false ∧
    (Instr.partResize 0 (List.replicate 9 0) true).wf = false ∧
    (Instr.partDrain 16 0).wf = false ∧
    (Instr.domainCreate 16 none).wf = false ∧
    (Instr.rightsWrite 0 [256] [0] [0]).wf = false ∧
    (Instr.rightsWrite 0 [1] [0] []).wf = false := by decide

/-- Terms that well-formedness refuses, one for each check (R40, R41, R44 to R57, R274, R376). -/
theorem test_illFormed_10 :
    (Instr.readAbortLog 16).wf = false ∧
    (Instr.collWrite 16 0 []).wf = false ∧
    (Instr.collWrite 0 64 []).wf = false ∧
    (Instr.collWrite 0 0 (List.replicate 9 0)).wf = false ∧
    (Instr.vfReset 128).wf = false ∧
    (Instr.getVersion 129).wf = false ∧
    (Instr.getCapabilities 129).wf = false ∧
    (Instr.negotiateAlgorithms 129 true true).wf = false ∧
    (Instr.getDigests 129).wf = false ∧
    (Instr.getCertificate 0 8).wf = false ∧
    (Instr.challenge 129 []).wf = false ∧
    (Instr.getMeasurements 129 0 []).wf = false ∧
    (Instr.keyExchange 129 []).wf = false ∧
    (Instr.finish 129 true).wf = false ∧
    (Instr.endSession 129).wf = false ∧
    (Instr.regionMapWrite 16 0 0 0).wf = false ∧
    (Instr.regionMapWrite 0 64 0 0).wf = false ∧
    (Instr.ideKeyProgramming 129 0 0).wf = false := by decide

/-! ### Small states to test on -/

/-- A launch of partition 1 with one thread placed. -/
def launch0 : Launch :=
  { part := 1, slot := 0, st := .placed, threads := 1, nextNumber := 1, live := 1, entry := 0x400, args := 0, group := 0, gate := 0, gateVal := 0, done := 0,
    domain := 1, cache := 0, policy := 0, near := 0, eclass := 0, prio := 0, foots := [], parent := 0, start := 0, clock := 0, entered := 0, lastPlaced := 0 }

/-- Partition 1: the quadrants of tile 0, and a region that its slices home. -/
def part1 : Part :=
  { qx0 := 0, qy0 := 0, qw := 2, qh := 2, det := false, tick := 2, weight := 1, phaseGroup := 0, vfs := [3], launches := [(0, launch0)],
    regions := [(0, { base := 0, log2size := 25, hash := 0, gran := 0, tiles := 1 })] }

/-- A rights entry that gives everything in one 64 KiB page. -/
def page (base attr : Nat) : RightsEntry := { base := base, log2size := 16, attr := attr, p := true, x := true, w := true, r := true }

/-- Thread 0 of core 0, in launch 0 of partition 1, with g5 = 0x10008 (memory), g6 = 0x408 of its own LM and g7 = 5. -/
def thread : Ctx :=
  { st := .ready, launch := some 0, accessDomain := 1, uid := 1, pc := 0x00FE000000000400,
    g := [(5, 0x10008), (6, 0x00FE000000000408), (7, 5)],
    cr := { tid := 0x1000000000000000, domain := 1, part := 1, trapvec := 0x00FE000000000800 } }

/-- A module that runs it: domain 1 has four pages, of each attribute, and page 1 is mapped. -/
def base : State :=
  { State.reset with
    ctxs := [(0, thread)]
    parts := [(1, part1)]
    domains := [(1, { part := 1, owner := none, rights := [(0, page 0x10000 0), (1, page 0x20000 1), (2, page 0x30000 2), (3, page 0x40000 3)] })]
    pte := [(pteKey 1 0, 0x8000000000000000), (pteKey 2 0, 0x8000000000000000), (pteKey 3 0, 0x8000000000000000),
            (pteKey 4 0x10000, 0xC100000000000000), (pteKey 4 0x20000, 0x0020000000000000), (pteKey 4 0x30000, 0xC100000000000000), (pteKey 4 0x40000, 0xC100000000000000)]
    mgmt := { State.reset.mgmt with step := 9, isobar := true } }

/-- `base` with the executing context changed. -/
def hereAs (f : Ctx → Ctx) : State := base.onHere f

/-- `base` in a low handler context of core 0, without a launch. -/
def inHandler : State := { base with ctxs := [(4, { thread with launch := none })], cur := 4 }

/-- `base` in a thread of the W-core of cluster 0. -/
def onWCore : State := { base with ctxs := [(56, { thread with home := 7 })], cur := 56 }

/-- `base` with the context's partition deterministic. -/
def deterministic : State :=
  { base with ctxs := [(0, { thread with cr := { thread.cr with part := 17 } })], parts := [(1, { part1 with det := true })] }

/-- A thread of home core 0 in the W-core, while core 0 traces writes into a ring of one entry. -/
def tracedMove : State := ({ base with ctxs := [(56, thread)], cur := 56 } : State).onCore 0 fun k => { k with traceb := 0x800400 }

/-! ### States and operands that meet the hypotheses of each obligation, at the boundaries of its clauses -/

/-- `base` with a g register of the thread set. -/
def withG (n : Nat) (v : Word) : State := hereAs fun c => c.wrG n v

theorem idle_of_empty (s : State) (h : s.net = {}) : s.Idle := by
  simp [State.Idle, State.flightsOf, State.waitersOf, State.gamosOf, State.pushing, State.flightsBy, State.gamosBy, State.pushingBy, h]

theorem base_idle : base.Idle := idle_of_empty base rfl

theorem witness_divisionOnTheWCore : isWCore onWCore.execCore = true ∧ isWCore base.execCore = false ∧ base.inHandler = false := by decide +kernel

theorem witness_branchesAndJumps :
    (base.rdG 6 + (0xFFF8 : BitVec 16).signExtend 64).toNat % 4 = 0 ∧ base.CanTrap ∧ (base.rdG 6 + (0xFFFE : BitVec 16).signExtend 64).toNat % 4 ≠ 0 := by
  unfold State.CanTrap; decide +kernel

theorem witness_controlRegisterReads :
    base.detHere = false ∧ deterministic.detHere = true ∧ deterministic.CanTrap ∧ (0x03A : BitVec 12) ∈ [(0x001 : BitVec 12), 0x008, 0x009, 0x00A, 0x00B, 0x050, 0x049, 0x041, 0x03A] ∧
      (5 : Reg) ≠ 0 := by
  unfold State.CanTrap; decide +kernel

/-- PQUOTA 48 and 49, HLIMIT 255 and 256 in a thread, and a handler. -/
theorem witness_controlRegisterWrites :
    let x := (withG 7 49).rdG 7
    let y := (withG 7 48).rdG 7
    let z := (withG 7 255).rdG 7
    let w := (withG 7 256).rdG 7
    base.detHere = false ∧ 48 < (x.setWidth 6).toNat ∧ (y.setWidth 6).toNat ≤ 48 ∧ inHandler.inHandler = true ∧ (z.setWidth 32).toNat < 256 ∧
      (withG 7 256).inHandler = false ∧ 256 ≤ (w.setWidth 32).toNat := by decide +kernel

/-- BOUNCEQ naming a ring that is not valid and one that is, and no ring; MBOXD 0, 1, 8 and 9. -/
theorem witness_sharedRegisterWrites :
    let k := base.core base.homeCore
    let ringed := (base.onCore 0 fun k => { k with rings := [(0, 0x13000400)] }).core 0
    base.detHere = false ∧ base.here.st = .ready ∧ ((8 : Word).getLsbD 3 = true ∧ k.ringValid (k.rings.getD 0 0) = false) ∧
      ((8 : Word).getLsbD 3 = true ∧ ringed.ringValid (ringed.rings.getD 0 0) = true) ∧ (7 : Word).getLsbD 3 = false ∧
      (16 : Word).toNat % 16 = 0 ∧ 8 < (9 : Word).toNat % 16 ∧ 1 ≤ (1 : Word).toNat % 16 ∧ (1 : Word).toNat % 16 ≤ 8 ∧ 1 ≤ (8 : Word).toNat % 16 ∧ (8 : Word).toNat % 16 ≤ 8 := by
  decide +kernel

theorem witness_trapRaisesBreak :
    base.CanTrap ∧ base.here.launch = some 0 ∧ base.launch? base.here.partNo 0 = some launch0 ∧ launch0.pendingAbort = none ∧ base.inHandler = false ∧ base.here.pend = [] ∧
      base.answersOut base.cur = false ∧ (hereAs fun c => c.onCr fun r => { r with trapvec := 0 }).here.cr.trapvec = 0 ∧
      (hereAs fun c => c.onCr fun r => { r with trapcause := 0x100 }).here.cr.trapcause.getLsbD 8 = true := by
  unfold State.CanTrap; decide +kernel

/-- A target 0x406, an address past the LM, one that is not a multiple of 8, and a thread in a trap. -/
theorem witness_preciseTrapsAndReturn :
    base.CanTrap ∧ (base.rdG 6 + (0xFFFE : BitVec 16).signExtend 64).toNat % 4 ≠ 0 ∧ (base.rdG 7).toNat % 4 ≠ 0 ∧ base.here.cr.trapcause.getLsbD 8 = false ∧
      placeOf base.homeCore 0x00FE000000006000 = .unmapped ∧ placeOf base.homeCore 0x00FE000000000401 = .lm base.homeCore 0x401 ∧ base.enabled base.homeCore = true ∧
      0x401 < (base.core base.homeCore).scratchEnd ∧ (0x00FE000000000401 : Word).toNat % 8 ≠ 0 ∧
      (hereAs fun c => c.onCr fun r => { r with trapcause := 0x10E }).here.cr.trapcause.getLsbD 8 = true ∧ base.inHandler = false := by
  unfold State.CanTrap; decide +kernel

theorem witness_threadInstructions :
    base.inHandler = false ∧ (withG 7 0).inHandler = false ∧ ((withG 7 0).rdG 7).toNat ≤ (withG 7 0).gtrOf (tileOf (withG 7 0).execCore) ∧
      base.gtrOf (tileOf base.execCore) < (base.rdG 7).toNat ∧ base.detHere = false ∧ base.flightsOf base.cur = [] ∧ base.waitersOf base.cur = [] := by decide +kernel

/-- The lowest entry address and the last below the scratch end; a launch whose thread count has reached its limit; both kinds of partition. -/
theorem witness_spawnAndExit :
    base.inHandler = false ∧ base.here.launch = some 0 ∧ base.launch? base.here.partNo 0 = some launch0 ∧ base.Idle ∧
      (0x00FE000000000400 : Word).toNat % 4 = 0 ∧ (0x00FE000000005FFC : Word).toNat < 0x00FE000000000000 + (base.core base.here.home).scratchEnd ∧
      launch0.threads < 2 ^ 32 - 1 ∧ 2 ^ 24 - 1 ≤ ({ launch0 with group := 0x10000, threads := 2 ^ 24 - 1 } : Launch).threads ∧
      base.isDet base.here.partNo = false ∧ deterministic.isDet deterministic.here.partNo = true ∧ isWCore base.execCore = false ∧
      isWCore onWCore.execCore = true ∧ onWCore.migFifo.getD (clusterOf onWCore.execCore) [] = [] :=
  ⟨by decide +kernel, by decide +kernel, by decide +kernel, base_idle, by decide +kernel⟩

theorem witness_handlersEndWithHret :
    inHandler.inHandler = true ∧ inHandler.here.launch = none ∧ inHandler.here.pend = [] ∧ inHandler.answersOut inHandler.cur = false ∧ inHandler.parts.get inHandler.here.partNo = some part1 ∧
      base.inHandler = false ∧ base.CanTrap ∧
      (let s := { base with ctxs := [(4, thread)], cur := 4 }; s.inHandler = true ∧ s.here.launch = some 0 ∧ s.launch? s.here.partNo 0 = some launch0) := by
  unfold State.CanTrap; decide +kernel

theorem witness_loadsBegin :
    let line : CopyLine := { line := 0x10000, part := 1, sectors := [(0, { data := 0, wts := 0, rts := 100 })] }
    let copied := base.onCore 0 fun k => { k with cacheSize := 1, cache := [line] }
    let s1 := (base.locate base.cur .load 0x10008 8).2
    (base.locate base.cur .load 0x00FE000000000408 8 = (.lm 0 0x408, base) ∧ base.acquiring base.cur (base.scopeOf base.cur (lmAddr 0 0x408) 0) = false ∧
      base.lmHeld base.cur 0 (lmAddr 0 0x408) 8 true = false ∧ base.poisoned (lmAddr 0 0x408) 8 = false ∧ base.hasReg 15) ∧
    (base.locate base.cur .load 0x10008 8 = (.memory (page 0x10000 0), s1) ∧ base.acquiring base.cur (base.scopeOf base.cur 0x10008 0) = false ∧
      base.missTable (clusterOf base.execCore) < 16 ∧ base.net.claims = [] ∧ (base.core 0).copy? 1 0x10008 = none) ∧
    base.late = false ∧ (({ base with late := true } : State).late = true ∧ ({ base with late := true } : State).locate base.cur .load 0x00FE000000000408 8 = (.lm 0 0x408, { base with late := true }) ∧
      LoadFmt.f64.size = 8 ∧ ({ base with late := true } : State).hasReg 15) ∧
    (∃ k, (copied.core 0).copy? 1 0x10008 = some k ∧ copied.ownHit copied.cur copied.clock k = true ∧ k.poisonedAt 0x10008 8 = false ∧ mayCache 0 0 = true ∧
      copied.sectorBusy copied.cur (copied.core 0).reqSeq 0x10008 8 = false ∧ copied.here.spin = [] ∧
      (copied.locate copied.cur .load 0x10008 8).1 = .memory (page 0x10000 0)) := by
  refine ⟨by unfold State.hasReg; decide +kernel, by decide +kernel, rfl, by unfold State.hasReg; decide +kernel, ⟨{ data := 0, wts := 0, rts := 100 }, by decide +kernel⟩⟩

/-- A store in its turn, and one that the agenda delays. -/
theorem witness_storesBegin :
    base.late = false ∧ tracedMove.late = false ∧ tracedMove.storeBuffer tracedMove.execCore < 16 ∧ ({ base with late := true } : State).late = true ∧
      ¬(base.execCore ≠ base.homeCore) ∧ tracedMove.Idle ∧
      (tracedMove.execCore ≠ 0 ∧ traceOn (tracedMove.core 0).traceb = true ∧ (tracedMove.core 0).traceValid = true ∧ tracedMove.homeCore = 0 ∧
        tracedMove.locate tracedMove.cur .store 0x00FE000000000408 8 = (.lm 0 0x408, tracedMove)) ∧ base.memWf ∧ base.Idle ∧ base.hasReg 15 ∧ base.locate base.cur .store 0x00FE000000000408 8 = (.lm 0 0x408, base) ∧ (0 : Nat) = base.homeCore ∧
      base.locate base.cur .store (BitVec.ofNat 64 (lmAddr 1 0x408)) 8 = (.lm 1 0x408, base) ∧ (1 : Nat) ≠ base.homeCore ∧ base.storeBuffer base.execCore < 16 ∧
      base.locate base.cur .store 0x10008 8 = (.memory (page 0x10000 0), (base.locate base.cur .store 0x10008 8).2) ∧
      base.acquiring base.cur (base.scopeOf base.cur 0x10008 0) = false :=
  ⟨by decide +kernel, by decide +kernel, by decide +kernel, by decide +kernel, by decide +kernel, idle_of_empty _ rfl, by decide +kernel, rfl, base_idle, by unfold State.hasReg; decide +kernel, by decide +kernel⟩

/-- A full and an empty word; the last word of the scratch. -/
theorem witness_fullEmptyInstructions :
    let e : State := { base with emptied := [lmAddr 0 0x5FF8] }
    base.memWf ∧ base.Idle ∧ e.Idle ∧ base.net.waiters = [] ∧ base.net.turns = [] ∧ base.enabled base.homeCore = true ∧
      placeOf 0 0x00FE000000005FF8 = .lm 0 0x5FF8 ∧ 0x5FF8 + 8 ≤ (base.core 0).scratchEnd ∧ (0x00FE000000005FF8 : Word).toNat % 8 = 0 ∧
      base.full (lmAddr 0 0x5FF8) = true ∧ base.poisoned (lmAddr 0 0x5FF8) 8 = false ∧ e.full (lmAddr 0 0x5FF8) = false ∧ ¬(base.execCore ≠ base.homeCore) ∧ tracedMove.Idle ∧
      (tracedMove.net.waiters = [] ∧ tracedMove.net.turns = [] ∧ tracedMove.enabled 0 = true ∧ tracedMove.execCore ≠ 0 ∧ traceOn (tracedMove.core 0).traceb = true ∧
        (tracedMove.core 0).traceValid = true ∧ ({ tracedMove with emptied := [lmAddr 0 0x5FF8] } : State).full (lmAddr 0 0x5FF8) = false) :=
  by refine ⟨rfl, base_idle, idle_of_empty _ rfl, ?_, ?_, ?_, ?_, ?_, ?_, ?_, ?_, ?_, ?_, idle_of_empty _ rfl, ?_⟩ <;> decide +kernel

theorem witness_fencePurgeLeasePrefetch :
    let look (a : Nat) := base.plbLookup base.execCore base.here.accessDomain a
    base.Idle ∧ placeOf base.homeCore 0x10008 = .memory ∧ look 0x10008 = (some (page 0x10000 0), (look 0x10008).2) ∧ look 0x30000 = (some (page 0x30000 2), (look 0x30000).2) ∧
      base.missTable (clusterOf base.execCore) < 16 ∧ base.net.claims = [] ∧ base.homeSlice base.here.partNo 0x10008 = some 0 ∧ base.homeSlice base.here.partNo 0x30000 = some 0 ∧
      (page 0x10000 0).r = true ∧ base.detHere = false ∧ (base.core base.execCore).copy? base.here.partNo 0x10008 = none :=
  ⟨base_idle, by decide +kernel⟩

theorem witness_atomicsAreSent :
    base.detHere = false ∧ deterministic.detHere = true ∧ base.storeBuffer base.execCore < 16 ∧
      base.locate base.cur .atomic 0x10008 8 = (.memory (page 0x10000 0), (base.locate base.cur .atomic 0x10008 8).2) ∧
      base.acquiring base.cur (base.scopeOf base.cur 0x10008 0) = false ∧ base.locate base.cur .atomic 0x00FE000000000408 4 = (.lm 0 0x408, base) ∧
      base.acquiring base.cur (base.scopeOf base.cur (lmAddr 0 0x408) 0) = false ∧ base.lmHeld base.cur 0 (lmAddr 0 0x408) 4 true = false := by decide +kernel

theorem witness_groupInstructionsAreSent :
    base.inHandler = false ∧ base.detHere = false ∧ base.Idle ∧ base.storeBuffer base.execCore < 16 ∧ placeOf base.homeCore 0x10008 = .memory ∧
      base.locate base.cur .atomic 0x10008 8 = (.memory (page 0x10000 0), (base.locate base.cur .atomic 0x10008 8).2) ∧ ((withG 7 0xFFFFFE).rdG 7).toNat ≤ 0xFFFFFE ∧
      base.locate base.cur .atomic 0x10008 4 = (.memory (page 0x10000 0), (base.locate base.cur .atomic 0x10008 4).2) ∧ base.net.gamo = [] :=
  ⟨by decide +kernel, by decide +kernel, base_idle, by decide +kernel⟩

/-- A ring of 8 slots of 64 bytes with 2 filled: counts of 2, 3, 6, 7, 8 and 9, slots 7 and 8, and a slot's last double and quad word; and a descriptor that is not valid. -/
theorem witness_ringInstructions :
    let s := base.onCore 0 fun k => { k with rings := [(0, 0x0005000333000400)] }
    let k := s.core s.homeCore
    let desc := k.rings.getD 0 0
    let tail := (desc.toNat / 2 ^ 48) % 2 ^ 16
    let head := (desc.toNat / 2 ^ 32) % 2 ^ 16
    let filled := (tail + 65536 - head) % 65536
    let slots := 2 ^ (desc.toNat / 2 ^ 24 % 16)
    s.memWf ∧ s.Idle ∧ s.acquiring s.cur 0 = false ∧ ({ s with late := true } : State).late = true ∧ s.CanTrap ∧ (base.core 0).ringValid ((base.core 0).rings.getD 0 0) = false ∧ k.ringValid desc = true ∧ slots = 8 ∧ filled = 2 ∧
      2 ≤ filled ∧ filled < 3 ∧ 6 ≤ slots - filled ∧ slots - filled < 7 ∧ 8 ≤ slots ∧ 7 < slots ∧ 7 * 8 + 8 ≤ 8 * 2 ^ (desc.toNat / 2 ^ 28 % 16) ∧
      3 * 16 + 16 ≤ 8 * 2 ^ (desc.toNat / 2 ^ 28 % 16) ∧ s.poisoned (lmAddr 0 0x400) 8 = false ∧ s.hasReg 15 ∧ s.detHere = false ∧
      s.here.st = .ready ∧ slots < 9 ∧ slots ≤ 8 ∧ s.storeBuffer s.execCore < 16 ∧ s.late = false ∧ ¬(s.execCore ≠ s.homeCore) :=
  ⟨rfl, idle_of_empty _ rfl, by decide +kernel, rfl, by unfold State.CanTrap State.hasReg; decide +kernel⟩

/-- The lowest and the last handler address, ring 7 and 8, core 2^20, a core outside the partition and one whose cluster is disabled. -/
theorem witness_messagesAreSentOrTrap :
    base.CanTrap ∧ deterministic.CanTrap ∧ (12 : BitVec 5).toNat + 3 < 16 ∧ (1 : Nat) < 2 ^ 20 ∧ base.enabled 1 = true ∧ base.inPart base.here.partNo 1 = true ∧ base.detHere = false ∧
      (0x00FE000000000400 : Word).toNat % 4 = 0 ∧ (0x00FE000000005FFC : Word).toNat ≤ 0x00FE000000005FFC ∧ (7 : Word).toNat ≤ 7 ∧ 7 < (8 : Word).toNat ∧
      2 ^ 20 ≤ (0x100000 : Word).toNat ∧ ({ base with disabled := [1] } : State).enabled 8 = false ∧ base.enabled 65536 = true ∧
      base.inPart base.here.partNo 65536 = false ∧ deterministic.detHere = true := by
  unfold State.CanTrap; decide +kernel

/-! Launches, copies and the engine. -/

/-- Memory with 8-byte words, by address. -/
def words (xs : List (Nat × Nat)) : Memory := xs.foldl (fun m x => m.writeNat x.1 8 x.2) []

/-- `base` with a launch record at 0x10040, its list at 0x10080, and g5 the record's address. -/
def recorded : State :=
  { withG 5 0x10040 with mem := words [(0x10040, 0x100000400), (0x10078, 0x10080), (0x10090, 0x10100), (0x10098, 0x80400)] }

/-- The table with no free slot. -/
def fullTable : State :=
  { recorded with parts := [(1, { part1 with launches := (List.range 256).map fun n => (n, { launch0 with slot := n }) })] }

theorem witness_launchEntersTheTable :
    let at_ (s : State) := (s.locate s.cur .load 0x10040 64).2.drift s.cur
    let r : Record := { words := [0x100000400, 0, 0, 0, 0, 0, 0, 0x10080], list := [0, 0, 0x10100, 0x80400] }
    let s2 (s : State) := ((at_ s).readRecord 0x10040 (page 0x10000 0) ((at_ s).lclkOf s.cur)).2
    let t0 (s : State) := (s2 s).raiseLclk (s2 s).cur 0
    recorded.Idle ∧ fullTable.Idle ∧ placeOf recorded.homeCore 0x10040 = .memory ∧ (recorded.locate recorded.cur .load 0x10040 64).1 = .memory (page 0x10000 0) ∧
      (at_ recorded).readRecord 0x10040 (page 0x10000 0) ((at_ recorded).lclkOf 0) = (.ok (r, 0, false), s2 recorded) ∧
      (t0 recorded).recordDomain 1 (some (t0 recorded).here.accessDomain) (bitsOf (r.word 6) 0 16) = some 1 ∧ r.firstBad true = none ∧
      ((t0 recorded).parts.get 1).map (fun q => (q.det, q.freeSlot, decide (0 < q.freeSlots))) = some (false, some 1, true) ∧ (t0 recorded).net.turns = [] ∧
      (t0 recorded).late = false ∧ (t0 fullTable).late = false ∧ (t0 { recorded with late := true }).late = true ∧
      (at_ { recorded with late := true }).readRecord 0x10040 (page 0x10000 0) ((at_ recorded).lclkOf 0) = (.ok (r, 0, false), s2 { recorded with late := true }) ∧
      ((t0 fullTable).parts.get 1).map Part.freeSlots = some 0 :=
  ⟨idle_of_empty _ rfl, idle_of_empty _ rfl, by decide +kernel⟩

/-- The block of a copy of two 8-byte elements from 0x10000 to LM offset 0x800, at offset 0x440; XSTAT of id 0 finds no copy, one of another thread, one that is done and one that is queued. -/
theorem witness_copiesAreSubmittedAndAsked :
    let s : State := { withG 5 0x00FE000000000440 with
      mem := words [(lmAddr 0 0x440, 0x10000), (lmAddr 0 0x448, 0x00FE000000000800), (lmAddr 0 0x458, 3), (lmAddr 0 0x460, 2)] }
    let k := s.core s.homeCore
    let b := (List.range 8).map fun i => BitVec.ofNat 64 (s.mem.readNat (lmAddr 0 (0x440 + 8 * i)) 8)
    let x : CopyRec := { id := 0, block := b, status := 4, tid := thread.cr.tid, ctx := 0, uid := 1, launch := some 0, part := 1, domain := 1, lclk := 0 }
    let asks (x : CopyRec) := (base.onCore 0 fun k => { k with copies := [(0, x)] }).core 0
    s.Idle ∧ placeOf s.homeCore (s.rdG 5) = .lm s.homeCore 0x440 ∧ (s.rdG 5).toNat % 64 = 0 ∧ 0x440 < k.scratchEnd ∧ s.poisoned (lmAddr 0 0x440) 64 = false ∧
      s.copyBadField s.here.partNo s.homeCore b = none ∧ b.getD 2 0 = 0 ∧ s.queueRoom s.homeCore = true ∧ k.copyBusy k.xseq.toNat = false ∧
      base.detHere = false ∧ (base.core base.homeCore).copies.get ((base.rdG 1).toNat / 2 ^ 16 % 256) = none ∧
      (asks x).copies.get ((base.rdG 1).toNat / 2 ^ 16 % 256) = some x ∧ x.id = base.rdG 1 ∧ x.tid = base.here.cr.tid ∧ x.status = 4 ∧
      ({ x with status := 1 } : CopyRec).status ≠ 4 ∧ ({ x with tid := 0 } : CopyRec).tid ≠ base.here.cr.tid ∧ ({ x with id := 1 } : CopyRec).id ≠ base.rdG 1 :=
  ⟨idle_of_empty _ rfl, by decide +kernel⟩

/-- Job words by code; an MMA of K = 64 with rings 1 and 2 that hold just a panel; MST of FP32 with the least stride; MLDT into a ring of 1,024 bytes. -/
theorem witness_engineInstructions :
    let s := base.onCore 0 fun k => { k with rings := [(1, 0x52000400), (2, 0x52000800)], jobStatus := [(1, 0x10001), (2, 0x20002), (3, 0x30003)] }
    let k := s.core s.homeCore
    let x : Word := BitVec.ofNat 64 (64 * 2 ^ 8 + 2 * 2 ^ 3 + 1)
    let os := mldtOffsets 0x200000
    let lo := os.foldl Nat.min (os.headD 0)
    k.jobs = [] ∧ s.inHandler = false ∧ s.detHere = false ∧ s.Idle ∧ s.queueRoom s.homeCore = true ∧ s.hasReg 15 ∧
      (([0, 1, 2, 3] : List Nat).map fun n => (((k.jobStatus.find? fun y => y.1 == n).map Prod.snd).getD 0).toNat % 16) = [0, 1, 2, 3] ∧
      (x.toNat / 2 ^ 15 % 2 ^ 49 = 0 ∧ 1 ≤ x.toNat / 2 ^ 8 % 2 ^ 7 ∧ x.toNat / 2 ^ 8 % 2 ^ 7 ≤ 64 ∧ x.toNat % 2 ^ 3 ≠ x.toNat / 2 ^ 3 % 2 ^ 3 ∧ (7 : Word).toNat / 2 ^ 3 % 2 ^ 61 = 0 ∧
        k.ringHolds 1 (panelNeed false (pairElems 8).1) = true ∧ k.ringHolds 2 (panelNeed false (pairElems 8).2) = true) ∧
      (mstFormat 1 = some (.float .f32, 4) ∧ (16 * 4 : Nat) ≤ 0x400001 / 2 ^ 16 % 2 ^ 16 ∧ s.clusterScratch 0x00FE000000001000 (15 * 64 + 16 * 4) = some (0, 0x1000)) ∧
      (k.ringHolds 1 1024 = true ∧ s.clusterScratch (0x00FE000000001000 + BitVec.ofNat 64 lo) (os.foldl Nat.max 0 + 2 - lo) = some (0, 0x1000 + lo)) :=
  ⟨by decide +kernel, by decide +kernel, by decide +kernel, idle_of_empty _ rfl, by unfold State.hasReg; decide +kernel⟩

theorem witness_vectorIntegerOperations : base.hasReg 15 ∧ base.hasReg 0 := by unfold State.hasReg; decide +kernel

theorem witness_vectorComparesMovesAndSums : base.hasReg 15 ∧ inHandler.hasReg 7 ∧ 1 ≤ (1 : Reg).toNat ∧ (7 : Reg).toNat ≤ 7 := by
  unfold State.hasReg; decide +kernel

/-- 1 + 1 in FP64 raises no flag; 1 / 0 in FP32 with DZ enabled traps; both kinds of core. -/
theorem witness_scalarFloatingArithmetic :
    let s := hereAs fun c => c.onCr fun r => { r with ftrapen := 8 }
    base.hasReg 15 ∧ (fpAdd .f64 .rne 0x3FF0000000000000 0x3FF0000000000000).2 &&& base.here.cr.ftrapen = 0 ∧
      (fpDiv .f32 .rne 0x3F800000 0).2 &&& s.here.cr.ftrapen ≠ 0 ∧ s.CanTrap ∧ isWCore onWCore.execCore = true := by
  unfold State.hasReg State.CanTrap; decide +kernel

/-- In single precision: a signalling and a quiet NaN and no NaN, zeros of both signs that compare equal, and a value of each class at an end of its range. -/
theorem witness_scalarFloatingComparesAndMoves :
    let mag (v : Nat) : Nat := v % 2 ^ 31
    base.hasReg 15 ∧ (16 : BitVec 5) &&& base.here.cr.ftrapen = 0 ∧ (255 * 2 ^ 23 < mag 0x7F800001 ∧ mag 0x7F800001 % 2 ^ 23 < 2 ^ 22) ∧
      (255 * 2 ^ 23 < mag 0xFFC00000 ∧ ¬ mag 0xFFC00000 % 2 ^ 23 < 2 ^ 22) ∧ ¬ 255 * 2 ^ 23 < mag 0x7F800000 ∧ -(mag 0x80000000 : Int) = (mag 0 : Int) ∧
      mag 0xFF800000 = 255 * 2 ^ 23 ∧ (2 ^ 23 ≤ mag 0x80800000 ∧ mag 0xFF7FFFFF < 255 * 2 ^ 23) ∧ (0 < mag 0x80000001 ∧ mag 0x807FFFFF < 2 ^ 23) ∧
      (0x80000000 : Nat).testBit 31 = true ∧ (0 : Nat).testBit 31 = false := by
  unfold State.hasReg; decide +kernel

/-- A decided and an undecided function result, and conversions to an integer, a float and a scale. -/
theorem witness_functionsChecksumAndConversion :
    isWCore onWCore.execCore = true ∧ onWCore.hasReg 15 ∧ fpExp .f64 .rne 0 = some (0x3FF0000000000000, 0) ∧ onWCore.here.cr.ftrapen = 0 ∧
      convFmt 18 = .int true 32 ∧ intCode 18 = true ∧ convFmt 1 = .float .f32 ∧ intCode 1 = false ∧
      (convert (convFmt 18) (convFmt 1) .rne 0x3F800000).2 &&& base.here.cr.ftrapen = 0 := by
  unfold State.hasReg; decide +kernel

theorem witness_vectorFloatingOperations :
    base.hasReg 15 ∧ (fpAdd (vectorFmt 2) .rne 0 0).2 &&& base.here.cr.ftrapen = 0 ∧ (fpCompare (vectorFmt 2) 0 0 0).2 &&& base.here.cr.ftrapen = 0 ∧
      (convert (convFmt 1) (convFmt 4) .rne 0x38).2 &&& base.here.cr.ftrapen = 0 := by
  unfold State.hasReg; decide +kernel

/-- Signalling and quiet NaNs, infinities, zeros and a negative number in FP16. -/
theorem witness_floatingSpecialCases :
    isNaN .f16 0x7C01 = true ∧ isNaN .f16 0x7E00 = true ∧ isSignalling .f16 0x7C01 = true ∧ isNaN .f16 0x3C00 = false ∧ (0x7C01 : Nat) < 2 ^ FloatFmt.f16.width ∧
      unpack .f16 0x7C00 = .inf false ∧ unpack .f16 0xFC00 = .inf true ∧ unpack .f16 0 = .fin false 0 (-24) ∧ unpack .f16 0x8000 = .fin true 0 (-24) ∧
      unpack .f16 0xBC00 = .fin true 1024 (-10) ∧ (true != false) ≠ ((false != false) != false) := by decide +kernel

/-- The least subnormal and the largest finite number of FP16, and the first power of two past its range. -/
theorem witness_roundingIsExactOnValues :
    unpack .f16 1 = .fin false 1 (-24) ∧ unpack .f16 0x7BFF = .fin false 2047 5 ∧ (1 : Nat) < 2 ^ FloatFmt.f16.width ∧ FloatFmt.f16.bias < 16 := by decide +kernel

/-! What is on its way. -/

/-- A flight of the thread. -/
def flight (k : FKind) : Flight := { kind := k, ctx := 0, uid := 1, part := 1, domain := 1, launch := some 0 }

/-- `base` with one flight. -/
def carrying (k : FKind) : State := { base with net := { base.net with flights := [flight k] } }

/-- A load, a store and an atomic of 8 bytes at 0x10008. -/
def load0 : LoadReq := { fmt := .zx 8, d := 9, addr := 0x10008, rc := 0, acq := false, sc := 0, hint := 0, attr := 0, ro := false, c := 0 }
def store0 : StoreReq := { addr := 0x10008, size := 8, data := 7, rel := false, push := false, sc := 0, nl := false, attr := 0, l := 0, pset := 0 }
def atomic0 : AtomReq := { op := .amo 0, addr := 0x10008, size := 8, b := 1, cmp := 0, d := 9, acq := false, rel := false, sc := 0, attr := 0, l := 0 }
def copy0 : SecCopy := { data := 0, wts := 3, rts := 50 }

theorem witness_loadsAreAnswered :
    let s := carrying (.load load0)
    let s1 := (s.atHome 1 0x10008 false (some 0)).2
    let own := s.onCore 0 fun k => { k with cacheSize := 1, cache := [{ line := 0x10000, part := 1, sectors := [(0, copy0)] }] }
    let dewed := { s with net := { s.net with dew := [{ x := 8, y := 4, body := { line := 0x10000, part := 1, sectors := [(0, copy0)] } }] } }
    let reply (a : LoadAnswer) := carrying (.loadReply load0 a)
    let f := flight (.load load0)
    (s.flight? 0 = some f ∧ s.mayLoad 0 f load0 = true ∧ s.clockOk f load0 0 = true ∧ (∀ r ∈ (s.pathOf f 0 0x10008).drop 0, s.dewHit f load0 0 r = none) ∧
      load0.hop < 5 ∧ 5 < (s.pathOf f 0 0x10008).length ∧ s.isDet f.part = false ∧
      s.atHome 1 0x10008 false (some 0) = (.ready 0 none, s1) ∧ s.mayGrant 0 (s1.grant 16 1 0 false true 0 (s1.sector 0 1 0x10008)).sec.rts = true) ∧
    (own.mayLoad 0 f load0 = true ∧ own.alive f = true ∧ mayCache 0 0 = true ∧ (own.core 0).copy? 1 0x10008 = some copy0 ∧ own.ownHit 0 0 copy0 = true) ∧
    ((dewed.core 0).copy? 1 0x10008 = none ∧ dewed.takesDew f load0 = true ∧ (dewed.pathOf f 0 0x10008)[12]? = some (8, 4) ∧ dewed.dewHit f load0 0 (8, 4) = some copy0 ∧
      ∀ j ∈ List.range 12, ∀ p ∈ (dewed.pathOf f 0 0x10008)[j]?, dewed.dewHit f load0 0 p = none) ∧
    ((reply (.copy copy0 true 0 true)).inOrder 0 = true ∧ (reply (.copy copy0 true 0 true)).alive (flight (.loadReply load0 (.copy copy0 true 0 true))) = true ∧
      copy0.poisonedAt 0x10008 8 = false ∧ base.here.st ≠ .faultWaiting ∧ base.here.spin = [] ∧
      base.staleReply f copy0 = false ∧ (reply (.copy { copy0 with expiry := some 1 } true 0 true)).inOrder 0 = true ∧ base.staleReply f { copy0 with expiry := some 1 } = true) ∧
    (s1.writable 1 0x10008 = true ∧ (carrying (.lmLoad (.zx 8) 9 (lmAddr 0 0x5FF8) false 0)).inOrder 0 = true ∧
      (carrying (.lmLoad (.zx 8) 9 (lmAddr 0 0x5FF8) false 0)).alive (flight (.lmLoad (.zx 8) 9 (lmAddr 0 0x5FF8) false 0)) = true ∧ base.poisoned (lmAddr 0 0x5FF8) 8 = false ∧
      LoadFmt.zx 8 ≠ .pref ∧ LoadFmt.zx 8 ≠ .lease) ∧
    ((reply .pageAbsent).inOrder 0 = true ∧ (reply .noTranslation).inOrder 0 = true ∧ isXu 0 = false ∧ base.launch? 1 0 = some launch0 ∧ launch0.pendingAbort = none) := by
  decide +kernel

/-- A store that nothing holds back; one that leases, one that the horizon holds, one that PUB holds; push stores whose copies go at once and whose copies wait, and one that may not push;
one to an absent page; and the acknowledgements. -/
theorem witness_storesPerformAtTheirHome :
    let s := carrying (.store store0)
    let f := flight (.store store0)
    let s1 := (s.atHome 1 0x10008 true (some 0)).2
    let shared : StoreReq := { store0 with addr := 0x40008, attr := 3 }
    let leased : State := { carrying (.store shared) with net := { (carrying (.store shared)).net with
      recs := [{ line := 0x40000, part := 1, slice := 0, sectors := [(0, { wts := 0, rts := 0, expiry := 1 })] }] } }
    let far : StoreReq := { store0 with l := 0x100000001 }
    let ahead : StoreReq := { store0 with l := 0x100001 }
    let push : StoreReq := { store0 with push := true, psetOk := true, pset := 1 }
    let late : StoreReq := { push with l := 0xFFFF0 }
    let lost : StoreReq := { store0 with addr := 0x20008 }
    let done : State := { s with net := { s.net with answers := [{ slice := 0, core := 0, incarnation := 0, seq := 0, answer := .storeAck store0 copy0 }] } }
    let free (s : State) (f : Flight) (q : StoreReq) := s.inOrder 0 = true ∧ s.parkedBefore f.part q.addr = false ∧ s.writeBehind f.ctx f.uid f.seq q.addr = false ∧ q.rel = false ∧
      q.parked = false ∧ q.refused = false ∧ q.held = 0
    StoreReady s s1 f store0 0 none 1 ∧ free s f store0 ∧
    (free done f store0 ∧ (done.atHome 1 0x10008 true (some 0)).1 = .ready 0 none ∧ (done.atHome 1 0x10008 true (some 0)).2.keptAnswer 0 0 f = some (.storeAck store0 copy0)) ∧
    (carrying (.store { store0 with held := 4 })).parkedBehind 0 1 0x10008 = false ∧
    (∀ h ∈ ([1, 2, 4] : List Nat), let q : StoreReq := { store0 with held := h }
      StoreReady (carrying (.store q)) ((carrying (.store q)).atHome 1 0x10008 true (some 0)).2 (flight (.store q)) q 0 none 1) ∧
    (free leased (flight (.store shared)) shared ∧ (leased.atHome 1 0x40008 true (some 0)).2.keptAnswer 0 0 (flight (.store shared)) = none ∧ (leased.atHome 1 0x40008 true (some 0)).1 = .ready 0 none ∧
      (leased.atHome 1 0x40008 true (some 0)).2.leased 0 none 1 3 ((leased.atHome 1 0x40008 true (some 0)).2.sector 0 1 0x40008) = true) ∧
    (free (carrying (.store far)) (flight (.store far)) far ∧ later (maxStamp 0x100000001 1) ((carrying (.store far)).horizon 1 16) = true ∧
      ((carrying (.store far)).atHome 1 0x10008 true (some 0)).2.leased 0 none 1 0 { wts := 0, rts := 0 } = false) ∧
    (free (carrying (.store ahead)) (flight (.store ahead)) ahead ∧ later 0x100001 ((carrying (.store ahead)).horizon 1 16) = false ∧
      (carrying (.store ahead)).mayGrant 0 0x100001 = false) ∧
    (push.pushes none = true ∧ s.mayGrant 0 (s.pushEnd (flight (.store push)) 0 none 1) = true ∧ s.mayGrant 0 0xFFFF0 = true ∧
      s.mayGrant 0 (s.pushEnd (flight (.store late)) 0 none 0xFFFF0) = false ∧ ({ push with psetOk := false } : StoreReq).pushes none = false) ∧
    (free (carrying (.store lost)) (flight (.store lost)) lost ∧ ((carrying (.store lost)).atHome 1 0x20008 true (some 0)).1 = .absent 0 ∧ (carrying (.store lost)).net.turns = []) ∧
    ((carrying (.storeAck store0 copy0)).inOrder 0 = true ∧ (carrying (.lmAck (lmAddr 1 0x400) true)).inOrder 0 = true ∧ launch0.pendingAbort = none) := by
  refine ⟨(by refine ⟨?_, ?_, ?_, ?_, ?_, ?_, ?_, ?_⟩ <;> decide +kernel), by decide +kernel, by decide +kernel, by decide +kernel, ?_, by decide +kernel⟩
  intro h hh
  simp only [List.mem_cons, List.not_mem_nil, or_false] at hh
  rcases hh with rfl | rfl | rfl <;> refine ⟨?_, ?_, ?_, ?_, ?_, ?_, ?_, ?_⟩ <;> decide +kernel

/-- A word of each kind; an atomic that writes, held and free, one that writes nothing; results for every operation; a gathered GAMO; an LM word at both ends of the scratch. -/
theorem witness_atomicsPerformAtTheirHome :
    let s := carrying (.atomic atomic0)
    let f := flight (.atomic atomic0)
    let s1 := (s.atHome 1 0x10008 true (some 0)).2
    let cas : AtomReq := { atomic0 with op := .amo 9, cmp := 1 }
    let part : GamoPart := { ctx := 0, uid := 1, d := 9, add := 1, l := 0, launch := some 0 }
    let gamo : AtomReq := { atomic0 with op := .gamo, parts := [part] }
    let result (q : AtomReq) := carrying (.atomicResult q (.done 0 1 (some 1)))
    let lm (off : Nat) : AtomReq := { atomic0 with addr := lmAddr 1 off }
    let entry : GamoEntry := { cluster := 0, part := 1, addr := 0x10008, size := 8, returning := true, opened := 0, attr := 0, domain := 1, parts := [part] }
    ((0 : Nat) < 1 ∧ (1 : Nat) < 2 ^ 24 ∧ (2 ^ 24 - 2 : Nat) < 2 ^ 24 - 1) ∧ AtomReady s s1 f atomic0 0 none ∧ AtomMayStamp s s1 f atomic0 0 none 1 ∧
    (0x10008 < globalBase ∧ s.inOrder 0 = true ∧ s.atomHeld f atomic0 = false ∧ atomic0.step (s.mem.readNat 0x10008 8) = some 1 ∧
      (carrying (.atomic { atomic0 with held := 4 })).parkedBehind 0 1 0x10008 = false) ∧
    (cas.step 0 = none ∧ s.mayGrant 0 (maxStamp (s1.sector 0 1 0x10008).rts cas.clock) = true) ∧
    ((result atomic0).inOrder 0 = true ∧ (result atomic0).alive (flight (.atomicResult atomic0 (.done 0 1 (some 1)))) = true ∧ base.here.st = .ready) ∧
    ((Wait.cwait 0x10008 1 9).holds 1 = true ∧ (Wait.cwait 0x10008 1 9).holds 0 = false ∧ (Wait.bar 0x10008 0 9).holds 0x0001000000000001 = true ∧
      (Wait.ticket 0x10008 1 9).holds 1 = true) ∧
    ((result gamo).inOrder 0 = true ∧ (result gamo).ctx 0 = thread ∧ part.d ≠ 0) ∧
    ((carrying (.atomic (lm 0x400))).inOrder 0 = true ∧ 0x5FF8 + 8 ≤ (base.core 1).scratchEnd ∧ base.atomicTurn 1 = true ∧ base.refuses (tileOf 1) (some 0) = false ∧ base.poisoned (lmAddr 1 0x400) 8 = false ∧
      traceOn (base.core 1).traceb = false) ∧
    (entry.parts = part :: [] ∧ 0 + 32 ≤ (({ base with dies := [(0, { cycle := 20480 })] } : State).die 0).cycle / 640) :=
  ⟨by decide +kernel, (by refine ⟨?_, ?_, ?_, ?_, ?_⟩ <;> decide +kernel), (by refine ⟨?_, ?_, ?_, ?_⟩ <;> decide +kernel), by decide +kernel⟩

/-- Offsets 0x3FF, 0x400 and the scratch end; both full/empty states; a full port; a trace ring; a retry after one microsecond; a lapsed hold. -/
theorem witness_portsAndRefusedOffers :
    let write (off : Nat) (w : LmWrite) := carrying (.lmWrite (lmAddr 1 off) w false 0)
    let v : LmWrite := .store 8 7
    let e : State := { write 0x400 (.sde 7) with emptied := [lmAddr 1 0x400] }
    let w : Waiter := { addr := lmAddr 1 0x408, op := .ldf 9, acq := false, ctx := 0, uid := 1, part := 1, launch := some 0 }
    let crowd : State := { e with net := { e.net with waiters := List.replicate 32 w } }
    let traced := (write 0x400 v).onCore 1 fun k => { k with traceb := 0x800800 }
    let again : StoreReq := { store0 with refused := true }
    let r : State := { carrying (.store again) with gtr := 16000 }
    let g : Flight := { flight (.store again) with offered := r.gtrOf (tileOf (coreOf 0)) }
    let offer : State := { carrying (.feOffer (lmAddr 1 0x408) (.ldf 9) false) with gtr := 16000 }
    let t : Turns := { res := .park 0, sources := [5, 9], holds := [(5, 0)], asked := [9] }
    ((write 0x3FF v).inOrder 0 = true ∧ coreOf 0 ≠ 1 ∧ (flight (.lmWrite (lmAddr 1 0x400) v false 0)).home ≠ 1 ∧ base.refuses (tileOf 1) (some 0) = false ∧ 0x3FF < 0x400 ∧ (base.core 1).scratchEnd ≤ 0x6000 ∧ 0x5FF8 < (base.core 1).scratchEnd ∧
      traceOn (base.core 1).traceb = false ∧ base.net.waiters = []) ∧
    (e.full (lmAddr 1 0x400) = false ∧ e.net.turns = [] ∧ 32 ≤ crowd.waitersAt 1) ∧
    (traceOn (traced.core 1).traceb = true ∧ (traced.core 1).traceValid = true) ∧
    (r.offersNext (flight (.store again)) 0x10008 = true ∧ 0 + 16000 ≤ r.gtrOf (tileOf (coreOf 0)) ∧
      StoreReady (r.putFlight 0 g) ((r.putFlight 0 g).atHome 1 0x10008 true (some 0)).2 g again 0 none 1) ∧
    (offer.alive (flight (.feOffer (lmAddr 1 0x408) (.ldf 9) false)) = true ∧ offer.poisoned (lmAddr 1 0x408) 8 = false ∧ offer.full (lmAddr 1 0x408) = true) ∧
    (({ base with net := { base.net with turns := [t] } } : State).turnsOf t.res = t ∧ 0 ≤ base.gtrOf t.res.die ∧ base.gtrOf t.res.die < 0 + 64000 ∧ 5 ∉ t.asked) ∧
    (carrying (.purge 0x10000 0)).inOrder 0 = true := by
  exact ⟨by decide +kernel, by decide +kernel, by decide +kernel, ⟨by decide +kernel, by decide +kernel, (by refine ⟨?_, ?_, ?_, ?_, ?_, ?_, ?_, ?_⟩ <;> decide +kernel)⟩, by decide +kernel⟩

/-! Pushes, waits, wakes, pages, messages, handlers and threads that move. -/

/-- A stamp that a grant waits for, past PUB; a sweep has no hypothesis; a push that is refused and one that is taken; the last answer of a gather and one before it. -/
theorem witness_pushesAndStampUpkeep :
    let s := carrying (.push 0x10000 0 copy0 0 7)
    let big := s.onCore 0 fun k => { k with cacheSize := 1 }
    let full := big.onCore 0 fun k => { k with pquota := 0 }
    let g (n : Nat) : Gather := { id := 7, slice := 0, addr := 0x10008, ctx := 0, uid := 1, left := n }
    let answer := carrying (.pushAnswer 7 1 true)
    let gathers (n : Nat) : State := { answer with net := { answer.net with gathers := [g n] } }
    let ack : FKind := .pushAck 0x10008 1 0 false
    (later 1 (base.net.pub.getD 0 0) = true ∧ ({ base with net := { base.net with wanted := [(0, 1)] } } : State).net.wanted.get 0 = some 1 ∧
      s.refuses (tileOf 0) (some 0) = false) ∧
    (s.inOrder 0 = true ∧ (s.core 0).cacheSize = 0 ∧ s.coreDomain 1 = none ∧ (big.core 0).cacheSize ≠ 0 ∧ big.coreDomain 0 = some 1 ∧
      (big.plbLookup 0 1 0x10000).1 = some (page 0x10000 0) ∧ (big.core 0).cacheLine? 1 0x10000 = none ∧ (full.core 0).pquota.toNat ≤ 0 ∧
      (page 0x10000 0).p = true ∧ 0 < (big.core 0).pquota.toNat ∧ (big.core 0).cache.length < (big.core 0).cacheLines) ∧
    ((gathers 1).net.gathers = [g 1] ∧ (gathers 1).inOrder 0 = true ∧ (g 1).left = 1 ∧ 1 < (g 2).left) ∧
    (carrying ack).alive (flight ack) = true ∧ (carrying ack).inOrder 0 = true := by decide +kernel

theorem witness_squallTablesCombineWaits :
    let key := Key.word 0x10008
    let s := carrying (.wait key 0x10008 5 0 (.core 0))
    let f := flight (.wait key 0x10008 5 0 (.core 0))
    let e (m : Word) : SquallEntry := { x := 0, y := 0, part := 1, key := key, children := [], min := m, expiry := 0 }
    let withEntries (xs : List SquallEntry) : State := { s with net := { s.net with squall := xs } }
    let at_ (k : Key) (a : Nat) := carrying (.wait k a 0 13 (.router 8 4))
    let u := ((at_ key 0x10008).atHome 1 0x10008 false (some 0)).2
    let lost := at_ (.word 0x20008) 0x20008
    let recs (n : Nat) (s : State) : State := { s with net := { s.net with waits := (List.range n).map fun i => { slice := 0, part := 1, key := .word (8 * i) } } }
    let faulty (s : State) : State := { s with net := { s.net with faults := [{ slice := 0, part := 1, page := 2 }] } }
    let waiting (s : State) (v : Word) := s.onCtx 0 fun c => { c with st := .waiting, wait := .cwait 0x10008 v 9 }
    (s.inOrder 0 = true ∧ (s.waitPath f key)[0]? = some (0, 0) ∧ s.squall? 0 0 1 key = none ∧ (s.net.squall.filter fun e => e.x == 0 && e.y == 0).length < 16 ∧
      16 ≤ ((withEntries (List.replicate 16 { e 5 with part := 2 })).net.squall.filter fun e => e.x == 0 && e.y == 0).length ∧
      (withEntries (List.replicate 16 { e 5 with part := 2 })).squall? 0 0 1 key = none ∧
      (withEntries [e 5]).squall? 0 0 1 key = some (e 5) ∧ (e 5).min.toNat ≤ (5 : Word).toNat ∧ (5 : Word).toNat < (e 6).min.toNat) ∧
    ((carrying (.wake key 1 0 (.router 0 0) false)).inOrder 0 = true ∧ (carrying (.wake key 1 0 (.router 0 0) false)).squall? 0 0 1 key = none ∧ (e 5).expiry ≤ base.gtrOf (tileOf (coreAt 0 0 0))) ∧
    ((at_ (.page 2) 0x20000).inOrder 0 = true ∧ base.homeSlice 1 0x20000 = some 0 ∧ ((at_ (.page 2) 0x20000).waitPath (flight (.wait (.page 2) 0x20000 0 13 (.router 8 4))) (.page 2)).length ≤ 13 ∧
      base.net.faults = [] ∧ (faulty base).net.faults = [{ slice := 0, part := 1, page := 2 }] ∧ ¬ 256 ≤ ((recs 255 base).net.waits.filter fun w => w.slice == 0).length ∧
      256 ≤ ((recs 256 base).net.waits.filter fun w => w.slice == 0).length ∧ ({ slice := 0, part := 1, key := .page 2 } : WaitRec) ∉ (recs 256 base).net.waits) ∧
    (numberOf { f with ctx := 7 }.ctx = 7 ∧ (0 : Word).toNat ≤ (base.wordAt 0x10008).toNat ∧ ¬(numberOf f.ctx = 7)) ∧
    ((at_ key 0x10008).inOrder 0 = true ∧ (at_ key 0x10008).atHome 1 0x10008 false (some 0) = (.ready 0 none, u) ∧ ((lost.atHome 1 0x20008 false (some 0)).1 = .absent 0) ∧
      lost.inOrder 0 = true ∧ (lost.waitPath (flight (.wait (.word 0x20008) 0x20008 0 13 (.router 8 4))) (.word 0x20008)).length ≤ 13 ∧
      u.wordAt 0x10008 = 0 ∧ u.alive f = true ∧ u.net.waits = []) ∧
    (base.homeSlice 1 0x10008 = some 0 ∧ ((waiting (at_ key 0x10008) 0).ctx 0).wait.word? = some 0x10008 ∧
      ((waiting (at_ key 0x10008) 0).ctx 0).wait.holds ((waiting (at_ key 0x10008) 0).wordAt 0x10008) = true ∧
      base.mayGrant 0 (holdRead (base.lclkOf 0) (base.sector 0 1 0x10008)).rts = true ∧ ((waiting (at_ key 0x10008) 1).ctx 0).wait.holds ((waiting (at_ key 0x10008) 1).wordAt 0x10008) = false) := by decide +kernel

theorem witness_waitersWakeAndPagesResolve :
    let woken (v : Word) := (carrying (.wake (.word 0x10008) v 0 (.core 0) false)).onCtx 0 fun c => { c with st := .waiting, wait := .cwait 0x10008 1 9 }
    let late : State := { (woken 0) with gtr := 1024000 }
    let soon : State := { late with gtr := 64000 }
    let timed : State := hereAs fun c => { c with st := .waiting, wait := .waitt 0 }
    let r : FaultRec := { slice := 0, part := 1, page := 2 }
    let parked : StoreReq := { store0 with addr := 0x20008, parked := true }
    let faulty (s : State) : State := { s with net := { s.net with faults := [r] } }
    let held := faulty (carrying (.store parked))
    let e : Word := 0xC100000000010000
    let u := ((held.writeLeaf 4 2 e).unitFreed (.park ((held.homeSlice 1 0x20008).getD r.slice))).putFlight 0 { flight (.store parked) with kind := .store { parked with parked := false, held := 4 } }
    let absent : LoadReq := { load0 with addr := 0x20008, fault := 1 }
    let faulted (v : Word) : State :=
      { base with net := { base.net with flights := [flight (.wake (.page 2) v 0 (.core 0) false), flight (.load absent)] } }
    ((woken 1).inOrder 0 = true ∧ ((woken 1).ctx 0).st = .waiting ∧ ((woken 1).ctx 0).partNo = 1 ∧ ((woken 1).ctx 0).wait.word? = some 0x10008 ∧
      ((woken 1).ctx 0).wait.holds 1 = true ∧ ((woken 0).ctx 0).wait.holds 0 = false) ∧
    (numberOf 0 < 6 ∧ (late.ctx 0).waitSent + 1024000 ≤ late.gtrOf (tileOf (coreOf 0)) ∧
      ((soon.onCtx 0 fun c => { c with unrecorded := true }).ctx 0).unrecorded = true ∧ 0 + 64000 ≤ soon.gtrOf (tileOf (coreOf 0))) ∧
    ((timed.ctx 0).wait = .waitt 0 ∧ (0 : Word).toNat ≤ timed.gtrOf (tileOf (coreOf 0))) ∧
    ((faulty base).net.faults.find? (fun x => x.part == 1 && x.page == 2) = some r ∧ leafFor e 1 = true ∧ (faulty base).mayWrite 4 2 e = true ∧ held.mayWrite 4 2 e = true ∧ (faulty base).firstParked 1 2 = none ∧ held.firstParked 1 2 = some 0 ∧
      base.pagePlace 4 0x20000 = none ∧ dataMoves 0xC100000000000000 e = false ∧ u.firstParked 1 2 = none ∧ u.parkedBehind 0 1 0x20008 = false ∧ held.launch? 1 0 = some launch0 ∧ launch0.pendingAbort = none) ∧
    StoreReady u (u.atHome 1 0x20008 true (some 0)).2 (flight (.store parked)) { parked with parked := false } 0 none 1 ∧
    ((faulted 1).inOrder 0 = true ∧ (faulted 1).alive (flight (.load absent)) = true ∧ (faulted 2).launch? 1 0 = some launch0) :=
  ⟨by decide +kernel, by decide +kernel, by decide +kernel, by decide +kernel,
    (by refine ⟨?_, ?_, ?_, ?_, ?_, ?_, ?_, ?_⟩ <;> decide +kernel), by decide +kernel⟩

/-- Cores 0 and 2^20 - 1, kinds 0, 1 and 2, a target below and at the scratch end; a ring that is full, not valid, of 32 and of 64 bytes; handlers; answers; HLIMIT. -/
theorem witness_messagesAndHandlers :
    let m (kind : Nat) (q : Word) : Msg := { kind := kind, dest := 0, target := q, payload := 0, tid := 0, lclk := 0, domain := 1, launch := some 0, part := 1 }
    let s (kind : Nat) (q : Word) := carrying (.msg (m kind q) 9)
    let ringed (w : Word) := (s 2 0).onCore 0 fun k => { k with rings := [(0, w)] }
    let saved : State := { s 0 0x00FE000000000400 with parts := [(1, { part1 with st := .saved })] }
    let boxed : State := (s 0 0x00FE000000005FFC).onCore 0 fun k => { k with mboxd := 1, boxLo := [(0, m 0 0x00FE000000000400)] }
    let waiting (high : Bool) : State := base.onCore 0 fun k => if high then { k with orderHi := [0], boxHi := [(0, m 1 0x00FE000000000400)] } else
      { k with orderLo := [0], boxLo := [(0, m 0 0x00FE000000000400)] }
    let low : State := (waiting true).setCtx 4 { thread with st := .ready }
    let answer (st : Nat) := carrying (.msgAnswer (m 0 0x00FE000000000400) 9 st none)
    let bouncing : State := ((answer 1).onCtx 0 fun c => c.onCr fun r => { r with bounceq := 8 }).onCore 0 fun k => { k with rings := [(0, 0x41000400)] }
    let overrun : State := inHandler.onCtx 4 fun c => { c with launch := some 0, hcount := 65537 * 640 }
    ((s 0 0).inOrder 0 = true ∧ (s 0 0).releaseBefore (flight (.msg (m 0 0) 9)) = false ∧ (s 0 0).refuses (tileOf 0) (some 0) = false ∧ base.here.st ≠ .faultWaiting ∧
      (base.ctx 4).st ≠ .faultWaiting ∧ (base.ctx 5).st ≠ .faultWaiting ∧ base.partRuns 1 = true ∧ saved.absentCore 1 0 = true ∧ base.absentCore 1 0 = false ∧ base.net.turns = [] ∧
      (0x00FE000000005FFC : Word).toNat < 0x00FE000000000000 + (base.core 0).scratchEnd ∧ 0x00FE000000000000 + (base.core 0).scratchEnd ≤ (0x00FE000000006000 : Word).toNat ∧
      (base.core 0).freeBoxes false = [0, 1, 2, 3, 4, 5, 6, 7] ∧ (boxed.core 0).freeBoxes false = []) ∧
    ((7 : Word).toNat ≤ 7 ∧ base.isDet 1 = false ∧ traceOn (base.core 0).traceb = false ∧ (base.core 0).ringValid ((base.core 0).ring 0) = false ∧
      ringSlotSize 0x21000400 < 64 ∧ ((ringed 0x31000400).core 0).ringValid 0x31000400 = true ∧ 64 ≤ ringSlotSize 0x31000400 ∧ 0 < ringFree 0x31000400 ∧
      ((ringed 0x2000031000400).core 0).ringValid 0x2000031000400 = true ∧ ringFree 0x2000031000400 = 0) ∧
    (base.turnsTaken 0 = true ∧ (base.ctx 5).st = .free ∧ ((waiting false).core 0).orderLo = 0 :: [] ∧
      ((waiting false).core 0).boxLo.get 0 = some (m 0 0x00FE000000000400) ∧ ((waiting false).core 0).orderHi = [] ∧ ((waiting true).core 0).orderHi = 0 :: [] ∧
      ((waiting true).core 0).boxHi.get 0 = some (m 1 0x00FE000000000400) ∧ (base.ctx 4).st = .free ∧ (low.ctx 4).st = .ready ∧ (low.ctx 4).onceSuspended = false) ∧
    ((answer 0).inOrder 0 = true ∧ (answer 1).alive (flight (.msgAnswer (m 0 0x00FE000000000400) 9 1 none)) = true ∧ base.here.cr.bounces ≠ 0xFFFFFFFF ∧
      (answer 1).bounceReady 0 = false ∧ bouncing.bounceReady 0 = true) ∧
    (isHandler 4 = true ∧ (overrun.ctx 4).st ≠ .free ∧ (overrun.core 0).hlimit.toNat < (overrun.ctx 4).hcount / 640 ∧ overrun.launch? (overrun.ctx 4).partNo 0 = some launch0) := by
  decide +kernel

theorem witness_threadsMoveAndTakeInterrupts :
    let a : State := { hereAs fun c => { c with st := .migrationWaiting } with migFifo := [(0, [0])] }
    let w (c : Ctx) : State := { onWCore with ctxs := [(56, c)] }
    let c : Ctx := { thread with home := 0, migrated := true, migCount := 256 }
    let q (s : State) : State := { s with ctxs := (0, { thread with st := .migrationWaiting }) :: s.ctxs, migFifo := [(0, [0])] }
    let interrupted : State := hereAs fun c => { c with comps := [(1, 0x00FE000000000900, 0)], cr := { c.cr with xien := 1 } }
    (a.migFifo.getD 0 [] = 0 :: [] ∧ a.freeThread (0 * 8 + 7) = some 56 ∧ a.drained 0 = true ∧ (a.ctx 0).st = .migrationWaiting) ∧
    (((w c).ctx 56).migrated = true ∧ (w c).returnPlace 56 = some 0 ∧ 256 ≤ ((w c).ctx 56).migCount ∧ (w c).drained 56 = true ∧ (w c).migFifo.getD (clusterOf (coreOf 56)) [] = []) ∧
    (let s := q (w { c with st := .waiting, wait := .cwait 0x10008 1 9 });
      (s.ctx 56).migrated = true ∧ s.returnPlace 56 = some 1 ∧ s.migFifo.getD 0 [] ≠ [] ∧ (∀ x ∈ s.migFifo.getD 0 [], (s.ctx x).st = .migrationWaiting) ∧
        (s.ctx 56).wait.word? = some 0x10008 ∧ s.drainedWait 56 = true) ∧
    (let s : State := { q (w c) with gtr := 1024000 };
      (s.ctx 56).st = .ready ∧ (s.ctx 56).migSince + 1024000 ≤ s.gtrOf (tileOf (coreOf 56)) ∧ s.nextIsW 56 = false ∧ s.drained 56 = true ∧ s.returnPlace 56 = some 1) ∧
    (isHandler 0 = false ∧ (interrupted.ctx 0).cr.xien = 1 ∧ (interrupted.ctx 0).nested = false ∧ (interrupted.ctx 0).comps = (1, 0x00FE000000000900, 0) :: [] ∧
      (interrupted.ctx 0).pend = []) := by decide +kernel

/-! Launches, matrix jobs and copies. -/

theorem range_begin (n : Nat) : List.range (n + 1) = 0 :: (List.range n).map Nat.succ := List.range_succ_eq_map

theorem cores_begin (q : Part) (h : q.coversCore 0 = true) : ∃ rest, q.cores = 0 :: rest := by
  have e : List.range 131072 = 0 :: (List.range 131071).map Nat.succ := range_begin 131071
  unfold Part.cores
  simp only [e, List.filter_cons, Nat.zero_mul, h, if_true, List.flatMap_cons]
  exact ⟨_, rfl⟩

theorem fixed_first (s : State) (q : Part) (h : q.coversCore 0 = true) (he : s.enabled 0 = true) : s.fixedCore q 0 = some 0 := by
  obtain ⟨rest, hr⟩ := cores_begin q h
  simp [State.fixedCore, hr, he]

/-- `base` with a launch in slot 0 in place of the one it has. -/
def launching (l : Launch) : State := { base with parts := [(1, { part1 with launches := [(0, l)] })] }

/-- The thread of `base` as it is staged. -/
def staging (l : Launch) : State := { launching l with ctxs := [(0, { thread with st := .staging })] }

/-- A gate that is not readable, absent, below and at its value; aging after one millisecond; placement; staging without and with a footprint, and the auto-join. -/
theorem witness_launchesOpenPlaceAndStage :
    let gated (a : Nat) : Launch := { launch0 with st := .gated, gate := a, gateVal := 1 }
    let s (a : Nat) := launching (gated a)
    let got (s : State) (a : Nat) := (s.fetchAt 1 none none (maxStamp 0 (s.lf 1 sDie)) 0 false a 8).1
    let opened : State := { launching { launch0 with st := .open_ } with gtr := 16000000 }
    let l : Launch := { launch0 with st := .open_, nextNumber := 0, threads := 2, live := 0 }
    let q : Part := { part1 with det := true, launches := [(0, l)] }
    let place : State := { base with ctxs := [], parts := [(1, q)], energy := [(1, { target := 60 })] }
    let foot : Foot := { addr := 0x10100, off := 0x400, len := 8 }
    let footed : Launch := { launch0 with foots := [foot] }
    let pinned (x : Bool) : State := (staging footed).onCore 0 fun k => { k with pins := [{ launch := 0, part := 1, off := 0x400, len := 8, staged := x }] }
    let grouped := staging { launch0 with group := 0x10008 }
    let closed : State := { pinned false with domains := [(1, { part := 1, owner := none, rights := [(0, { page 0x10000 0 with x := false })] })] }
    ((s 0x50008).launch? 1 0 = some (gated 0x50008) ∧ (s 0x50008).partRuns 1 = true ∧ launch0.due = 0 ∧ (s 0x10008).homeSlice 1 0x10008 = some 0 ∧ (gated 0x50008).st = .gated ∧ (s 0x50008).rightsFor 1 0x50008 = none ∧
      ({ page 0x10000 0 with r := false } : RightsEntry).r = false ∧ (s 0x10008).rightsFor 1 0x10008 = some (page 0x10000 0) ∧
      got (s 0x10008) 0x10008 = .got 0 0 false ∧ 0 < (1 : Word).toNat ∧ got { s 0x10008 with mem := words [(0x10008, 1)] } 0x10008 = .got 1 0 false ∧ (1 : Word).toNat ≤ 1 ∧
      (gated 0x50008).gateSent = none ∧ (gated 0x50008).pendingAbort = none ∧ got (s 0x20008) 0x20008 = .absent 0x20008 ∧ (s 0x20008).rightsFor 1 0x20008 = some (page 0x20000 1) ∧
      got { s 0x10008 with poison := [0x10008] } 0x10008 = .got 0 0 true ∧ got { s 0x10008 with pte := [] } 0x10008 = .missing 0x10008) ∧
    (opened.launch? 1 0 = some { launch0 with st := .open_ } ∧ 0 + 16000000 ≤ opened.gtrOf sDie) ∧
    (place.parts.get 1 = some q ∧ q.st = .running ∧ q.openLaunches = l :: [] ∧ q.launches.get l.slot = some l ∧ place.chosenCore 1 q l (place.candidate 1 l) = some 0 ∧
      place.freeThread 0 = some 0) ∧
    (((staging launch0).ctx 0).st = .staging ∧ (staging launch0).partRuns 1 = true ∧ ((staging launch0).ctx 0).wait = .none ∧ ((staging launch0).ctx 0).launch = some 0 ∧ (staging launch0).launch? 1 0 = some launch0 ∧
      launch0.group = 0 ∧ launch0.foots = [] ∧ footed.foots = [foot] ∧ ((pinned true).core 0).pins = [{ launch := 0, part := 1, off := 0x400, len := 8, staged := true }]) ∧
    ((((pinned false).core 0).pins.any fun x => x.launch == 0 && x.part == 1 && x.off == foot.off && x.staged) = false ∧
      ((pinned false).plbLookup 0 1 0x10100).1 = some (page 0x10000 0) ∧ (page 0x10000 0).r = true ∧ (page 0x10000 0).x = true ∧ (pinned false).net.waiters = [] ∧
      (((pinned false).plbLookup 0 1 0x10100).2.fetchAt 1 (some 0) none 0 0 false 0x10100 8).1 = .got 0 0 false) ∧
    ((closed.plbLookup 0 1 0x10100).1 = some { page 0x10000 0 with x := false } ∧ footed.pendingAbort = none) ∧
    (let s1 := (grouped.plbLookup 0 1 0x10008).2;
      let s2 := (s1.atHome 1 0x10008 true none).2;
      grouped.isDet 1 = false ∧ (grouped.plbLookup 0 1 0x10008).1 = some (page 0x10000 0) ∧ (page 0x10000 0).w = true ∧ (s1.atHome 1 0x10008 true none).1 = .ready 0 none ∧
        grouped.poisoned 0x10008 8 = false ∧ s2.parkedBefore 1 0x10008 = false ∧ s2.leased 0 none 1 0 (s2.sector 0 1 0x10008) = false ∧ s2.mayStamp 0 none 1 1 = true ∧ groupStep (.join 0) 0 = some 0x1000000000001) := by
  refine ⟨by decide +kernel, by decide +kernel, ⟨by decide +kernel, by decide +kernel, by decide +kernel, by decide +kernel, ?_, by decide +kernel⟩,
    by decide +kernel, by decide +kernel, by decide +kernel, by decide +kernel⟩
  have h := fixed_first { base with ctxs := [], parts := [(1, { part1 with det := true, launches := [(0, { launch0 with st := .open_, nextNumber := 0, threads := 2, live := 0 })] })], energy := [(1, { target := 60 })] }
    { part1 with det := true, launches := [(0, { launch0 with st := .open_, nextNumber := 0, threads := 2, live := 0 })] } (by decide +kernel) (by decide +kernel)
  simp only [State.chosenCore, if_true, h]
  decide +kernel

theorem witness_launchesCompleteAndAbort :
    let ended (a : Nat) : Launch := { launch0 with st := .draining, live := 0, done := a }
    let s (a : Nat) : State := { launching (ended a) with ctxs := [] }
    let s1 := ((s 0x10008).atHome 1 0x10008 true none).2
    let posting : State := { base with parts := [(1, { part1 with posts := [(3, 0, 1, 0)] })] }
    let r : AbortRec := { kind := 14 }
    let aborted := launching { launch0 with st := .aborted, pendingAbort := some r }
    ((s 0).parts.get 1 = some { part1 with launches := [(0, ended 0)] } ∧ part1.det = false ∧ (s 0).launch? 1 0 = some (ended 0) ∧ (ended 0).slot = 0 ∧ (ended 0).st = .draining ∧
      (s 0).launchQuiet 1 0 = true ∧ (s 0).postRoom 1 (ended 0) = true ∧ (ended 0).done = 0 ∧ (ended 0x10008).done ≠ 0) ∧
    ((s 0x10008).rightsFor 1 0x10008 = some (page 0x10000 0) ∧ ((s 0x10008).atHome 1 0x10008 true none).1 = .ready 0 none ∧ (s 0x10008).poisoned 0x10008 8 = false ∧ s1.parkedBefore 1 0x10008 = false ∧
      s1.leased 0 none 1 0 (s1.sector 0 1 0x10008) = false ∧ s1.mayStamp 0 none 1 (maxStamp (maxStamp 0 ((s 0x10008).lf 1 sDie) + 1) ((s1.sector 0 1 0x10008).rts + 1)) = true) ∧
    ((s 0x50008).rightsFor 1 0x50008 = none ∧ (ended 0x50008).pendingAbort = none) ∧
    (posting.parts.get 1 = some { part1 with posts := [(3, 0, 1, 0)] } ∧
      ((posting.host.vfs.getD 3 {}).cqtail.toNat + 1) % 2 ^ ((posting.host.vfs.getD 3 {}).cqsize.toNat + 4) ≠ (posting.host.vfs.getD 3 {}).cqhead.toNat % 16) ∧
    (aborted.launch? 1 0 = some { launch0 with st := .aborted, pendingAbort := some r } ∧ r.noLaunch = false ∧ aborted.migFifo = [] ∧ (base.ctx 8).wait.job? = none ∧ (base.host.vfs.getD 3 {}).resetAt.isSome = false ∧
      aborted.postRoom 1 { launch0 with st := .aborted, pendingAbort := some r } = true) := by decide +kernel

/-- A core's jobs. -/
def withJob (rings : List (Nat × Word)) (j : Job) : State := base.onCore 0 fun k => { k with rings := rings, jobs := [j] }

/-- Jobs that wait; a ring that is not valid, an accumulator of the other kind, panels that are well formed and malformed; MST, MLDT and MZERO. -/
theorem witness_matrixJobsRunAndRetire :
    let ra : Word := 0x0004000052000400
    let rb : Word := 0x0004000052000800
    let desc : Word := 0x108
    let job (running : Bool) (pair : Nat) (snap : List Word) : Job := { id := some 1, kind := .mma false pair desc 0 0, running := running, snap := snap, ctx := 0, uid := 1, launch := some 0, part := 1 }
    let queued : State := { withJob [(0, ra), (1, rb)] (job false 13 []) with energy := [(1, { target := 28000 })] }
    let s (pair : Nat) := withJob [(0, ra), (1, rb)] (job true pair [ra, rb])
    let k := (s 13).core 0
    let v := (s 13).viewOf (job true 13 [ra, rb])
    let px : List (Nat × Nat) := [(0, 272)]
    let wide : Word := 0x0008000053000400
    let wideB : Word := 0x0008000053000C00
    let ex := withJob [(0, wide), (1, wideB)] (job true 6 [wide, wideB])
    let bad : State := { ex with mem := words [(lmAddr 0 0x400, 0x100000310)] }
    (nextTurn 0 (queued.rrJobs.getD 0 (7, 7)).1 queued.jobWaits = some 0 ∧ (queued.core 0).jobs = job false 13 [] :: []) ∧
    (k.jobs = job true 13 [ra, rb] :: [] ∧ k.ringValid ra = true ∧ k.ringValid rb = true ∧ k.ringValid 0 = false ∧ (0 : Word).getLsbD 0 = false ∧ k.kind 0 = 0 ∧
      (1 : BitVec 2) ≠ 0 ∧ (1 : BitVec 2) ≠ pairKind 13 ∧ descA desc ≠ descB desc) ∧
    (v.panelPlaces 0 ra (pairElems 13).1 false 0 (descK desc) = some (px, 2) ∧ v.panelPlaces 0 rb (pairElems 13).2 false 0 (descK desc) = some (px, 2) ∧
      v.ringPoisoned 0 ra px = false ∧ v.ringPoisoned 0 rb px = false ∧ (v.readPanels 0 ra (pairElems 13).1 false px).isSome = true ∧
      (v.readPanels 0 rb (pairElems 13).2 false px).isSome = true ∧ (job true 13 [ra, rb]).sick = false ∧ ({ job true 13 [ra, rb] with sick := true } : Job).sick = true) ∧
    (((bad.viewOf (job true 6 [wide, wideB])).panelPlaces 0 wide .ex8 false 0 1).isSome = true ∧
      (bad.viewOf (job true 6 [wide, wideB])).readPanels 0 wide .ex8 false [(0, 796)] = none) ∧
    (mstFormat 1 = some (.float .f32, 4) ∧ 0x1000 + 15 * 64 + 16 * 4 ≤ 0x6000 ∧ (base.core 0).scratchEnd = 0x6000 ∧
      ((withJob [(0, 0x52000400)] { job true 13 [0x52000400] with kind := .mldt (BitVec.ofNat 64 (lmAddr 0 0x1000)) 0x200000 0 }).core 0).ringValid 0x52000400 = true ∧
      ∀ o ∈ mldtOffsets 0x200000, (base.viewOf (job true 13 [])).poisoned (lmAddr 0 0x1000 + o) 2 = false) ∧
    (∃ a : Panel, a.groups[0]? = some (List.replicate 32 0) ∧ a.maps[0]? = some (2 ^ 32 - 1) ∧ (List.replicate 32 0).length = 32) := by
  refine ⟨by decide +kernel, by decide +kernel, by decide +kernel, by decide +kernel, by decide +kernel, ⟨{ groups := [List.replicate 32 0], metas := [0], maps := [2 ^ 32 - 1] }, by decide +kernel⟩⟩

/-- A copy of two 8-byte elements from 0x10000 to LM or to memory: queued, running, parked and moved, with and without a handler. -/
theorem witness_copiesMoveTheirElements :
    let x (dst h : Word) (st : Nat) : CopyRec :=
      { id := 0x10000, block := [0x10000, dst, h, 3, 2, 0, 0, 0], status := st, tid := thread.cr.tid, ctx := 0, uid := 1, launch := some 0, part := 1, domain := 1, lclk := 0 }
    let s (x : CopyRec) := base.onCore 0 fun k => { k with xseq := 1, copies := [(0, x)] }
    let queued : State := { s (x 0x10100 0 1) with energy := [(1, { target := 3000 })] }
    let toLm := x 0x00FE000000000800 0 2
    let lm := s toLm
    let toMem := x 0x10100 0 2
    let read (s : State) (x : CopyRec) (a : Word) := (s.xuRead 0 x a 8).1
    let absent := { toMem with block := [0x20000, 0x10100, 0, 3, 2, 0, 0, 0] }
    let outside := { toMem with block := [0x50000, 0x10100, 0, 3, 2, 0, 0, 0] }
    let parked := { x 0x10100 0 3 with parked := some 0x20000 }
    let woken (v : Word) : State := { s parked with net := { base.net with flights := [flight (.wake (.page 2) v 0 (.core 0) false)] } }
    (nextTurn 0 (queued.rrJobs.getD 0 (7, 7)).2 queued.copyWaits = some 0 ∧ (queued.core 0).nextCopy = some (0, x 0x10100 0 1)) ∧
    (copyBt toLm.block ≠ 1 ∧ (lm.core 0).copies.get 0 = some toLm ∧ copyTotal toLm.block = 2 ∧ lm.partRuns 1 = true ∧ (lm.copyAddr 0 toLm 0 1).1 = .got 0x10008 0 ∧
      (lm.copyAddr 0 toLm 1 1).1 = .got 0x00FE000000000808 0 ∧ read lm toLm 0x10008 = .got 0 0 ∧ placeOf 0 0x00FE000000000808 = .lm 0 0x808 ∧ lm.enabled 0 = true ∧
      0x808 + 8 ≤ (lm.core 0).scratchEnd ∧ lm.net.waiters = []) ∧
    (((s toMem).copyAddr 0 toMem 1 1).1 = .got 0x10108 0 ∧ placeOf 0 0x10108 = .memory ∧ ((s toMem).plbLookup 0 1 0x10108).1 = some (page 0x10000 0) ∧ (page 0x10000 0).w = true) ∧
    (read (s absent) absent 0x20000 = .park 0x20000 ∧ read (s outside) outside 0x50000 = .fail 4 0x50000 none ∧ base.launch? 1 0 = some launch0 ∧ launch0.pendingAbort = none ∧
      outside.block.getD 2 0 = 0) ∧
    ((woken 1).inOrder 0 = true ∧ (woken 2).copiesParked 0 1 2 = [0] ∧ ((woken 2).core 0).copies.get 0 = some parked ∧ parked.status = 3) ∧
    (copyTotal toMem.block ≤ ([0, 1] : List Nat).length ∧ (s { toMem with moved := [0, 1] }).copyStores 0 0 = false ∧ toMem.block.getD 2 0 = 0 ∧
      (x 0x10100 0x00FE000000000900 2).block.getD 2 0 ≠ 0 ∧ (s toMem).copyOwner toMem = some 0) := by decide +kernel

/-! Energy, power, time, domains, partitions, links, the host, collectives, Primrose and the mailbox. -/

theorem base_mailboxFree : base.MailboxFree := by unfold State.MailboxFree; decide +kernel

/-- `base` with one die changed. -/
def dieAs (d : Nat) (x : Die) : State := { base with dies := [(d, x)] }

/-- An estimate after one microsecond; work that waited over 100 µs; a clock that may rise and one over its target; 105 °C, 99 °C and the outer tiles and dies. -/
theorem witness_isobarRenewsHeadroomAndClocks :
    let late : State := { base with gtr := 16000 }
    let job : Job := { id := some 1, kind := .mzero 0, ctx := 0, uid := 1, launch := some 0, part := 1, waitedFrom := some 0 }
    let aged : State := { base with cores := [(0, { jobs := [job] })], gtr := 1600001, mgmt := { base.mgmt with lastEstimate := 1 } }
    let rise (e : Int) : State := { base with gtr := 160000, energy := [(1, { target := 100, estimate := e })] }
    let hot := dieAs 15 { clamped := true }
    (late.mgmt.isobar = true ∧ late.mgmt.lastEstimate + 16000 ≤ late.gtrOf sDie ∧ late.parts = [(1, part1)] ∧ 0 < part1.quadrantsOn 0 ∧ part1.st = .running ∧
      (∀ x ∈ ([(1, 5), (255, 7)] : List (Nat × Int)), x.1 < 256) ∧ (∀ d ∈ tileDies 0, ∀ x ∈ (late.die d).sensors, x.2 ≤ 95 * 16)) ∧
    ((aged.die 0).lastAged ≠ aged.mgmt.lastEstimate ∧ tileOf 0 = 0 ∧ aged.cores.get 0 = some { jobs := [job] } ∧ job ∈ ({ jobs := [job] } : Core).jobs ∧
      job.waitedFrom = some 0 ∧ 0 + 1600000 < aged.gtrOf sDie) ∧
    (((rise 0).die 0).lastRaise + 160000 ≤ (rise 0).gtrOf sDie ∧ (∀ x ∈ (rise 0).waitsOn 0, (rise 0).gtrOf sDie ≤ x + 160000) ∧
      (∀ d ∈ sDie :: tileDies 0, ((rise 0).die d).clamped = false) ∧
      (∀ x ∈ (rise 0).energy, x.1 / 16 = 0 → x.2.estimate ≤ x.2.target ∧ 40 * x.2.target < 10 * (rise 0).headroom (x.1 % 16) 0) ∧ ((rise 0).die 0).hotAt + 160000 ≤ (rise 0).gtrOf sDie ∧
      (1, ({ target := 100, estimate := 101 } : Energy)) ∈ (rise 101).energy) ∧
    (base.mgmt.main = true ∧ (hot.die 15).clamped = true ∧ (99 : Nat) < 100) := by decide +kernel

/-- Main on and off, 110 °C on dies 0 and 64, bring-up at each step, 128 and 129 clusters of a tile. -/
theorem witness_losingMainAndComingUp :
    let off : State := { base with mgmt := { base.mgmt with main := false, trip := some 64 } }
    let at_ (n : BitVec 4) : State := { State.reset with mgmt := { State.reset.mgmt with step := n } }
    base.mgmt.main = true ∧ base.mgmt.busy = false ∧ base.mgmt.step = 9 ∧ (110 : Nat) ≤ 110 ∧ (64 : Nat) < 65 ∧ off.mgmt.main = false ∧ off.mgmt.trip = some 64 ∧
      (∀ n ∈ ([1, 2, 3, 4, 5, 6, 7, 8] : List (BitVec 4)), (at_ n).mgmt.main = true ∧ (at_ n).mgmt.stopped = false ∧ (at_ n).mgmt.step = n) ∧ (at_ 2).mgmt.minVersion ≤ 0 ∧
      0 < ({ (at_ 2).mgmt with minVersion := 1 } : Mgmt).minVersion ∧ (List.range 128).Nodup ∧ (∀ c ∈ List.range 129, c < 131072) ∧
      ((List.range 128).filter fun c => c / 8192 == 0).length ≤ 128 ∧ 128 < ((List.range 129).filter fun c => c / 8192 == 0).length ∧ (at_ 8).mgmt.isobar = false ∧
      base.mgmt.isobar = true ∧ capAllowed 4000 = true ∧ capAllowed 7500 = true := by decide +kernel

/-- The last die of the ring; a replica that has loaded or not, is locked or not; deviations of -65, -64, 64 and 65; both time sources; numbers 9 and 10. -/
theorem witness_replicasAndMasterAreCorrected :
    let s : State := { dieAs 64 { loaded := true, locked := true, good := 3 } with gtr := 128000 }
    let zw : State := { s with mgmt := { s.mgmt with timeSource := 9 } }
    let ptm : State := { s with mgmt := { s.mgmt with timeSource := 1 } }
    (64 : Nat) < 65 ∧ s.mgmt.main = true ∧ (s.die 64).frosted = false ∧ (s.die 64).lastExchange + 128000 ≤ s.gtr ∧ (s.die 64).loaded = true ∧ (s.die 64).locked = true ∧
      (s.die 0).loaded = false ∧ (∀ m ∈ ([-64, 64] : List Int), (s.die 64).canMeasure m = true) ∧ (s.die 64).offset = 0 ∧
      ({ offset := -1 } : Die).canMeasure (-65) = true ∧ ({ offset := 1 } : Die).canMeasure 65 = true ∧ (-64 : Int) ≤ -64 ∧ (64 : Int) ≤ 64 ∧ (-65 : Int) < -64 ∧ (64 : Int) < 65 ∧ zw.mgmt.timeSource = 2 + 7 ∧ zw.mgmt.lastTime + 128000 ≤ zw.gtr ∧
      ptm.mgmt.timeSource = 1 ∧ (9 : Nat) < 10 := by decide +kernel

/-- Ids 1 and 2, indexes 0, 255, 256 and 63, entries that meet, do not and open a range; purges that wait and end; pages with and without copies, leases, faults, host data and wipes due. -/
theorem witness_domainsRightsRegionsAndPages :
    let w0 : Word := 0x50000
    let w1 : Word := 0x1000 + 16 + 0x40
    let wW : Word := 0x1000 + 16 + 0x80
    let r0 : Word := 0x2000000
    let r1 : Word := 0x4000000 + 25 * 2 ^ 20 + 1
    let old : RegionEntry := { base := 0, log2size := 25, hash := 0, gran := 0, tiles := 1 }
    let idle : State := { base with pte := [] }
    let line : CopyLine := { line := 0x40000, part := 1 }
    let kept := idle.onCore 0 fun k => { k with cache := [line] }
    let wiping (xs : List (Nat × Nat × Nat)) (t : List TransEntry) : State := { base with pte := [], net := { base.net with unwiped := xs, trans := t } }
    let rec_ (e : Nat) : LineRec := { line := 0x40000, part := 1, slice := 0, sectors := [(0, { wts := 0, rts := 0, expiry := e })] }
    let recs (e : Nat) : State := { base with net := { base.net with recs := [rec_ e] } }
    let fr : FaultRec := { slice := 0, part := 1, page := 4 }
    let wr : WaitRec := { slice := 0, part := 1, key := .page 4 }
    let faulty : State := { base with net := { base.net with faults := [fr], waits := [wr] } }
    let dom : Domain := { part := 1, owner := none, rights := [(0, page 0x10000 0)] }
    let listed := base.onCore 0 fun k => { k with plb := [(1, page 0x10000 0)] }
    let purging (cs : List Nat) : State := { base with domains := [(1, { dom with purging := cs })], mgmt := { base.mgmt with busy := true, busyPart := 2 ^ 20 + 1 } }
    let under (cs : List Nat) : State := { purging cs with net := { base.net with flights := [flight (.store store0)] } }
    let tr (n : Nat) : TransEntry := { slice := n, part := 1, page := 4, result := 0 }
    let here : Word := 0xC100000000000000
    let hostLeaf : Word := 0xE100000000001000
    let gone : Word := 0x0120000000000000
    let atHost : State := { base with pte := [(pteKey 4 0x40000, gone)], net := { base.net with places := [(pteKey 4 0x40000, hostLeaf)] } }
    let pending : State := { atHost with host := { atHost.host with lines := [{ hpa := hostAddr hostLeaf false 0x40000, va := 0x40000, part := 1, pending := 1 }] } }
    (base.rightsCores 1 = [] ∧ listed.rightsCores 1 = [0] ∧ ((purging [0]).domains.get 1 = some { dom with purging := [0] }) ∧ (purging [0, 1]).underDomain 0 1 = false ∧
      (under [0]).underDomain 0 1 = true ∧ (under [0]).rightsCores 1 = [0] ∧ ([0, 1].filter (· != 0) : List Nat) = [1] ∧ ([0].filter (· != 0) : List Nat) = []) ∧
    ((wiping [(0x40000, 65536, 1)] [tr 0, tr 1]).net.trans.filter (fun x => !(x.slice == 0 && x.page == 4)) = [tr 1] ∧ (0x40000 : Nat) ≤ (tr 1).page * 65536 ∧
      (tr 1).page * 65536 < 0x40000 + 65536 ∧ (wiping [(0x40000, 65536, 1)] [tr 0]).net.trans.filter (fun x => !(x.slice == 0 && x.page == 4)) = [] ∧ base.mem.wf = true ∧
      (0x4FFFF : Nat) < 0x40000 + 65536) ∧
    (base.MailboxFree ∧ base.parts.get 1 = some part1 ∧ part1.st ≠ .ended ∧ 3 ∈ part1.vfs ∧ base.domains.length < 4096 ∧ base.domains.get 2 = none ∧
      (∀ i ∈ ([1] : List Nat), (base.domains.get i).isSome = true)) ∧
    ((purging []).domains.get 1 = some dom ∧ (255 : Nat) < 256 ∧ ¬(256 : Nat) < 256 ∧ (0x40 : Word).getLsbD 12 = false ∧ w1.getLsbD 12 = true ∧ rightsFormed w0 w1 = true ∧
      rightsFormed w0 wW = true ∧ rightsFormed (w0 + 1) w1 = false ∧ bitsOf w0 16 40 * 65536 = 0x50000 ∧ bitsOf w1 0 6 = 16 ∧ w1.getLsbD 7 = false ∧ wW.getLsbD 7 = true ∧
      (∀ x ∈ dom.rights, 0x50000 + 2 ^ 16 ≤ x.2.base ∨ x.2.base + 2 ^ x.2.log2size ≤ 0x50000) ∧ (page 0x10000 0).base < 0x10000 + 2 ^ 16 ∧ (page 0x10000 0).w = true) ∧
    (part1.regions.get 63 = none ∧ r1.getLsbD 26 = true ∧ part1.regionFormed r0 r1 = true ∧ base.pagesMapped 1 0x2000000 25 = false ∧ bitsOf r0 25 31 * 2 ^ 25 = 0x2000000 ∧
      part1.regions.get 0 = some old ∧ (0 : Word).getLsbD 26 = false ∧ idle.pagesMapped 1 0 25 = false ∧ idle.unwipedIn 0 (2 ^ 25) = false ∧ idle.linesKept 1 0 25 = false ∧
      base.pagesMapped 1 0 25 = true ∧ (wiping [(0x40000, 65536, 1)] []).unwipedIn 0 (2 ^ 25) = true ∧ kept.linesKept 1 0 25 = true) ∧
    ((tr 0).page / 1 = 4 ∧ (rec_ 1).line / 65536 / 1 = 4 ∧ (recs 1).gtrOf (sliceDie 0) < 1 ∧ (recs 1).net.recs = [rec_ 1] ∧ base.mayWrite 4 4 0 = true ∧ base.mayWrite 4 4 here = true ∧
      base.mayWrite 3 4 here = true ∧ bitsOf (0 : Word) 63 1 = 0 ∧ bitsOf here 63 1 = 1 ∧ (recs 0).leasesOver 4 1 = true ∧ (recs 0).leasesOver 4 512 = true ∧
      dataMoves ((base.pagePlace 4 0x40000).getD 0) here = false ∧ base.net.faults = [] ∧ faulty.net.faults = [fr] ∧ wr ∈ faulty.net.waits ∧ bitsOf here 56 4 = 1 ∧ bitsOf here 62 2 = 3 ∧
      faulty.net.flights = [] ∧ dataMoves ((faulty.pagePlace 4 0x40000).getD 0) here = false ∧ faulty.mayWrite 4 4 here = true ∧ faulty.leasesOver 4 1 = true) ∧
    (sameOwner gone here = true ∧ (atHost.pagePlace 4 0x40000).getD 0 = hostLeaf ∧ dataMoves hostLeaf here = true ∧ bitsOf hostLeaf 61 1 = 1 ∧ bitsOf here 61 1 = 0 ∧
      atHost.mayWrite 4 4 here = true ∧ atHost.leasesOver 4 1 = true ∧ atHost.host.lines = [] ∧ atHost.mem.wf = true ∧ ([0, 1023] : List Nat).Nodup ∧
      pending.mayMove hostLeaf here false 0x40000 65536 = false ∧ dataMoves ((base.pagePlace 4 0x40000).getD 0) hostLeaf = true ∧ base.mayWrite 4 4 hostLeaf = true ∧
      sameOwner (base.pte.getD (pteKey 4 0x40000) 0) hostLeaf = true ∧ base.host.lines = []) ∧
    (let mixed : Word := 0xC200000000000000
     base.mgmt.main = true ∧ keepsData mixed = true ∧ sameOwner mixed here = false ∧ pteKey 4 0x50000 / 2 ^ 56 = 4 ∧ pteKey 4 0x50000 % 2 ^ 56 / 512 = 0x40000 / 2 ^ 25 ∧
      (∀ x ∈ idle.pte, ¬(x.1 / 2 ^ 56 = 4 ∧ x.1 % 2 ^ 56 / 512 = 0)) ∧ idle.mem.wf = true) := by
  refine ⟨by decide +kernel, by decide +kernel, ⟨base_mailboxFree, by decide +kernel⟩, by decide +kernel, by decide +kernel, by decide +kernel, by decide +kernel, by decide +kernel⟩

/-- Descriptors of one quadrant: free, held, and refused outside DEPLOYED; drain times 9, 10, 1,000 and 1,001; rectangles that grow, shrink and change homes; drained, saved and ended. -/
theorem witness_partitionsStartPreemptAndEnd :
    let d (x : Nat) : List Word := [BitVec.ofNat 64 (x + 0x10000), 0, 0, 0, 0, 0, 0, 0]
    let s : State := { base with parts := [(0, { part1 with qx0 := 2, qw := 1, qh := 1, vfs := [] }), (1, part1)], mgmt := { base.mgmt with lifecycle := .deployed } }
    let one (q : Part) : State := { base with parts := [(1, q)] }
    let small : Part := { part1 with qw := 1, regions := [] }
    let drain : Part := { part1 with st := .draining 0 }
    let f := flight (.load load0)
    let image : SavedCore := { part := 1, source := 0, core := {}, ctxs := [{ thread with st := .ready }], lm := [(0x400, 7)], empty := [], poison := [], replay := [], gtr := 0 }
    let saved : State := { one { part1 with st := .saved } with ctxs := [], saved := [(saveKey 1 0, image)] }
    let back : State := { one { part1 with st := .restoring } with agenda := [.resume 1], mgmt := { base.mgmt with busy := true, busyPart := 1 } }
    let ended : Part := { part1 with st := .ended, launches := [] }
    let wiping : State := { base with mgmt := { base.mgmt with nextLife := some (.returned, 0) } }
    (s.MailboxFree ∧ (d 4).length = 8 ∧ s.parts.get 2 = none ∧ (∀ i ∈ ([0, 1] : List Nat), (s.parts.get i).isSome = true) ∧ s.mgmt.lifecycle = .deployed ∧ descriptorGood (d 4) = true ∧
      (∀ x ∈ s.parts, (partOf (d 4)).meets x.2 = false) ∧ (∀ x ∈ s.parts, ∀ v ∈ x.2.vfs, v ∉ (partOf (d 4)).vfs) ∧ base.mgmt.lifecycle ≠ .deployed ∧ (partOf (d 0)).meets part1 = true) ∧
    (base.parts.get 1 = some part1 ∧ part1.st = .running ∧ part1.launches.get 0 = some launch0 ∧ (10 : Nat) ≤ 1000 ∧ (9 : Nat) < 10 ∧ (1000 : Nat) < 1001 ∧ drain.st ≠ .running) ∧
    (let r := partOf (d 0x248);
      let big := partOf (d 0x240);
      small.inside { small with qw := 2 } = true ∧ descriptorGood (d 0x240) = true ∧ descriptorGood [0x240 + 0x10000, 0, 0, 0, 1, 0, 0, 0] = false ∧ big.qw = 2 ∧ small.sameHomes { small with qw := 2 } = true ∧ small.inside big = true ∧
        big.inside (partOf (d 0x200)) = false ∧ (partOf (d 0x200)).inside big = true ∧ r.qy0 = 1 ∧ part1.sameHomes { part1 with qw := 1 } = false ∧
        (partOf (d 0x200)).sameHomes (partOf (d 0x240)) = true ∧ ({ big with det := true } : Part).det = true ∧ big.det = false) ∧
    ((one drain).parts.get 1 = some drain ∧ (one drain).net.lost = [] ∧ (one drain).net.gathers = [] ∧ (one drain).net.waiters = [] ∧ (one drain).net.gamo = [] ∧
      (∀ x ∈ (one drain).ctxs, x.2.migrated = false) ∧ (one drain).net.flights = [] ∧ (one drain).cores = [] ∧ 0 ≤ (one drain).gtrOf sDie ∧ drain.coversCore (coreOf f.ctx) = true ∧
      numberOf f.ctx < 6) ∧
    (saved.MailboxFree ∧ saved.parts.get 1 = some { part1 with st := .saved } ∧ part1.later = [] ∧ part1.restored = [] ∧ saved.fetching part1 = false ∧ saved.loading part1 = false ∧
      ({ saved with net := { saved.net with flights := [flight (.load load0)] } } : State).loading part1 = true ∧
      ({ saved with net := { saved.net with flights := [flight (.store store0)] } } : State).fetching part1 = true ∧ saved.saved = [(saveKey 1 0, image)] ∧ 0 < coreCount ∧ image.parked = false ∧ image.lm = [(0x400, 7)] ∧ (∀ c ∈ image.ctxs, c.st = .ready) ∧
      (saved.launch? 1 0).isSome = true ∧ (∀ n ∈ List.range 6, (saved.ctx (0 * 8 + n)).st = .free)) ∧
    (back.agenda = .resume 1 :: [] ∧ back.parts.get 1 = some { part1 with st := .restoring } ∧ back.fetching { part1 with st := .restoring } = false ∧ back.loading { part1 with st := .restoring } = false ∧
      back.mgmt.busy = true ∧ back.mgmt.nextLife = none ∧ back.mgmt.busyPart = 1) ∧
    ((one ended).mgmt.nextLife = none ∧ ended.posts = [] ∧ (one ended).mem.wf = true ∧ (one ended).parts.get 1 = some ended ∧ wiping.mgmt.nextLife = some (.returned, 0)) := by
  refine ⟨⟨by unfold State.MailboxFree; decide +kernel, by decide +kernel⟩, by decide +kernel, by decide +kernel, by decide +kernel,
    ⟨by unfold State.MailboxFree; decide +kernel, by decide +kernel⟩, by decide +kernel, by decide +kernel⟩

/-- A shrink to a rectangle without a cluster finds no room for the core that the partition holds. -/
theorem witness_shrinkHasNoRoom :
    let q : Part := { part1 with st := .draining 0, shrink := some (0, 0, 0, 0, false) }
    let r : Part := { q with qx0 := 0, qy0 := 0, qw := 0, qh := 0 }
    let s : State := { base with parts := [(1, q)] }
    s.parts.get 1 = some q ∧ s.net.gamo = [] ∧ 0 ≤ s.gtrOf sDie ∧ s.shrinkFits 1 q r = false := by
  intro q r s
  have hr : ∀ c, r.coversCore c = false := fun c => by simp [r, Part.coversCore, Part.covers]
  have hh : s.heldOutside q r = [0] := by
    have : s.heldCores q = [0] := rfl
    simp [State.heldOutside, this, hr]
    rfl
  refine ⟨rfl, rfl, Nat.zero_le _, ?_⟩
  simp [State.shrinkFits, hr, hh]

/-- No other partition covers a core of the only one, and what no cluster outside the new rectangle holds always fits. -/
theorem witness_partitionAlone (q r : Part) :
    (∀ i, q.coversCore i = true → ({ base with parts := [(1, q)] } : State).coreElsewhere 1 i = false) ∧
    ({ State.reset with parts := [(1, q)] } : State).shrinkFits 1 q r = true := by
  refine ⟨fun i _ => by simp [State.coreElsewhere], ?_⟩
  have h : ({ State.reset with parts := [(1, q)] } : State).heldOutside q r = [] := by
    simp [State.heldOutside, State.heldCores, State.reset, lmCores]
  simp [State.shrinkFits, h]

/-- Each kind that a link can lose, 20 µs and the kept answer, dies 0, 16, 63 and 64, 14 and 15 replays, 16 NAKs, a slice that returns. -/
theorem witness_linksTimersAndDiesRecover :
    let lost (k : FKind) : State := { base with gtr := 320000, net := { base.net with lost := [flight k] } }
    let fetching (k : FKind) : State := { base with net := { base.net with flights := [flight (.seqFetch 0 0)], lost := [flight k] } }
    let kept : State := { fetching (.store store0) with net := { (fetching (.store store0)).net with
      answers := [{ slice := 0, core := 0, incarnation := 0, seq := 0, answer := .storeAck store0 copy0 }] } }
    let find (s : State) := s.net.answers.find? (fun x => x.slice == 0 && x.core == 0 && x.agent == isAgent 0 && x.incarnation == 0 && x.seq == 0)
    let z : State := { base with zwion := [(7, { naks := 16, resend := some (1, 0) })] }
    let returning : State := { base with net := { base.net with returning := [0] } }
    let req : FKind := .launchReq 9 [1] [] 1 0 0
    let asked : State := { fetching req with net := { (fetching req).net with
      answers := [{ slice := tableSlice, core := 0, incarnation := 0, seq := 0, answer := .launchStatus 9 1 }] } }
    ((carrying (.pushAnswer 0 1 true)).flight? 0 = some (flight (.pushAnswer 0 1 true)) ∧ (lost (.pushAck 0x10008 1 1 true)).net.lost[0]? = some (flight (.pushAck 0x10008 1 1 true)) ∧
      ((lost (.pushAck 0x10008 1 1 true)).ctx 0).uid = 1 ∧ (flight req).launching = true ∧ (asked.net.answers.find? fun x => x.slice == tableSlice && x.core == 0 && x.agent == isAgent 0 && x.incarnation == 0 && x.seq == 0).isSome = true ∧
      ((fetching req).net.answers.find? fun x => x.slice == tableSlice) = none ∧ ({ base with mgmt := { base.mgmt with main := false } } : State).mgmt.main = false ∧ (64 : Nat) < 65 ∧ (63 : Nat) < 64) ∧
    ((carrying (.store store0)).flight? 0 = some (flight (.store store0)) ∧ (lost (.load load0)).net.lost[0]? = some (flight (.load load0)) ∧
      0 + 320000 ≤ (lost (.load load0)).gtrOf (tileOf (coreOf 0)) ∧ (base.ctx 0).uid = 1) ∧
    ((fetching (.store store0)).flight? 0 = some (flight (.seqFetch 0 0)) ∧ (flight (.store store0)).accessed = some 0x10008 ∧
      (fetching (.store store0)).homePoint 1 0x10008 = .slice 0 ∧ base.refuses (sliceDie 0) (some 0) = false ∧ 0 ∉ base.net.returning ∧
      (find kept).isSome = true ∧ find (fetching (.store store0)) = none) ∧
    (base.stackDie 0x10008 = some 32 ∧ base.mgmt.main = true ∧ (z.port 7).queue = [] ∧ 16 ≤ (z.port 7).naks ∧ 16 ≤ ({ sentNaks := 16 } : Zwion).sentNaks ∧ (z.port 7).resend = some (1, 0) ∧ 0 ≤ z.gtrOf sDie ∧
      (0 : BitVec 12) = (z.port 7).rxLast + 1) ∧
    (((dieAs 16 { quiesce := some 0 }).die 16).quiesce = some 0 ∧ ((dieAs 63 { replays := 14 }).die 63).replays < 15 ∧ 15 ≤ ((dieAs 63 { replays := 15 }).die 63).replays ∧
      (base.die 0).frosted = false ∧ base.parts = [(1, part1)] ∧ 0 < part1.quadrantsOn (dieTile 0) ∧ ((dieAs 0 { frosted := true }).die 0).frosted = true ∧
      ((dieAs 31 { frosted := true }).die 31).frosted = true ∧ part1.resetBy ≠ some 0 ∧ tileOf (coreOf 0) ≠ 16 ∧
      ({ dieAs 16 { quiesce := some 0 } with net := { base.net with absent := [16] } } : State).refuses 16 (some 1) = true ∧
      ({ dieAs 16 { quiesce := some 0 } with net := { base.net with absent := [16] } } : State).frosts 16 { flight (.load load0) with sentAt := 1 } = false ∧
      (dieAs 16 { quiesce := some 0 }).frosts 16 (flight (.load load0)) = true) ∧
    (0 ∈ returning.net.returning ∧ ∀ x ∈ returning.parts, later (returning.net.pub.getD 0 0 + 1048577) (returning.horizon x.1 (sliceDie 0)) = false) := by decide +kernel

/-- A VF's launch record, as bytes. -/
def portBytes : List Byte := (List.range 64).map fun i => if i = 1 then 4 else if i = 4 then 1 else if i = 57 then 1 else 0

/-- Domain 2 of VF 3 reaches the record's list at 0x100. -/
def portState : State :=
  { base with domains := [(2, { part := 1, owner := some 3, rights := [(0, { page 0 0 with log2size := 20 })] })]
              mem := words [(0x110, 0x10100), (0x118, 0x80400)]
              pte := (pteKey 4 0, 0xC100000000000000) :: base.pte }

/-- An eviction in flight; a page whose flip back waits for a line; the slot a launch port finds; a VF reset before and after its deadline. -/
theorem witness_hostWaitsAndVfResets :
    let line : HostLine := { hpa := 0x7000, va := 0x10000, part := 1, mesi := .m, evicted := some 7, pending := 3 }
    let dev : HostLine := { hpa := 2 ^ 60 + 0x40000, va := 0x40000, part := 1, mesi := .s, pending := 1 }
    let host (l : HostLine) : State := { base with host := { base.host with lines := [l] } }
    let page40 : Nat := 0x40
    let unowned : State := { base with host := { base.host with hostBias := [page40] } }
    let taken : State := { base with host := { base.host with hostBias := [page40], lines := (pageLines page40).map fun a => { hpa := biasKey a, va := a, part := 1, mesi := .e } } }
    let asked (s : State) : State := { s with host := { s.host with unbiasing := some page40 }, mgmt := { base.mgmt with busy := true } }
    let owns (s : State) : Bool := (pageLines page40).all fun a => (s.hostLine? (biasKey a) (s.pagePart a)).any HostLine.owned
    let found := portState.portList 1 (portState.vfDomain 3) (wordsOf portBytes)
    let v (t0 : Nat) : State := { base with host := { base.host with vfs := [(127, { resetAt := some t0 })] }, mgmt := { base.mgmt with busy := true, busyPart := 2 ^ 21 + 127 } }
    ((host line).host.lines = [line] ∧ (host { dev with pending := 4 }).host.lines = [{ dev with pending := 4 }] ∧ (asked unowned).mgmt.busy = true ∧
      (asked unowned).host.unbiasing = some (0x40000 / 4096) ∧ owns unowned = false ∧ owns (asked unowned) = false ∧ unowned.host.lines = [] ∧ owns taken = true ∧
      owns (asked taken) = true ∧ page40 ∈ unowned.host.hostBias ∧ page40 ∉ base.host.hostBias ∧ page40 ∉ unowned.host.flipping ∧
      ({ base with host := { base.host with flipping := [page40] } } : State).host.flipping = [0x40000 / 4096]) ∧
    (found.2.net.turns = [] ∧ (found.2.parts.get 1).map (fun q => (q.det, q.freeSlot, decide (0 < q.freeSlots))) = some (false, some 1, true)) ∧
    (((v 0).host.vfs.getD 127 {}).resetAt = some 0 ∧ 0 ≤ (v 0).gtrOf sDie ∧ (v 1).gtrOf sDie < 1 ∧ (∀ x ∈ (v 0).parts, x.2.vfLaunches 127 = []) ∧ (v 0).net.turns = [] ∧
      (v 0).mgmt.busyPart = 2 ^ 21 + 127 ∧ (∀ x ∈ (v 0).cores, ∀ j ∈ x.2.jobs, j.vf ≠ some 127)) ∧
    (let t : Turns := { res := .launchTable 1, sources := [vfSource 3], holds := [(vfSource 3, 1)] }
     let s : State := { base with net := { base.net with turns := [t] } }
     s.turnsOf (.launchTable 1) = t ∧ s.gtrOf sDie < 1 ∧ part1.det = false ∧ ({ part1 with st := .saved, det := true } : Part).det = true ∧ base.net.turns = []) := by decide +kernel

/-- Lines in each state; accesses in and out of a domain, under host and device bias; a flip; ports of VFs with no, a pre-empted and a running partition; a reset. -/
theorem witness_hostLinesBiasAndVirtualFunctions :
    let line (x : Mesi) : HostLine := { hpa := 0x7000, va := 0x10000, part := 1, mesi := x }
    let host (l : HostLine) : State := { base with host := { base.host with lines := [l] } }
    let owned : State := { base with domains := [(2, { part := 1, owner := some 3, rights := [(0, page 0x40000 3)] })] }
    let biased : State := { owned with host := { owned.host with hostBias := [0x40] } }
    let flip (e : Nat) : State := { base with host := { base.host with flipping := [0x40] }, net := { base.net with
      recs := [{ line := 0x40000, part := 1, slice := 0, sectors := [(0, { wts := 0, rts := 0, expiry := e })] }] } }
    let bytes := portBytes
    let port := portState
    let l : Launch := { launch0 with vf := some 3 }
    let reset : State := { base with parts := [(1, { part1 with launches := [(0, l)] })] }
    let live : State := { owned with mgmt := { owned.mgmt with lifecycle := .deployed } }
    let old : State := { flip 0 with net := { (flip 0).net with recs := [], mexpiry := [(((0x40 * 64) * 1024), 1)] } }
    (live.mgmt.main = true ∧ live.mgmt.step = 9 ∧ live.mgmt.lifecycle = .deployed ∧ biased.host.unbiasing ≠ some 0x40 ∧
      ({ live with host := { live.host with unbiasing := some 0x40 } } : State).hostReach 3 0x40000 true = true ∧
      (∀ x ∈ old.net.mexpiry, x.1 / 1024 % 2 ^ 52 / 64 = 0x40 ∧ x.2 ≠ 0)) ∧
    (base.mgmt.main = true ∧ base.mgmt.step = 9 ∧ (host { line .m with pending := 1 }).host.lines = [{ line .m with pending := 1 }] ∧ (line .m).snoop = none ∧ (line .m).evicted = none ∧
      (line .m).expiry = 0 ∧ (line .m).pending = 0 ∧ ¬ (({ line .s with expiry := 1 } : HostLine).expiry + (if (base.die sDie).locked then 128 else (base.die sDie).boundNow) ≤ base.gtrOf sDie)) ∧
    ((∀ d ∈ owned.domains, d.2.owner = some 3 → ∀ e ∈ d.2.rights, e.2.holds 0x50000 = false) ∧ owned.vfPart 3 = some 1 ∧ owned.pageOfPart 1 0x40000 = true ∧ 0x40 ∉ owned.host.flipping ∧
      live.hostReach 3 0x40000 true = true ∧ 0x40 ∉ owned.host.hostBias ∧ 0x40 ∈ biased.host.hostBias ∧ biased.host.lines = [] ∧ ({ biased with mgmt := live.mgmt } : State).hostReach 3 0x40000 false = true) ∧
    (0x40 ∈ (flip 0).host.flipping ∧ (∀ r ∈ (flip 0).net.recs, ∀ x ∈ r.sectors, x.2.expiry = 0) ∧
      ¬ (1 + 128 + (if ((flip 1).die 16).locked then 0 else ((flip 1).die 16).boundNow) ≤ (flip 1).gtrOf 16)) ∧
    (0x40000 / 4096 ∉ base.host.flipping ∧ (127 : Nat) < 128 ∧ bytes.length = 64 ∧ port.vfPart 4 = none ∧ port.vfPart 3 = some 1 ∧ port.vfResetting 3 = false ∧
      port.parts.get 1 = some part1 ∧ ({ part1 with st := .saved } : Part).st ≠ .running) ∧
    (((port.portList 1 (port.vfDomain 3) [0x100000400, 0, 0, 0, 0, 0, 0, 0x50000]).1 = .bad) ∧ (wordsOf bytes).getD 0 0 = 0x100000400 ∧ (wordsOf bytes).getD 7 0 = 0x100 ∧ (port.portList 1 (port.vfDomain 3) (wordsOf bytes)).1 = .list [0, 0, 0x10100, 0x80400] ∧
      port.recordDomain 1 (port.vfDomain 3) 0 = some 2 ∧ ({ words := wordsOf bytes, list := [0, 0, 0x10100, 0x80400] } : Record).firstBad true = none ∧
      ({ words := wordsOf bytes, list := [1, 1, 0x10100, 0x80400] } : Record).firstBad true = some 64 ∧ part1.freeSlot = some 1 ∧ 0 < part1.freeSlots ∧ fullTable.parts.get 1 ≠ none ∧
      ((fullTable.parts.get 1).map Part.freeSlots) = some 0) ∧
    (reset.vfPart 3 = some 1 ∧ l.pendingAbort = none ∧ base.vfPart 4 = none ∧ (0x3F : Nat) < 0x40) :=
  ⟨by decide +kernel, by decide +kernel⟩

/-- An address of a page in HBM, of which no slice holds a translation, is of no host line. -/
theorem noHost_of_leaf (s : State) (p a : Nat) (e : Word) (ht : s.net.trans = []) (hb : s.host.hostBias = []) (hw : s.walk a = .leaf e) (he : bitsOf e 61 1 = 0) (sl : Nat) :
    s.hostKey sl p a = none := by
  simp [State.hostKey, State.leafAt, ht, hb, hw, he]

/-- Descriptors of one INT64 element, at both ranks and both sides of the gate; chunks in and out of order; each ending and the deadline. -/
theorem witness_collectivesFoldAndEnd :
    let desc (rank : Nat) : List Word := [BitVec.ofNat 64 (2 ^ 32 + 2 * 2 ^ 26 + 2 * 2 ^ 16 + rank * 2 ^ 8), 1, 0x10010, 0x10020, 0x10040, 1, 0x10060, 0]
    let withColl (c : CollSlot) (b : Memory) : State := { base with mem := b, parts := [(1, { part1 with colls := [(63, c)] })] }
    let c : CollSlot := { desc := desc 0 }
    let o : CollSlot := { c with open_ := true, fold := [(0, [5])], nextRank := [(0, 1)] }
    let s := withColl c (words [(0x10010, 5)])
    let ready := withColl c (words [(0x10010, 5), (0x10040, 1)])
    let look (s : State) := s.fetchAt 1 none none (s.lf 1 sDie) 0 false 0x10040 8
    let r1 := (look ready).2
    let open_ := withColl o []
    let second : CollSlot := { desc := desc 1 }
    let other := withColl second (words [(0x10010, 5), (0x10040, 1)])
    let asked : CollSlot := { c with gateSent := some 0 }
    let wakes (v : Word) : State := { withColl asked [] with net := { base.net with flights := [flight (.wake (.word 0x10040) v 0 (.coll 63) true)] } }
    let closedGate : CollSlot := { desc := (desc 0).set 4 0x50000 }
    let told : CollSlot := { desc := desc 1, due := some (4, 1, 0, [], 4) }
    let refused (t0 : Nat) : CollSlot := { desc := desc 1, open_ := true, given := true, kept := [[7]], refused := [(0, t0)] }
    let store (s : State) (a n v : Nat) := (s.collStore 1 c.domain 1 a n v)
    let status : Nat := 0xFF * 2 ^ 24 + 2
    let late : State := { withColl { o with nextRank := [] } [] with gtr := 32000000 }
    let f : CollSlot := { desc := desc 1, open_ := true }
    let away : CollSlot := { o with desc := (desc 0).set 6 0x20060 }
    let due : CollSlot := { o with due := some (2, 0xFF, 0, [], 2) }
    (((withColl away []).collStore 1 away.domain 1 0x20068 8 status).1 = .wait ∧ away.withdrawn = false ∧ away.due = none ∧ (withColl due []).coll? 1 63 = some due ∧
      (2 : BitVec 4).toNat = 2 ∧ (4 : BitVec 4).toNat ≤ 4 ∧ o.withdrawn = false ∧ o.due = none ∧ open_.net.trans = [] ∧ open_.host.hostBias = [] ∧
      open_.walk 0x10060 = .leaf 0xC100000000000000 ∧ bitsOf 0xC100000000000000 61 1 = 0 ∧
      ({ desc := (desc 0).set 0 (BitVec.ofNat 64 (2 ^ 32 + 2 * 2 ^ 26 + 2 ^ 16)) } : CollSlot).nrank = 2 ∧ c.open_ = false ∧ c.due = none) ∧
    (base.MailboxFree ∧ (63 : Nat) < 64 ∧ (desc 0).length = 8 ∧ base.parts.get 1 = some part1 ∧ part1.st ≠ .ended ∧ base.collGood 1 (desc 0) = true ∧ base.coll? 1 63 = none ∧
      open_.coll? 1 63 = some o ∧ o.open_ = true) ∧
    (s.coll? 1 63 = some c ∧ c.given = false ∧ c.withdrawn = false ∧ (c.word 4).toNat = 0x10040 ∧ c.gateSent = none ∧ asked.gateSent ≠ none ∧ isMemory 0x10040 = true ∧
      s.rightsFor c.domain 0x10040 = some (page 0x10000 0) ∧ (look s).1 = .got 0 0 false ∧ 0 < (c.word 5).toNat ∧ (look ready).1 = .got 1 0 false ∧ (c.word 5).toNat ≤ 1 ∧ c.rank = 0 ∧
      c.count = 1 ∧ c.count ≤ c.perChunk ∧ r1.coll? 1 63 = some c ∧ (r1.collRead 1 c.domain (maxStamp (ready.lf 1 sDie) 0) 0x10010 c.size c.count).1 = (some [5], .done) ∧
      (r1.collRead 1 c.domain (maxStamp (ready.lf 1 sDie) 0) 0x10010 c.size c.count).2.coll? 1 63 = some c) ∧
    (other.coll? 1 63 = some second ∧ second.rank ≠ 0 ∧ (look other).1 = .got 1 0 false ∧ (look other).2.coll? 1 63 = some second ∧
      ((look other).2.collRead 1 second.domain (maxStamp (other.lf 1 sDie) 0) 0x10010 second.size second.count).1 = (some [5], .done) ∧
      ((look other).2.collRead 1 second.domain (maxStamp (other.lf 1 sDie) 0) 0x10010 second.size second.count).2.coll? 1 63 = some second) ∧
    ((wakes 1).flight? 0 = some (flight (.wake (.word 0x10040) 1 0 (.coll 63) true)) ∧ (wakes 1).inOrder 0 = true ∧ (wakes 1).coll? 1 63 = some asked ∧ asked.word 5 ≤ (1 : Word)) ∧
    ((withColl closedGate []).rightsFor closedGate.domain 0x50000 = none ∧ (closedGate.word 4).toNat = 0x50000 ∧ (4 : BitVec 4).toNat = 4 ∧ (0 : BitVec 8).toNat = closedGate.rank ∧
      closedGate.echo = 0 ∧ told.rank = 1 ∧ told.echo = 0 ∧ ({ told with echo := 1, due := none } : CollSlot).echo = 1 ∧ told.due = some (4, told.rank, 0, [], 4)) ∧
    ((refused 0).rank ≠ 0 ∧ (refused 0).withdrawn = false ∧ (withColl (refused 0) []).coll? 1 63 = some (refused 0) ∧ (refused 0).due = none ∧
      0 + 16000 ≤ ({ withColl (refused 0) [] with gtr := 16000 } : State).gtrOf sDie ∧ (withColl (refused 0) []).gtrOf sDie < 0 + 16000) ∧
    (o.rank = 0 ∧ (2 : Nat) < o.nrank ∧ (0 : Nat) < o.chunks ∧ ([7] : List Word).length = Nat.min o.perChunk (o.count - 0 * o.perChunk) ∧ o.type = 2 ∧ o.nextRank.getD 0 0 = 1 ∧
      o.fold.get 0 = some [5] ∧ o.buffered = [] ∧ o.nextRank.getD 0 0 < 2 ∧ 0 + ([7] : List Word).length * o.size ≤ 4194304 ∧
      (let full : CollSlot := { o with buffered := [(1, 0, List.replicate 524288 0)] }; (∀ b ∈ full.buffered, b.1 ≠ 2 ∨ b.2.1 ≠ 0) ∧ full.nextRank.getD 0 0 < 2)) ∧
    ((store open_ 0x10068 8 status).1 = .done ∧
      ((store open_ 0x10068 8 status).2.collUpdate 1 o.domain 1 0x10060 8 true fun x => (x.mem.readNat 0x10060 8 + 1) % 2 ^ 64).1 = .done ∧ f.rank ≠ 0 ∧ f.count = 1 ∧
      ((withColl f []).collStore 1 f.domain 0 0x10020 8 5).1 = .done ∧ late.coll? 1 63 = some { o with nextRank := [] } ∧ ({ o with nextRank := [] } : CollSlot).folded = false ∧
      0 + 32000000 ≤ late.gtrOf sDie) := by
  refine ⟨by decide +kernel, ⟨base_mailboxFree, by decide +kernel⟩, ?_, ?_, ?_, ?_, ?_, ?_, ?_⟩ <;> decide +kernel

/-- Functions 0 and 128, and each stage, exchange and session. -/
theorem witness_primroseAnswersRequests :
    let s (x : Spdm) : State := { base with trust := { base.trust with sessions := [(128, x)] } }
    ({ base with mgmt := { base.mgmt with lifecycle := .deployed } } : State).mgmt.lifecycle = .deployed ∧ base.mgmt.main = true ∧ base.mgmt.step = 9 ∧ (128 : Nat) ≤ 128 ∧ (base.spdm 0).stage = 0 ∧ 1 ≤ ((s { stage := 1 }).spdm 128).stage ∧ ((s { stage := 1 }).spdm 128).stage < 2 ∧
      2 ≤ ((s { stage := 2 }).spdm 128).stage ∧ ((s { stage := 2 }).spdm 128).stage < 3 ∧ 3 ≤ ((s { stage := 3, exchanged := true }).spdm 128).stage ∧
      ((s { stage := 3, exchanged := true }).spdm 128).exchanged = true ∧ ((s { stage := 3, inSession := true }).spdm 128).inSession = true ∧ (base.spdm 0).inSession = false ∧
      (base.spdm 0).exchanged = false ∧ (base.blockText 128 5).isSome = true := by decide +kernel

/-- Step 9 and not, BUSY and not; pages 3 and 4; 3,999, 4,000, 7,500 and 7,501 watts; a partition with a record and none; both endings of LIFECYCLE. -/
theorem witness_mailboxCommandsReport :
    let logged : State := { base with parts := [(1, { part1 with aborts := [{ kind := 14 }] })] }
    let busy : State := { base with mgmt := { base.mgmt with busy := true } }
    base.MailboxFree ∧ State.reset.mgmt.main = true ∧ State.reset.mgmt.busy = false ∧ State.reset.mgmt.step ≠ 9 ∧ ({ base with disabled := [131071] } : State).disabled = [131071] ∧
      (131071 : Nat) < 131072 ∧ (3 : Nat) < 4 ∧ base.parts.get 2 = none ∧ (logged.parts.get 1).map Part.aborts = some [{ kind := 14 }] ∧ (4000 : Nat) ≤ 7500 ∧ (3999 : Nat) < 4000 ∧
      (7500 : Nat) < 7501 ∧ base.mgmt.lifecycle.after = lifeCode 1 ∧ base.mgmt.lifecycle.after ≠ lifeCode 0 ∧ busy.mgmt.busy = true ∧ ({ base with agenda := [.i3cRead, .mailboxData 511 7] } : State).agenda = .i3cRead :: [.mailboxData 511 7] ∧ (511 : Nat) < 512 ∧
      (0x00 : BitVec 16).toNat ∉ [0x01, 0x02, 0x03, 0x04, 0x10, 0x11, 0x12, 0x13, 0x14, 0x15, 0x18, 0x19, 0x1A, 0x20, 0x21, 0x28, 0x30, 0x31, 0x38, 0x40, 0x41, 0x7F] :=
  ⟨base_mailboxFree, by decide +kernel⟩

/-- A word at the start and at the end of the scratch, in LM, in the fetch buffer, and one that decodes to nothing; an event, a tick, and Main off. -/
theorem witness_stepRunsTheDecodedInstruction :
    let s : State := { base with agenda := [.issue 0], mem := words [(lmAddr 0 0x400, 0x08000000)] }
    let bytes (s : State) := (List.range 4).map fun i => s.mem.read (lmAddr 0 (0x400 + i))
    let fetched := s.onCore 0 fun k => { k with fetch := [(0x400, 0x08000000)] }
    let off : State := { s with mgmt := { s.mgmt with main := false } }
    (s.mgmt.main = true ∧ s.issueFrom 0 = some 0 ∧ coreOf 0 = 0 ∧ s.homeOf 0 = 0 ∧ placeOf 0 (s.ctx 0).pc = .lm 0 0x400 ∧ s.enabled 0 = true ∧ 0x5FFC < (s.core 0).scratchEnd ∧
      (s.ctx 0).migrated = false ∧ (s.ctx 0).comps = [] ∧ s.isDet (s.ctx 0).partNo = false ∧ s.answersOut 0 = false ∧ (s.core 0).fetch = [] ∧ s.poisoned (lmAddr 0 0x400) 4 = false) ∧
    (decodeBytes (bytes s) = some .nop ∧ (s.ctx 0).blocked .nop = false ∧ decodeBytes (bytes { s with mem := [] }) = none) ∧
    ((fetched.core 0).fetch.find? (fun x => x.1 == 0x400) = some (0x400, 0x08000000) ∧ decodeBytes (bytesOf 4 (0x08000000 : IWord).toNat) = some .nop) ∧
    ((s.ctx 0).due = none ∧ s.scoreboard 0 < 32 ∧ (let x : DueTrap := { cause := .race, addr := 0, val := 0, ret := 0 };
      ((s.onCtx 0 fun c => { c with due := some x }).ctx 0).due = some x ∧ ((s.onCtx 0 fun c => { c with due := some x }).ctx 0).pend = [])) ∧
    ((Instr.homeSweep).isWord = false ∧ off.mgmt.main = false ∧ s.mgmt.slew = 0 ∧ State.reset.mgmt.isobar = false ∧ ({ base with agenda := [.issueLate 0] } : State).agenda = [.issueLate 0] ∧
      (let x : Die := { locked := true, offset := 63, slew := 1 }; -64 ≤ x.offset ∧ x.offset ≤ 64 ∧ x.offset + x.slew ≤ 64)) := by decide +kernel

/-- The first unmapped address, LM below and at a scratch end, of the home core, of a cluster-mate, of another cluster, outside the partition and disabled; memory with every right, without one, and with no entry. -/
theorem witness_accessesAreClassified :
    let s := base.onCore 0 fun k => { k with cacheSize := 1 }
    let t := base.onCore 1 fun k => { k with cacheSize := 1 }
    let away : State := ({ base with ctxs := [(56, thread)], cur := 56 } : State).onCore 7 fun k => { k with cacheSize := 1 }
    let none_ : State := { base with domains := [(1, { part := 1, owner := none, rights := [(0, { page 0x10000 0 with r := false, w := false })] })] }
    base.CanTrap ∧ base.detHere = false ∧ placeOf 0 0x00FE000000006000 = .unmapped ∧ placeOf 0 0x00FF000800000000 = .unmapped ∧
      ({ base with disabled := [1] } : State).enabled 8 = false ∧ (s.core 0).scratchEnd = 0x5000 ∧ placeOf 0 0x00FE000000005000 = .lm 0 0x5000 ∧ (t.core 1).scratchEnd ≤ 0x5000 ∧
      placeOf 0 (BitVec.ofNat 64 (lmAddr 1 0x5000)) = .lm 1 0x5000 ∧ base.inPart 1 1 = true ∧ away.execCore = 7 ∧ away.homeCore = 0 ∧ away.inPart 1 7 = true ∧ away.enabled 7 = true ∧ (away.core 7).scratchEnd ≤ 0x5000 ∧ away.CanTrap ∧ clusterOf 1 = clusterOf base.execCore ∧ base.inPart 1 8 = true ∧
      clusterOf 8 ≠ clusterOf base.execCore ∧ base.inPart 1 65536 = false ∧ base.enabled 65536 = true ∧ (0x00FE000000000404 : Word).toNat % 8 ≠ 0 ∧
      placeOf 0 0x10008 = .memory ∧ base.rightsFor 1 0x10008 = some (page 0x10000 0) ∧ base.rightsFor 1 0x50008 = none ∧
      (none_.rightsFor 1 0x10008).map (fun e => (e.r, e.w)) = some (false, false) ∧ (base.core 0).plb = [] := by
  unfold State.CanTrap; decide +kernel

theorem witness_memoryFormIsKept : base.memWf ∧ ∃ t, Steps { base with agenda := [.tick 1] } t := ⟨rfl, _, rfl⟩

theorem witness_encodingsRoundTrip : (Instr.add 31 31 31).isWord = true ∧ (Instr.add 31 31 31).wf = true ∧ decode 0x03FFF800 = some (.add 31 31 31) := by decide +kernel

theorem witness_programsCannotTouchWhatStewardsKeep : ∃ t, exec .nop base = .next t := ⟨_, rfl⟩

/-! ### The manual's worked cases, one step each -/

/-- The state after an instruction. -/
def after (i : Instr) (s : State) : State :=
  match exec i s with
  | .next t => t
  | _ => s

/-- `onWCore` with two g registers set. -/
def wWith (x y : Word) : State := (onWCore.wrG 2 x).wrG 3 y

/-- R71 and R72's table of cases. -/
theorem test_mulh : ((after (.mulh 1 2 3) (wWith 0xFFFFFFFFFFFFFFFF 0xFFFFFFFFFFFFFFFF)).rdG 1) = 0 := by decide +kernel
theorem test_mulhu : ((after (.mulhu 1 2 3) (wWith 0xFFFFFFFFFFFFFFFF 0xFFFFFFFFFFFFFFFF)).rdG 1) = 0xFFFFFFFFFFFFFFFE := by decide +kernel
theorem test_div : ((after (.div 1 2 3) (wWith 0xFFFFFFFFFFFFFFF9 2)).rdG 1) = 0xFFFFFFFFFFFFFFFD := by decide +kernel
theorem test_rem : ((after (.rem 1 2 3) (wWith 0xFFFFFFFFFFFFFFF9 2)).rdG 1) = 0xFFFFFFFFFFFFFFFF := by decide +kernel
theorem test_divu : ((after (.divu 1 2 3) (wWith 0xFFFFFFFFFFFFFFF9 2)).rdG 1) = 0x7FFFFFFFFFFFFFFC := by decide +kernel
theorem test_remu : ((after (.remu 1 2 3) (wWith 0xFFFFFFFFFFFFFFF9 2)).rdG 1) = 1 := by decide +kernel
theorem test_div_overflow : ((after (.div 1 2 3) (wWith 0x8000000000000000 0xFFFFFFFFFFFFFFFF)).rdG 1) = 0x8000000000000000 := by decide +kernel
theorem test_rem_overflow : ((after (.rem 1 2 3) (wWith 0x8000000000000000 0xFFFFFFFFFFFFFFFF)).rdG 1) = 0 := by decide +kernel
theorem test_sra_masks : ((after (.sra 1 2 3) (wWith 0x8000000000000000 127)).rdG 1) = 0xFFFFFFFFFFFFFFFF := by decide +kernel
theorem test_clz_zero : ((after (.clz 1 0) base).rdG 1) = 64 := by decide +kernel

/-- R92: `trap 3` at 0x450 with TRAPVEC 0x800, and the ERET of its trap code. -/
theorem test_trap :
    let t := after (.trap 3) (hereAs fun c => { c with pc := 0x00FE000000000450 })
    (t.here.pc, t.here.cr.trappc, t.here.cr.trapcause, t.here.cr.trapval) = (0x00FE000000000800, 0x00FE000000000454, 0x10E, 3) := by decide +kernel
theorem test_eret :
    let t := after .eret (hereAs fun c => c.onCr fun r => { r with trappc := 0x00FE000000000454, trapcause := 0x10E, trapval := 3 })
    (t.here.pc, t.here.cr.trapcause, t.here.cr.trapval) = (0x00FE000000000454, 0x00E, 3) := by decide +kernel

/-- R127: with the default tick, LF is GTR[50:11]. -/
theorem test_drift_tick : ({ base with gtr := 2048 * 990 + 2047 } : State).lf 1 16 = 990 := by decide +kernel

/-- R125's lease sequence, steps 2 and 5. -/
theorem test_lease_step :
    let at_ (lf : Nat) : State := { base with gtr := 2048 * lf }
    ((at_ 992).grant 16 1 0 false true 1002 { wts := 1000, rts := 1000 }).sec.rts = 1010 ∧
      ((at_ 998).grant 16 1 0 false true 1030 { wts := 1000, rts := 1028, level := 2 }).sec.rts = 1062 := by decide +kernel

/-- R133's window across the wrap of stamps. -/
theorem test_later_wraps : later 0x10 0xFFFFFFFF00 = true ∧ later 0xFFFFFFFF00 0x10 = false ∧ (0xFFFFFFFF00 : Stamp) + 4294967296 = 0xFFFFFF00 := by decide +kernel

/-- R137's worked path: 270 routers by either order, from (165, 140) to (24, 12). -/
theorem test_path :
    let core := 9 * 65536 + 37 * 512 + 12 * 8
    (routerX core, routerY core) = (165, 140) ∧ (elevatorX 9, elevatorY 9) = (24, 12) ∧ (requestPath 0 core 9).length = 270 ∧ (requestPath 1 core 9).length = 270 ∧
      (requestPath 0 core 9).getD 141 (0, 0) = (24, 140) ∧ (requestPath 1 core 9).getD 128 (0, 0) = (165, 12) := by decide +kernel

/-- R163: an SDE fills the empty word, and an LDFE takes it and empties it. -/
theorem test_sde : let s : State := { base with emptied := [lmAddr 0 0x408] }
    let t := after (.sde 7 6 0 0) s
    (t.full (lmAddr 0 0x408), t.mem.readNat (lmAddr 0 0x408) 8) = (true, 5) := by decide +kernel
theorem test_ldfe : let s : State := { base with mem := words [(lmAddr 0 0x408, 41)] }
    let t := after (.ldfe 8 6 0 0) s
    (t.rdG 8, t.full (lmAddr 0 0x408)) = (41, false) := by decide +kernel

/-- R172's ring: 4 slots of 16 bytes at 0x800. -/
def ringOf (w : Word) : State := base.onCore 0 fun k => { k with rings := [(1, w)] }
theorem test_rwait_waits : (after (.rwait 7 0 1 2) (ringOf 0x12000800)).here.st = .waiting := by decide +kernel
theorem test_rst : ((after (.rst 2 1 1 1 0 0) ((ringOf 0x0002000212000800).wrV 2 9)).mem.readNat (lmAddr 0 0x820) 16) = 9 := by decide +kernel
theorem test_radvt : let t := after (.radvt 5 0 1 2) (ringOf 0x12000800)
    (t.rdG 5, (t.core 0).ring 1) = (2, 0x0002000012000800) := by decide +kernel
theorem test_rld : ((after (.rld 4 0 1 1 1 0) { ringOf 0x0002000012000800 with mem := words [(lmAddr 0 0x810, 77)] }).rdV 4) = 77 := by decide +kernel
theorem test_radvh : ((after (.radvh 6 0 1 2) (ringOf 0x0002000012000800)).core 0).ring 1 = 0x0002000212000800 := by decide +kernel
theorem test_rwait_over_slots : (after (.rwait 7 0 1 5) (ringOf 0x12000800)).here.cr.trapcause = 0x10A := by decide +kernel

/-- R175's pair: an AADD of 3 on 10 with rts 500 makes 13 at stamp 501, and the ACAS then writes nothing. -/
theorem test_homeAtomic :
    let q : AtomReq := { atomic0 with b := 3, l := 480 }
    let s : State := { carrying (.atomic q) with mem := words [(0x10008, 10)], net := { (carrying (.atomic q)).net with
      recs := [{ line := 0x10000, part := 1, slice := 0, sectors := [(0, { wts := 500, rts := 500 })] }] } }
    let t := after (.homeAtomic 0) s
    (t.mem.readNat 0x10008 8, (t.sector 0 1 0x10008).wts) = (13, 501) := by decide +kernel
theorem test_acas_fails : amoStep 9 8 13 99 10 = none := by decide +kernel

/-- R206's group: A's BAR, C's JOIN, B's BAR, C's BAR. -/
theorem test_group :
    groupStep .bar 0x0007000000000002 = some 0x0007000001000002 ∧ groupStep (.join 2) 0x0007000001000002 = some 0x0007000002000003 ∧
      groupStep .bar 0x0007000002000003 = some 0x0008000000000003 ∧ groupStep .bar 0x0008000000000003 = some 0x0008000001000003 := by decide +kernel

/-- R210: returning GAMOs of 7, 1 and 5 on 100. -/
theorem test_gamo :
    let x (ctx : Nat) (add : Word) : GamoPart := { ctx := ctx, uid := 1, d := 5, add := add, l := 0, launch := some 0 }
    let q : AtomReq := { atomic0 with op := .gamo, parts := [x 17 5, x 3 7, x 16 1] }
    let s : State := { carrying (.atomicResult q (.done 100 113 (some 1))) with ctxs := [(3, thread), (16, thread), (17, thread)] }
    let t := after (.atomicResult 0) s
    ((t.ctx 3).rdG 5, (t.ctx 16).rdG 5, (t.ctx 17).rdG 5) = (100, 107, 108) := by decide +kernel

/-- R245's overflow: FEXP.s of 89.0. -/
theorem test_fexp_overflows : fpExp .f32 .rne 0x42B20000 = some (0x7F800000, 5) ∧ fpExp .f32 .rtz 0x42B20000 = some (0x7F7FFFFF, 5) := by decide +kernel

/-- R257's tree over 1.0, 2^24, 1.0 and -2^24. -/
theorem test_vfred_sum :
    let s := hereAs fun c => c.wrV 4 0xCB8000003F8000004B8000003F800000
    let u := s.onHere fun c => c.onCr fun r => { r with frm := 3 }
    (after (.vfredSum 2 4 0 1 1) s).rdF 2 = 0xFFFFFFFF3F800000 ∧ (after (.vfredSum 2 4 0 0 1) u).here.cr.fflags = 1 := by decide +kernel

/-- R259's fold. -/
theorem test_collective_fold :
    fpAdd .f32 .rne 0x7F800000 0xFF800000 = (0x7FC00000, 16) ∧ fpAdd .f32 .rne 0x7FC00000 0x7FC01234 = (0x7FC00000, 0) ∧
      fpAdd .f32 .rne 0x7FC00000 0x7F800001 = (0x7FC00000, 16) ∧ fpAdd .f32 .rne 0x7FC01234 0x7F800000 = (0x7FC01234, 0) := by decide +kernel

/-- R265: `vadds.h` and `vaddus.h` with k1 = 7. -/
def saturating : State := hereAs fun c => ((c.wrV 3 0x000580007FF0).wrV 4 0xFFFEFFFF0020).wrK 1 7
theorem test_vadds : ((after (.vadds 2 3 4 1 1) saturating).rdV 2) = 0x000380007FFF := by decide +kernel
theorem test_vaddus : ((after (.vaddus 2 3 4 1 1) saturating).rdV 2).toNat % 2 ^ 32 = 0xFFFF8010 := by decide +kernel

/-- R267: lane 0 of VDOT.b. -/
theorem test_vdot : ((after (.vdot 2 3 4 0 0) (hereAs fun c => ((c.wrV 2 100).wrV 3 0x04030201).wrV 4 0xF807FA05)).rdV 2) = 82 := by decide +kernel

/-- R273: the CRC-32C of 32 zero bytes. -/
theorem test_vcrc :
    let s := onWCore.wrG 5 0xFFFFFFFF
    ((after (.vcrc 5 5 1) (after (.vcrc 5 5 1) s)).rdG 5) ^^^ 0xFFFFFFFF = 0x8A9136AA := by decide +kernel

/-- R274: `vcvt.e4m3.f32` of 1.0, 300.0, 500.0 and a NaN. -/
theorem test_vcvt :
    let t := after (.vcvt 1 2 1 0 0 4) (hereAs fun c => c.wrV 2 0x7FC0000043FA0000439600003F800000)
    (t.rdV 1, t.here.cr.fflags) = (0x7F7E7938, 5) := by decide +kernel

/-- R255's blocks, and R296's MST of 2^24 with scales 0.5 and 3.0. -/
theorem test_mst_f32 : (mstValue (.float .f32) 0x404000003F000000 1 0x4B800000).1 = 0x4BC00000 := by decide +kernel
theorem test_mst_bf16 : (mstValue (.float .bf16) 0x404000003F000000 1 0x4B800000).1 = 0x4BC0 := by decide +kernel

/-- R250's worked block of EX8: its first four elements. -/
theorem test_ex8_block :
    let bs : List Byte := [0x5C, 0xC0, 0x20, 0, 0, 0, 0, 0, 0, 0, 0, 0, 0, 0, 0, 0, 0, 0x89, 0xA0, 0, 0, 0, 0, 0, 0, 0]
    (ex8Block bs).map (fun x => (x.1.take 5, x.2)) = some ([0x40, 0xB4, 0x38, 0x4A, 0x38], 26) := by decide +kernel

/-- R310's homes. -/
theorem test_home :
    let q : Part := { part1 with qw := 4, regions := [(0, { base := 0x10000000000, log2size := 40, hash := 1, gran := 1, tiles := 3 })] }
    let s : State := { base with parts := [(1, q)] }
    s.homeSlice 1 0x10000123456 = some 35 ∧ s.homeSlice 1 0x10800123000 = some 33 := by decide +kernel

/-- R321's division of 5,000 W, per quadrant, in microwatts. -/
theorem test_energy_shares :
    let q (x y w h n : Nat) : Part := { part1 with qx0 := x, qy0 := y, qw := w, qh := h, weight := n }
    let s : State := { base with parts := [(0, q 0 0 8 4 3), (1, q 0 4 4 4 1), (2, q 4 4 4 2 1)], gtr := 16000, mgmt := { base.mgmt with capNext := 5000 } }
    let t := after (.isobarEstimate []) s
    ((t.energy.getD 0 {}).target, (t.energy.getD (8 * 16 + 1) {}).target, (t.energy.getD (10 * 16 + 2) {}).target) = (4 * 83125000, 4 * 73125000, 4 * 93125000) := by decide +kernel

/-! ### Fetching and running the words of the opcode table -/

/-- R42: the table's word of ADD, decoded, and the zero word. -/
theorem test_decodeTableWord : decodeTableWord 32 0x00642800 = some (.add 3 4 5) ∧ decodeTableWord 32 0 = none := by decide +kernel

/-- The first step after reset with a word placed runs it (log 6). -/
theorem test_withFetchWord_runs : ∃ t, step (State.reset.withFetchWord 32 0x00642800) = .next t ∧ (t.ctx t.cur).pc = 0x00FE000000000404 := ⟨_, rfl, by decide +kernel⟩

/-! ### Soft errors (R356, R357; log 56) -/

/-- An uncorrectable error of an LM word poisons it, and a corrected one counts an error of its die. -/
theorem test_upset :
    let s (c : Bool) : State := { base with agenda := [.upset (.lmWord 0 0x404) c] }
    (∃ t, step (s false) = .next t ∧ t.poisoned (lmAddr 0 0x400) 8 = true ∧ t.agenda = []) ∧
      (∃ t, step (s true) = .next t ∧ t.poison = base.poison ∧ (t.die 0).errors = (base.die 0).errors + 1) :=
  ⟨⟨_, rfl, by decide +kernel, rfl⟩, _, rfl, by decide +kernel, by decide +kernel⟩

/-- Parity of a register file stops the thread with MCHECK, and an error of a memory word poisons it. -/
theorem test_upset_context :
    (∃ t, step { base with agenda := [.upset (.registers 0) false] } = .next t ∧ (t.ctx 0).st = .stopped) ∧
      (∃ t, step { base with agenda := [.upset (.hbmWord 1 0x10008) false] } = .next t ∧ t.poisoned 0x10008 8 = true) :=
  ⟨⟨_, rfl, by decide +kernel⟩, _, rfl, by decide +kernel⟩

/-- R352 to R354: where a saved core's context, its wait, an outstanding load and a byte of its LM stand in its area. -/
theorem test_save_image :
    let c : Ctx := { thread with st := .waiting, wait := .cwait 0x10008 3 9 }
    let x : SavedCore := { part := 1, source := 5, core := {}, ctxs := [c], lm := [(0x401, 7)], empty := [], poison := [], gtr := 9,
                           replay := [{ flight (.load { load0 with c := 77 }) with word := 0x08000000, seq := 3 }] }
    (x.word 0x28, x.word 0x490, (x.word 0x498).toNat % 256, x.word 0x4A0, x.word 0x4A8) = (9, 0x00FE000000000400, 0x42, 0x10008, 3) ∧
      (x.word 0x2C80, x.word 0x2C88, x.word 0x2C90, x.word 0x2C98) = (0x50301, 0x08000000, 0x10008, 77) ∧ x.word 0x3800 = 0x700 := by decide +kernel

/-- An SPDM request that the table does not list is answered with UnsupportedRequest (R328); the function and the agenda meet the premises of both statements. -/
theorem test_other_request :
    ({ base with agenda := [.otherRequest 0] } : State).agenda = [.otherRequest 0] ∧ base.mgmt.main = true ∧
      ∃ t, step { base with agenda := [.otherRequest 0] } = .next t ∧ (t.spdm 0).answers = [.error true] ∧ t.agenda = [] :=
  ⟨rfl, rfl, _, rfl, rfl, rfl⟩

end Sys2Proof.Tests
end

/-!
PROOFS. Commands of the mailbox (R373, R374): what a GO does while BUSY, before step 9 and at step 9, what each report puts into MBDATA, and `MailboxCommandsReport`.
-/
namespace Sys2Proof.Machine

/-! ### What an event completes with -/

/-- An event whose meaning is a choice completes with its first branch where the condition holds. -/
theorem Completes.of_if {i : Instr} {s t u : State} {P : State → Prop} {c : Prop} [Decidable c]
    (he : exec i s = .next (if c then t else u)) (hc : c) (hP : P t) : Completes i s P :=
  ⟨t, he.trans (congrArg _ (if_pos hc)), hP⟩

/-- And with its second branch where the condition fails. -/
theorem Completes.of_if_not {i : Instr} {s t u : State} {P : State → Prop} {c : Prop} [Decidable c]
    (he : exec i s = .next (if c then t else u)) (hc : ¬c) (hP : P u) : Completes i s P :=
  ⟨u, he.trans (congrArg _ (if_neg hc)), hP⟩

/-! ### A GO with a command (R373) -/

/-- The input of a command stands in MBDATA. -/
def State.withInput (s : State) (input : List Word) : State := { s with mgmt := s.mgmt.put input }

theorem State.command_busy {s : State} (h : s.mgmt.busy = true) (always : Bool) (input : List Word) (run : State → State) :
    s.command always input run = s :=
  if_pos (by simp [h])

theorem State.command_runs {s : State} (hm : s.mgmt.main = true) (hb : s.mgmt.busy = false) {always : Bool}
    (h : always = true ∨ s.mgmt.step = 9) (input : List Word) (run : State → State) :
    s.command always input run = run (s.withInput input) :=
  (if_neg (by simp [hm, hb])).trans (if_neg (by rcases h with h | h <;> simp [Mgmt.put, h]))

theorem State.command_early {s : State} (hm : s.mgmt.main = true) (hb : s.mgmt.busy = false) (h9 : s.mgmt.step ≠ 9)
    (input : List Word) (run : State → State) : s.command false input run = (s.withInput input).mbEnd 2 [] :=
  (if_neg (by simp [hm, hb])).trans (if_pos (by simpa [Mgmt.put] using h9))

/-- A command that has ended reports its code and its output (R373). -/
theorem State.reports_mbEnd (s : State) (code : BitVec 7) (out : List Word) : (s.mbEnd code out).Reports code out :=
  ⟨rfl, rfl, rfl, List.take_left⟩

/-- Nothing has changed but what management holds. -/
def OnlyMgmt (s t : State) : Prop := { t with mgmt := s.mgmt } = s

@[simp] theorem State.lifecycle_withInput (s : State) (input : List Word) : (s.withInput input).mgmt.lifecycle = s.mgmt.lifecycle := rfl

theorem OnlyMgmt.withInput (s : State) (input : List Word) : OnlyMgmt s (s.withInput input) := rfl

theorem OnlyMgmt.set {s t : State} (h : OnlyMgmt s t) (m : Mgmt) : OnlyMgmt s { t with mgmt := m } := h

/-- A command that has changed only what management holds, and then ends. -/
theorem OnlyMgmt.ends {s t : State} (h : OnlyMgmt s t) (code : BitVec 7) (out : List Word) :
    OnlyMgmt s (t.mbEnd code out) ∧ (t.mbEnd code out).Reports code out := ⟨h.set _, t.reports_mbEnd code out⟩

section
variable {i : Instr} {s u : State} {always : Bool} {input : List Word} {run : State → State} {P : State → Prop}

/-- While BUSY a GO changes nothing. -/
theorem Completes.command_busy (he : exec i s = .next (s.command always input run)) (hb : s.mgmt.busy = true) : Completes i s fun t => t = s :=
  ⟨s, he.trans (congrArg _ (State.command_busy hb always input run)), rfl⟩

/-- Before step 9 a GO ends with CODE 2. -/
theorem Completes.command_early (he : exec i s = .next (s.command false input run)) (hm : s.mgmt.main = true) (hb : s.mgmt.busy = false)
    (h9 : s.mgmt.step ≠ 9) : Completes i s fun t => t = (s.withInput input).mbEnd 2 [] :=
  ⟨_, he.trans (congrArg _ (State.command_early hm hb h9 input run)), rfl⟩

/-- A command that is carried out at any step. -/
theorem Completes.command_always (he : exec i s = .next (s.command true input run)) (hm : s.mgmt.main = true) (hb : s.mgmt.busy = false)
    (hr : run (s.withInput input) = u) (hP : P u) : Completes i s P :=
  ⟨u, he.trans (congrArg _ ((State.command_runs hm hb (.inl rfl) input run).trans hr)), hP⟩

/-- A command that is carried out at step 9. -/
theorem Completes.command_free (he : exec i s = .next (s.command false input run)) (hf : s.MailboxFree)
    (hr : run (s.withInput input) = u) (hP : P u) : Completes i s P :=
  let ⟨hm, hb, h9⟩ := hf
  ⟨u, he.trans (congrArg _ ((State.command_runs hm hb (.inr h9) input run).trans hr)), hP⟩

end

/-- What an event completes with, weakened. -/
theorem Completes.imp {i : Instr} {s : State} {P Q : State → Prop} (h : Completes i s P) (hPQ : ∀ t, P t → Q t) : Completes i s Q :=
  let ⟨t, ht, hP⟩ := h
  ⟨t, ht, hPQ t hP⟩

/-! ### Reports (R374) -/

/-- The one disabled cluster c is the one bit of the disable map that word n holds, or the word is 0. -/
theorem disableWord_of_single (c n : Nat) :
    mbWord ((([c].map disableBit).filter fun b => b / 64 == n).map fun b => 2 ^ (b % 64)).sum =
      if n = disableBit c / 64 then BitVec.ofNat 64 (2 ^ (disableBit c % 64)) else 0 := by
  by_cases h : n = disableBit c / 64
  · simp [h, mbWord]
  · simp [h, Ne.symm h, mbWord]

/-- The words of the abort log that fit into MBDATA (R347, R374). -/
def abortLog (l : List AbortRec) : List Word := (l.flatMap AbortRec.words ++ List.replicate 512 0).take 512

theorem abortLog_length (l : List AbortRec) : (abortLog l).length = 512 := by
  simp only [abortLog, List.length_take, List.length_append, List.length_replicate]; omega

/-- The abort log begins with the six words of its newest record. -/
theorem abortLog_take_six (r : AbortRec) (l : List AbortRec) :
    (abortLog (r :: l)).take 6 =
      [BitVec.ofNat 64 (r.kind * 2 ^ 24 + (if r.noLaunch then 256 else 0) + r.slot), r.tid, r.pc, r.addr, r.val, BitVec.ofNat 64 r.gtr] := rfl

/-! ### A word of MBDATA written by management (R373) -/

/-- A list of words with word i replaced; it reaches at least to there. -/
def putWord (l : List Word) (i : Nat) (v : Word) : List Word :=
  l.take i ++ List.replicate (i - l.length) 0 ++ [v] ++ l.drop (i + 1)

theorem State.mailboxData_eq {s : State} (hm : s.mgmt.main = true) {i : Nat} (hi : i < 512) (v : Word) :
    s.mailboxData i v = { s with mgmt := { s.mgmt with mbdata := putWord s.mgmt.mbdata i v } } := by
  simp [State.mailboxData, putWord, hm, hi]

/-- Word i reads as it was put, and every other word as before. -/
theorem getD_putWord (l : List Word) (i : Nat) (v : Word) (k : Nat) :
    (putWord l i v).getD k 0 = if k = i then v else l.getD k 0 := by
  have hlen : (l.take i ++ List.replicate (i - l.length) (0 : Word)).length = i := by simp; omega
  have e : putWord l i v = (l.take i ++ List.replicate (i - l.length) (0 : Word)) ++ v :: l.drop (i + 1) := by simp [putWord]
  rw [e]
  rcases Nat.lt_trichotomy k i with h | rfl | h
  · rw [List.getD_append _ _ _ _ (by omega), if_neg h.ne]
    by_cases hk : k < l.length
    · rw [List.getD_append _ _ _ _ (by simp; omega)]
      simp [h]
    · rw [List.getD_append_right _ _ _ _ (by simp; omega)]
      simp [Nat.le_of_not_lt hk]
  · rw [List.getD_append_right _ _ _ _ hlen.le, hlen]
    simp
  · obtain ⟨n, rfl⟩ := Nat.exists_eq_add_of_lt h
    rw [List.getD_append_right _ _ _ _ (by omega), hlen, if_neg h.ne']
    simp [Nat.add_assoc, Nat.add_comm, Nat.add_left_comm]

theorem step_mailboxData {s : State} {i : Nat} {v : Word} {rest : List Move} (h : s.agenda = .mailboxData i v :: rest) (hm : s.mgmt.main = true)
    (hi : i < 512) : step s = .next { s with agenda := rest, mgmt := { s.mgmt with mbdata := putWord s.mgmt.mbdata i v } } := by
  simp only [step, h]
  exact congrArg _ (State.mailboxData_eq (s := { s with agenda := rest }) hm hi v)

/-! ### The commands, one by one -/

/-- What GET_STATUS and a read over I3C show (R374, R375). -/
theorem State.status_eq (s : State) : s.status =
    [BitVec.ofNat 64 (s.mgmt.detail.toNat * 65536 + s.mgmt.error.toNat * 256 + s.mgmt.step.toNat), BitVec.ofNat 64 s.mgmt.capNext,
      BitVec.ofNat 64 s.mgmt.powerEstimate] ++ (List.range 256).map fun k => BitVec.ofNat 64 (s.sensorOn (k / 16) (k % 16)) := rfl

theorem exec_setCap_mailbox (w : Nat) (s : State) : exec (.setCap w false) s =
    .next (s.command false [mbWord w] fun s => if capAllowed w then (s.setCap w).mbEnd 0 [] else s.mbEnd 1 []) := rfl

theorem exec_setCap_i3c (w : Nat) (s : State) : exec (.setCap w true) s = .next (if capAllowed w then s.setCap w else s) := rfl

theorem capAllowed_iff (w : Nat) : capAllowed w = true ↔ 4000 ≤ w ∧ w ≤ 7500 := by simp [capAllowed]

theorem not_capAllowed_iff (w : Nat) : ¬capAllowed w = true ↔ w < 4000 ∨ 7500 < w := by rw [capAllowed_iff]; omega

section
variable {s : State}

theorem completes_getStatus (hm : s.mgmt.main = true) (hb : s.mgmt.busy = false) :
    Completes .getStatus s fun t => OnlyMgmt s t ∧ t.Reports 0 s.status :=
  .command_always rfl hm hb rfl ((OnlyMgmt.withInput s []).ends ..)

theorem completes_readErrors (hm : s.mgmt.main = true) (hb : s.mgmt.busy = false) :
    Completes .readErrors s fun t => OnlyMgmt s t ∧ t.Reports 0 ((List.range 65).map fun d => mbWord (s.die d).errors) :=
  .command_always rfl hm hb rfl ((OnlyMgmt.withInput s []).ends ..)

end

section
variable {s : State} (hf : s.MailboxFree)
include hf

theorem completes_getClocks :
    Completes .getClocks s fun t => OnlyMgmt s t ∧ t.Reports 0 ((List.range 16).map fun d => mbWord (s.die d).step) :=
  .command_free rfl hf rfl ((OnlyMgmt.withInput s []).ends ..)

/-- READ_DISABLE_MAP of a page, with one cluster disabled. -/
theorem completes_readDisableMap {page c : Nat} (hc : s.disabled = [c]) (hp : page < 4) :
    Completes (.readDisableMap page) s fun t => OnlyMgmt s t ∧ t.Reports 0 ((List.range 512).map fun w =>
      if page * 512 + w = disableBit c / 64 then BitVec.ofNat 64 (2 ^ (disableBit c % 64)) else 0) := by
  have hd : (s.withInput [mbWord page]).disabled = [c] := hc
  refine .command_free rfl hf (if_neg hp.not_ge) ?_
  simp only [hd, disableWord_of_single]
  exact (OnlyMgmt.withInput s _).ends ..

theorem completes_readDisableMap_outside {page : Nat} (hp : 4 ≤ page) :
    Completes (.readDisableMap page) s fun t => OnlyMgmt s t ∧ t.Reports 4 [] :=
  .command_free rfl hf (if_pos hp) ((OnlyMgmt.withInput s _).ends ..)

/-- READ_ABORT_LOG of a partition (R347, R374). -/
theorem completes_readAbortLog {p : Nat} {q : Part} (hq : s.parts.get p = some q) :
    Completes (.readAbortLog p) s fun t => OnlyMgmt s t ∧ t.Reports 0 (abortLog q.aborts) := by
  have hd : (s.withInput [mbWord p]).parts.get p = some q := hq
  refine .command_free rfl hf (u := (s.withInput [mbWord p]).mbEnd 0 (abortLog q.aborts)) ?_ ((OnlyMgmt.withInput s _).ends ..)
  simp only [hd, abortLog]

/-- READ_ABORT_LOG of a partition with a record begins with the newest. -/
theorem completes_readAbortLog_newest {p : Nat} {q : Part} {r : AbortRec} {rest : List AbortRec} (hq : s.parts.get p = some q) (hr : q.aborts = r :: rest) :
    Completes (.readAbortLog p) s fun t => OnlyMgmt s t ∧ t.mgmt.busy = false ∧ t.mgmt.code = 0 ∧ t.mgmt.length = 4096 ∧
      t.mgmt.mbdata.take 6 = [BitVec.ofNat 64 (r.kind * 2 ^ 24 + (if r.noLaunch then 256 else 0) + r.slot), r.tid, r.pc, r.addr, r.val, BitVec.ofNat 64 r.gtr] := by
  refine (completes_readAbortLog hf hq).imp fun t ⟨hs, hb, hc, hl, hd⟩ => ⟨hs, hb, hc, ?_, ?_⟩
  · rw [hl, abortLog_length]; rfl
  · rw [hr] at hd
    rw [← abortLog_take_six r rest, ← hd, List.take_take, abortLog_length]; rfl

theorem completes_readAbortLog_none {p : Nat} (hq : s.parts.get p = none) :
    Completes (.readAbortLog p) s fun t => OnlyMgmt s t ∧ t.Reports 1 [] := by
  have hd : (s.withInput [mbWord p]).parts.get p = none := hq
  refine .command_free rfl hf (u := (s.withInput [mbWord p]).mbEnd 1 []) ?_ ((OnlyMgmt.withInput s _).ends ..)
  simp only [hd]

theorem completes_setCap {w : Nat} (h : capAllowed w = true) :
    Completes (.setCap w false) s fun t => OnlyMgmt s t ∧ t.Reports 0 [] ∧ t.mgmt.capNext = w ∧ t.mgmt.cap = s.mgmt.cap :=
  .command_free (exec_setCap_mailbox w s) hf (if_pos h) ⟨(OnlyMgmt.withInput s [mbWord w]).set _, State.reports_mbEnd .., rfl, rfl⟩

theorem completes_setCap_refused {w : Nat} (h : ¬capAllowed w = true) :
    Completes (.setCap w false) s fun t => OnlyMgmt s t ∧ t.Reports 1 [] ∧ t.mgmt.capNext = s.mgmt.capNext :=
  .command_free (exec_setCap_mailbox w s) hf (if_neg h) ⟨(OnlyMgmt.withInput s _).set _, State.reports_mbEnd .., rfl⟩

/-- A valid request for the next state starts the wipe and stays BUSY (R326). -/
theorem completes_lifecycle {target : BitVec 2} (key : BitVec 512) (h : s.mgmt.lifecycle.after = lifeCode target) :
    Completes (.lifecycle target true key) s fun t => OnlyMgmt s t ∧ t.mgmt.busy = true ∧ t.mgmt.nextLife = some (lifeCode target, key) ∧
      t.mgmt.wipePending = true ∧ t.mgmt.lifecycle = s.mgmt.lifecycle :=
  .command_free rfl hf (if_pos (by simpa using h)) ⟨(OnlyMgmt.withInput s _).set _, rfl, rfl, rfl, rfl⟩

theorem completes_lifecycle_refused {target : BitVec 2} {signed : Bool} (key : BitVec 512) (h : signed = false ∨ s.mgmt.lifecycle.after ≠ lifeCode target) :
    Completes (.lifecycle target signed key) s fun t => OnlyMgmt s t ∧ t.Reports 1 [] ∧ t.mgmt.nextLife = s.mgmt.nextLife :=
  .command_free rfl hf (if_neg (by simpa [imp_iff_not_or] using h)) ⟨(OnlyMgmt.withInput s _).set _, State.reports_mbEnd .., rfl⟩

theorem completes_raiseCounter : Completes (.raiseCounter true) s fun t =>
    OnlyMgmt s t ∧ t.Reports 0 [] ∧ t.mgmt.minVersion = Nat.max s.mgmt.minVersion s.mgmt.fwVersion :=
  .command_free rfl hf (if_pos rfl) ⟨(OnlyMgmt.withInput s [signedWord true]).set _, State.reports_mbEnd .., rfl⟩

theorem completes_raiseCounter_refused : Completes (.raiseCounter false) s fun t =>
    OnlyMgmt s t ∧ t.Reports 1 [] ∧ t.mgmt.minVersion = s.mgmt.minVersion :=
  .command_free rfl hf (if_neg Bool.false_ne_true) ⟨(OnlyMgmt.withInput s _).set _, State.reports_mbEnd .., rfl⟩

theorem completes_unknownOpcode {op : BitVec 16}
    (h : op.toNat ∉ [0x01, 0x02, 0x03, 0x04, 0x10, 0x11, 0x12, 0x13, 0x14, 0x15, 0x18, 0x19, 0x1A, 0x20, 0x21, 0x28, 0x30, 0x31, 0x38, 0x40, 0x41, 0x7F]) :
    Completes (.unknownOpcode op) s fun t => OnlyMgmt s t ∧ t.Reports 3 [] :=
  .command_free (congrArg _ (if_neg (mt List.contains_iff_mem.mp h))) hf rfl ((OnlyMgmt.withInput s []).ends ..)

end

/-- An opcode outside the table while BUSY; one of the table is no UNKNOWN_OPCODE (log 4). -/
theorem completes_unknownOpcode_busy {s : State} (hb : s.mgmt.busy = true) (op : BitVec 16) : Completes (.unknownOpcode op) s fun t => t = s :=
  ⟨_, rfl, ite_eq_left_iff.mpr fun _ => State.command_busy hb ..⟩

/-- Settles O53: each command is what a GO with its input runs (`Completes.command_free` and its kin), and ends with a report (`OnlyMgmt.ends`). -/
theorem mailboxCommandsReport : Obligations.MailboxCommandsReport := by
  unfold Obligations.MailboxCommandsReport
  refine ⟨?anyStep, ?step9, ?i3c, ?moves, ?busy⟩
  case anyStep =>
    intro s hm hb
    refine ⟨completes_getStatus hm hb, completes_readErrors hm hb, fun h9 => ?early⟩
    exact ⟨(Completes.command_early rfl hm hb h9).imp (by rintro _ rfl; exact (OnlyMgmt.withInput s _).ends ..),
      fun w => (Completes.command_early (exec_setCap_mailbox w s) hm hb h9).imp (by rintro _ rfl; exact ⟨State.reports_mbEnd .., rfl⟩),
      fun p => (Completes.command_early rfl hm hb h9).imp (by rintro _ rfl; exact (OnlyMgmt.withInput s _).ends ..)⟩
  case step9 =>
    intro s hf
    exact ⟨completes_getClocks hf, fun page c hc _ hp => completes_readDisableMap hf hc hp, fun page hp => completes_readDisableMap_outside hf hp,
      fun p hp => completes_readAbortLog_none hf hp, fun p q r rest hq hr => completes_readAbortLog_newest hf hq hr,
      fun w h1 h2 => completes_setCap hf ((capAllowed_iff w).mpr ⟨h1, h2⟩), fun w h => completes_setCap_refused hf ((not_capAllowed_iff w).mpr h),
      fun target key h => completes_lifecycle hf key h, fun target signed key h => completes_lifecycle_refused hf key h,
      completes_raiseCounter hf, completes_raiseCounter_refused hf, fun op h => completes_unknownOpcode hf h⟩
  case i3c =>
    intro s w
    exact ⟨fun h1 h2 => .of_if (exec_setCap_i3c w s) ((capAllowed_iff w).mpr ⟨h1, h2⟩) rfl, fun h => .of_if_not (exec_setCap_i3c w s) ((not_capAllowed_iff w).mpr h) rfl⟩
  case moves =>
    intro s rest
    refine ⟨fun h => ?read, fun i v h hm hi => ?write⟩
    case read => simp only [step, h]; rfl
    case write => exact ⟨_, step_mailboxData h hm hi, (getD_putWord ..).trans (if_pos rfl), fun k hk => (getD_putWord ..).trans (if_neg hk), rfl⟩
  case busy =>
    intro s hb
    exact ⟨.command_busy rfl hb, .command_busy rfl hb, .command_busy rfl hb, fun w => .command_busy (exec_setCap_mailbox w s) hb,
      completes_unknownOpcode_busy hb⟩

end Sys2Proof.Machine

/-!
PROOFS. Losing Main, what begins again from step 1, and the steps of bring-up (R368, R370, R372): `LosingMainAndComingUp`.
-/
namespace Sys2Proof.Machine

/-! ### Losing Main and beginning again (R368, R372) -/

/-- What has gone when Main is off, and what Standby and the fuses keep (log 47). -/
def LosesMain (s t : State) : Prop :=
  t.mgmt.main = false ∧ t.mem = [] ∧ t.ctxs = [] ∧ t.cores = [] ∧ t.parts = [] ∧ t.domains = [] ∧
    t.mgmt.lifecycle = s.mgmt.lifecycle ∧ t.mgmt.ownerKey = s.mgmt.ownerKey ∧ t.mgmt.minVersion = s.mgmt.minVersion ∧ t.mgmt.capNext = 4000

theorem State.powerOff_loses (s : State) : LosesMain s s.powerOff := ⟨rfl, rfl, rfl, rfl, rfl, rfl, rfl, rfl, rfl, rfl⟩

/-- Bring-up stands at step 1, with the cap last set and the clamps as they stood. -/
def BeginsAgain (s t : State) : Prop :=
  t.mgmt.main = true ∧ t.mgmt.step = 1 ∧ t.mgmt.error = 0 ∧ t.mgmt.stopped = false ∧ t.mgmt.capNext = s.mgmt.capNext ∧
    (∀ d, (t.die d).clamped = (s.die d).clamped) ∧
    t.mem = [] ∧ t.ctxs = [] ∧ t.cores = [] ∧ t.parts = [] ∧ t.domains = [] ∧ t.mgmt.lifecycle = s.mgmt.lifecycle ∧ t.mgmt.ownerKey = s.mgmt.ownerKey

/-- A clamp stands through a restart (R370). -/
theorem State.clamped_restart (s : State) (d : Nat) : (s.restart.die d).clamped = (s.die d).clamped := by
  have h := FMap.get_map s.dies (fun i x => x.restarted (decide (i < 16) && s.isClamped i)) d
  unfold State.die FMap.getD
  rw [show FMap.get s.restart.dies d = _ from h]
  cases FMap.get s.dies d <;> rfl

theorem State.restart_begins (s : State) : BeginsAgain s s.restart :=
  ⟨rfl, rfl, rfl, rfl, rfl, s.clamped_restart, rfl, rfl, rfl, rfl, rfl, rfl, rfl⟩

theorem exec_reset_mailbox (s : State) : exec (.reset false) s = .next (s.command false [] State.restart) := rfl

theorem exec_reset_i3c (s : State) : exec (.reset true) s = .next (if s.mgmt.main then s.restart else s) := rfl

/-! ### The steps of bring-up (R372) -/

/-- The sequence has stopped with a code and a detail. -/
theorem State.bootStep_fails {s : State} {n : BitVec 4} (hm : s.mgmt.main = true) (hs : s.mgmt.stopped = false) (hn : s.mgmt.step = n)
    (code : BitVec 8) (detail : Nat) (work : State → State) : s.bootStep n (some (code, detail)) work = s.bootFails code detail :=
  if_neg (by simp [hm, hs, hn])

theorem State.bootStep_ends {s : State} {n : BitVec 4} (hm : s.mgmt.main = true) (hs : s.mgmt.stopped = false) (hn : s.mgmt.step = n)
    (work : State → State) : s.bootStep n none work = { work s with mgmt := { (work s).mgmt with step := n + 1 } } :=
  if_neg (by simp [hm, hs, hn])

section
variable {i : Instr} {s : State} {n : BitVec 4} {failure : Option (BitVec 8 × Nat)} {work : State → State} {P : State → Prop}
variable (he : exec i s = .next (s.bootStep n failure work)) (hm : s.mgmt.main = true) (hs : s.mgmt.stopped = false) (hn : s.mgmt.step = n)
include he hm hs hn

/-- A step of bring-up that fails stops with its code and detail. -/
theorem Completes.bootStep_fails {code : BitVec 8} {detail : Nat} (hf : failure = some (code, detail)) :
    Completes i s fun t => t = s.bootFails code detail :=
  ⟨_, he.trans (hf ▸ congrArg _ (State.bootStep_fails hm hs hn code detail work)), rfl⟩

/-- A step of bring-up that ends begins the next. -/
theorem Completes.bootStep_ends (hf : failure = none) (hP : P { work s with mgmt := { (work s).mgmt with step := n + 1 } }) : Completes i s P :=
  ⟨_, he.trans (hf ▸ congrArg _ (State.bootStep_ends hm hs hn work)), hP⟩

end

/-! ### Step 5: the disable map (R1) -/

theorem eraseDups_of_nodup {l : List Nat} (h : l.Nodup) : l.eraseDups = l := by
  induction l with
  | nil => rfl
  | cons a l ih =>
    obtain ⟨ha, hl⟩ := List.nodup_cons.mp h
    have : l.filter (fun b => !b == a) = l := List.filter_eq_self.mpr fun b hb => by simpa using ne_of_mem_of_not_mem hb ha
    rw [List.eraseDups_cons, this, ih hl]

/-- A list of the module's clusters that names none twice is loaded as it stands. -/
theorem exec_disableMapLoad {clusters : List Nat} (hd : clusters.Nodup) (hc : ∀ c ∈ clusters, c < 131072) (s : State) :
    exec (.disableMapLoad clusters) s =
      .next (s.bootStep 5 (failedAt 0x06 (overDisabled clusters)) fun s => { s with disabled := clusters }) := by
  have h : (clusters.filter fun c => decide (c < 131072)).eraseDups = clusters := by
    rw [List.filter_eq_self.mpr (by simpa using hc), eraseDups_of_nodup hd]
  exact (congrArg (fun l => Host.Outcome.next (s.bootStep 5 (failedAt 0x06 (overDisabled l)) fun s => { s with disabled := l })) h :)

theorem overDisabled_eq_none {clusters : List Nat} (h : ∀ tile, tile < 16 → (clusters.filter fun c => c / 8192 == tile).length ≤ 128) :
    overDisabled clusters = none := by
  simpa [overDisabled] using h

/-- The first tile with too many disabled clusters is the one reported. -/
theorem overDisabled_eq_some {clusters : List Nat} {tile : Nat} (ht : tile < 16)
    (hb : ∀ i, i < tile → (clusters.filter fun c => c / 8192 == i).length ≤ 128) (h : 128 < (clusters.filter fun c => c / 8192 == tile).length) :
    overDisabled clusters = some tile :=
  List.find?_range_eq_some.mpr ⟨decide_eq_true h, List.mem_range.mpr ht, fun i hi => by simpa using hb i hi⟩

/-! ### Step 6: the module wipe (R324) -/

/-- Every context is free. -/
theorem State.ctxs_wipeModule (s : State) : s.wipeModule.ctxs = [] := by
  simp [State.wipeModule, State.wipeCores]

/-- Every core has its reset value but for its sequence number (log 42). -/
theorem State.core_wipeModule (s : State) (i : Nat) : s.wipeModule.core i = (s.core i).wiped := by
  have h := FMap.get_map s.cores (fun _ k => k.wiped) i
  unfold State.core FMap.getD
  rw [show FMap.get s.wipeModule.cores i = _ from h]
  cases FMap.get s.cores i <;> rfl

/-! ### Step 7: every replica locks (R148) -/

/-- A die loads the master's value and is locked to it. -/
def State.lockDie (s : State) (d : Nat) : State := s.onDie d fun x =>
  { x with offset := 0, slew := 0, slewTime := 0, loaded := true, locked := true, good := 4, missed := 0, bound := 0x040, lastExchange := s.gtr }

theorem exec_gtrInitialLock (failed : Option Nat) (s : State) :
    exec (.gtrInitialLock failed) s = .next (s.bootStep 7 (failedAt 0x08 failed) fun s => (List.range 65).foldl State.lockDie s) := rfl

/-- What a die that has just locked to the master shows. -/
structure Die.OnMaster (d : Die) : Prop where
  locked : d.locked = true
  bound : d.bound = 0x040
  offset : d.offset = 0

theorem State.lockDies_frame (l : List Nat) (s : State) : ∃ ds, l.foldl State.lockDie s = { s with dies := ds } := by
  induction l generalizing s with
  | nil => exact ⟨s.dies, rfl⟩
  | cons d l ih => exact ih (s.lockDie d)

theorem State.die_lockDie (s : State) (i d : Nat) (h : i = d ∨ (s.die i).OnMaster) : ((s.lockDie d).die i).OnMaster := by
  by_cases hi : i = d
  · subst hi
    rw [show (s.lockDie i).die i = _ from FMap.getD_set_self ..]
    exact ⟨rfl, rfl, rfl⟩
  · rw [show (s.lockDie d).die i = s.die i from FMap.getD_set_ne _ hi ..]
    exact h.resolve_left hi

theorem State.die_lockDies (l : List Nat) (s : State) (i : Nat) (h : i ∈ l ∨ (s.die i).OnMaster) :
    ((l.foldl State.lockDie s).die i).OnMaster := by
  induction l generalizing s with
  | nil => exact h.resolve_left List.not_mem_nil
  | cons d l ih =>
    rcases h with h | h
    · rcases List.mem_cons.mp h with rfl | h
      · exact ih _ (.inr (s.die_lockDie i i (.inl rfl)))
      · exact ih _ (.inl h)
    · exact ih _ (.inr (s.die_lockDie i d (.inr h)))

/-- A die on the master reads the master's time (R35). -/
theorem State.gtrOf_onMaster {s : State} {d : Nat} (h : (s.die d).OnMaster) : s.gtrOf d = s.gtr % 2 ^ 64 := by
  unfold State.gtrOf
  rw [h.offset]
  omega

/-- At step 7 every replica loads the master and locks. -/
theorem completes_gtrInitialLock {s : State} (hm : s.mgmt.main = true) (hs : s.mgmt.stopped = false) (hn : s.mgmt.step = 7) :
    Completes (.gtrInitialLock none) s fun t =>
      t.mgmt.step = 8 ∧ (∀ d, d < 65 → (t.die d).locked = true ∧ (t.die d).bound = 0x040 ∧ t.gtrOf d = s.gtr % 2 ^ 64) ∧ t.mem = s.mem ∧ t.ctxs = s.ctxs := by
  refine .bootStep_ends (exec_gtrInitialLock none s) hm hs hn rfl ?_
  have hd := fun d (hd : d < 65) => s.die_lockDies (List.range 65) d (.inl (List.mem_range.mpr hd))
  obtain ⟨ds, h⟩ := s.lockDies_frame (List.range 65)
  rw [h] at hd ⊢
  exact ⟨rfl, fun d h65 => ⟨(hd d h65).locked, (hd d h65).bound, State.gtrOf_onMaster (hd d h65)⟩, rfl, rfl⟩

/-! ### Step 8: Isobar -/

theorem exec_isobarStart {s : State} (hm : s.mgmt.main = true) (hs : s.mgmt.stopped = false) (hn : s.mgmt.step = 8) (hi : s.mgmt.isobar = false)
    (good : Bool) : exec (.isobarStart good) s =
      .next (if good then { s with mgmt := { s.mgmt with isobar := true, cap := s.mgmt.capNext, lastEstimate := s.gtrOf sDie } } else s.bootFails 0x09 0) :=
  congrArg _ (if_neg (by simp [hm, hs, hn, hi]))

theorem exec_ready {s : State} (hi : s.mgmt.isobar = true) : exec .ready s = .next (s.bootStep 8 none id) := congrArg _ (if_pos hi)

/-! ### The statement -/

/-- Main is lost, or bring-up begins again, in a state where Main is on. -/
theorem losingMain {s : State} (hm : s.mgmt.main = true) :
    (∀ die deg, 110 ≤ deg → die < 65 → Completes (.thermalTrip die deg) s fun t => LosesMain s t ∧ t.mgmt.trip = some die) ∧
    (Completes .mainUndervoltage s fun t => LosesMain s t ∧ t.mgmt.trip = s.mgmt.trip) ∧
    (Completes .i3cMainOff s fun t => LosesMain s t ∧ t.mgmt.trip = s.mgmt.trip) ∧
    Completes .cxlHotReset s (BeginsAgain s) ∧ Completes (.reset true) s (BeginsAgain s) ∧
    (s.mgmt.busy = false → s.mgmt.step = 9 → Completes (.reset false) s (BeginsAgain s)) :=
  ⟨fun _ _ hd ht => .of_if rfl ⟨hd, ht, hm⟩ ⟨s.powerOff_loses, rfl⟩, .of_if rfl hm ⟨s.powerOff_loses, rfl⟩, .of_if rfl hm ⟨s.powerOff_loses, rfl⟩,
    .of_if rfl hm s.restart_begins, .of_if (exec_reset_i3c s) hm s.restart_begins,
    fun hb h9 => .command_free (exec_reset_mailbox s) ⟨hm, hb, h9⟩ rfl (s.withInput []).restart_begins⟩

theorem completes_mainPowerOn_untripped {s : State} (hm : s.mgmt.main = false) (ht : s.mgmt.trip = none) :
    Completes .mainPowerOn s fun t => t = s.restart := by
  have h : s.restart.mgmt.trip = none := ht
  exact ⟨_, rfl, by simp only [hm, h, Bool.false_eq_true, if_false]⟩

/-- A trip recorded before this boot is reported (R370). -/
theorem completes_mainPowerOn_tripped {s : State} (hm : s.mgmt.main = false) {die : Nat} (ht : s.mgmt.trip = some die) :
    Completes .mainPowerOn s fun t =>
      t = { s.restart with mgmt := { s.restart.mgmt with error := 0x0A, detail := BitVec.ofNat 16 die, trip := none } } := by
  have h : s.restart.mgmt.trip = some die := ht
  exact ⟨_, rfl, by simp only [hm, h, Bool.false_eq_true, if_false]⟩

/-- Main comes back, and bring-up begins with the cap last set. -/
theorem completes_mainPowerOn {s : State} (hm : s.mgmt.main = false) : Completes .mainPowerOn s fun t =>
    t.mgmt.main = true ∧ t.mgmt.step = 1 ∧ t.mgmt.stopped = false ∧ t.mgmt.trip = none ∧ t.mgmt.capNext = s.mgmt.capNext ∧ t.mem = [] ∧ t.ctxs = [] ∧
      (s.mgmt.trip = none → t.mgmt.error = 0) ∧ ∀ die, s.mgmt.trip = some die → t.mgmt.error = 0x0A ∧ t.mgmt.detail = BitVec.ofNat 16 die := by
  cases ht : s.mgmt.trip with
  | none =>
    refine (completes_mainPowerOn_untripped hm ht).imp ?_
    rintro _ rfl
    exact ⟨rfl, rfl, rfl, ht, rfl, rfl, rfl, fun _ => rfl, nofun⟩
  | some die =>
    refine (completes_mainPowerOn_tripped hm ht).imp ?_
    rintro _ rfl
    exact ⟨rfl, rfl, rfl, rfl, rfl, rfl, rfl, (nofun), fun _ hd => ⟨rfl, congrArg (BitVec.ofNat 16) (Option.some.inj hd)⟩⟩

/-- Settles O45: each loss is `State.powerOff`, each restart `State.restart`, and each step of bring-up `State.bootStep`. -/
theorem losingMainAndComingUp : Obligations.LosingMainAndComingUp := by
  unfold Obligations.LosingMainAndComingUp
  refine ⟨fun s hm => losingMain hm, fun s hm => ⟨fun w hw => .of_if (exec_setCap_i3c w s) hw rfl, completes_mainPowerOn hm⟩, ?_⟩
  intro s hm hs
  refine ⟨?selfTest, ?firmware, ?steward, ?training, ?disableMap, ?wipe, ?lock, ?isobar, ?ready⟩
  case selfTest => exact fun hn => ⟨.bootStep_ends rfl hm hs hn rfl rfl, .bootStep_fails rfl hm hs hn rfl⟩
  case firmware =>
    exact fun hn v image => ⟨.bootStep_fails rfl hm hs hn rfl, fun hv => .bootStep_fails rfl hm hs hn (if_pos hv),
      fun hv => .bootStep_ends rfl hm hs hn (if_neg hv.not_gt) rfl⟩
  case steward => exact fun hn => ⟨.bootStep_ends rfl hm hs hn rfl rfl, fun k => .bootStep_fails rfl hm hs hn rfl⟩
  case training => exact fun hn => ⟨.bootStep_ends rfl hm hs hn rfl rfl, fun k => .bootStep_fails rfl hm hs hn rfl⟩
  case disableMap =>
    exact fun hn clusters hd hc =>
      ⟨fun h => .bootStep_ends (exec_disableMapLoad hd hc s) hm hs hn (congrArg _ (overDisabled_eq_none h)) ⟨rfl, fun _ => Iff.rfl⟩,
      fun tile ht hb h => .bootStep_fails (exec_disableMapLoad hd hc s) hm hs hn (congrArg _ (overDisabled_eq_some ht hb h))⟩
  case wipe =>
    exact fun hn => ⟨fun k => .bootStep_fails rfl hm hs hn rfl,
      .bootStep_ends rfl hm hs hn rfl ⟨rfl, rfl, rfl, rfl, rfl, s.ctxs_wipeModule, rfl, rfl, rfl, s.core_wipeModule⟩⟩
  case lock =>
    exact fun hn => ⟨fun k => .bootStep_fails rfl hm hs hn rfl, completes_gtrInitialLock hm hs hn⟩
  case isobar =>
    exact fun hn hi => ⟨⟨_, exec_isobarStart hm hs hn hi false, rfl⟩, ⟨_, exec_isobarStart hm hs hn hi true, rfl⟩⟩
  case ready =>
    exact fun hn hi => .bootStep_ends (exec_ready hi) hm hs hn rfl rfl

end Sys2Proof.Machine


/-! PROOFS. The reset state (R77, R149, R372). -/
namespace Sys2Proof.Machine

theorem State.ctx_reset (id : Nat) : State.reset.ctx id = {} := rfl

theorem State.walk_reset (a : Nat) : State.reset.walk a = .missing := by
  have invalid (level : Nat) : State.reset.pte.getD (pteKey level a) 0 = 0 := rfl
  simp only [State.walk, invalid]
  decide

/-- A context at its reset value has zeros in all its registers, as R77 and log 1 give them. -/
theorem Ctx.registers_default (n : Nat) : ({} : Ctx).rdG n = 0 ∧ ({} : Ctx).rdF n = 0 ∧ ({} : Ctx).rdV n = 0 := by
  refine ⟨?_, rfl, rfl⟩
  unfold Ctx.rdG
  split <;> rfl

/-- Settles O59: no component holds an entry at reset, so that each reads as its default. -/
theorem resetLeavesWhatTheManualGives : Obligations.ResetLeavesWhatTheManualGives := by
  refine ⟨Memory.wf_reset, rfl, rfl, rfl, fun _ => rfl, fun _ => rfl, State.walk_reset, fun _ => rfl, fun id => ?_, fun _ => ⟨rfl, rfl, rfl, rfl, rfl, fun _ => rfl⟩,
    fun _ => ⟨rfl, rfl⟩, fun _ => ⟨rfl, rfl, fun _ => rfl⟩⟩
  rw [State.ctx_reset]
  exact ⟨rfl, Ctx.registers_default, rfl, rfl, rfl, rfl, rfl, rfl, rfl, rfl, rfl, rfl, rfl, rfl, rfl, rfl, rfl, rfl⟩

end Sys2Proof.Machine

/-!
PROOFS. What an instruction word can reach (R304 to R318, R97, R110): each operation that instruction words are made of is written over a few kinds of update, so that a predicate which is
stable under those is kept by every word. The form of memory is such a predicate, and so is that what stewards keep is as it was.
-/
namespace Sys2Proof.Machine

/-- What stewards and management give a partition stands in `q'` as in `q` (R309, R318, R351); the rest, which programs change too, may differ. -/
def Part.Agrees (q q' : Part) : Prop :=
  { q' with
    launches := q.launches, entries := q.entries, lastSpread := q.lastSpread, aborts := q.aborts, phaseLaunches := q.phaseLaunches, phaseSpawns := q.phaseSpawns
    phaseFreed := q.phaseFreed, phase := q.phase, drainTime := q.drainTime, colls := q.colls, later := q.later, restored := q.restored, savedAt := q.savedAt
    posts := q.posts } = q

/-- A predicate of the state that looks neither at contexts, cores, homes and what is on their way nor at a partition's launches: no instruction that leaves memory alone is seen by it. -/
structure Stable (P : State → Prop) : Prop where
  update {s : State} {emptied poison ctxs cores net cur agenda migFifo rrJobs energy host nextUid free late} : P s →
    P { s with
      emptied := emptied, poison := poison, ctxs := ctxs, cores := cores, net := net, cur := cur, agenda := agenda, migFifo := migFifo, rrJobs := rrJobs
      energy := energy, host := host, nextUid := nextUid, free := free, late := late }
  onPart {s : State} {p : Nat} {f : Part → Part} : (∀ q : Part, q.Agrees (f q)) → P s → P (s.onPart p f)

/-- A predicate that writing bytes of memory or LM keeps. -/
def Writable (P : State → Prop) : Prop := ∀ {s : State} (a n v : Nat), P s → P { s with mem := s.mem.writeNat a n v }

/-- A choice keeps a predicate that both of its branches keep. -/
theorem keep_ite {α : Sort*} {P : α → Prop} {c : Prop} [Decidable c] {t e : α} (ht : P t) (he : P e) : P (if c then t else e) := by
  split <;> assumption

theorem stable_memWf : Stable State.memWf where
  update h := h
  onPart _ h := by simpa [State.memWf] using h

theorem writable_memWf : Writable State.memWf := fun a n v h => Memory.wf_writeNat h a n v

/-! ### Changing launches changes nothing that stewards keep -/

theorem Part.agrees_onLaunch (q : Part) (slot : Nat) (f : Launch → Launch) : q.Agrees (q.onLaunch slot f) := by
  unfold Part.onLaunch; split <;> rfl

namespace Stable
variable {P : State → Prop} (hP : Stable P) {s : State} (h : P s)
include hP h

/-! ### Contexts, cores, full/empty and poison bits -/

theorem setCtx (id : Nat) (c : Ctx) : P (s.setCtx id c) := hP.update h
theorem onCtx (id : Nat) (f : Ctx → Ctx) : P (s.onCtx id f) := hP.update h
theorem setCore (i : Nat) (c : Core) : P (s.setCore i c) := hP.update h
theorem onCore (i : Nat) (f : Core → Core) : P (s.onCore i f) := hP.update h
theorem onHere (f : Ctx → Ctx) : P (s.onHere f) := hP.update h
theorem wrG (r : Reg) (v : Word) : P (s.wrG r v) := hP.update h
theorem wrF (r : Reg) (v : Word) : P (s.wrF r v) := hP.update h
theorem wrV (r : Reg) (v : Quad) : P (s.wrV r v) := hP.update h
theorem wrK (n : Nat) (v : BitVec 16) : P (s.wrK n v) := hP.update h
theorem onCr (f : CtxCr → CtxCr) : P (s.onCr f) := hP.update h
theorem retire : P s.retire := hP.update h
theorem retireW : P s.retireW := hP.update h
theorem retireTo (pc : Word) : P (s.retireTo pc) := hP.update h
theorem finishG (d : Reg) (v : Word) : P (s.finishG d v) := hP.retire (hP.wrG h d v)
theorem raiseLclk (id : Nat) (v : Stamp) : P (s.raiseLclk id v) := hP.update h
theorem drift (id : Nat) : P (s.drift id) := hP.update h
theorem setFull (a : Nat) (full : Bool) : P (s.setFull a full) := hP.update h
theorem setPoison (a : Nat) (on : Bool) : P (s.setPoison a on) := hP.update h
theorem unpoison (a n : Nat) : P (s.unpoison a n) := hP.update h

/-! ### Turns, claims, energy (R192, R197, R200) -/

theorem setTurns (t : Turns) : P (s.setTurns t) := hP.update h

theorem offer (r : Res) (src units : Nat) : P (s.offer r src units).2 := by
  unfold State.offer
  dsimp only
  split <;> exact hP.setTurns h _

theorem unitFreed (r : Res) : P (s.unitFreed r) := hP.setTurns h _

theorem unitsFreed (r : Res) (n : Nat) : P (s.unitsFreed r n) := by
  induction n generalizing s with
  | zero => exact h
  | succ n ih => exact ih (hP.unitFreed h r)

theorem claim (c : Claim) : P (s.claim c) := hP.update h
theorem serve (res pos key : Nat) : P (s.serve res pos key) := hP.update h
theorem claimHere (res pos : Nat) : P (s.claimHere res pos) := hP.update h
theorem awaitMiss : P s.awaitMiss := hP.update h
theorem awaitQueue (core : Nat) : P (s.awaitQueue core) := hP.update h
theorem takeQueue (core : Nat) : P (s.takeQueue core) := hP.update h
theorem takeMiss (core pos key : Nat) : P (s.takeMiss core pos key) := keep_ite (hP.serve h ..) h
theorem takeMissHere : P s.takeMissHere := hP.takeMiss h ..
theorem onEnergy (key : Nat) (f : Energy → Energy) : P (s.onEnergy key f) := hP.update h

theorem lift (c : Option Charge) : P (s.lift c) := by
  cases c with
  | none => exact h
  | some c => exact keep_ite (hP.onEnergy h ..) h

/-! ### Launches and what is charged to them (R179, R345, R346) -/

theorem onLaunch (p slot : Nat) (f : Launch → Launch) : P (s.onLaunch p slot f) := hP.onPart (fun q => q.agrees_onLaunch slot f) h
theorem orderAbort (p slot : Nat) (r : AbortRec) : P (s.orderAbort p slot r) := hP.onLaunch h ..
theorem logAbort (p : Nat) (r : AbortRec) : P (s.logAbort p r) := hP.onPart (fun _ => rfl) h

theorem raiseLaunch (p : Nat) (slot : Option Nat) (w : Stamp) : P (s.raiseLaunch p slot w) := by
  cases slot with
  | none => exact h
  | some k => exact hP.onLaunch h ..

theorem endHandler (id : Nat) : P (s.endHandler id) := by
  have dormant := hP.setCtx (hP.onCore h (coreOf id) fun k => k.freeSlot (numberOf id == 5) (s.ctx id).slot) id {}
  have freed {c : Prop} [Decidable c] (r : Res) := keep_ite (c := c) (hP.unitFreed dormant r) dormant
  have resumed {b c : Prop} [Decidable b] [Decidable c] (r : Res) (i : Nat) (f : Ctx → Ctx) := keep_ite (c := b) (hP.onCtx (freed (c := c) r) i f) (freed (c := c) r)
  exact keep_ite (resumed ..) (hP.onCore (resumed ..) ..)

theorem chargeFailure (id : Nat) (r : AbortRec) : P (s.chargeFailure id r) := by
  unfold State.chargeFailure
  dsimp only
  split
  · exact hP.orderAbort (hP.onCtx h ..) ..
  · exact keep_ite (hP.logAbort (hP.endHandler h id) ..) (hP.onCtx h ..)

/-! ### Traps (R90, R344) -/

theorem trapOf (id : Nat) (c : Cause) (addr val ret : Word) : P (s.trapOf id c addr val ret) :=
  keep_ite h (keep_ite (hP.setCtx h ..) (hP.chargeFailure h ..))

theorem trapLater (id : Nat) (c : Cause) (addr val ret : Word) : P (s.trapLater id c addr val ret) := keep_ite (hP.trapOf h ..) (hP.onCtx h ..)
theorem trap (c : Cause) (addr val : Word) : P (s.trap c addr val) := hP.trapOf h ..
theorem illegal (i : Instr) : P (s.illegal i) := hP.trap h ..
theorem detForbid (i : Instr) : P (s.detForbid i) := hP.trap h ..
theorem machineCheck (id : Nat) (addr : Word) : P (s.machineCheck id addr) := hP.chargeFailure h ..

/-! ### Requests on their way (R115) -/

theorem setFlights (fs : List Flight) : P (s.setFlights fs) := hP.update h
theorem sendFlight (f : Flight) : P (s.sendFlight f) := hP.update h
theorem send (k : FKind) : P (s.send k) := hP.sendFlight (hP.onCore h ..) _
theorem onLast (g : Flight → Flight) : P (s.onLast g) := hP.update h
theorem sendSkip (k : FKind) (skip : Bool) : P (s.sendSkip k skip) := hP.onLast (hP.send h k) _
theorem sendWait (id : Nat) (key : Key) (target : Word) : P (s.sendWait id key target) := hP.sendFlight (hP.onCtx h ..) _
theorem purgeAlong (rs : List (Nat × Nat)) (p a : Nat) : P (s.purgeAlong rs p a) := hP.update h
theorem setFifo (cluster : Nat) (ids : List Nat) : P (s.setFifo cluster ids) := hP.update h
theorem leaveFifo (id : Nat) : P (s.leaveFifo id) := keep_ite (hP.setFifo h ..) h
theorem faultWait (id a : Nat) : P (s.faultWait id a) := hP.sendWait (hP.onCtx (hP.leaveFifo h id) ..) ..

/-! ### Fates, rights and the kinds of address (R58, R153, R154, R307) -/

theorem awaitWCore : P s.awaitWCore := hP.update (hP.onHere h _)

theorem allow (i : Instr) (regs : List Reg) (w : Bool) {body : State → State} (hb : P (body s)) : P (s.allow i regs w body) := by
  unfold State.allow
  split
  · exact hb
  · exact hP.illegal h i
  · exact hP.trap h ..
  · exact hP.awaitWCore h

theorem plbLookup (core dom a : Nat) : P (s.plbLookup core dom a).2 := by
  unfold State.plbLookup
  dsimp only
  split
  · dsimp only; exact hP.onCore h ..
  · split
    · dsimp only; exact hP.onCore h ..
    · exact h

theorem of_plbLookup {core dom a : Nat} {r : Option RightsEntry} {t : State} (e : s.plbLookup core dom a = (r, t)) : P t := by
  have := hP.plbLookup h core dom a
  rwa [e] at this

theorem locate (id : Nat) (kind : AccessKind) (a : Word) (size : Nat) : P (s.locate id kind a size).2 := by
  unfold State.locate
  dsimp only
  have found : P (match placeOf (s.homeOf id) a with
      | .unmapped => (Target.trap .unmapped, s)
      | .lm core off => (s.lmFate (s.ctx id).partNo (s.homeOf id) (coreOf id) kind core off, s)
      | .memory =>
        match s.plbLookup (coreOf id) (s.ctx id).accessDomain a.toNat with
        | (some e, s) => if (kind.reads && !e.r) || (kind.writes && !e.w) then (Target.trap .prot, s) else (.memory e, s)
        | (none, s) => (.trap .prot, s)).2 := by
    split
    · exact h
    · exact h
    · split
      · rename_i e
        have := hP.of_plbLookup h e
        split <;> exact this
      · rename_i e
        exact hP.of_plbLookup h e
  split
  · exact found
  · split <;> exact found

theorem of_locate {id : Nat} {kind : AccessKind} {a : Word} {size : Nat} {r : Target} {t : State} (e : s.locate id kind a size = (r, t)) : P t := by
  have := hP.locate h id kind a size
  rwa [e] at this

theorem withTarget (kind : AccessKind) (a : Word) (size : Nat) {lm : State → Nat → Nat → State} {mem : State → RightsEntry → State}
    (hl : ∀ t core off, P t → P (lm t core off)) (hm : ∀ t e, P t → P (mem t e)) : P (s.withTarget kind a size lm mem) := by
  unfold State.withTarget
  split
  · rename_i e; exact hP.trap (hP.of_locate h e) ..
  · rename_i e; exact hl _ _ _ (hP.of_locate h e)
  · rename_i e; exact hm _ _ (hP.of_locate h e)

theorem wordTarget (kind : AccessKind) (a : Word) (size : Nat) {run : State → RightsEntry → State} (hr : ∀ t e, P t → P (run t e)) :
    P (s.wordTarget kind a size run) := by
  unfold State.wordTarget
  split
  · exact hP.trap h ..
  · exact keep_ite (hP.trap h ..) (hP.trap h ..)
  · exact hP.withTarget h _ _ _ (fun _ _ _ ht => ht) hr

theorem feTarget (kind : AccessKind) (a : Word) {run : State → Nat → Nat → State} (hr : ∀ t core off, P t → P (run t core off)) :
    P (s.feTarget kind a run) := by
  unfold State.feTarget
  split
  · exact hP.trap h ..
  · exact hP.withTarget h _ _ _ hr fun _ _ ht => hP.trap ht ..

end Stable

end Sys2Proof.Machine

namespace Sys2Proof.Machine
namespace Stable
variable {P : State → Prop} (hP : Stable P) {s : State} (h : P s)
include hP h

/-! ### Loads, stores and atomics leave the core (R155 to R159, R173) -/

theorem absorbVersion (id attr a : Nat) (x : SecCopy) (atHome : Bool) : P (s.absorbVersion id attr a x atHome) := by
  have raised := hP.raiseLclk h id x.wts
  unfold State.absorbVersion
  dsimp only
  split
  · exact raised
  · split
    · exact hP.raiseLclk (hP.onCtx raised ..) ..
    · exact hP.onCtx raised ..

theorem loadMemory (fmt : LoadFmt) (d a rc sc hint : Nat) (acq : Bool) (e : RightsEntry) : P (s.loadMemory fmt d a rc sc hint acq e) := by
  unfold State.loadMemory
  dsimp only
  refine keep_ite h (keep_ite (hP.awaitMiss h) ?_)
  have drifted := hP.drift h s.cur
  split
  · exact keep_ite (hP.machineCheck drifted ..) (hP.retire (hP.onHere (hP.absorbVersion (hP.onCore drifted ..) ..) _))
  · exact hP.retire (hP.onHere (hP.send (hP.takeMissHere drifted) _) _)

theorem loadLm (fmt : LoadFmt) (d core off : Nat) (acq : Bool) (sc : Nat) : P (s.loadLm fmt d core off acq sc) :=
  keep_ite h (keep_ite (hP.retire (hP.onHere (hP.send h _) _)) (keep_ite (hP.machineCheck h ..) (hP.retire (hP.onHere h _))))

theorem load (i : Instr) (fmt : LoadFmt) (regs : List Reg) (d a : Reg) (r : BitVec 2) (o : BitVec 1) (sc hint : BitVec 2) (x : BitVec 8) :
    P (s.load i fmt regs d a r o sc hint x) :=
  hP.allow h i regs false (hP.withTarget h _ _ _ (fun _ _ _ ht => hP.loadLm ht ..) fun _ _ ht => hP.loadMemory ht ..)

theorem storeMemory (a n : Nat) (data : Quad) (o sc : Nat) (nl : Bool) (e : RightsEntry) : P (s.storeMemory a n data o sc nl e) :=
  keep_ite h (hP.retire (hP.send (hP.onHere (hP.drift h _) _) _))

theorem sendAtomic (q : AtomReq) (after : Ctx → Ctx) : P (s.sendAtomic q after) :=
  keep_ite h (hP.retire (hP.onHere (hP.send (hP.onHere (hP.drift h _) _) _) _))

theorem sendLmAtomic (q : AtomReq) (core : Nat) : P (s.sendLmAtomic q core) := keep_ite h (hP.retire (hP.onHere (hP.send h _) _))

theorem atomic (i : Instr) (op : Nat) (d a b : Reg) (o sc : BitVec 2) (z : BitVec 1) : P (s.atomic i op d a b o sc z) :=
  keep_ite (hP.detForbid h i) (hP.withTarget h _ _ _ (fun _ _ _ ht => hP.sendLmAtomic ht ..) fun _ _ ht => hP.sendAtomic ht ..)

theorem intoCombiner {core p addr size attr : Nat} {part : GamoPart} {t : State} (e : s.intoCombiner core p addr size attr part = some t) : P t := by
  unfold State.intoCombiner at e
  dsimp only at e
  split at e
  · cases e; exact hP.update h
  · split at e <;> cases e
    exact hP.update h

theorem combine (addr size d : Nat) (add : Word) (e : RightsEntry) : P (s.combine addr size d add e) := by
  have cleared := hP.onHere (hP.drift h s.cur) fun c => c.clearSpin (sectorOf addr)
  unfold State.combine
  dsimp only
  refine hP.retire (hP.onHere ?_ _)
  split
  · rename_i e; exact hP.onCore (hP.intoCombiner cleared e) ..
  · exact hP.send cleared _

theorem gamo (i : Instr) (d a b : Reg) (size : Nat) : P (s.gamo i d a b size) :=
  keep_ite (hP.detForbid h i) (hP.wordTarget h _ _ _ fun _ _ ht => keep_ite ht (hP.combine ht ..))

theorem sendMessage (i : Instr) (kind : Nat) (d a b : Reg) (v : BitVec 5) : P (s.sendMessage i kind d a b v) := by
  refine hP.allow h i _ false (keep_ite (hP.detForbid h i) ?_)
  split
  · exact hP.trap h ..
  · exact hP.retire (hP.onHere (hP.send (hP.drift h _) _) _)

/-! ### Rings and control registers (R77 to R80, R169 to R172) -/

theorem retestRing (id q k d : Nat) (room : Bool) : P (s.retestRing id q k d room) := by
  unfold State.retestRing
  split
  · exact hP.trapLater (hP.onCtx h ..) ..
  · exact hP.onCtx h ..
  · exact h

theorem wakeRing (core q : Nat) : P (s.wakeRing core q) := by
  refine List.foldlRecOn _ _ h fun t ht x _ => keep_ite ?_ ht
  split
  · exact keep_ite (hP.retestRing ht ..) ht
  · exact keep_ite (hP.retestRing ht ..) ht
  · exact ht

theorem setRing (core q : Nat) (w : Word) : P (s.setRing core q w) := hP.wakeRing (hP.onCore h ..) ..

theorem ringWait (d a : Reg) (q n : Nat) (room : Bool) : P (s.ringWait d a q n room) := by
  refine keep_ite h ?_
  split
  · exact hP.trap h ..
  · exact hP.finishG h ..
  · exact hP.onHere h _

theorem ringAdvance (d a : Reg) (q n : Nat) (tail : Bool) : P (s.ringAdvance d a q n tail) :=
  keep_ite h (keep_ite (hP.trap h ..) (keep_ite h (hP.finishG (hP.setRing h ..) ..)))

theorem ringAccess (t : BitVec 1) (size q i o : Nat) {run : State → Nat → State} (hr : ∀ off, P (run s off)) : P (s.ringAccess t size q i o run) :=
  keep_ite h (keep_ite (hP.trap h ..) (hr _))

theorem writeMboxd (core v : Nat) : P (s.writeMboxd core v) := keep_ite h (hP.unitsFreed (hP.unitsFreed (hP.onCore h ..) ..) ..)

theorem present (n : Nat) (v : Word) : P (s.present n v) := by
  unfold State.present
  dsimp only
  split
  case h_3 => exact keep_ite h (hP.onCr h _)
  case h_8 => exact keep_ite h (hP.onCore h ..)
  case h_9 => exact keep_ite h (hP.onCr h _)
  case h_11 => exact hP.writeMboxd h ..
  case h_12 => exact keep_ite h (hP.onCore h ..)
  case h_13 => exact hP.onCore h ..
  case h_14 => exact hP.onCore h ..
  case h_15 => exact keep_ite (hP.setRing h ..) h
  all_goals exact hP.onCr h _

theorem controlStep (i : Instr) (reads : Bool) (d : Reg) (n : BitVec 12) (value : Option (Word → Word)) : P (s.controlStep i reads d n value) := by
  refine keep_ite (hP.detForbid h i) (hP.finishG ?_ ..)
  have drifted {c : Prop} [Decidable c] := keep_ite (c := c) (hP.drift h s.cur) h
  cases value with
  | none => exact drifted
  | some f => exact hP.present drifted ..

/-! ### Threads and migration (R73, R83 to R85, R198) -/

theorem releasePins (p slot core : Nat) : P (s.releasePins p slot core) := keep_ite h (hP.onCore h ..)
theorem renameCtx (a b : Nat) : P (s.renameCtx a b) := hP.update h
theorem moveCtx (a b : Nat) (f : Ctx → Ctx) : P (s.moveCtx a b f) := hP.setCtx (hP.setCtx (hP.renameCtx h a b) ..) ..

theorem migrateHead (cluster : Nat) : P (s.migrateHead cluster) := by
  unfold State.migrateHead
  split
  · exact h
  · split
    · exact h
    · exact keep_ite (hP.moveCtx (hP.setFifo h ..) ..) h

theorem phaseStep (p : Nat) (op : AtomOp) : P (s.phaseStep p op) := by
  unfold State.phaseStep
  split
  · exact h
  · split
    · exact h
    · exact hP.update (hP.sendFlight h _)

theorem phaseLeave (p : Nat) : P (s.phaseLeave p) := hP.phaseStep h ..
theorem phaseKick (p : Nat) : P (s.phaseKick p) := hP.phaseStep h ..

theorem addSpawn (p slot number : Nat) (x : Spawned) : P (s.addSpawn p slot number x) := by
  unfold State.addSpawn
  split
  · refine hP.onPart (fun q => ?_) h
    unfold Part.onLaunch; split <;> rfl
  · exact hP.onLaunch h ..

theorem exitThread (id : Nat) : P (s.exitThread id) := by
  have freed := hP.onCore (hP.setCtx (hP.lift h (s.ctx id).charge) id {}) (s.ctx id).home fun k => k.dropEntries (s.ctx id).uid
  unfold State.exitThread
  dsimp only
  split
  · apply hP.migrateHead
    split
    · exact freed
    · exact hP.releasePins (hP.onLaunch freed ..) ..
  · split
    · exact freed
    · exact hP.releasePins (hP.onLaunch freed ..) ..

/-! ### Homes that a LAUNCH reads (R98, R122, R179, R310) -/

theorem translateAt (sl p a : Nat) : P (s.translateAt sl p a).2 := by
  obtain ⟨tr, e⟩ := s.translateAt_frame sl p a
  exact e ▸ hP.update h

theorem reportFault (sl p page : Nat) : P (s.reportFault sl p page) := by
  obtain ⟨fa, e⟩ := s.reportFault_frame sl p page
  exact e ▸ hP.update h

theorem evictRecord (r : LineRec) : P (s.evictRecord r) := hP.update h

theorem setSector (sl p a : Nat) (x : SecRec) : P (s.setSector sl p a x) := by
  obtain ⟨re, ms, me, mp, e⟩ := s.setSector_frame sl p a x
  exact e ▸ hP.update h

theorem useSector (sl p a : Nat) (old new : SecRec) : P (s.useSector sl p a old new) := keep_ite h (hP.setSector h ..)
theorem wantStamp (sl : Nat) (v : Stamp) : P (s.wantStamp sl v) := keep_ite h (hP.update h)
theorem setHostLine (l : HostLine) : P (s.setHostLine l) := hP.update h

theorem hostRoom {hpa : Nat} {t : State} (e : s.hostRoom hpa = some t) : P t := by
  unfold State.hostRoom at e
  dsimp only at e
  split at e
  · cases e; exact h
  · split at e
    · cases e
    · split at e
      · exact Option.some.inj e ▸ hP.setHostLine h _
      · exact Option.some.inj e ▸ hP.update h

theorem hostExpiry (host : Option Nat) (p e : Nat) : P (s.hostExpiry host p e) := by
  unfold State.hostExpiry
  split
  · exact h
  · split
    · exact hP.setHostLine h _
    · exact h

theorem of_serveRead {sl : Nat} {host : Option Nat} {p a attr : Nat} {ro copyOut : Bool} {c : Stamp} {old x : SecRec} {v : SecCopy × Bool} {t : State}
    (e : s.serveRead sl host p a attr ro copyOut c old x = .ok (v, t)) : P t := by
  obtain ⟨_, _, _, re, ms, me, mp, li, rfl⟩ := State.serveRead_eq e
  exact hP.update h

theorem of_serveRead_error {sl : Nat} {host : Option Nat} {p a attr : Nat} {ro copyOut : Bool} {c : Stamp} {old x : SecRec} {t : State}
    (e : s.serveRead sl host p a attr ro copyOut c old x = .error t) : P t := by
  unfold State.serveRead at e
  dsimp only at e
  split at e
  · nomatch e
  · exact Except.error.inj e ▸ hP.wantStamp h ..

theorem submit (p src key : Nat) (l : Launch) : P (s.submit p src key l).2 := by
  unfold State.submit
  split
  · exact h
  · split
    · exact hP.onPart (fun _ => rfl) h
    · have offered := hP.offer h (.launchTable p) src (Part.freeSlots ‹_›)
      split
      · rename_i e; rw [e] at offered; exact offered
      · rename_i e; rw [e] at offered
        split
        · exact offered
        · exact hP.onPart (fun q => by unfold Part.enter; rfl) offered

theorem sendLaunch (d : Reg) (r : Record) (dom : Nat) : P (s.sendLaunch d r dom) := hP.retire (hP.onHere (hP.send h _) _)

theorem launchUnread (f : Fetched) : P (s.launchUnread f) := by
  cases f with
  | got => exact h
  | held => exact h
  | absent => exact hP.faultWait h ..
  | missing => exact hP.chargeFailure h ..
  | race => exact hP.trap h ..

theorem launchRecord (d : Reg) (addr : Word) (r : Record) : P (s.launchRecord d addr r) := by
  unfold State.launchRecord
  dsimp only
  split
  · exact hP.trap h ..
  · exact keep_ite (hP.sendLaunch h ..) (hP.phaseKick (hP.finishG (hP.submit h ..) ..) _)

/-! ### Copies, jobs and floating point (R114, R220, R240, R288) -/

theorem submitCopy (core : Nat) (b : List Word) : P (s.submitCopy core b).2 := by
  unfold State.submitCopy
  dsimp only
  exact hP.onCore h ..

theorem pushCopy (i : Instr) (d : Reg) (a : Word) (core : Nat) (b : List Word) : P (s.pushCopy i d a core b) := by
  unfold State.pushCopy
  split
  · exact hP.trap h ..
  · exact keep_ite (hP.trap h ..) (keep_ite (hP.detForbid h i) (keep_ite h (keep_ite (hP.awaitQueue h _)
      (hP.finishG (hP.submitCopy (hP.drift (hP.takeQueue h _) _) ..) ..))))

theorem takeJob (d : Reg) (w : Word) : P (s.takeJob d w) := hP.finishG (keep_ite (hP.onCr h _) h) ..

theorem submitJob (d : Reg) (k : JobKind) : P (s.submitJob d k) :=
  keep_ite h (keep_ite (hP.awaitQueue h _) (hP.finishG (hP.onCore (hP.takeQueue h _) ..) ..))

theorem matrixJob (i : Instr) (sparse : Bool) (d a b : Reg) (pair : Nat) (f : Reg) : P (s.matrixJob i sparse d a b pair f) :=
  hP.allow h i [f] false (keep_ite (hP.trap h ..) (keep_ite (hP.trap h ..) (keep_ite (hP.trap h ..) (keep_ite (hP.trap h ..) (hP.submitJob h ..)))))

theorem orFlags (fl : FpFlags) : P (s.orFlags fl) := hP.onHere h _

theorem finishFp (w : Bool) (lanes : List FpFlags) {write : State → State} (hw : ∀ t, P t → P (write t)) : P (s.finishFp w lanes write) :=
  keep_ite (keep_ite (hP.retireW (hw _ (hP.orFlags h _))) (hP.retire (hw _ (hP.orFlags h _)))) (keep_ite h (hP.trap (hP.orFlags h _) ..))

theorem fpTo (w : Bool) (t : FloatFmt) (d : Reg) (r : Rounded) : P (s.fpTo w t d r) := hP.finishFp h w _ fun _ ht => hP.wrF ht ..

theorem wrConv (c : ConvFmt) (r : Reg) (x : Nat) : P (s.wrConv c r x) := by
  cases c with
  | float => exact hP.wrF h ..
  | scale => exact hP.wrF h ..
  | int => exact hP.wrG h ..

theorem alu (d a b : Reg) (op : Word → Word → Word) : P (s.alu d a b op) := hP.finishG h ..
theorem alu1 (d a : Reg) (op : Word → Word) : P (s.alu1 d a op) := hP.finishG h ..
theorem aluW (i : Instr) (d a b : Reg) (op : Word → Word → Word) : P (s.aluW i d a b op) := hP.allow h i [] true (hP.retireW (hP.wrG h ..))

theorem branch (a b : Reg) (o : BitVec 16) (test : Word → Word → Bool) : P (s.branch a b o test) := keep_ite (hP.retireTo h _) (hP.retire h)

theorem fp2 (i : Instr) (w : Bool) (t : FloatFmt) (d a b : Reg) (m : BitVec 3) (op : FloatFmt → Rounding → Nat → Nat → Rounded) :
    P (s.fp2 i w t d a b m op) := hP.allow h i _ w (hP.fpTo h ..)

theorem fpRoot (i : Instr) (w : Bool) (t : FloatFmt) (d a : Reg) (m : BitVec 3) : P (s.fpRoot i w t d a m) := hP.allow h i _ w (hP.fpTo h ..)

theorem fp3 (i : Instr) (p : BitVec 1) (d a b : Reg) (m : BitVec 3) (np nd : Bool) : P (s.fp3 i p d a b m np nd) := by
  unfold State.fp3
  exact hP.allow h i _ false (hP.fpTo h ..)

theorem fpRel (i : Instr) (p : BitVec 1) (d a b : Reg) (rel : Nat) : P (s.fpRel i p d a b rel) := by
  unfold State.fpRel
  exact hP.allow h i _ false (hP.finishFp h false _ fun _ ht => hP.wrG ht ..)

theorem fpPick (i : Instr) (p : BitVec 1) (d a b : Reg) (max : Bool) : P (s.fpPick i p d a b max) := by
  unfold State.fpPick
  exact hP.allow h i _ false (hP.fpTo h ..)

theorem fpSign (i : Instr) (p : BitVec 1) (d a b : Reg) (sign : Bool → Bool → Bool) : P (s.fpSign i p d a b sign) := by
  unfold State.fpSign
  exact hP.allow h i _ false (hP.retire (hP.wrF h ..))

theorem fpFunction (i : Instr) (p : BitVec 1) (d a : Reg) (m : BitVec 3) (fn : FloatFmt → Rounding → Nat → Option Rounded) :
    P (s.fpFunction i p d a m fn) := by
  unfold State.fpFunction
  refine hP.allow h i _ true ?_
  dsimp only
  split
  · exact hP.fpTo h ..
  · exact hP.fpTo (hP.update h) ..

theorem laneWrite (d : Reg) (k w : Nat) (f : Nat → Nat) : P (s.laneWrite d k w f) := hP.wrV h ..

theorem vint (i : Instr) (d a b : Reg) (k : BitVec 3) (w : BitVec 2) (op : Nat → Nat → Nat → Nat) : P (s.vint i d a b k w op) :=
  hP.allow h i _ false (hP.retire (hP.laneWrite h ..))

theorem vcompare (i : Instr) (d a b : Reg) (k : BitVec 3) (w : BitVec 2) (test : Nat → Nat → Nat → Bool) : P (s.vcompare i d a b k w test) :=
  hP.allow h i _ false (hP.retire (hP.wrK h ..))

theorem vfp (i : Instr) (d a b : Reg) (k : BitVec 3) (t : FloatFmt) (op : Nat → Nat → Nat → Rounded) : P (s.vfp i d a b k t op) :=
  hP.allow h i _ false (hP.finishFp h false _ fun _ ht => hP.laneWrite ht ..)

theorem vfred (i : Instr) (d a : Reg) (k : BitVec 3) (t : FloatFmt) (neutral : Nat) (op : Nat → Nat → Rounded) : P (s.vfred i d a k t neutral op) :=
  hP.allow h i _ false (hP.fpTo h ..)

end Stable

end Sys2Proof.Machine

namespace Sys2Proof.Machine

/-! ### Writes at LM ports (R110 to R112, R116, R162 to R164) -/

namespace Stable
variable {P : State → Prop} (hP : Stable P) (hw : Writable P) {s : State} (h : P s)
include hP hw h

theorem writeMem (a n v : Nat) : P (s.writeMem a n v) := hP.unpoison (hw a n v h) a n

theorem lmWrite (core off n v : Nat) : P (s.lmWrite core off n v) := hP.onCore (hP.writeMem hw h ..) ..

theorem traceWrite (core src kind log2 off value : Nat) : P (s.traceWrite core src kind log2 off value) :=
  keep_ite (hP.onCore (hP.lmWrite hw (hP.lmWrite hw (hP.lmWrite hw (hP.lmWrite hw h ..) ..) ..) ..) ..) h

theorem tracedWrite (core off n v src kind : Nat) : P (s.tracedWrite core off n v src kind) := by
  have written := hP.lmWrite hw h core off n v
  exact keep_ite (hP.traceWrite hw (hP.traceWrite hw written ..) ..) (hP.traceWrite hw written ..)

theorem portStore (exec core off n v : Nat) : P (s.portStore exec core off n v) := keep_ite (hP.lmWrite hw h ..) (hP.tracedWrite hw h ..)

theorem storeLm (core off n : Nat) (data : Quad) (o sc : Nat) : P (s.storeLm core off n data o sc) :=
  keep_ite h (keep_ite (hP.retire (hP.portStore hw (hP.onHere (hP.onHere h _) _) ..)) (hP.retire (hP.sendSkip h ..)))

theorem store (i : Instr) (n : Nat) (regs : List Reg) (data : State → Quad) (a : Reg) (o sc : BitVec 2) (hint : BitVec 1) (x : BitVec 8) :
    P (s.store i n regs data a o sc hint x) :=
  hP.allow h i regs false (hP.withTarget h _ _ _ (fun _ _ _ ht => hP.storeLm hw ht ..) fun _ _ ht => hP.storeMemory ht ..)

theorem feDo (id uid a : Nat) (op : FeOp) : P (s.feDo id uid a op) := by
  have read (d : Nat) {b c : Bool} (f : Ctx → Ctx) : P (if !b then s else if c then s.machineCheck id (BitVec.ofNat 64 a) else s.onCtx id f) :=
    keep_ite h (keep_ite (hP.machineCheck h ..) (hP.onCtx h ..))
  cases op with
  | ldf d => exact read d _
  | ldfe d => exact hP.setFull (read d _) a false
  | sde v bad =>
    have written {c : Prop} [Decidable c] {core off src : Nat} := keep_ite (c := c) (hP.lmWrite hw h core off 8 v.toNat) (hP.tracedWrite hw h core off 8 v.toNat src 1)
    exact hP.setFull (keep_ite (hP.setPoison written a true) written) a true

theorem serveOne {a : Nat} {t : State} (e : s.serveOne a = some t) : P t := by
  unfold State.serveOne at e
  split at e
  · nomatch e
  · split at e
    · nomatch e
    · exact Option.some.inj e ▸ hP.feDo hw (hP.unitFreed (hP.update h) _) ..

theorem serveWaiters (a n : Nat) : P (s.serveWaiters a n) := by
  induction n generalizing s with
  | zero => exact h
  | succ n ih =>
    unfold State.serveWaiters
    split
    · rename_i e; exact ih (hP.serveOne hw h e)
    · exact h

theorem setFullServe (a : Nat) (full : Bool) : P (s.setFullServe a full) := hP.serveWaiters hw (hP.setFull h ..) ..

theorem feArrive (id uid a : Nat) (op : FeOp) (acq : Bool) (seq part : Nat) (launch : Option Nat) (word : IWord) :
    P (s.feArrive id uid a op acq seq part launch word).2 := by
  have offered := hP.offer h (.lmPort ((lmCore? a).getD 0)) id (32 - s.waitersAt ((lmCore? a).getD 0))
  unfold State.feArrive
  dsimp only
  split
  · exact offered
  · split
    · dsimp only; exact hP.serveWaiters hw (hP.feDo hw offered ..) ..
    · exact hP.update offered

theorem of_feArrive {id uid a : Nat} {op : FeOp} {acq : Bool} {seq part : Nat} {launch : Option Nat} {word : IWord} {ok : Bool} {t : State}
    (e : s.feArrive id uid a op acq seq part launch word = (ok, t)) : P t := by
  have := hP.feArrive hw h id uid a op acq seq part launch word
  rwa [e] at this

theorem feIssue (core off : Nat) (op : FeOp) (acq : Bool) : P (s.feIssue core off op acq) := by
  refine keep_ite h ?_
  have waiting := hP.onHere h fun c => c.awaitMaybe op.target
  split
  all_goals rename_i e; have arrived := hP.of_feArrive hw waiting e
  · exact hP.retire (hP.onCore arrived ..)
  · exact hP.retire (hP.onLast (hP.send arrived _) _)

theorem traceFeset (exec core off : Nat) (full : Bool) : P (s.traceFeset exec core off full) := keep_ite h (hP.traceWrite hw h ..)

theorem feset (a : Reg) (x : BitVec 8) (full : Bool) : P (s.feset a x full) :=
  hP.feTarget h _ _ fun _ _ _ ht => keep_ite ht (keep_ite (hP.retire (hP.setFullServe hw (hP.traceFeset hw ht ..) ..)) (keep_ite ht (hP.retire (hP.send ht _))))

/-! ### Reading a launch record (R179, R190, R331) -/

theorem hostAt (l : HostLine) (a : Nat) : P (s.hostAt l a) := by
  refine keep_ite h ?_
  have moved := hP.setHostLine (hP.writeMem hw h (sectorOf a) 64 (s.mem.readNat l.va 64)) { l with va := sectorOf a }
  exact List.foldlRecOn _ _ moved fun t ht i _ => hP.setPoison ht _ true

theorem hostNeed (p a hpa : Nat) (write : Bool) : P (s.hostNeed p a hpa write).2 := by
  unfold State.hostNeed
  split
  · split
    · exact h
    · split
      · exact hP.hostAt hw h ..
      · split
        · exact hP.setHostLine h _
        · exact h
  · split
    · exact h
    · rename_i e; exact hP.setHostLine (hP.hostRoom h e) _

theorem atHome (p a : Nat) (write : Bool) (sent : Option Nat) : P (s.atHome p a write sent).2 := by
  unfold State.atHome
  split
  · exact h
  · split
    · exact h
    · rename_i sl _ _
      have translated := hP.translateAt h sl p a
      split
      all_goals rename_i e; rw [e] at translated
      · exact translated
      · exact hP.reportFault translated ..
      · split
        · exact translated
        · split
          · exact translated
          · have needed := hP.hostNeed hw translated p a ‹_› write
            split
            all_goals rename_i e; rw [e] at needed; exact needed

theorem of_atHome {p a : Nat} {write : Bool} {sent : Option Nat} {r : HomeFate} {t : State} (e : s.atHome p a write sent = (r, t)) : P t := by
  have := hP.atHome hw h p a write sent
  rwa [e] at this

theorem fetchAt (p : Nat) (core : Option Nat) (who : Option Who) (c : Stamp) (attr : Nat) (ro : Bool) (a n : Nat) :
    P (s.fetchAt p core who c attr ro a n).2 := by
  -- The functions that it calls are variables below `id`, so that no check of a match runs them.
  have home {r t} := @of_atHome P hP hw s h p a false none r t
  have ok {u : State} := @of_serveRead P hP u
  have error {u : State} := @of_serveRead_error P hP u
  unfold State.fetchAt
  revert home ok error
  generalize @State.atHome = atHome
  generalize @State.serveRead = read
  revert atHome read
  refine id ?_
  intro atHome read home ok error
  dsimp only
  split
  · cases core with
    | none => exact h
    | some k => dsimp only; exact hP.onCore h ..
  · split
    all_goals rename_i e; have arrived := home e
    · exact arrived
    · exact arrived
    · exact arrived
    · split
      · exact arrived
      · split
        · rename_i e; exact error arrived e
        · rename_i e
          have served := ok arrived e
          cases core with
          | none => exact served
          | some k => dsimp only; exact keep_ite (hP.onCore served ..) served

theorem of_fetchAt {p : Nat} {core : Option Nat} {who : Option Who} {c : Stamp} {attr : Nat} {ro : Bool} {a n : Nat} {r : Fetched} {t : State}
    (e : s.fetchAt p core who c attr ro a n = (r, t)) : P t := by
  have := hP.fetchAt hw h p core who c attr ro a n
  rwa [e] at this

theorem fetchWords (p : Nat) (core : Option Nat) (who : Option Who) (c : Stamp) (attr : Nat) (ro : Bool) (a k : Nat) :
    P (s.fetchWords p core who c attr ro a k).2 := by
  induction k generalizing s a with
  | zero => exact h
  | succ k ih =>
    unfold State.fetchWords
    split
    · rename_i e
      have rest := ih (hP.of_fetchAt hw h e) (a + 8)
      split
      all_goals rename_i e; rw [e] at rest; exact rest
    · rename_i e; exact hP.of_fetchAt hw h e

theorem of_fetchWords {p : Nat} {core : Option Nat} {who : Option Who} {c : Stamp} {attr : Nat} {ro : Bool} {a k : Nat} {r} {t : State}
    (e : s.fetchWords p core who c attr ro a k = (r, t)) : P t := by
  have := hP.fetchWords hw h p core who c attr ro a k
  rwa [e] at this

theorem readRecord (addr : Nat) (e : RightsEntry) (c : Stamp) : P (s.readRecord addr e c).2 := by
  unfold State.readRecord
  dsimp only
  split
  · rename_i r; exact hP.of_fetchWords hw h r
  · rename_i r
    have record := hP.of_fetchWords hw h r
    split
    · exact record
    · split
      · rename_i r; exact hP.of_plbLookup record r
      · rename_i r
        have first := hP.of_plbLookup record r
        split
        · rename_i r; exact hP.of_plbLookup first r
        · rename_i r
          have last := hP.of_plbLookup first r
          split
          · exact last
          · split
            · exact last
            · split
              all_goals rename_i r; exact hP.of_fetchWords hw last r

theorem of_readRecord {addr : Nat} {e : RightsEntry} {c : Stamp} {r} {t : State} (q : s.readRecord addr e c = (r, t)) : P t := by
  have := hP.readRecord hw h addr e c
  rwa [q] at this

end Stable

end Sys2Proof.Machine

namespace Sys2Proof.Machine

/-! ### Every instruction word -/

/-- The next state that an answer gives, if it gives one, has a property. -/
def Answer.Gives (P : State → Prop) : Answer → Prop
  | .next t => P t
  | _ => True

theorem Answer.Gives.next {P : State → Prop} {a : Answer} {t : State} (h : a.Gives P) (e : a = .next t) : P t := by
  subst e; exact h

namespace Stable
variable {P : State → Prop} (hP : Stable P) {s : State} (h : P s)
include hP h

theorem execSpawn (d a b : Reg) : Answer.Gives P (execSpawn d a b s) := by
  refine keep_ite (P := P) (hP.illegal h _) (keep_ite (hP.trap h ..) (keep_ite (hP.trap h ..) (keep_ite h ?_)))
  dsimp only
  split
  · exact hP.finishG h ..
  · exact keep_ite (hP.finishG h ..) (hP.finishG (hP.addSpawn (hP.drift h _) ..) ..)

theorem execPpurge (a : Reg) (r : BitVec 2) (x : BitVec 8) : Answer.Gives P (execPpurge a r x s) := by
  unfold Machine.execPpurge
  dsimp only [Answer.Gives]
  split
  · exact hP.trap h ..
  · exact keep_ite (hP.trap h ..) (keep_ite (hP.trap h ..) (hP.retire h))
  · split
    all_goals rename_i e; have looked := hP.of_plbLookup h e
    · exact hP.trap looked ..
    · refine keep_ite (hP.trap looked ..) (keep_ite looked (keep_ite (hP.awaitMiss looked) ?_))
      split
      · exact hP.retire (hP.onCore looked ..)
      · exact hP.retire (hP.send (hP.takeMissHere (hP.purgeAlong (hP.onCore looked ..) ..)) _)

theorem execLease (d a : Reg) (r : BitVec 2) (x : BitVec 8) : Answer.Gives P (execLease d a r x s) :=
  keep_ite (P := P) (hP.detForbid h _) (hP.withTarget h _ _ _ (fun _ _ _ ht => hP.finishG ht ..) fun _ _ ht =>
    keep_ite (hP.finishG ht ..) (keep_ite ht (keep_ite (hP.awaitMiss ht) (hP.retire (hP.onHere (hP.send (hP.takeMissHere (hP.drift ht _)) _) _)))))

theorem execPref (a : Reg) (r : BitVec 2) (hint : BitVec 1) (x : BitVec 8) : Answer.Gives P (execPref a r hint x s) := by
  unfold Machine.execPref
  dsimp only [Answer.Gives]
  split
  · exact hP.trap h ..
  · exact keep_ite (hP.retire h) (hP.trap h ..)
  · split
    all_goals rename_i e; have looked := hP.of_plbLookup h e
    · exact hP.retire looked
    · have drifted := hP.drift looked (State.cur ‹_›)
      exact keep_ite (hP.retire drifted) (keep_ite (hP.retire (hP.onCore drifted ..)) (keep_ite (hP.retire drifted) (keep_ite drifted
        (hP.retire (hP.send drifted _)))))

theorem execXpush (d a : Reg) : Answer.Gives P (execXpush d a s) := by
  unfold Machine.execXpush
  dsimp only [Answer.Gives]
  split
  · exact keep_ite (hP.trap h ..) (keep_ite (hP.trap h ..) (keep_ite (hP.trap h ..) (keep_ite h (keep_ite (hP.machineCheck h ..) (hP.pushCopy h ..)))))
  · exact hP.trap h ..

theorem execXstat (d a : Reg) : Answer.Gives P (execXstat d a s) := by
  refine keep_ite (P := P) (hP.detForbid h _) ?_
  split
  · exact hP.finishG h ..
  · exact hP.finishG (keep_ite (hP.raiseLclk h ..) h) ..

theorem execMst (d a b : Reg) (c : BitVec 2) : Answer.Gives P (execMst d a b c s) := by
  unfold Machine.execMst
  dsimp only [Answer.Gives]
  split
  · exact hP.trap h ..
  · refine keep_ite (hP.trap h ..) (keep_ite (hP.trap h ..) ?_)
    split
    · exact hP.trap h ..
    · exact hP.submitJob h ..

theorem execMldt (d a b : Reg) (q : BitVec 3) : Answer.Gives P (execMldt d a b q s) := by
  refine keep_ite (P := P) (hP.trap h ..) (keep_ite (hP.trap h ..) (keep_ite (hP.trap h ..) ?_))
  dsimp only
  split
  · exact hP.trap h ..
  · exact hP.submitJob h ..

theorem execRst (hw : Writable P) (d : Reg) (t w : BitVec 1) (q : BitVec 3) (i o : BitVec 8) : Answer.Gives P (execRst d t w q i o s) := by
  refine hP.allow h _ _ false (hP.ringAccess h _ _ _ _ _ fun off => ?_)
  dsimp only
  split
  · split
    · exact keep_ite (hP.trap h ..) (hP.storeLm hw (hP.onCore h ..) ..)
    · exact hP.storeLm hw (hP.onCore h ..) ..
  · exact hP.storeLm hw h ..

theorem execSde (hw : Writable P) (d a : Reg) (o : BitVec 1) (x : BitVec 8) : Answer.Gives P (execSde d a o x s) :=
  hP.feTarget h _ _ fun _ _ _ ht => keep_ite (keep_ite ht (keep_ite ht (hP.feIssue hw (hP.onHere ht _) ..))) (keep_ite ht (hP.retire (hP.send ht _)))

theorem execLaunch (hw : Writable P) (d a : Reg) : Answer.Gives P (execLaunch d a s) := by
  refine hP.wordTarget h _ _ _ fun t e ht => keep_ite ht ?_
  dsimp only
  split
  all_goals rename_i q; have read := hP.of_readRecord hw (hP.drift ht _) q
  · exact hP.launchUnread read _
  · exact hP.trap read ..
  · exact keep_ite (hP.machineCheck read ..) (hP.launchRecord (hP.raiseLclk read ..) ..)

/-- Every instruction word keeps a predicate that is stable under the updates that words are made of. -/
theorem exec_word (hw : Writable P) {i : Instr} (hi : i.isWord = true) : Answer.Gives P (exec i s) := by
  cases i with
  | add | sub | and | or | xor | andn | sll | srl | sra | slt | sltu | min | max | minu | maxu | mul | mulh | mulhu => exact hP.alu h ..
  | clz | ctz | popc | addi | andi | ori | xori | slti | sltiu | slli | srli | srai | shori => exact hP.alu1 h ..
  | div | divu | rem | remu => exact hP.aluW h ..
  | lhi => exact hP.finishG h ..
  | nop | yield => exact hP.retire h
  | beq | bne | blt | bge | bltu | bgeu => exact hP.branch h ..
  | jal => exact hP.retireTo (hP.wrG h ..) _
  | jalr => exact keep_ite (P := P) (hP.trap h ..) (hP.retireTo (hP.wrG h ..) _)
  | spawn => exact hP.execSpawn h ..
  | exit => exact keep_ite (P := P) (hP.illegal h _) (hP.phaseLeave (hP.exitThread h _) _)
  | home => exact hP.finishG h ..
  | waitt => exact keep_ite (P := P) (hP.illegal h _) (keep_ite (hP.retire h) (hP.onHere h _))
  | lclkup => exact keep_ite (P := P) (hP.detForbid h _) (hP.finishG (hP.raiseLclk h ..) ..)
  | iflush => exact keep_ite (P := P) h (hP.retire (hP.onCore h ..))
  | trap => exact hP.trapOf h ..
  | eret => exact keep_ite (P := P) (hP.illegal h _) (hP.onHere h _)
  | crr | crw | crs | crc => exact hP.controlStep h ..
  | rwait | rroom => exact hP.ringWait h ..
  | radvh => exact keep_ite (P := P) (hP.ringAdvance h ..) (hP.unitsFreed (hP.ringAdvance h ..) ..)
  | radvt => exact hP.ringAdvance h ..
  | rld =>
    refine hP.allow h _ _ _ ?_
    exact hP.ringAccess h _ _ _ _ _ fun _ => hP.loadLm h ..
  | rst => exact hP.execRst h hw ..
  | join => exact keep_ite (P := P) (hP.detForbid h _) (keep_ite (hP.trap h ..) (hP.wordTarget h _ _ _ fun _ _ ht => hP.sendAtomic ht ..))
  | leave => exact keep_ite (P := P) (hP.detForbid h _) (hP.wordTarget h _ _ _ fun _ _ ht => keep_ite ht (hP.sendAtomic ht ..))
  | bar => exact keep_ite (P := P) (hP.illegal h _) (hP.wordTarget h _ _ _ fun _ _ ht => keep_ite ht (hP.sendAtomic ht ..))
  | cwait | ticket => exact keep_ite (P := P) (hP.illegal h _) (keep_ite (hP.detForbid h _) (hP.wordTarget h _ _ _ fun _ _ ht => hP.sendAtomic ht ..))
  | serve => exact hP.wordTarget h _ _ _ fun _ _ ht => hP.sendAtomic ht ..
  | gamoD | gamoW => exact hP.gamo h ..
  | launch => exact hP.execLaunch h hw ..
  | sendLo | sendHi | sendr => exact hP.sendMessage h ..
  | hret => exact keep_ite (P := P) (hP.illegal h _) (hP.endHandler (hP.raiseLaunch h ..) _)
  | xpush => exact hP.execXpush h ..
  | xstat => exact hP.execXstat h ..
  | aadd | aand | aor | axor | amin | amax | aminu | amaxu | aswap | acas | afadd => exact hP.atomic h ..
  | mma | mmasp => exact hP.matrixJob h ..
  | ewr => exact keep_ite (P := P) (hP.retire (hP.onCore h ..)) h
  | erd => exact keep_ite (P := P) (hP.finishG h ..) h
  | mzero => exact keep_ite (P := P) (hP.awaitQueue h _) (hP.retire (hP.onCore (hP.takeQueue h _) ..))
  | mst => exact hP.execMst h ..
  | mldt d a b q => exact hP.execMldt h d a b q
  | jwait => exact keep_ite (P := P) (hP.illegal h _) (keep_ite (hP.onHere h _) (hP.takeJob h ..))
  | jpoll => exact keep_ite (P := P) (hP.detForbid h _) (hP.takeJob h ..)
  | lb | lbu | lh | lhu | lw | lwu | ld | flw | fld | vld => exact hP.load h ..
  | sb | sh | sw | sd | fsw | fsd | vst => exact hP.store hw h ..
  | ldf | ldfe => exact hP.feTarget h _ _ fun _ _ _ ht => hP.feIssue hw ht ..
  | sde => exact hP.execSde h hw ..
  | fesetE | fesetF => exact hP.feset hw h ..
  | fence => exact keep_ite (P := P) h (hP.retire (hP.onHere (hP.drift h _) _))
  | ppurge => exact hP.execPpurge h ..
  | lease => exact hP.execLease h ..
  | pref => exact hP.execPref h ..
  | fadd | fsub | fmul | fdivS | fdivD => exact hP.fp2 h ..
  | fsqrtS | fsqrtD => exact hP.fpRoot h ..
  | fmin | fmax => exact hP.fpPick h ..
  | fma | fms | fnma | fnms => exact hP.fp3 h ..
  | feq | flt | fle => exact hP.fpRel h ..
  | fclass | fmvgf =>
    refine hP.allow h _ _ _ ?_
    exact hP.finishG h ..
  | fsgnj | fsgnjn | fsgnjx => exact hP.fpSign h ..
  | fmvfg =>
    refine hP.allow h _ _ _ ?_
    exact hP.retire (hP.wrF h ..)
  | fexp | flog | ferf => exact hP.fpFunction h ..
  | vcrc =>
    refine hP.allow h _ _ _ ?_
    exact hP.retireW (hP.wrG h ..)
  | fcvt =>
    refine hP.allow h _ _ _ ?_
    exact hP.finishFp h _ _ fun _ ht => hP.wrConv ht ..
  | vadd | vsub | vmul | vmulh | vmulhu | vand | vor | vxor | vsll | vsrl | vsra | vmin | vmax | vminu | vmaxu | vadds | vsubs | vaddus | vsubus => exact hP.vint h ..
  | vcmpeq | vcmplt | vcmpltu => exact hP.vcompare h ..
  | vsel =>
    refine hP.allow h _ _ _ ?_
    exact hP.retire (hP.wrV h ..)
  | vsplat | vins | vperm | vdot =>
    refine hP.allow h _ _ _ ?_
    exact hP.retire (hP.laneWrite h ..)
  | vext | vred =>
    refine hP.allow h _ _ _ ?_
    exact hP.finishG h ..
  | kand | kor | kxor | kandn | kmovg => exact hP.retire (hP.wrK h ..)
  | gmovk => exact hP.finishG h ..
  | vfadd | vfsub | vfmul | vfma | vfnma | vfmin | vfmax => exact hP.vfp h ..
  | vfcmp =>
    refine hP.allow h _ _ _ ?_
    exact hP.finishFp h _ _ fun _ ht => hP.wrK ht ..
  | vcvt =>
    refine hP.allow h _ _ _ ?_
    exact hP.finishFp h _ _ fun _ ht => hP.wrV ht ..
  | vfredSum | vfredMin | vfredMax => exact hP.vfred h ..
  | _ => nomatch hi

end Stable

end Sys2Proof.Machine

namespace Sys2Proof.Machine

/-! ### What stewards and management keep (R304 to R318, R373) -/

/-- In `t` everything that stewards and management commands keep stands as in `s`. -/
structure State.StewardsAgree (s t : State) : Prop where
  domains : t.domains = s.domains
  pte : t.pte = s.pte
  mgmt : t.mgmt = s.mgmt
  disabled : t.disabled = s.disabled
  saved : t.saved = s.saved
  dies : t.dies = s.dies
  trust : t.trust = s.trust
  zwion : t.zwion = s.zwion
  gtr : t.gtr = s.gtr
  absent (p : Nat) : t.parts.get p = none ↔ s.parts.get p = none
  parts (p : Nat) (q' : Part) : t.parts.get p = some q' → ∃ q : Part, s.parts.get p = some q ∧ q.Agrees q'

theorem State.StewardsAgree.refl (s : State) : s.StewardsAgree s where
  domains := rfl
  pte := rfl
  mgmt := rfl
  disabled := rfl
  saved := rfl
  dies := rfl
  trust := rfl
  zwion := rfl
  gtr := rfl
  absent _ := Iff.rfl
  parts _ q' e := ⟨q', e, rfl⟩

theorem Part.Agrees.trans {q q' q'' : Part} (h : q.Agrees q') (h' : q'.Agrees q'') : q.Agrees q'' := by
  unfold Part.Agrees at *
  rw [← h, ← h']

theorem stable_stewards (s : State) : Stable s.StewardsAgree where
  update h := { h with }
  onPart {t p f} hf h := by
    unfold State.onPart
    split
    · rename_i q e
      refine { h with absent := fun p' => ?_, parts := fun p' q' e' => ?_ }
      · by_cases same : p' = p
        · subst same; simp [FMap.get_set, ← h.absent, e]
        · simp [FMap.get_set, same, h.absent]
      · by_cases same : p' = p
        · subst same
          obtain ⟨q0, e0, agrees⟩ := h.parts _ _ e
          have new : f q = q' := by simpa [FMap.get_set] using e'
          exact ⟨q0, e0, new ▸ agrees.trans (hf q)⟩
        · exact h.parts _ _ (by simpa [FMap.get_set, same] using e')
    · exact h

theorem writable_stewards (s : State) : Writable s.StewardsAgree := fun _ _ _ h => { h with }

/-- Settles O60: words are made of updates that leave what stewards keep as it was. -/
theorem programsCannotTouchWhatStewardsKeep : Obligations.ProgramsCannotTouchWhatStewardsKeep := by
  intro s t i word next
  have h := ((stable_stewards s).exec_word (.refl s) (writable_stewards s) word).next next
  refine ⟨h.domains, h.pte, h.mgmt, h.disabled, h.saved, h.dies, h.trust, h.zwion, h.gtr, h.absent, fun p q' e => ?_⟩
  obtain ⟨q, same, agrees⟩ := h.parts p q' e
  unfold Part.Agrees at agrees
  exact ⟨q, same, (congrArg Part.qx0 agrees :), (congrArg Part.qy0 agrees :), (congrArg Part.qw agrees :), (congrArg Part.qh agrees :), (congrArg Part.det agrees :), (congrArg Part.tick agrees :),
    (congrArg Part.weight agrees :), (congrArg Part.phaseGroup agrees :), (congrArg Part.vfs agrees :), (congrArg Part.st agrees :), (congrArg Part.regions agrees :)⟩

end Sys2Proof.Machine

/-!
PROOFS. What every event keeps of memory's form (R18, R97, R110, R158, R324): each operation that events are made of either leaves the bytes alone, or writes, drops or clears some.
-/
namespace Sys2Proof.Machine

/-- A predicate that looks at the bytes of memory and LM alone, and that writing, dropping and clearing bytes keep. -/
structure OfBytes (P : State → Prop) : Prop extends Stable P where
  same {s t : State} : P s → t.mem = s.mem → P t
  writes : Writable P
  write {s : State} (a : Nat) (b : Byte) : P s → P { s with mem := s.mem.write a b }
  filter {s : State} (stays : Host.Cell → Bool) : P s → P { s with mem := s.mem.filter stays }
  cleared {s : State} : s.mem = [] → P s

theorem ofBytes_memWf : OfBytes State.memWf where
  toStable := stable_memWf
  same h e := by unfold State.memWf at *; rwa [e]
  writes := writable_memWf
  write a b h := Memory.wf_write h a b
  filter stays h := Memory.wf_filter h stays
  cleared e := by unfold State.memWf; rw [e]; rfl

/-- A fold keeps a predicate that each of its steps keeps. -/
theorem keep_foldl {α β : Type*} {P : β → Prop} {f : β → α → β} {l : List α} {b : β} (h : P b) (hf : ∀ b a, P b → P (f b a)) : P (l.foldl f b) :=
  List.foldlRecOn l f h fun b hb a _ => hf b a hb

theorem keep_snd {α β : Type*} {P : β → Prop} {x : α × β} {a : α} {b : β} (e : x = (a, b)) (h : P x.2) : P b := by
  subst e; exact h

namespace OfBytes
variable {P : State → Prop} (hP : OfBytes P) {s : State} (h : P s)
include hP h

theorem frame {emptied poison ctxs cores net cur agenda gtr dies disabled parts domains pte migFifo rrJobs energy mgmt host zwion trust saved nextUid free late} :
    P { s with
      emptied := emptied, poison := poison, ctxs := ctxs, cores := cores, net := net, cur := cur, agenda := agenda, gtr := gtr, dies := dies, disabled := disabled
      parts := parts, domains := domains, pte := pte, migFifo := migFifo, rrJobs := rrJobs, energy := energy, mgmt := mgmt, host := host, zwion := zwion
      trust := trust, saved := saved, nextUid := nextUid, free := free, late := late } := hP.same h rfl

/-! ### Requests on their way, wakes and answers (R104, R115) -/

theorem of_offer {r : Res} {src units : Nat} {b : Bool} {t : State} (e : s.offer r src units = (b, t)) : P t := keep_snd e (hP.offer h ..)
theorem takeCharge (c : Charge) : P (s.takeCharge c) := hP.onEnergy h ..
theorem takeDue (id : Nat) (t : DueTrap) : P (s.takeDue id t) := hP.trapOf (hP.onCtx h ..) ..
theorem wakeWhere (test : Nat → Ctx → Bool) : P (s.wakeWhere test) := hP.frame h
theorem dropFlight (n : Nat) : P (s.dropFlight n) := hP.setFlights h _
theorem putFlight (n : Nat) (f : Flight) : P (s.putFlight n f) := hP.setFlights h _
theorem answer (n : Nat) (f : Flight) (k : FKind) : P (s.answer n f k) := hP.sendFlight (hP.dropFlight h n) _
theorem dropStale : P s.dropStale := hP.setFlights h _
theorem depositAlong (routers : List (Nat × Nat)) (p a : Nat) (k : SecCopy) : P (s.depositAlong routers p a k) := hP.frame h

theorem touchDew (x y p a : Nat) : P (s.touchDew x y p a) := by
  unfold State.touchDew
  split
  · exact hP.frame h
  · exact h

theorem letPins (p core : Nat) : P (s.letPins p core) := keep_foldl h fun _ _ ht => hP.releasePins ht ..

theorem returnFromW (id : Nat) : P (s.returnFromW id) := by
  unfold State.returnFromW
  split
  · exact h
  · exact hP.migrateHead (hP.moveCtx h ..) _

theorem sendHost (x : HostAnswer) : P (s.sendHost x) := hP.frame h
theorem sendWake (p : Nat) (key : Key) (value : Word) (wts : Stamp) (port : Port) (unrecorded : Bool) : P (s.sendWake p key value wts port unrecorded) := hP.sendFlight h _

theorem wakeChanged (before : State) (sl p a n : Nat) (wts : Stamp) : P (before.wakeChanged s sl p a n wts) := by
  refine keep_foldl (hP.frame h) fun t r ht => ?_
  split
  · exact hP.sendWake ht ..
  · exact ht

theorem wantWrite (sl : Nat) (host : Option Nat) (p : Nat) (w : Stamp) : P (s.wantWrite sl host p w) := keep_ite h (hP.wantStamp h ..)

theorem makeVersion (sl : Nat) (host : Option Nat) (p a n v : Nat) (w : Stamp) (x : SecRec) : P (s.makeVersion sl host p a n v w x) := by
  have written := hP.setSector (hP.writeMem hP.writes h a n v) sl p a (newVersion w x)
  unfold State.makeVersion
  dsimp only
  split
  · exact hP.wakeChanged written ..
  · split
    · exact hP.wakeChanged (hP.setHostLine written _) ..
    · exact hP.wakeChanged written ..

/-! ### Phases of a deterministic partition (R128) -/

theorem phaseEnd (p gen : Nat) : P (s.phaseEnd p gen) := by
  unfold State.phaseEnd
  split
  · exact h
  · exact hP.frame (hP.writeMem hP.writes h ..)

theorem phaseCheck (p a old new : Nat) : P (s.phaseCheck p a old new) := by
  unfold State.phaseCheck
  split
  · exact keep_ite (hP.phaseEnd h ..) h
  · exact h

/-! ### Copies and failures (R220 to R224, R346) -/

theorem onCopy (core seq : Nat) (g : CopyRec → CopyRec) : P (s.onCopy core seq g) := by
  unfold State.onCopy
  split
  · exact hP.onCore h ..
  · exact h

theorem chargeIssuer (launch : Option Nat) (p ctx uid : Nat) (r : AbortRec) : P (s.chargeIssuer launch p ctx uid r) := by
  cases launch with
  | some slot => exact hP.orderAbort h ..
  | none => exact hP.logAbort (keep_ite (hP.endHandler h ctx) h) ..

theorem endCopy (core seq status : Nat) : P (s.endCopy core seq status) := by
  unfold State.endCopy
  split
  · exact h
  · rename_i x _
    have ended := hP.onCopy (hP.lift h x.charge) core seq fun x => { x with status := status, parked := none, charge := none }
    refine keep_ite h ?_
    dsimp only
    have freed {c : Prop} [Decidable c] (g : Core → Core) := keep_ite (c := c) ended (hP.onCore ended core g)
    split
    · exact hP.onCtx (freed _) ..
    · split
      · exact keep_ite (freed _) (hP.onLaunch (freed _) ..)
      · exact freed _

theorem failCopy (core seq kind a : Nat) (val : Option Word) : P (s.failCopy core seq kind a val) := by
  unfold State.failCopy
  split
  · exact h
  · exact keep_ite h (hP.chargeIssuer (hP.endCopy h ..) ..)

theorem failFlight (f : Flight) (kind a : Nat) : P (s.failFlight f kind a) := keep_ite (hP.failCopy h ..) (hP.chargeIssuer h ..)
theorem faultOver (id : Nat) : P (s.faultOver id) := keep_ite (hP.onCtx h ..) h

theorem raceAt (f : Flight) (d : Option RegRef) (a : Nat) (w : Who) : P (s.raceAt f d a w) :=
  keep_ite (hP.trapLater (hP.onCtx (hP.leaveFifo h _) ..) ..) (keep_ite (hP.failCopy h ..) h)

/-! ### Loads answered (R99, R100) -/

theorem bumpLoads (id uid seq a n : Nat) (w : Stamp) : P (s.bumpLoads id uid seq a n w) := hP.setFlights h _

theorem condense (f : Flight) (q : LoadReq) (x : SecCopy) (hop : Nat) (give : Bool) : P (s.condense f q x hop give) := by
  have left {c : Prop} [Decidable c] (routers : List (Nat × Nat)) := keep_ite (c := c) (hP.depositAlong h routers f.part q.addr x) h
  exact keep_ite (hP.onCore (left _) ..) (left _)

theorem finishLoad (f : Flight) (q : LoadReq) (x : SecCopy) (atHome : Bool) : P (s.finishLoad f q x atHome) := by
  unfold State.finishLoad
  dsimp only
  split
  · exact h
  · exact hP.onCtx h ..
  · exact keep_ite (hP.machineCheck h ..) (hP.onCtx (hP.bumpLoads (hP.absorbVersion h ..) ..) ..)

theorem portLoad (f : Flight) (fmt : LoadFmt) (d a : Nat) : P (s.portLoad f fmt d a) := keep_ite h (keep_ite (hP.machineCheck h ..) (hP.onCtx h ..))

/-! ### Stores at their home (R131 to R146, R176) -/

theorem keepAnswer (sl : Nat) (f : Flight) (k : FKind) : P (s.keepAnswer sl f k) := hP.frame h
theorem recordRelease (f : Flight) (rel : Bool) : P (s.recordRelease f rel) := keep_ite (hP.onCtx h ..) h
theorem sendPushAck (f : Flight) (a delivered refused : Nat) (skipped : Bool) : P (s.sendPushAck f a delivered refused skipped) := hP.sendFlight h _

theorem pushCopies (f : Flight) (q : StoreReq) (sl : Nat) (copy : SecCopy) : P (s.pushCopies f q sl copy) :=
  keep_ite (hP.sendPushAck h ..) (keep_foldl (hP.frame h) fun _ _ ht => hP.sendFlight ht _)

theorem raiseRts (sl p a : Nat) (top : Stamp) : P (s.raiseRts sl p a top) := hP.setSector h ..

theorem pushAfter (f : Flight) (q : StoreReq) (sl : Nat) (host : Option Nat) (v : SecCopy) (top : Stamp) : P (s.pushAfter f q sl host v top) :=
  keep_ite h (keep_ite (hP.sendPushAck h ..) (keep_ite (hP.sendPushAck h ..) (keep_ite (hP.pushCopies (hP.raiseRts h ..) ..) (hP.sendFlight (hP.wantStamp h ..) _))))

theorem carryPoison (a : Nat) (p : BitVec 2) : P (s.carryPoison a p) := by
  have low {c : Prop} [Decidable c] := keep_ite (c := c) (hP.setPoison h a true) h
  exact keep_ite (hP.setPoison low ..) low

theorem of_storeAt {n : Nat} {f : Flight} {q : StoreReq} {sl : Nat} {host : Option Nat} {x : SecRec} {t : State} (e : s.storeAt n f q sl host x = .ok t) : P t := by
  unfold State.storeAt at e
  dsimp only at e
  split at e
  · nomatch e
  · split at e
    · nomatch e
    · split at e
      · exact Except.ok.inj e ▸ hP.wantStamp h ..
      · exact Except.ok.inj e ▸ hP.pushAfter (hP.answer (hP.keepAnswer (hP.carryPoison (hP.makeVersion (hP.recordRelease h ..) ..) ..) ..) ..) ..

theorem storeReady (n : Nat) (f : Flight) (q : StoreReq) (sl : Nat) (host : Option Nat) : P (s.storeReady n f q sl host) := by
  unfold State.storeReady
  dsimp only
  split
  · exact hP.raceAt (hP.dropFlight h n) ..
  · split
    · rename_i e; exact hP.of_storeAt h e
    · exact hP.putFlight h ..

theorem parkCopy (core seq a : Nat) : P (s.parkCopy core seq a) := by
  unfold State.parkCopy
  split
  · exact h
  · exact hP.sendFlight (hP.onCopy h ..) _

theorem copyParks (f : Flight) (a : Nat) : P (s.copyParks f a) := by
  unfold State.copyParks
  split
  · exact keep_ite (hP.parkCopy h ..) h
  · exact h

theorem parkStore (n : Nat) (f : Flight) (q : StoreReq) (sl : Nat) : P (s.parkStore n f q sl) := by
  refine keep_ite (hP.putFlight h ..) ?_
  split
  all_goals rename_i e; have offered := hP.of_offer h e
  · exact hP.copyParks (hP.putFlight offered ..) ..
  · exact hP.putFlight offered ..

theorem storeArrives (n : Nat) (f : Flight) (q : StoreReq) : P (s.storeArrives n f q) := by
  unfold State.storeArrives
  split
  all_goals rename_i e; have home := hP.of_atHome hP.writes h e
  · exact hP.failFlight (hP.dropFlight home n) ..
  · exact home
  · exact hP.parkStore home ..
  · split
    · exact hP.answer home ..
    · exact keep_ite (hP.parkStore home ..) (hP.storeReady home ..)

theorem pushNow (n : Nat) (f : Flight) (q : StoreReq) (v : SecCopy) (top : Stamp) : P (s.pushNow n f q v top) := by
  unfold State.pushNow
  split
  · exact hP.sendPushAck (hP.dropFlight h n) ..
  · exact keep_ite (hP.pushCopies (hP.raiseRts (hP.dropFlight h n) ..) ..) (hP.wantStamp h ..)

/-! ### Atomics at their home (R173 to R177) -/

theorem dispense (sl a : Nat) (taken : Bool) (new : Nat) : P (s.dispense sl a taken new) := hP.frame h

theorem dispenseFor (q : AtomReq) (sl new : Nat) : P (s.dispenseFor q sl new) := by
  unfold State.dispenseFor
  split
  · exact hP.dispense h ..
  · exact hP.dispense h ..
  · exact h

theorem of_atomAt {n : Nat} {f : Flight} {q : AtomReq} {sl : Nat} {host : Option Nat} {old x : SecRec} {t : State} (e : s.atomAt n f q sl host old x = .ok t) : P t := by
  -- The read at the home is a variable below `id`, so that no check of a match runs it.
  have ok {v t} := @Stable.of_serveRead P hP.toStable s h sl host f.part q.addr q.attr false false q.clock old x v t
  have error {t} := @Stable.of_serveRead_error P hP.toStable s h sl host f.part q.addr q.attr false false q.clock old x t
  unfold State.atomAt at e
  revert e ok error
  generalize @State.serveRead = read
  revert read
  refine id ?_
  intro read e ok error
  dsimp only at e
  split at e
  · split at e
    all_goals rename_i served
    · exact Except.ok.inj e ▸ error served
    · exact Except.ok.inj e ▸ hP.answer (hP.keepAnswer (hP.dispenseFor (hP.recordRelease (ok served) ..) ..) ..) ..
  · split at e
    · nomatch e
    · split at e
      · nomatch e
      · split at e
        · exact Except.ok.inj e ▸ hP.wantStamp h ..
        · exact Except.ok.inj e ▸ hP.phaseCheck (hP.answer (hP.keepAnswer (hP.dispenseFor (hP.makeVersion (hP.recordRelease h ..) ..) ..) ..) ..) ..

theorem atomReady (n : Nat) (f : Flight) (q : AtomReq) (sl : Nat) (host : Option Nat) : P (s.atomReady n f q sl host) := by
  have dropped := hP.dropFlight h n
  unfold State.atomReady
  dsimp only
  split
  · exact keep_ite (hP.raceAt dropped ..) (hP.answer h ..)
  · refine keep_ite (keep_ite (hP.machineCheck dropped ..) (hP.failFlight dropped ..)) ?_
    split
    · rename_i e; exact hP.of_atomAt h e
    · exact hP.putFlight h ..

theorem atomAbsent (n : Nat) (f : Flight) (q : AtomReq) (sl : Nat) : P (s.atomAbsent n f q sl) := by
  refine keep_ite (hP.answer h ..) (keep_ite (hP.putFlight h ..) ?_)
  split
  all_goals rename_i e; exact hP.putFlight (hP.of_offer h e) ..

theorem atomArrives (n : Nat) (f : Flight) (q : AtomReq) : P (s.atomArrives n f q) := by
  unfold State.atomArrives
  split
  all_goals rename_i e; have home := hP.of_atHome hP.writes h e
  · exact hP.answer home ..
  · exact home
  · exact hP.atomAbsent home ..
  · split
    · exact hP.answer home ..
    · exact keep_ite (hP.atomAbsent home ..) (hP.atomReady home ..)

theorem takeWord (id : Nat) (k : Wait) (v : Word) (wts : Stamp) : P (s.takeWord id k v wts) :=
  keep_ite (hP.onCtx (hP.raiseLclk h ..) ..) (hP.sendWait (hP.onCtx h ..) ..)

theorem finishGamo (p : Nat) (q : AtomReq) (m : Word) (w : Stamp) : P (s.finishGamo p q m w) := by
  refine keep_foldl h fun t x ht => ?_
  have raised := hP.raiseLaunch ht p x.1.launch w
  exact keep_ite (hP.onCtx (hP.bumpLoads (hP.raiseLclk raised ..) ..) ..) raised

theorem finishAtomic (id : Nat) (q : AtomReq) (old new : Word) (w : Stamp) : P (s.finishAtomic id q old new w) := by
  unfold State.finishAtomic
  dsimp only
  split
  · exact hP.onCtx h ..
  · exact h
  · exact hP.onCtx (hP.onCtx h ..) ..
  · exact h
  · exact h
  · exact h
  all_goals exact hP.takeWord h ..

theorem atomFaults (n : Nat) (f : Flight) (q : AtomReq) : P (s.atomFaults n f q) :=
  keep_ite (keep_ite (hP.faultWait (hP.putFlight h ..) ..) (hP.dropFlight h n))
    (keep_foldl (hP.dropFlight h n) fun _ _ ht => keep_ite (hP.faultWait (hP.sendFlight ht _) ..) ht)

theorem failPart (f : Flight) (x : GamoPart) (kind a : Nat) : P (s.failPart f x kind a) := hP.failFlight h ..
theorem afterAtomic (core : Nat) : P (s.afterAtomic core) := keep_ite (hP.onCtx h ..) h

/-! ### Ports, pushes and waits (R88, R104, R110, R142) -/

theorem portWrite (f : Flight) (a : Nat) (w : LmWrite) : P (s.portWrite f a w) := by
  cases w with
  | store n v => exact hP.portStore hP.writes h ..
  | sde d => exact h
  | feset full => exact hP.setFullServe hP.writes (hP.traceFeset hP.writes h ..) ..

theorem acceptsPush (core p a : Nat) : P (s.acceptsPush core p a).2 := by
  unfold State.acceptsPush
  split
  · exact h
  · split
    · exact h
    · split
      all_goals rename_i e; exact hP.of_plbLookup h e

theorem gathered (f : Flight) (g : Nat) (ok : Bool) : P (s.gathered f g ok) := by
  unfold State.gathered
  split
  · exact h
  · exact keep_ite (hP.sendFlight (hP.frame h) _) (hP.frame h)

theorem setSquall (e : SquallEntry) : P (s.setSquall e) := hP.frame h

theorem answerWait (f : Flight) (sl : Nat) (key : Key) (v : Word) (wts : Stamp) (unrec : Bool) : P (s.answerWait f sl key v wts unrec) :=
  hP.sendWake (keep_ite (hP.sendWake h ..) h) ..

theorem recordWait (f : Flight) (sl : Nat) (key : Key) (v : Word) (wts : Stamp) : P (s.recordWait f sl key v wts) :=
  keep_ite h (keep_ite (hP.frame h) (hP.answerWait h ..))

theorem wordWait (n : Nat) (f : Flight) (sl : Nat) (key : Key) (w : Nat) (target : Word) : P (s.wordWait n f sl key w target) := by
  have dropped := hP.dropFlight h n
  exact keep_ite (hP.answerWait dropped ..) (keep_ite (keep_ite (hP.answerWait (hP.setSector dropped ..) ..) (hP.wantStamp h ..)) (hP.recordWait dropped ..))

theorem wakeOne (v : Word) (wts : Stamp) (unrec : Bool) (id : Nat) : P (s.wakeOne v wts unrec id) := keep_ite (hP.onCtx h ..) (hP.takeWord h ..)
theorem wakeGate (p slot : Nat) (key : Key) (v : Word) (unrec : Bool) : P (s.wakeGate p slot key v unrec) := hP.onLaunch h ..
theorem resendGate (id age : Nat) (unrec : Bool) : P (s.resendGate id age unrec) := hP.onLaunch h ..

theorem onPart' (p : Nat) (f : Part → Part) : P (s.onPart p f) := hP.same h (State.mem_onPart ..)

theorem onColl (p slot : Nat) (f : CollSlot → CollSlot) : P (s.onColl p slot f) := hP.onPart' h ..
theorem resendColl (id age : Nat) (unrec : Bool) : P (s.resendColl id age unrec) := hP.onColl h ..
theorem resendAtTable (id age : Nat) (unrec : Bool) : P (s.resendAtTable id age unrec) := keep_ite (hP.resendColl h ..) (hP.resendGate h ..)

theorem resendWaits (id : Nat) : P (s.resendWaits id) := by
  unfold State.resendWaits
  split
  · exact hP.sendWait h ..
  · exact keep_foldl h fun _ _ ht => hP.sendWait ht ..

theorem resendCopies (core age : Nat) (unrec : Bool) : P (s.resendCopies core age unrec) := keep_foldl h fun _ _ ht => hP.parkCopy ht ..

end OfBytes

end Sys2Proof.Machine

namespace Sys2Proof.Machine

namespace OfBytes
variable {P : State → Prop} (hP : OfBytes P) {s : State} (h : P s)
include hP h

/-! ### Pages written, wiped and resolved (R310 to R316, R348, R350) -/

theorem wipeMemory (a n : Nat) : P (s.wipeMemory a n) :=
  hP.frame (hP.filter (fun c => decide (c.1 < a) || decide (a + n ≤ c.1)) h)

theorem wipeStamps (p a k : Nat) : P (s.wipeStamps p a k) := by
  unfold State.wipeStamps
  split
  · exact h
  · exact keep_foldl h fun _ _ ht => keep_foldl ht fun _ _ hu => hP.frame hu

theorem hostAside (a n : Nat) : P (s.hostAside a n) := keep_foldl h fun _ _ ht => hP.hostAt hP.writes ht ..
theorem wipePage (p a n : Nat) : P (s.wipePage p a n) := hP.wipeStamps (hP.wipeMemory (hP.hostAside h ..) ..) ..

theorem wipeDue : P s.wipeDue := by
  exact keep_foldl (hP.frame h) fun _ _ ht => hP.wipePage ht ..

theorem wipeOrWait (a n owner : Nat) : P (s.wipeOrWait a n owner) := keep_ite (hP.frame h) (hP.wipePage h ..)

theorem dropTable (a : Nat) (leaf : Word) : P (s.dropTable a leaf) := by
  exact hP.frame (keep_foldl h fun _ _ ht => hP.wipeOrWait ht ..)

theorem writeLeaf (level page : Nat) (leaf : Word) : P (s.writeLeaf level page leaf) := by
  have placed (places : FMap Word) : P { s with net := { s.net with places := places } } := hP.frame h
  have dropped {c : Prop} [Decidable c] (places : FMap Word) (a : Nat) := keep_ite (c := c) (hP.dropTable (placed places) a leaf) (placed places)
  have wiped {c d : Prop} [Decidable c] [Decidable d] (places : FMap Word) (a b n o : Nat) :=
    keep_ite (c := d) (dropped (c := c) places a) (hP.wipeOrWait (dropped (c := c) places a) b n o)
  exact hP.frame (wiped _ _ _ _ _)

theorem unpark (p page sl k : Nat) : P (s.unpark p page sl k) := by
  induction k generalizing s with
  | zero => exact h
  | succ k ih =>
    unfold State.unpark
    split
    · exact h
    · split
      · exact h
      · have freed (r : Res) := hP.unitFreed h r
        dsimp only
        split
        · exact ih (keep_ite (hP.putFlight (freed _) ..) (hP.storeArrives (hP.putFlight (freed _) ..) ..))
        · exact ih (keep_ite (hP.putFlight (freed _) ..) (hP.atomArrives (hP.putFlight (freed _) ..) ..))
        · exact ih (freed _)

theorem denyParked (p page sl k : Nat) : P (s.denyParked p page sl k) := by
  induction k generalizing s with
  | zero => exact h
  | succ k ih =>
    unfold State.denyParked
    split
    · exact h
    · split
      · exact h
      · exact ih (hP.failFlight (hP.dropFlight (hP.unitFreed h _) _) ..)

theorem denyLaunches (p page : Nat) : P (s.denyLaunches p page) := by
  unfold State.denyLaunches
  split
  · exact h
  · exact keep_foldl h fun _ _ ht => keep_ite (hP.orderAbort ht ..) (keep_ite (hP.orderAbort ht ..) ht)

theorem closeFault (r : FaultRec) (v : Word) : P (s.closeFault r v) := keep_foldl (hP.frame h) fun _ _ ht => hP.sendWake ht ..
theorem keepPresent (page : Nat) : P (s.keepPresent page) := hP.frame h
theorem mapFault (r : FaultRec) : P (s.mapFault r) := hP.keepPresent (hP.closeFault (hP.unpark h ..) ..) _
theorem denyFault (r : FaultRec) : P (s.denyFault r) := hP.closeFault (hP.denyLaunches (hP.denyParked h ..) ..) ..

theorem gamosAgain (id page : Nat) : P (s.gamosAgain id page) := by
  refine keep_foldl (hP.setFlights h _) fun t f ht => ?_
  split
  · refine keep_foldl ht fun u x hu => ?_
    dsimp only
    split
    · rename_i e; exact hP.intoCombiner hu e
    · exact hP.sendFlight hu _
  · exact ht

theorem wakeFault (page : Nat) (v : Word) (id : Nat) : P (s.wakeFault page v id) := by
  unfold State.wakeFault
  dsimp only
  split
  · have denied : P ((s.flightsOf id).foldl
        (fun s f => match f.kind with
          | .load q => if q.fault = 1 ∧ pageOf q.addr = page then s.failFlight f 17 q.addr else s
          | .atomic q => if q.fault = 1 ∧ pageOf q.addr = page then s.failFlight f 17 q.addr else s
          | _ => s) s) := by
      refine keep_foldl h fun t f ht => ?_
      split
      · exact keep_ite (hP.failFlight ht ..) ht
      · exact keep_ite (hP.failFlight ht ..) ht
      · exact ht
    split
    · split
      · exact hP.orderAbort denied ..
      · exact hP.chargeFailure denied ..
    · exact denied
  · have again := hP.gamosAgain h id page
    exact keep_ite (keep_ite (hP.onCtx (hP.setFlights again _) ..) (hP.faultOver (hP.setFlights again _) id)) (hP.onCtx h ..)

/-! ### Messages, handlers and launches (R181 to R192, R215 to R217) -/

theorem of_deliverMessage {src : Nat} {m : Msg} {n : Nat} {t : State} (e : s.deliverMessage src m = (n, t)) : P t := by
  refine keep_snd e ?_
  unfold State.deliverMessage
  dsimp only
  split
  · exact h
  · split
    all_goals rename_i o; have offered := hP.of_offer h o
    · exact offered
    · dsimp only; exact hP.onCore (hP.lmWrite hP.writes offered ..) ..

theorem deliverRing (f : Flight) (m : Msg) (q : Nat) : P (s.deliverRing f m q) := hP.setRing (hP.traceWrite hP.writes (hP.lmWrite hP.writes h ..) ..) ..

theorem of_arriveRing {f : Flight} {m : Msg} {r} {race} {t : State} (e : s.arriveRing f m = (r, race, t)) : P t := by
  have all : P (s.arriveRing f m).2.2 := by
    unfold State.arriveRing
    dsimp only
    split
    · exact h
    · split
      · exact h
      · split
        all_goals rename_i o; have offered := hP.of_offer h o
        · exact offered
        · exact hP.deliverRing (keep_ite (hP.onCore offered ..) offered) ..
  rwa [e] at all

theorem poisonBlock (on : Bool) (a : Nat) : P (s.poisonBlock on a) := keep_ite (keep_foldl h fun _ _ ht => hP.setPoison ht ..) h
theorem bounce (id : Nat) (m : Msg) : P (s.bounce id m) := hP.setRing (hP.lmWrite hP.writes h ..) ..

theorem startHandler (core : Nat) (high : Bool) : P (s.startHandler core high) := by
  unfold State.startHandler
  dsimp only
  split
  · exact h
  · split
    · exact h
    · exact hP.frame h

theorem launchArrives (n : Nat) (f : Flight) (d : Nat) (r : Record) (dom : Nat) (start : Stamp) (parent : Word) : P (s.launchArrives n f d r dom start parent) := by
  unfold State.launchArrives
  split
  · exact hP.answer h ..
  · refine keep_ite h ?_
    exact hP.phaseKick (hP.answer (hP.keepAnswer (hP.submit h ..) ..) ..) _

theorem launchArrive (n : Nat) : P (s.launchArrive n) := by
  unfold State.launchArrive
  split
  · split
    · exact keep_ite (hP.launchArrives h ..) h
    · exact keep_ite h (keep_ite (hP.onCtx (hP.dropFlight h n) ..) (hP.dropFlight h n))
    · exact h
  · exact h

theorem sendGate (p slot : Nat) (key : Key) (target : Word) : P (s.sendGate p slot key target) := hP.sendFlight (hP.onLaunch h ..) _

theorem place (p : Nat) (l : Launch) (core id : Nat) : P (s.place p l core id) :=
  hP.frame (hP.takeCharge (hP.onPart' (hP.onCore (hP.setCtx h ..) ..) ..) _)

theorem placeFirst (p : Nat) (ls : List Launch) : P (s.placeFirst p ls) := by
  induction ls generalizing s with
  | nil => exact h
  | cons l rest ih =>
    unfold State.placeFirst
    split
    · exact h
    · split
      · split
        · exact hP.place h ..
        · exact h
      · exact ih (keep_ite (hP.onLaunch h ..) (hP.onLaunch h ..))

theorem stageWords (p core dom : Nat) (c : Stamp) (needX : Bool) (a off k : Nat) : P (s.stageWords p core dom c needX a off k).2 := by
  induction k generalizing s a off with
  | zero => exact h
  | succ k ih =>
    unfold State.stageWords
    split
    all_goals rename_i e; have looked := hP.of_plbLookup h e
    · exact looked
    · split
      · exact looked
      · split
        all_goals rename_i e; have read := hP.of_fetchAt hP.writes looked e
        · split
          · exact read
          · exact ih (hP.setFullServe hP.writes (hP.lmWrite hP.writes read ..) ..) ..
        all_goals exact read

theorem of_stageWords {p core dom : Nat} {c : Stamp} {needX : Bool} {a off k : Nat} {r} {t : State} (e : s.stageWords p core dom c needX a off k = (r, t)) : P t :=
  keep_snd e (hP.stageWords h ..)

theorem stageFoots (p slot core dom : Nat) (c : Stamp) (first : Bool) (fs : List Foot) : P (s.stageFoots p slot core dom c first fs).2 := by
  induction fs generalizing s first with
  | nil => exact h
  | cons f fs ih =>
    unfold State.stageFoots
    dsimp only
    split
    · exact ih h _
    · split
      all_goals rename_i e
      · exact ih (hP.onCore (hP.of_stageWords h e) ..) _
      · exact hP.stageWords h ..

theorem of_stageFoots {p slot core dom : Nat} {c : Stamp} {first : Bool} {fs : List Foot} {r} {t : State} (e : s.stageFoots p slot core dom c first fs = (r, t)) : P t :=
  keep_snd e (hP.stageFoots h ..)

theorem notStarted (id : Nat) (r : Staged) : P (s.notStarted id r) := by
  cases r with
  | wait a => exact hP.sendWait (hP.onCtx h ..) ..
  | abort kind a => exact hP.orderAbort h ..
  | _ => exact h

theorem freeLaunchSlot (p slot : Nat) : P (s.freeLaunchSlot p slot) := keep_ite (hP.onPart' h ..) (hP.unitFreed (hP.onPart' h ..) _)

theorem postFor (p : Nat) (l : Launch) (code : Nat) : P (s.postFor p l code) := by
  unfold State.postFor
  split
  · exact h
  · exact hP.onPart' h ..

/-! ### Aborts (R346) -/

theorem discardFlights (p slot : Nat) (vf : Option Nat) : P (s.discardFlights p slot vf) := keep_foldl (hP.frame h) fun _ _ ht => hP.unitFreed ht _

theorem dropJobs (gone : Job → Bool) : P (s.dropJobs gone) := by
  have lifted (cores : FMap Core) (charges : List (Option Charge)) : P (charges.foldl State.lift { s with cores := cores }) :=
    keep_foldl (hP.frame h) fun _ _ ht => hP.lift ht _
  unfold State.dropJobs
  exact hP.wakeWhere (lifted ..) _

theorem abortSaved (p slot : Nat) (vf : Option Nat) : P (s.abortSaved p slot vf) := hP.onPart' (hP.frame h) ..

theorem freeAborted (id : Nat) : P (s.freeAborted id) := keep_ite (hP.endHandler h id) (keep_ite (hP.setFifo (hP.setCtx h ..) ..) (hP.setCtx h ..))

theorem phaseLeaves (p n : Nat) : P (s.phaseLeaves p n) := by
  induction n generalizing s with
  | zero => exact h
  | succ n ih => exact ih (hP.phaseLeave h p)

end OfBytes

end Sys2Proof.Machine

namespace Sys2Proof.Machine

namespace OfBytes
variable {P : State → Prop} (hP : OfBytes P) {s : State} (h : P s)
include hP h

/-! ### Launches aborted, completed and started (R185, R190, R346) -/

theorem abortLaunch (p : Nat) (l : Launch) (r : AbortRec) : P (s.abortLaunch p l r) := by
  unfold State.abortLaunch
  extract_lets slot vf ids left discarded dead worked jobless orphaned unpinned moved counted departed logged
  have hDiscarded : P discarded := hP.discardFlights (keep_foldl h fun _ _ ht => hP.lift ht _) ..
  have hJobless : P jobless := hP.dropJobs (keep_foldl hDiscarded fun _ _ ht => hP.freeAborted ht _) _
  have hOrphaned : P orphaned := hP.abortSaved (hP.frame hJobless) ..
  have hUnpinned : P unpinned := keep_foldl hOrphaned fun _ _ ht => keep_foldl ht fun _ _ hu => hP.letPins hu ..
  have hMoved : P moved := keep_foldl hUnpinned fun _ _ ht => hP.migrateHead ht _
  have hCounted : P counted := hP.onPart' hMoved ..
  have hDeparted : P departed := keep_ite (hP.phaseLeaves hCounted ..) hCounted
  have hLogged : P logged := hP.logAbort hDeparted ..
  exact hP.freeLaunchSlot (keep_ite hLogged (hP.postFor hLogged ..)) ..

theorem takeCompletion (id : Nat) : P (s.takeCompletion id) := by
  unfold State.takeCompletion
  dsimp only
  split
  · exact h
  · exact hP.onCore (hP.onCtx (hP.raiseLclk h ..) ..) ..

theorem autoJoin (x a : Nat) : P (s.autoJoin x a).2 := by
  -- The home's answer is a variable below `id`, so that no check of a match runs it.
  have looked {d r t} := @Stable.of_plbLookup P hP.toStable s h (coreOf x) d a r t
  have home {u : State} {p r t} := @Stable.of_atHome P hP.toStable hP.writes u (p := p) (a := a) (write := true) (sent := none) (r := r) (t := t)
  unfold State.autoJoin
  revert looked home
  generalize @State.atHome = atHome
  revert atHome
  refine id ?_
  intro atHome looked home
  dsimp only
  split
  all_goals rename_i e; have found := looked e
  · exact found
  · split
    · exact found
    · split
      all_goals rename_i e; have arrived := home found e
      · exact arrived
      · exact arrived
      · exact arrived
      · split
        · exact arrived
        · split
          · exact arrived
          · split
            · split
              · exact arrived
              · dsimp only; exact hP.onCtx arrived ..
            · split
              · exact arrived
              · split
                · exact hP.wantWrite arrived ..
                · split
                  · exact arrived
                  · dsimp only; exact hP.onCtx (hP.raiseLclk (hP.makeVersion arrived ..) ..) ..

theorem completionAdd (p : Nat) (l : Launch) : P (s.completionAdd p l).2 := by
  -- The home's answer is a variable below `id`, so that no check of a match runs it.
  have home {r t} := @Stable.of_atHome P hP.toStable hP.writes s h p l.done true none r t
  unfold State.completionAdd
  revert home
  generalize @State.atHome = atHome
  revert atHome
  refine id ?_
  intro atHome home
  dsimp only
  split
  · exact h
  · split
    · exact h
    · split
      · exact h
      · split
        all_goals rename_i e; have arrived := home e
        · exact arrived
        · exact arrived
        · exact arrived
        · split
          · exact arrived
          · split
            · exact arrived
            · split
              · exact hP.wantWrite arrived ..
              · exact hP.phaseCheck (hP.makeVersion arrived ..) ..

theorem of_completionAdd {p : Nat} {l : Launch} {r} {t : State} (e : s.completionAdd p l = (r, t)) : P t := keep_snd e (hP.completionAdd h ..)

/-! ### Copies (R220 to R223) -/

theorem xuRead (core : Nat) (x : CopyRec) (a : Word) (n : Nat) : P (s.xuRead core x a n).2 := by
  -- The home's answer and the read at it are variables below `id`, so that no check of a match runs them.
  have looked {r t} := @Stable.of_plbLookup P hP.toStable s h core x.domain a.toNat r t
  have home {u : State} {r t} := @Stable.of_atHome P hP.toStable hP.writes u (p := x.part) (a := a.toNat) (write := false) (sent := none) (r := r) (t := t)
  have ok {u : State} := @Stable.of_serveRead P hP.toStable u
  have error {u : State} := @Stable.of_serveRead_error P hP.toStable u
  unfold State.xuRead
  revert looked home ok error
  generalize @State.atHome = atHome
  generalize @State.serveRead = read
  revert atHome read
  refine id ?_
  intro atHome read looked home ok error
  dsimp only
  split
  · exact h
  · split
    · exact h
    · split
      · exact h
      · exact h
  · split
    all_goals rename_i e; have found := looked e
    · exact found
    · split
      · exact found
      · split
        · exact hP.claim found _
        · split
          all_goals rename_i e; have arrived := home (hP.takeMiss found ..) e
          · exact arrived
          · exact arrived
          · exact arrived
          · split
            · exact arrived
            · split
              · rename_i e; exact error arrived e
              · rename_i e; exact ok arrived e

theorem of_xuRead {core : Nat} {x : CopyRec} {a : Word} {n : Nat} {r} {t : State} (e : s.xuRead core x a n = (r, t)) : P t := keep_snd e (hP.xuRead h ..)

theorem copyAddr (core : Nat) (x : CopyRec) (side e : Nat) : P (s.copyAddr core x side e).2 := by
  unfold State.copyAddr
  dsimp only
  split
  · exact h
  · split
    · rename_i e
      have read := hP.of_xuRead h e
      split
      · exact read
      · split
        · exact read
        · exact read
    · exact hP.xuRead h ..

theorem of_copyAddr {core : Nat} {x : CopyRec} {side n : Nat} {r} {t : State} (e : s.copyAddr core x side n = (r, t)) : P t := keep_snd e (hP.copyAddr h ..)

theorem of_xuLmWrite {core : Nat} {x : CopyRec} {a k off n v : Nat} {poison : BitVec 2} {t : State} (e : s.xuLmWrite core x a k off n v poison = .ok t) : P t := by
  have written (b : BitVec 2) := hP.setFullServe hP.writes (hP.carryPoison (hP.lmWrite hP.writes h k off n v) (lmAddr k off) b) (lmAddr k off) true
  unfold State.xuLmWrite at e
  dsimp only at e
  split at e
  · nomatch e
  · split at e
    · nomatch e
    · split at e
      · nomatch e
      · exact Except.ok.inj e ▸ keep_ite (hP.setFullServe hP.writes (written _) ..) (written _)

theorem of_xuWrite {core seq : Nat} {x : CopyRec} {a : Word} {n v : Nat} {poison : BitVec 2} {t : State} (e : s.xuWrite core seq x a n v poison = .ok t) : P t := by
  unfold State.xuWrite at e
  split at e
  · nomatch e
  · exact hP.of_xuLmWrite h e
  · split at e
    · nomatch e
    · rename_i q
      have looked := hP.of_plbLookup h q
      split at e
      · nomatch e
      · exact Except.ok.inj e ▸ hP.sendFlight (hP.onCore looked ..) _

theorem xuStops (core seq : Nat) (r : XuRead) : P (s.xuStops core seq r) := by
  cases r with
  | park a => exact hP.parkCopy h ..
  | fail kind a val => exact hP.failCopy h ..
  | _ => exact h

theorem wakeCopy (core : Nat) (v : Word) (seq : Nat) : P (s.wakeCopy core v seq) := keep_ite (hP.onCopy h ..) (keep_ite (hP.failCopy h ..) (hP.onCopy h ..))

/-! ### Jobs (R279 to R297) -/

theorem popRing (core q n : Nat) : P (s.popRing core q n) := hP.unitsFreed (hP.setRing h ..) ..

theorem runMma (v : State) (core : Nat) (sparse : Bool) (pair : Nat) (desc opts scale wa wb : Word) :
    P (s.runMma v core sparse pair desc opts scale wa wb).2 := by
  unfold State.runMma
  dsimp only
  split
  · exact h
  · split
    · exact h
    · split
      · split
        · exact h
        · split
          · have popped {c : Prop} [Decidable c] (g : Core → Core) (q n : Nat) := keep_ite (c := c) (hP.onCore h core g) (hP.popRing (hP.onCore h core g) core q n)
            exact keep_ite (popped ..) (hP.popRing (popped ..) ..)
          · exact h
      · exact h

theorem engineWrite (a v : Nat) : P (s.engineWrite a v) := hP.setFullServe hP.writes (hP.lmWrite hP.writes h ..) ..
theorem writeRest (core : Nat) (j : Job) : P (s.writeRest core j) := keep_foldl h fun _ _ ht => hP.engineWrite ht ..

theorem runMldt (core : Nat) (j : Job) (addr : Nat) (opts : Word) (q : Nat) : P (s.runMldt core j addr opts q).2 := by
  unfold State.runMldt
  dsimp only
  split
  · exact h
  · split
    · exact h
    · exact keep_ite (hP.setRing (hP.writeRest h ..) ..) (hP.writeRest h ..)

theorem producedBy (core q : Nat) (j : Job) : P (s.producedBy core q j) := by
  unfold State.producedBy
  dsimp only
  split
  · exact keep_ite h (hP.onCore h ..)
  · exact hP.onCore h ..

theorem runJob (core : Nat) (j : Job) : P (s.runJob core j).2 := by
  unfold State.runJob
  split
  · exact hP.runMma h ..
  · dsimp only; exact hP.onCore h ..
  · exact hP.writeRest h ..
  · exact keep_ite (hP.producedBy (hP.runMldt h ..) ..) (hP.runMldt h ..)

theorem jobMachineCheck (j : Job) : P (s.jobMachineCheck j) := keep_ite h (hP.chargeIssuer h ..)

theorem closeJob (core : Nat) (j : Job) (e : JobEnd) : P (s.closeJob core j e) := by
  unfold State.closeJob
  dsimp only
  split
  · exact hP.wakeWhere (hP.onCore (hP.lift h _) ..) _
  · exact hP.onCore (hP.lift h _) ..

theorem jobPins (core : Nat) (j : Job) : P (s.jobPins core j) := by
  unfold State.jobPins
  dsimp only
  split
  · exact hP.letPins (hP.letPins h ..) ..
  · exact hP.letPins h ..

theorem onJob (core : Nat) (f : Job → Job) : P (s.onJob core f) := hP.onCore h ..

theorem jobRead (core a : Nat) : P (s.jobRead core a) := by
  unfold State.jobRead
  split
  · exact h
  · exact keep_ite (hP.onJob h ..) h

theorem jobWrite (core i : Nat) : P (s.jobWrite core i) := by
  unfold State.jobWrite
  split
  · exact h
  · rename_i j _ _
    have read {c : Prop} [Decidable c] (l : List Nat) := keep_ite (c := c) (keep_foldl (l := l) h fun _ a ht => hP.jobRead ht core a) h
    refine keep_ite h ?_
    dsimp only
    split
    · exact read _
    · split
      · exact keep_ite (read _) (hP.onJob (hP.engineWrite (read _) ..) ..)
      · exact read _

/-! ### Time, dies and power (R193, R320, R321, R370) -/

theorem noteLaunches (now : Nat) : P (s.noteLaunches now) := keep_foldl h fun _ _ ht => keep_foldl ht fun _ _ hu => hP.onLaunch hu ..
theorem noteWaits : P s.noteWaits := hP.frame (hP.noteLaunches h _)
theorem onDie (d : Nat) (f : Die → Die) : P (s.onDie d f) := hP.frame h
theorem readSensors (measured : List (Nat × Int)) : P (s.readSensors measured) := keep_foldl h fun _ _ ht => keep_ite (hP.onDie ht ..) ht
theorem noteHot : P s.noteHot := keep_foldl h fun _ _ ht => keep_ite ht (hP.onDie ht ..)
theorem clamp (die : Nat) (tiles : List Nat) : P (s.clamp die tiles) := keep_foldl (hP.onDie h ..) fun _ _ ht => hP.onDie ht ..
omit h in theorem powerOff (s : State) : P s.powerOff := hP.cleared rfl
omit h in theorem restart (s : State) : P s.restart := hP.cleared rfl
theorem pass (n : Nat) : P (s.pass n) := hP.frame h
theorem elapse (n : Nat) : P (s.elapse n) := keep_ite (hP.noteHot (hP.pass (hP.noteWaits (hP.noteHot h)) n)) (hP.pass h n)
theorem follow (m : Int) : P (s.follow m) := hP.frame h
theorem wipeCores (test : Nat → Bool) : P (s.wipeCores test) := hP.frame (hP.filter (fun c => !(inLmOf test c.1)) h)
theorem wipeHomes (p : Nat) : P (s.wipeHomes p) := hP.frame h
theorem wipePages (p : Nat) : P (s.wipePages p) := hP.frame (hP.filter (fun c => !(s.pageOfPart p c.1 || s.keptOfPart p c.1)) h)
omit h in theorem wipeModule (s : State) : P s.wipeModule := hP.cleared rfl

/-! ### The mailbox and bring-up (R328, R373) -/

theorem mbEnd (code : BitVec 7) (out : List Word) : P (s.mbEnd code out) := hP.frame h

theorem command (always : Bool) (input : List Word) {run : State → State} (hr : ∀ t, P t → P (run t)) : P (s.command always input run) :=
  keep_ite h (keep_ite (hP.mbEnd (hP.frame h) ..) (hr _ (hP.frame h)))

theorem i3cRead : P s.i3cRead := hP.frame h
theorem mailboxData (i : Nat) (v : Word) : P (s.mailboxData i v) := keep_ite (hP.frame h) h
theorem setCap (watts : Nat) : P (s.setCap watts) := hP.frame h
theorem endLost : P s.endLost := keep_ite (hP.mbEnd h ..) h
theorem bootFails (code : BitVec 8) (detail : Nat) : P (s.bootFails code detail) := hP.frame h

theorem bootStep (step : BitVec 4) (failure : Option (BitVec 8 × Nat)) {work : State → State} (hr : ∀ t, P t → P (work t)) : P (s.bootStep step failure work) := by
  refine keep_ite h ?_
  cases failure with
  | some x => exact hP.bootFails h ..
  | none => exact hP.frame (hr _ h)

end OfBytes

end Sys2Proof.Machine

namespace Sys2Proof.Machine

namespace OfBytes
variable {P : State → Prop} (hP : OfBytes P) {s : State} (h : P s)
include hP h

/-! ### Rights, pages moved to and from the host, links (R308, R312, R316, R326) -/

theorem writeRights (id : Nat) (d : Domain) (t : FMap RightsEntry) : P (s.writeRights id d t) := by
  unfold State.writeRights
  split
  · exact hP.mbEnd (hP.frame h) ..
  · exact hP.frame h

theorem dropLines (p a n : Nat) : P (s.dropLines p a n) := hP.onPart' (hP.frame h) ..

theorem ackRights (core domain : Nat) : P (s.ackRights core domain) := by
  unfold State.ackRights
  split
  · exact h
  · split
    · exact h
    · split
      · exact keep_ite (hP.mbEnd (hP.frame h) ..) (hP.frame h)
      · exact hP.frame h

theorem pullPage (old : Word) (big : Bool) (a n : Nat) (data : List (Nat × BitVec 512)) : P (s.pullPage old big a n data) := by
  unfold State.pullPage
  extract_lets base ls isHeld aside fresh port dropped
  have hAside : P aside := keep_foldl h fun _ _ ht => hP.hostAt hP.writes ht ..
  have hDropped : P dropped := hP.frame (hP.filter _ hAside)
  exact keep_foldl hDropped fun _ _ ht => keep_ite (hP.writes _ _ _ ht) ht

theorem pushPage (leaf : Word) (big : Bool) (a n : Nat) : P (s.pushPage leaf big a n) := keep_foldl (hP.frame h) fun _ _ ht => hP.sendHost ht _

theorem movePage (old leaf : Word) (big : Bool) (a n : Nat) (data : List (Nat × BitVec 512)) : P (s.movePage old leaf big a n data) := by
  have pulled {c : Prop} [Decidable c] := keep_ite (c := c) (hP.pullPage h old big a n data) h
  exact keep_ite (hP.pushPage pulled ..) pulled

theorem dropLost (n : Nat) : P (s.dropLost n) := hP.frame h
theorem lose (n : Nat) (f : Flight) : P (s.lose n f) := hP.frame (hP.dropFlight h n)

theorem linkFails (n : Nat) (f : Flight) : P (s.linkFails n f) := by
  unfold State.linkFails
  split
  case h_5 | h_13 => exact hP.lose h ..
  case h_10 | h_11 => exact hP.dropFlight h ..
  case h_12 => exact h
  all_goals exact hP.putFlight h ..

theorem countError (die : Nat) : P (s.countError die) := hP.onDie h ..
theorem fetchSeq (n : Nat) (f : Flight) (source : Nat) : P (s.fetchSeq n f source) := hP.sendFlight (hP.frame h) _
theorem resend (n : Nat) (f : Flight) : P (s.resend n f) := hP.sendFlight (hP.dropLost h n) _
theorem lostAnswer (f : Flight) (d : Nat) : P (s.lostAnswer f d) := keep_ite (hP.onCtx h ..) h

theorem protAgain (f : Flight) (d : Option RegRef) (a : Nat) : P (s.protAgain f d a) := keep_ite (hP.trapLater (hP.onCtx (hP.leaveFifo h _) ..) ..) h

theorem barred (f : Flight) (a : Nat) : P (s.barred f a) := by
  unfold State.barred
  split
  · exact keep_ite h (keep_ite (hP.protAgain h ..) (hP.failFlight h ..))
  · exact keep_ite (keep_foldl h fun _ _ ht => hP.failPart ht ..) (keep_ite (hP.protAgain h ..) (hP.failFlight h ..))
  · exact hP.failFlight h ..

theorem sendChecked (f : Flight) : P (s.sendChecked f) := by
  unfold State.sendChecked
  split
  · exact hP.sendFlight h _
  · exact keep_ite (hP.sendFlight h _) (hP.barred h ..)

/-! ### Partitions preempted, saved and restored (R351 to R356) -/

theorem startPreempt (p time : Nat) : P (s.startPreempt p time) := hP.onPart' h ..

theorem settleFlight (f : Flight) : P (s.settleFlight f) := by
  unfold State.settleFlight
  split
  · exact h
  · split
    case h_6 => exact h
    all_goals exact hP.onCtx h ..

theorem recordAll (q : Part) : P (s.recordAll q).2 := by
  unfold State.recordAll
  extract_lets mine settled gathered waiters parked net dropped
  have hSettled : P settled := keep_foldl h fun _ _ ht => hP.settleFlight ht _
  have hGathered : P gathered := keep_foldl hSettled fun _ _ ht => keep_ite (hP.onCtx ht ..) ht
  have hDropped : P dropped := hP.frame hGathered
  exact keep_foldl hDropped fun _ _ ht => hP.unitFreed ht _

theorem unmigrate (id : Nat) : P (s.unmigrate id) := by
  unfold State.unmigrate
  split
  · exact hP.moveCtx h ..
  · exact h

theorem savePart (p : Nat) (q : Part) : P (s.savePart p q) := by
  unfold State.savePart
  extract_lets away home
  have recorded := hP.recordAll (s := home) (keep_foldl h fun _ _ ht => hP.unmigrate ht _) q
  generalize home.recordAll q = r at recorded ⊢
  obtain ⟨records, t⟩ := r
  exact hP.onPart' (hP.frame (hP.wipeCores recorded _)) ..

theorem lmBack (core : Nat) (x : SavedCore) : P (s.lmBack core x) :=
  keep_foldl (keep_foldl (keep_foldl h fun _ _ ht => hP.write _ _ ht) fun _ _ ht => hP.setFull ht ..) fun _ _ ht => hP.setPoison ht ..

theorem replay (source : Nat) (f : Flight) : P (s.replay source f) := by
  have fetch : P (if s.goesOn f then s else ({ s with net := { s.net with lost := s.net.lost ++ [{ f with recheck := true }] } }).fetchSeq s.net.lost.length { f with recheck := true } source) :=
    keep_ite h (hP.fetchSeq (hP.frame h) ..)
  unfold State.replay
  dsimp only
  split
  · exact hP.sendChecked h _
  · exact keep_ite (hP.sendChecked h _) (keep_ite (hP.sendFlight h _) fetch)
  · exact keep_ite (hP.sendFlight h _) fetch
  · exact fetch
  · exact fetch
  · exact fetch
  · exact keep_ite (hP.sendFlight h _) fetch
  · exact hP.sendFlight h _

theorem placeImage (core : Nat) (x : SavedCore) (k : Core) : P (s.placeImage core x k) := by
  refine keep_foldl (hP.setCore (hP.lmBack h ..) ..) fun t n ht => ?_
  split
  · exact keep_ite ht (hP.setCtx ht ..)
  · exact ht

theorem imageBack (core : Nat) (x : SavedCore) : P (s.imageBack core x) := hP.placeImage h ..

theorem resumeCtx (id : Nat) : P (s.resumeCtx id) := keep_ite (hP.faultOver h id) (keep_ite (hP.onCtx h ..) (hP.resendWaits h id))

theorem imagesBack (p : Nat) (images : List (Nat × SavedCore)) {put : State → Nat → SavedCore → State} (hput : ∀ t core x, P t → P (put t core x)) :
    P (s.imagesBack p images put) :=
  hP.onPart' (keep_foldl (keep_foldl h fun _ _ ht => hput _ _ _ ht) fun _ _ ht => hP.replay ht ..) ..

theorem resumeCtxs (p : Nat) (q : Part) : P (s.resumeCtxs p q) :=
  hP.onPart' (keep_foldl (keep_foldl h fun _ _ ht => hP.replay ht ..) fun _ _ ht => keep_foldl ht fun _ _ hu => hP.resumeCtx hu _) ..

theorem resumePart (p : Nat) : P (s.resumePart p) := by
  unfold State.resumePart
  split
  · exact h
  · exact keep_ite h (keep_ite (hP.resumeCtxs h ..) (hP.onPart' (keep_foldl h fun _ _ ht => hP.replay ht ..) ..))

theorem restorePart (p : Nat) : P (s.restorePart p) := hP.resumePart (hP.imagesBack (hP.frame h) _ _ fun _ _ _ ht => hP.imageBack ht ..) _

/-! ### Collectives (R341 to R343) -/

theorem onPort (n : Nat) (f : Zwion → Zwion) : P (s.onPort n f) := hP.frame h
theorem sendRank (c : CollSlot) (rank : Nat) (bytes : List Byte) : P (s.sendRank c rank bytes) := hP.onPort h ..
theorem tellEnding (c : CollSlot) (code peer : Nat) (flags : BitVec 5) (result : List Word) : P (s.tellEnding c code peer flags result) :=
  keep_foldl h fun _ _ ht => hP.sendRank ht ..
theorem frostColls (die : Nat) : P (s.frostColls die) := hP.frame h

theorem withdraw (p : Nat) (mine : Nat → Bool) : P (s.withdraw p mine) := by
  unfold State.withdraw
  split
  · exact h
  · exact hP.onPart' (keep_foldl h fun _ _ ht => hP.tellEnding ht ..) ..

/-! ### Partitions shrunk and parked (R353 to R356) -/

theorem busyFor (p : Nat) : P (s.busyFor p) := hP.frame h
theorem endBusy (p : Nat) (code : BitVec 7) : P (s.endBusy p code) := keep_ite (hP.mbEnd h ..) h
theorem endRestore (p : Nat) (code : BitVec 7) : P (s.endRestore p code) := keep_ite (hP.frame h) (hP.endBusy h ..)
theorem relocate (p : Nat) (moves : List (Nat × Nat)) : P (s.relocate p moves) := hP.frame (hP.setFlights h _)

theorem parkLaunches (p : Nat) (r : Part) : P (s.parkLaunches p r) :=
  keep_foldl (hP.resumePart (hP.imagesBack (hP.frame h) _ _ fun _ _ _ ht => hP.imageBack ht ..) _) fun _ _ ht => hP.onLaunch ht ..

theorem shrinkNow (p : Nat) (q r : Part) : P (s.shrinkNow p q r) :=
  keep_ite (hP.endRestore (hP.restorePart (hP.onPart' (hP.relocate h ..) ..) _) ..) (hP.endRestore (hP.parkLaunches (hP.onPart' h ..) ..) ..)

theorem finishPreempt (p : Nat) (q : Part) : P (s.finishPreempt p q) := by
  unfold State.finishPreempt
  split
  · exact keep_ite (hP.endBusy (hP.onPart' h ..) ..) (hP.shrinkNow (hP.savePart h ..) ..)
  · exact hP.endBusy (hP.savePart h ..) ..

theorem clearLm (core : Nat) (here : Nat → Bool) : P (s.clearLm core here) := hP.frame (hP.filter (fun c => !(inLmOf (· == core) c.1 && here (lmOffset c.1))) h)

theorem imageJoin (core : Nat) (x : SavedCore) : P (s.imageJoin core x) := keep_ite (hP.imageBack (hP.clearLm h ..) ..) (hP.placeImage (hP.clearLm h ..) ..)

theorem resumeGroup (p : Nat) (q : Part) (g : Nat) : P (s.resumeGroup p q g) :=
  keep_ite (hP.onPart' (hP.imagesBack (hP.frame h) _ _ fun _ _ _ ht => hP.imageJoin ht ..) ..) h

theorem resumeParked (p : Nat) (q : Part) : P (s.resumeParked p q) := hP.resumePart (keep_foldl h fun _ _ ht => hP.resumeGroup ht ..) _

theorem abortParked (p slot : Nat) : P (s.abortParked p slot) := by
  unfold State.abortParked
  split
  · exact keep_ite (hP.orderAbort h ..) h
  · exact h

theorem continueRestore (p : Nat) : P (s.continueRestore p) := keep_ite (keep_ite (hP.resumePart h p) (hP.endBusy (hP.resumePart h p) ..)) h

/-! ### Dies lost and returned (R358 to R362) -/

theorem frostFlight (f : Flight) : P (s.frostFlight f) := by
  unfold State.frostFlight
  dsimp only
  split
  · exact keep_ite (hP.failFlight h ..) (keep_foldl h fun _ _ ht => hP.failPart ht ..)
  · exact keep_ite (hP.failFlight h ..) (keep_foldl h fun _ _ ht => hP.failPart ht ..)
  · exact keep_ite (hP.failFlight h ..) h

theorem frostCopies (core : Nat) (k : Core) : P (s.frostCopies core k) := keep_foldl h fun _ _ ht => hP.failCopy ht ..

theorem frostCtx (c : Ctx) : P (s.frostCtx c) := by
  unfold State.frostCtx
  dsimp only
  split
  · exact hP.orderAbort h ..
  · exact h

theorem refusePushes (die : Nat) (hit : List Flight) : P (s.refusePushes die hit) := by
  refine keep_foldl h fun t f ht => ?_
  split
  · exact keep_ite (hP.gathered ht ..) ht
  · exact keep_ite (hP.gathered ht ..) ht
  · exact ht

theorem frost (die : Nat) : P (s.frost die) := by
  unfold State.frost
  extract_lets hit before gone failed copies ctxs net cleared refused
  have hFailed : P failed := keep_foldl h fun _ _ ht => hP.frostFlight ht _
  have hCopies : P copies := keep_foldl hFailed fun _ _ ht => hP.frostCopies ht ..
  have hCtxs : P ctxs := keep_foldl hCopies fun _ _ ht => hP.frostCtx ht _
  have hCleared : P cleared := hP.frame hCtxs
  exact hP.onDie (hP.frostColls (hP.refusePushes hCleared ..) _) ..

theorem returnDie (die : Nat) : P (s.returnDie die) := by
  have wiped {c : Prop} [Decidable c] := keep_ite (c := c) (hP.wipeCores h fun c => tileOf c == die) h
  exact hP.dropStale (hP.onDie (hP.wipeDue (hP.frame wiped)) ..)

end OfBytes

end Sys2Proof.Machine

namespace Sys2Proof.Machine

namespace OfBytes
variable {P : State → Prop} (hP : OfBytes P) {s : State} (h : P s)
include hP h

/-! ### The host's lines, bias and launch port (R331 to R338, R364) -/

theorem putLine (va : Nat) (data : BitVec 512) : P (s.putLine va data) := by
  have written := hP.writes va 64 data.toNat h
  exact hP.same written rfl

theorem dropHostLine (l : HostLine) : P (s.dropHostLine l) := hP.frame h
theorem hostDenied (vf addr : Nat) (read : Bool) : P (s.hostDenied vf addr read) := keep_ite (hP.sendHost (hP.frame h) _) (hP.frame h)

theorem askOwner (a : Nat) : P (s.askOwner a) := by
  unfold State.askOwner
  dsimp only
  split
  · exact keep_ite h (hP.setHostLine h _)
  · split
    · rename_i e; exact hP.setHostLine (hP.hostRoom h e) _
    · exact h

theorem biasCleared (n : Nat) : P (s.biasCleared n) := keep_ite (keep_foldl h fun _ _ ht => hP.askOwner ht _) (hP.mbEnd (hP.frame h) ..)

theorem setLstat (vf status : Nat) : P (s.setLstat vf status) := hP.frame h

theorem portList (p : Nat) (dom : Option Nat) (ws : List Word) : P (s.portList p dom ws).2 := by
  have words {c attr ro a k r t} := @Stable.of_fetchWords P hP.toStable hP.writes s h p none none c attr ro a k r t
  unfold State.portList
  dsimp only
  split
  · exact h
  · split
    · exact h
    · split
      · split
        · exact h
        · split
          all_goals rename_i e; exact words e
      · exact h

theorem of_portList {p : Nat} {dom : Option Nat} {ws : List Word} {r} {t : State} (e : s.portList p dom ws = (r, t)) : P t := keep_snd e (hP.portList h ..)

theorem portRecord (vf p : Nat) (dom : Option Nat) (r : Record) : P (s.portRecord vf p dom r) := by
  unfold State.portRecord
  dsimp only
  split
  · exact hP.setLstat h ..
  · exact hP.phaseKick (hP.setLstat (hP.submit h ..) ..) _

theorem reclaimUnits (core : Nat) (high : Bool) (slots : List Nat) : P (s.reclaimUnits core high slots) := hP.unitsFreed h ..
theorem reclaimMail (vf : Nat) : P (s.reclaimMail vf) := keep_foldl (hP.frame h) fun _ _ ht => hP.reclaimUnits (hP.reclaimUnits ht ..) ..

theorem reclaimLaunches (vf : Nat) : P (s.reclaimLaunches vf) := by
  refine keep_foldl h fun _ x ht => keep_foldl ht fun u slot hu => ?_
  split
  · exact hP.abortLaunch hu ..
  · exact hu

theorem reclaimJobs (vf : Nat) : P (s.reclaimJobs vf) :=
  keep_foldl (hP.frame (hP.dropJobs h _)) fun _ _ ht => keep_foldl ht fun _ _ hu => keep_foldl hu fun _ _ hv => hP.letPins hv ..

theorem vfResetOver (vf : Nat) : P (s.vfResetOver vf) := by
  have reclaimed := hP.reclaimMail (hP.reclaimJobs (hP.reclaimLaunches h vf) vf) vf
  exact keep_ite (hP.mbEnd (hP.frame reclaimed) ..) (hP.frame reclaimed)

/-! ### Collectives (R341 to R343) -/

theorem setColl (p slot : Nat) (c : CollSlot) : P (s.setColl p slot c) := hP.onPart' h ..

theorem collUpdate (p dom : Nat) (l : Stamp) (a n : Nat) (reads : Bool) (v : State → Nat) : P (s.collUpdate p dom l a n reads v).2 := by
  -- The home's answer is a variable below `id`, so that no check of a match runs it.
  have home {r t} := @Stable.of_atHome P hP.toStable hP.writes s h p a true none r t
  unfold State.collUpdate
  revert home
  generalize @State.atHome = atHome
  revert atHome
  refine id ?_
  intro atHome home
  dsimp only
  split
  · exact h
  · split
    · exact h
    · split
      · exact h
      · split
        all_goals rename_i e; have arrived := home e
        · exact arrived
        · exact arrived
        · exact arrived
        · split
          · exact arrived
          · split
            · exact arrived
            · split
              · exact hP.wantWrite arrived ..
              · exact hP.makeVersion arrived ..

theorem collStore (p dom : Nat) (l : Stamp) (a n v : Nat) : P (s.collStore p dom l a n v).2 := hP.collUpdate h ..

theorem collStores (p dom : Nat) (l : Stamp) (a n : Nat) (vs : List Word) : P (s.collStores p dom l a n vs).2 := by
  induction vs generalizing s a with
  | nil => exact h
  | cons v vs ih =>
    unfold State.collStores
    split
    · rename_i e; exact ih (keep_snd e (hP.collStore h ..)) _
    · exact hP.collStore h ..

theorem collWrites (p : Nat) (c : CollSlot) (code peer : Nat) (flags : BitVec 5) (result : List Word) : P (s.collWrites p c code peer flags result).2 := by
  unfold State.collWrites
  dsimp only
  split
  · rename_i e
    have stored := keep_snd e (hP.collStores h ..)
    split
    · rename_i e; exact hP.collUpdate (keep_snd e (hP.collStore stored ..)) ..
    · exact hP.collStore stored ..
  · exact hP.collStores h ..

theorem of_collWrites {p : Nat} {c : CollSlot} {code peer : Nat} {flags : BitVec 5} {result : List Word} {r} {t : State}
    (e : s.collWrites p c code peer flags result = (r, t)) : P t := keep_snd e (hP.collWrites h ..)

theorem collEnd (p slot : Nat) (c : CollSlot) (code peer : Nat) (flags : BitVec 5) (result : List Word) (told : Nat) :
    P (s.collEnd p slot c code peer flags result told) := by
  unfold State.collEnd
  split
  all_goals rename_i e; have written := hP.of_collWrites h e
  · exact hP.tellEnding (hP.setColl written ..) ..
  · exact hP.setColl written ..
  · split
    all_goals rename_i e; have again := hP.of_collWrites written e
    · exact hP.setColl again ..
    · exact hP.tellEnding (hP.setColl again ..) ..

theorem collRead (p dom : Nat) (clk : Stamp) (a n k : Nat) : P (s.collRead p dom clk a n k).2 := by
  induction k generalizing s a with
  | zero => exact h
  | succ k ih =>
    have fetched {attr ro r t} := @Stable.of_fetchAt P hP.toStable hP.writes s h p none none clk attr ro a n r t
    unfold State.collRead
    split
    · exact h
    · split
      · exact h
      · split
        all_goals rename_i e; have read := fetched e
        · split
          · exact read
          · split
            · rename_i e; exact keep_snd e (ih read _)
            · exact ih read _
        · exact read
        · exact read

theorem of_collRead {p dom : Nat} {clk : Stamp} {a n k : Nat} {r} {t : State} (e : s.collRead p dom clk a n k = (r, t)) : P t := keep_snd e (hP.collRead h ..)

theorem contribute (p slot : Nat) (c : CollSlot) (vs : List Word) : P (s.contribute p slot c vs) :=
  keep_ite (hP.setColl h ..) (keep_foldl (hP.setColl h ..) fun _ _ ht => hP.sendRank ht ..)

theorem offerChunks (p slot : Nat) (c : CollSlot) : P (s.offerChunks p slot c) := keep_foldl (hP.setColl h ..) fun _ _ ht => hP.sendRank ht ..

theorem collGive (p slot : Nat) (c : CollSlot) : P (s.collGive p slot c) := by
  unfold State.collGive
  split
  all_goals rename_i e; have read := hP.of_collRead h e
  · exact hP.contribute read ..
  · exact hP.collEnd read ..
  · exact hP.setColl read ..

theorem sendColl (p slot : Nat) (key : Key) (target : Word) : P (s.sendColl p slot key target) := hP.sendFlight (hP.onColl h ..) _

theorem collGate (p slot : Nat) (c : CollSlot) : P (s.collGate p slot c) := by
  have fetched {clk attr ro r t} := @Stable.of_fetchAt P hP.toStable hP.writes s h p none none clk attr ro (c.word 4).toNat 8 r t
  unfold State.collGate
  dsimp only
  split
  · exact hP.collEnd h ..
  · split
    · exact hP.collEnd h ..
    · split
      all_goals rename_i e; have read := fetched e
      · exact keep_ite (hP.collEnd read ..) (keep_ite (hP.sendColl h ..) (hP.collGive read ..))
      · exact hP.collEnd read ..
      · exact hP.sendColl read ..
      · exact read
      · exact h

/-! ### SPDM and soft errors (R116, R329) -/

theorem respond (fn : Nat) (x : Spdm) (a : SpdmAnswer) : P (s.respond fn x a) := hP.frame h

theorem request (fn stage : Nat) (ok : Spdm → Bool) (answer : Spdm → Spdm × SpdmAnswer) : P (s.request fn stage ok answer) :=
  keep_ite h (keep_ite (hP.respond h ..) (hP.respond h ..))

theorem otherRequest (fn : Nat) : P (s.otherRequest fn) := keep_ite (hP.respond h ..) h

theorem keepWord (id : Nat) (w : IWord) : P (s.keepWord id w) := by
  unfold State.keepWord
  split
  · exact keep_ite (hP.onCore h ..) h
  · exact h

theorem upsetRecord (sl p a : Nat) : P (s.upsetRecord sl p a) := by
  unfold State.upsetRecord
  split
  · exact hP.evictRecord h _
  · exact h

theorem upsetParked (n : Nat) : P (s.upsetParked n) := by
  unfold State.upsetParked
  split
  · exact h
  · dsimp only
    split
    · exact h
    · split
      · exact hP.failFlight (hP.dropFlight (hP.unitFreed h _) n) ..
      · exact hP.failFlight (hP.dropFlight h n) ..

theorem upsetTranslation (sl p page : Nat) : P (s.upsetTranslation sl p page) := by
  unfold State.upsetTranslation
  extract_lets mine held net wiped
  have hWiped : P wiped := hP.wipeDue (hP.frame h)
  split
  · exact hWiped
  · split
    · exact keep_ite (hP.failFlight (hP.dropFlight hWiped _) ..) hWiped
    · exact hWiped

theorem upsetRegisters (id : Nat) : P (s.upsetRegisters id) := keep_ite h (hP.machineCheck h ..)

theorem upsetAccumulators (core : Nat) : P (s.upsetAccumulators core) := by
  unfold State.upsetAccumulators
  split
  · exact h
  · exact keep_ite h (hP.jobPins (hP.jobMachineCheck (hP.closeJob h ..) _) ..)

theorem upsetHard (u : Upset) : P (s.upsetHard u) := by
  cases u with
  | lmWord core off => exact keep_ite (hP.setPoison h ..) h
  | cacheCopy core p a => exact hP.onCore h core fun c => c.dropLine p a
  | dewCopy x y p a => exact hP.frame h
  | routerBuffer n =>
    unfold State.upsetHard
    dsimp only
    split
    · exact hP.linkFails h ..
    · exact h
  | lineRecord sl p a => exact hP.upsetRecord h ..
  | parkedStore n => exact hP.upsetParked h n
  | translation sl p page => exact hP.upsetTranslation h ..
  | hbmWord p a => exact keep_ite (hP.setPoison h ..) h
  | registers id => exact hP.upsetRegisters h id
  | accumulators core => exact hP.upsetAccumulators h core

end OfBytes

end Sys2Proof.Machine

namespace Sys2Proof.Machine

namespace OfBytes
variable {P : State → Prop} (hP : OfBytes P) {s : State} (h : P s)
include hP h

/-! ### The arms of the events at cores, homes and ports -/

theorem execWaittExpiry (ctx : Nat) : Answer.Gives P (execWaittExpiry ctx s) := by
  unfold Machine.execWaittExpiry
  dsimp only [Answer.Gives]
  split
  · exact keep_ite (hP.onCtx h ..) h
  · exact h

theorem execGamoWindowEnd (n : Nat) : Answer.Gives P (execGamoWindowEnd n s) := by
  unfold Machine.execGamoWindowEnd
  dsimp only [Answer.Gives]
  split
  · split
    · exact h
    · split
      · exact hP.frame h
      · exact hP.sendFlight (hP.frame h) _
  · exact h

theorem execMigrateReturn (ctx : Nat) : Answer.Gives P (execMigrateReturn ctx s) := keep_ite (P := P) (hP.returnFromW h _) h

theorem execWCoreEarlyReturn (ctx : Nat) : Answer.Gives P (execWCoreEarlyReturn ctx s) := by
  unfold Machine.execWCoreEarlyReturn
  dsimp only [Answer.Gives]
  split
  · exact h
  · split
    · exact h
    · exact keep_ite (hP.resendWaits (hP.returnFromW h _) _) (keep_ite (hP.returnFromW h _) h)

theorem execCopyCompletionInterrupt (ctx : Nat) : Answer.Gives P (execCopyCompletionInterrupt ctx s) := keep_ite (P := P) (hP.takeCompletion h _) h

theorem execHomeLoad (n : Nat) (c : Stamp) (passed : Nat) : Answer.Gives P (execHomeLoad n c passed s) := by
  -- The home's answer and the read at it are variables below `id`, so that no check of a match runs them.
  have home {p a sent r t} := @Stable.of_atHome P hP.toStable hP.writes s h p a false sent r t
  have ok {u : State} := @Stable.of_serveRead P hP.toStable u
  have error {u : State} := @Stable.of_serveRead_error P hP.toStable u
  unfold Machine.execHomeLoad
  revert home ok error
  generalize @State.atHome = atHome
  generalize @State.serveRead = read
  revert atHome read
  refine id ?_
  intro atHome read home ok error
  dsimp only [Answer.Gives]
  split
  · rename_i f _
    split
    · split
      · exact h
      · split
        · exact keep_ite h (hP.putFlight h ..)
        · split
          all_goals rename_i e; have arrived := home e
          · exact keep_ite (hP.dropFlight arrived n) (hP.answer arrived ..)
          · exact keep_ite (hP.dropFlight (hP.frame arrived) n) (hP.answer arrived ..)
          · exact arrived
          · split
            · exact hP.answer arrived ..
            · split
              · rename_i e; exact error arrived e
              · rename_i e; exact hP.answer (ok arrived e) ..
    · exact h
  · exact h

theorem execDewAnswer (n : Nat) (c : Stamp) : Answer.Gives P (execDewAnswer n c s) := by
  unfold Machine.execDewAnswer
  dsimp only [Answer.Gives]
  split
  · split
    · split
      · exact h
      · split
        · exact hP.answer (hP.onCore h ..) ..
        · split
          · exact h
          · split
            · exact h
            · split
              · exact h
              · exact hP.answer (hP.touchDew h ..) ..
    · exact h
  · exact h

theorem execLoadReply (n : Nat) : Answer.Gives P (execLoadReply n s) := by
  have dropped := hP.dropFlight h n
  unfold Machine.execLoadReply
  dsimp only [Answer.Gives]
  split
  · split
    · split
      · exact h
      · split
        · have condensed {f q x hop give} := hP.dropFlight (hP.condense h f q x hop give) n
          exact keep_ite (hP.putFlight h ..) (keep_ite (hP.faultOver (hP.finishLoad condensed ..) _) condensed)
        · exact keep_ite (hP.faultWait (hP.putFlight h ..) ..) dropped
        · exact hP.failFlight dropped ..
        · exact keep_ite (hP.trapLater (hP.onCtx (hP.leaveFifo dropped _) ..) ..) dropped
    · exact keep_ite (hP.portLoad dropped ..) h
    · exact h
  · exact h

theorem execHomeStore (n : Nat) : Answer.Gives P (execHomeStore n s) := by
  unfold Machine.execHomeStore
  dsimp only [Answer.Gives]
  split
  · split
    · exact keep_ite (keep_ite h (hP.storeArrives h ..)) (keep_ite h (hP.storeArrives h ..))
    · exact hP.pushNow h ..
    · exact h
  · exact h

theorem execHorizonWaitEnd (n : Nat) : Answer.Gives P (execHorizonWaitEnd n s) := by
  unfold Machine.execHorizonWaitEnd
  dsimp only [Answer.Gives]
  split
  · split
    · exact keep_ite (hP.storeArrives h ..) h
    · exact keep_ite (hP.atomArrives h ..) h
    · exact h
  · exact h

theorem execPlsharedWriteRelease (n : Nat) : Answer.Gives P (execPlsharedWriteRelease n s) := by
  unfold Machine.execPlsharedWriteRelease
  dsimp only [Answer.Gives]
  split
  · split
    · exact keep_ite (hP.storeArrives h ..) h
    · exact keep_ite (hP.atomArrives h ..) h
    · exact h
  · exact h

theorem execStoreAck (n : Nat) : Answer.Gives P (execStoreAck n s) := by
  unfold Machine.execStoreAck
  dsimp only [Answer.Gives]
  split
  · rename_i f _
    split
    · rename_i q v _
      have raised := hP.raiseLaunch (hP.dropFlight h n) f.part f.launch v.wts
      have filled {c : Prop} [Decidable c] (g : Core → Core) := keep_ite (c := c) (hP.onCore raised (coreOf f.ctx) g) raised
      have noted {b c : Prop} [Decidable b] [Decidable c] (g : Core → Core) (k : CopyRec → CopyRec) :=
        keep_ite (c := b) (hP.onCopy (filled (c := c) g) (coreOf f.ctx) (f.uid - 1) k) (filled (c := c) g)
      exact keep_ite h (keep_ite (hP.bumpLoads (hP.raiseLclk (noted _ _) ..) ..) (noted _ _))
    · exact keep_ite h (keep_ite (hP.failFlight (hP.dropFlight h n) ..) (hP.dropFlight h n))
    · exact h
  · exact h

theorem execHomeAtomic (n : Nat) : Answer.Gives P (execHomeAtomic n s) := by
  unfold Machine.execHomeAtomic
  dsimp only [Answer.Gives]
  split
  · split
    · exact keep_ite (keep_ite h (hP.atomArrives h ..)) (keep_ite h (hP.atomArrives h ..))
    · exact h
  · exact h

theorem execAtomicResult (n : Nat) : Answer.Gives P (execAtomicResult n s) := by
  have dropped := hP.dropFlight h n
  unfold Machine.execAtomicResult
  dsimp only [Answer.Gives]
  split
  · rename_i f _
    split
    · rename_i q _ _
      refine keep_ite h ?_
      split
      · rename_i old _ wts _
        have raised (w : Stamp) := hP.raiseLaunch dropped f.part f.launch w
        have gamo {u : State} (hu : P u) := keep_foldl (f := fun s x => if (s.ctx x.ctx).uid = x.uid then s.faultOver x.ctx else s) (l := q.parts)
          (hP.finishGamo hu f.part q old (wts.getD 0)) fun _ _ ht => keep_ite (hP.faultOver ht _) ht
        cases wts with
        | none => exact keep_ite (gamo dropped) (keep_ite (hP.faultOver (hP.finishAtomic dropped ..) _) dropped)
        | some w => exact keep_ite (gamo (raised w)) (keep_ite (hP.faultOver (hP.finishAtomic (hP.bumpLoads (hP.raiseLclk (raised w) ..) ..) ..) _) (raised w))
      · exact hP.atomFaults h ..
      · exact keep_ite (hP.failFlight dropped ..) (keep_foldl dropped fun _ _ ht => hP.failPart ht ..)
      · exact keep_foldl dropped fun _ _ ht => keep_ite (hP.trapLater (hP.onCtx ht ..) ..) ht
    · exact h
  · exact h

theorem execLmAtomic (n : Nat) : Answer.Gives P (execLmAtomic n s) := by
  have dropped := hP.dropFlight h n
  unfold Machine.execLmAtomic
  dsimp only [Answer.Gives]
  split
  · rename_i f _
    split
    · rename_i q _
      have released := hP.afterAtomic (hP.recordRelease h f q.rel) ((lmCore? q.addr).getD 0)
      refine keep_ite h (keep_ite (hP.answer h ..) (keep_ite (keep_ite (hP.machineCheck dropped ..) (hP.failFlight dropped ..)) ?_))
      split
      · exact hP.answer released ..
      · exact hP.answer (hP.portStore hP.writes released ..) ..
    · exact h
  · exact h

theorem execPubPublish (slice : Nat) (value : Stamp) : Answer.Gives P (execPubPublish slice value s) := keep_ite (P := P) (hP.frame h) h

theorem execHomeSweep : Answer.Gives P (execHomeSweep s) := keep_ite (P := P) h (hP.frame h)

theorem execPushReceive (n : Nat) : Answer.Gives P (execPushReceive n s) := by
  unfold Machine.execPushReceive
  dsimp only [Answer.Gives]
  split
  · split
    · exact keep_ite h (hP.answer (keep_ite (hP.onCore (hP.acceptsPush h ..) ..) (hP.acceptsPush h ..)) ..)
    · exact h
  · exact h

theorem execPushAnswer (n : Nat) : Answer.Gives P (execPushAnswer n s) := by
  unfold Machine.execPushAnswer
  dsimp only [Answer.Gives]
  split
  · split
    · exact keep_ite h (hP.gathered (hP.dropFlight h n) ..)
    · exact h
  · exact h

theorem execPushAck (n : Nat) : Answer.Gives P (execPushAck n s) := by
  unfold Machine.execPushAck
  dsimp only [Answer.Gives]
  split
  · split
    · exact keep_ite h (keep_ite (hP.onCtx (hP.dropFlight h n) ..) (hP.dropFlight h n))
    · exact h
  · exact h

theorem execPurgeAck (n : Nat) : Answer.Gives P (execPurgeAck n s) := by
  unfold Machine.execPurgeAck
  dsimp only [Answer.Gives]
  split
  · split
    · exact keep_ite (hP.dropFlight h n) h
    · exact h
  · exact h

theorem execSquallWait (n : Nat) : Answer.Gives P (execSquallWait n s) := by
  unfold Machine.execSquallWait
  dsimp only [Answer.Gives]
  split
  · split
    · split
      · exact h
      · refine keep_ite h ?_
        split
        · refine hP.putFlight ?_ ..
          split
          · exact hP.setSquall h _
          · exact h
        · refine hP.dropFlight ?_ n
          split
          · exact hP.setSquall h _
          · exact h
    · exact h
  · exact h

theorem execSquallWake (n : Nat) : Answer.Gives P (execSquallWake n s) := by
  unfold Machine.execSquallWake
  dsimp only [Answer.Gives]
  split
  · split
    · split
      · exact h
      · split
        · exact hP.dropFlight h n
        · exact keep_foldl (hP.frame (hP.dropFlight h n)) fun _ _ ht => hP.sendWake ht ..
    · exact h
  · exact h

theorem execSquallEntryExpiry (n : Nat) : Answer.Gives P (execSquallEntryExpiry n s) := by
  unfold Machine.execSquallEntryExpiry
  dsimp only [Answer.Gives]
  split
  · exact keep_ite (hP.frame h) h
  · exact h

theorem execHomeWaitRecord (n : Nat) : Answer.Gives P (execHomeWaitRecord n s) := by
  -- The home's answer is a variable below `id`, so that no check of a match runs it.
  have home {p a sent r t} := @Stable.of_atHome P hP.toStable hP.writes s h p a false sent r t
  unfold Machine.execHomeWaitRecord
  revert home
  generalize @State.atHome = atHome
  revert atHome
  refine id ?_
  intro atHome home
  dsimp only [Answer.Gives]
  have dropped := hP.dropFlight h n
  split
  · split
    · split
      · exact dropped
      · split
        · exact h
        · split
          · exact keep_ite (hP.recordWait dropped ..) (hP.answerWait dropped ..)
          · split
            all_goals rename_i e; have arrived := home e
            · exact hP.wordWait arrived ..
            · exact arrived
            · exact hP.dropFlight arrived n
            · exact hP.recordWait dropped ..
    · exact h
  · exact h

theorem execWaitWake (n : Nat) : Answer.Gives P (execWaitWake n s) := by
  have dropped := hP.dropFlight h n
  unfold Machine.execWaitWake
  dsimp only [Answer.Gives]
  split
  · split
    · exact keep_ite h (keep_foldl dropped fun _ _ ht => hP.wakeOne ht ..)
    · exact keep_ite h (hP.wakeGate dropped ..)
    · exact keep_ite h (hP.onColl dropped ..)
    · exact h
  · exact h

theorem execWaitRepoll (ctx : Nat) : Answer.Gives P (execWaitRepoll ctx s) :=
  keep_ite (P := P) (hP.resendAtTable h ..) (keep_ite (hP.resendCopies h ..) (keep_ite (hP.resendWaits h _) h))

theorem execUnrecordedResend (ctx : Nat) : Answer.Gives P (execUnrecordedResend ctx s) :=
  keep_ite (P := P) (hP.resendAtTable h ..) (keep_ite (hP.resendCopies h ..) (keep_ite (hP.resendWaits h _) h))

theorem arriveRing (f : Flight) (m : Msg) : P (s.arriveRing f m).2.2 := hP.of_arriveRing h (r := (s.arriveRing f m).1) (race := (s.arriveRing f m).2.1) rfl

theorem deliverMessage (src : Nat) (m : Msg) : P (s.deliverMessage src m).2 := hP.of_deliverMessage h (n := (s.deliverMessage src m).1) rfl

theorem execMessageArrival (n : Nat) : Answer.Gives P (execMessageArrival n s) := by
  unfold Machine.execMessageArrival
  dsimp only [Answer.Gives]
  split
  · split
    · exact keep_ite h (keep_ite (hP.answer h ..)
        (keep_ite (hP.answer (hP.poisonBlock (hP.arriveRing h ..) ..) ..) (hP.answer (hP.poisonBlock (hP.deliverMessage h ..) ..) ..)))
    · exact h
  · exact h

theorem execHandlerStart (core : Nat) (high : Bool) : Answer.Gives P (execHandlerStart core high s) :=
  keep_ite (P := P) h (keep_ite (keep_ite h (keep_ite (keep_ite h (keep_ite h (hP.startHandler (hP.onCtx h ..) ..))) (keep_ite (hP.startHandler h ..) h)))
    (keep_ite h (hP.startHandler h ..)))

theorem execMessageAnswer (n : Nat) : Answer.Gives P (execMessageAnswer n s) := by
  have dropped := hP.dropFlight h n
  unfold Machine.execMessageAnswer
  dsimp only [Answer.Gives]
  split
  · split
    · refine keep_ite h (keep_ite dropped ?_)
      split
      · exact hP.trapLater (hP.onCtx dropped ..) ..
      · exact keep_ite (keep_ite (hP.onCtx (hP.bounce (hP.onCtx dropped ..) ..) ..) (hP.onCtx (hP.onCtx dropped ..) ..)) (hP.onCtx dropped ..)
    · exact h
  · exact h

theorem execHandlerOverrun (ctx : Nat) : Answer.Gives P (execHandlerOverrun ctx s) := by
  unfold Machine.execHandlerOverrun
  dsimp only [Answer.Gives]
  split
  · exact h
  · split
    · exact hP.orderAbort (hP.endHandler h _) ..
    · exact hP.logAbort (hP.endHandler h _) ..

theorem execRemoteLmStore (n : Nat) : Answer.Gives P (execRemoteLmStore n s) := by
  unfold Machine.execRemoteLmStore
  dsimp only [Answer.Gives]
  split
  · rename_i f _
    split
    · rename_i rel _ _
      have released := hP.recordRelease h f rel
      have skipped {c : Prop} [Decidable c] (g : Ctx → Ctx) := keep_ite (c := c) (hP.onCtx released f.ctx g) released
      refine keep_ite h (keep_ite (hP.answer h ..) ?_)
      split
      · split
        all_goals rename_i e; have offered := hP.of_feArrive hP.writes (skipped _) e
        · exact hP.dropFlight offered n
        · exact hP.putFlight offered ..
      · exact hP.answer (hP.carryPoison (hP.portWrite (skipped _) ..) ..) ..
    · exact h
  · exact h

theorem execRefusedOfferRetry (n : Nat) : Answer.Gives P (execRefusedOfferRetry n s) := by
  unfold Machine.execRefusedOfferRetry
  dsimp only [Answer.Gives]
  split
  · split
    · exact h
    · split
      · exact keep_ite (hP.storeArrives (hP.putFlight h ..) ..) h
      · exact keep_ite (hP.atomArrives (hP.putFlight h ..) ..) h
      · refine keep_ite h ?_
        split
        all_goals rename_i e; have offered := hP.of_feArrive hP.writes h e
        · exact hP.dropFlight offered n
        · exact hP.putFlight offered ..
      · exact h
  · exact h

theorem execReservedHoldLapse (n : Nat) : Answer.Gives P (execReservedHoldLapse n s) := by
  unfold Machine.execReservedHoldLapse
  dsimp only [Answer.Gives]
  split
  · exact hP.setTurns h _
  · exact h

theorem execPageResolve (part page : Nat) (leaf : Option Word) : Answer.Gives P (execPageResolve part page leaf s) := by
  unfold Machine.execPageResolve
  dsimp only [Answer.Gives]
  split
  · exact h
  · split
    · exact keep_ite (hP.mapFault (hP.writeLeaf h ..) _) h
    · exact hP.denyFault h _

theorem execFaultWake (n : Nat) : Answer.Gives P (execFaultWake n s) := by
  have dropped := hP.dropFlight h n
  unfold Machine.execFaultWake
  dsimp only [Answer.Gives]
  split
  · split
    · exact keep_ite h (keep_foldl (keep_ite h dropped) fun _ _ ht => hP.wakeFault ht ..)
    · exact keep_ite h (hP.wakeGate dropped ..)
    · exact keep_ite h (hP.onColl dropped ..)
    · exact h
  · exact h

/-! ### The arms of the events at the launch tables (R181 to R192, R346) -/

theorem execGateOpen (part slot : Nat) : Answer.Gives P (execGateOpen part slot s) := by
  have fetched {clk attr ro a r t} := @Stable.of_fetchAt P hP.toStable hP.writes s h part none none clk attr ro a 8 r t
  unfold Machine.execGateOpen
  dsimp only [Answer.Gives]
  split
  · exact h
  · split
    · exact h
    · split
      · exact hP.orderAbort h ..
      · split
        · exact hP.orderAbort h ..
        · split
          all_goals rename_i e; have read := fetched e
          · exact keep_ite (hP.orderAbort h ..) (keep_ite (hP.sendGate h ..) (hP.onLaunch read ..))
          · exact hP.orderAbort h ..
          · exact hP.sendGate read ..
          · exact read
          · exact h

theorem execLaunchAged (part slot : Nat) : Answer.Gives P (execLaunchAged part slot s) := by
  unfold Machine.execLaunchAged
  dsimp only [Answer.Gives]
  split
  · exact h
  · exact keep_ite (hP.onLaunch h ..) h

theorem execThreadPlace (part : Nat) : Answer.Gives P (execThreadPlace part s) := by
  unfold Machine.execThreadPlace
  dsimp only [Answer.Gives]
  split
  · exact h
  · exact keep_ite (hP.placeFirst h ..) h

theorem execStagingDone (ctx : Nat) : Answer.Gives P (execStagingDone ctx s) := by
  unfold Machine.execStagingDone
  dsimp only [Answer.Gives]
  split
  · rename_i l _ _ _
    split
    · exact h
    · split
      all_goals rename_i e; have staged := hP.of_stageFoots h e
      · have joined : P (if l.group = 0 then (Staged.done, _) else State.autoJoin _ ctx l.group).2 :=
          keep_ite (P := fun x : Staged × State => P x.2) staged (hP.autoJoin staged ..)
        split
        all_goals rename_i e; have done := keep_snd e joined
        · exact hP.onCtx done ..
        · exact hP.notStarted done ..
      · exact hP.notStarted staged ..
  · exact h

theorem execLaunchComplete (part slot : Nat) : Answer.Gives P (execLaunchComplete part slot s) := by
  unfold Machine.execLaunchComplete
  dsimp only [Answer.Gives]
  split
  · exact h
  · split
    · exact h
    · split
      all_goals rename_i e; have added := hP.of_completionAdd h e
      · exact hP.freeLaunchSlot (hP.postFor added ..) ..
      · exact added
      · exact hP.orderAbort added ..

theorem execCompletionPost (part : Nat) : Answer.Gives P (execCompletionPost part s) := by
  unfold Machine.execCompletionPost
  dsimp only [Answer.Gives]
  split
  · exact h
  · split
    · exact h
    · exact hP.frame (hP.onPart' h ..)

theorem execLaunchAbort (part slot : Nat) : Answer.Gives P (execLaunchAbort part slot s) := by
  unfold Machine.execLaunchAbort
  dsimp only [Answer.Gives]
  split
  · exact h
  · split
    · exact h
    · exact keep_ite (hP.abortLaunch h ..) h

/-! ### The arms of the events of ISOBAR, jobs and copies (R191, R193, R220 to R223, R279 to R297) -/

theorem execIsobarEstimate (measured : List (Nat × Int)) : Answer.Gives P (execIsobarEstimate measured s) := by
  have sensed := hP.readSensors (hP.noteHot h) measured
  exact keep_ite (P := P) h (hP.noteHot (hP.noteWaits (keep_foldl (hP.frame sensed) fun _ _ ht => keep_ite (hP.onDie ht ..) ht)))

theorem execWorkAged (tile : Nat) : Answer.Gives P (execWorkAged tile s) := keep_ite (P := P) (hP.onDie h ..) h

theorem execClockRaiseCheck (tile : Nat) : Answer.Gives P (execClockRaiseCheck tile s) := keep_ite (P := P) h (hP.onDie h ..)

theorem execJobDispatch (core : Nat) : Answer.Gives P (execJobDispatch core s) := by
  unfold Machine.execJobDispatch
  dsimp only [Answer.Gives]
  split
  · exact keep_ite (hP.onCore h ..) h
  · split
    · exact h
    · exact hP.onCore (hP.takeCharge (hP.frame h) _) ..

theorem execJobRetire (core : Nat) : Answer.Gives P (execJobRetire core s) := by
  unfold Machine.execJobRetire
  dsimp only [Answer.Gives]
  split
  · exact h
  · rename_i j _ _
    have run : P (if j.sick then (JobEnd.poisoned, s) else s.runJob core j).2 :=
      keep_ite (P := fun x : JobEnd × State => P x.2) h (hP.runJob h ..)
    refine keep_ite h (hP.jobPins ?_ ..)
    exact keep_ite (hP.jobMachineCheck (hP.closeJob run ..) _) (hP.closeJob run ..)

theorem execCopyDispatch (core : Nat) : Answer.Gives P (execCopyDispatch core s) := by
  unfold Machine.execCopyDispatch
  dsimp only [Answer.Gives]
  split
  · exact keep_ite (hP.onCore h ..) h
  · split
    · exact hP.onCopy (hP.takeCharge (hP.frame h) _) ..
    · exact h

theorem execCopyElement (core seq element : Nat) : Answer.Gives P (execCopyElement core seq element s) := by
  unfold Machine.execCopyElement
  dsimp only [Answer.Gives]
  split
  · exact h
  · split
    · exact h
    · split
      all_goals rename_i e; have src := hP.of_copyAddr h e
      · split
        all_goals rename_i e; have dst := hP.of_copyAddr src e
        · split
          all_goals rename_i e; have read := hP.of_xuRead dst e
          · split
            · rename_i e; exact hP.onCopy (hP.of_xuWrite read e) ..
            · exact hP.failCopy read ..
          · exact hP.xuStops read ..
        · exact hP.xuStops dst ..
      · exact hP.xuStops src ..

theorem execCopyResume (n : Nat) : Answer.Gives P (execCopyResume n s) := by
  unfold Machine.execCopyResume
  dsimp only [Answer.Gives]
  split
  · split
    · exact keep_ite h (keep_foldl (keep_ite (hP.dropFlight h n) h) fun _ _ ht => hP.wakeCopy ht ..)
    · exact h
  · exact h

theorem execCopyDone (core seq : Nat) : Answer.Gives P (execCopyDone core seq s) := by
  unfold Machine.execCopyDone
  dsimp only [Answer.Gives]
  split
  · exact h
  · exact keep_ite h (hP.letPins (hP.endCopy h ..) ..)

end OfBytes

end Sys2Proof.Machine

namespace Sys2Proof.Machine

namespace OfBytes
variable {P : State → Prop} (hP : OfBytes P) {s : State} (h : P s)
include hP h

/-! ### The arms of the events of time, links and dies (R148 to R150, R319, R358 to R362) -/

theorem execGtrExchange (die : Nat) (measured : Option Int) (bound : BitVec 12) : Answer.Gives P (execGtrExchange die measured bound s) :=
  keep_ite (P := P) h (hP.onDie h ..)

theorem execZwionTimeExchange (port : Nat) (measured : Int) : Answer.Gives P (execZwionTimeExchange port measured s) := keep_ite (P := P) (hP.follow h _) h

theorem execReplyTimeout (n : Nat) : Answer.Gives P (execReplyTimeout n s) := by
  have dropped := hP.dropLost h n
  unfold Machine.execReplyTimeout
  dsimp only [Answer.Gives]
  split
  · exact h
  · split
    · exact h
    · split
      · exact hP.resend h ..
      · exact hP.resend h ..
      · exact hP.resend h ..
      · exact hP.resend h ..
      · exact keep_ite (hP.onCtx dropped ..) dropped
      · exact hP.lostAnswer dropped ..
      · exact hP.lostAnswer dropped ..
      · exact dropped
      · exact hP.fetchSeq h ..

theorem execSeqFetch (n : Nat) : Answer.Gives P (execSeqFetch n s) := by
  have dropped := hP.dropFlight h n
  unfold Machine.execSeqFetch
  dsimp only [Answer.Gives]
  split
  · split
    · split
      · exact dropped
      · split
        · exact dropped
        · split
          · exact hP.resend dropped ..
          · split
            · split
              · exact h
              · split
                · exact hP.resend dropped ..
                · exact keep_ite (hP.sendChecked (hP.dropLost dropped _) _) (hP.resend dropped ..)
            · exact hP.resend dropped ..
    · exact h
  · exact h

theorem execRightsPurge (core domain : Nat) : Answer.Gives P (execRightsPurge core domain s) := by
  unfold Machine.execRightsPurge
  exact hP.ackRights (hP.onCore h ..) ..

theorem execTranslationPurge (slice page : Nat) : Answer.Gives P (execTranslationPurge slice page s) := by
  unfold Machine.execTranslationPurge
  exact hP.wipeDue (hP.frame h)

theorem execPageMigration (page : Nat) (large : Bool) (leafAndData : Word × List (Nat × BitVec 512)) : Answer.Gives P (execPageMigration page large leafAndData s) := by
  have written {c : Prop} [Decidable c] (old leaf : Word) (a n level : Nat) (data : List (Nat × BitVec 512)) :=
    hP.writeLeaf (keep_ite (c := c) (hP.movePage h old leaf large a n data) h) level page leaf
  unfold Machine.execPageMigration
  dsimp only [Answer.Gives]
  exact keep_ite h (keep_ite (keep_foldl (written ..) fun _ _ ht => hP.mapFault ht _) (written ..))

theorem execWipe (part : Nat) : Answer.Gives P (execWipe part s) := by
  unfold Machine.execWipe
  dsimp only [Answer.Gives]
  split
  · exact hP.mbEnd (hP.frame (hP.wipeModule s)) ..
  · split
    · exact h
    · exact keep_ite (hP.endLost (hP.frame (hP.wipePages (hP.wipeDue (hP.wipeHomes (hP.wipeCores h _) part)) part))) h

theorem execPreemptDrainDeadline (part : Nat) : Answer.Gives P (execPreemptDrainDeadline part s) := by
  unfold Machine.execPreemptDrainDeadline
  dsimp only [Answer.Gives]
  split
  · split
    · exact keep_ite (hP.finishPreempt h ..) h
    · exact h
  · exact h

theorem execDrainComplete (part : Nat) : Answer.Gives P (execDrainComplete part s) := by
  unfold Machine.execDrainComplete
  dsimp only [Answer.Gives]
  split
  · split
    · exact keep_ite (hP.finishPreempt h ..) h
    · exact h
  · exact h

theorem execDieReset (die : Nat) (answers : Bool) : Answer.Gives P (execDieReset die answers s) := by
  unfold Machine.execDieReset
  refine keep_ite (P := P) h (keep_ite (hP.restart s) (keep_ite (keep_foldl (hP.returnDie h _) fun _ _ ht => hP.restorePart ht _)
    (keep_ite h (keep_ite (keep_foldl h fun _ _ ht => keep_ite (hP.onPart' (hP.startPreempt ht ..) ..) ht) (keep_ite h ?_)))))
  exact hP.frame (hP.onDie h ..)

theorem execQuiesceDeadline (n : Nat) : Answer.Gives P (execQuiesceDeadline n s) :=
  keep_ite (P := P) (keep_ite (hP.frost h _) h) (keep_ite (hP.vfResetOver h _) h)

theorem execHomeReturn (slice : Nat) : Answer.Gives P (execHomeReturn slice s) := keep_ite (P := P) h (hP.frame h)

theorem execCrossingReplay (die : Nat) (good : Bool) : Answer.Gives P (execCrossingReplay die good s) :=
  keep_ite (P := P) h (keep_ite (hP.onDie h ..) (keep_ite (hP.onDie h ..) (hP.frost h _)))

theorem execLinkCrcRetry (n : Nat) (again : Bool) : Answer.Gives P (execLinkCrcRetry n again s) := by
  unfold Machine.execLinkCrcRetry
  dsimp only [Answer.Gives]
  split
  · exact keep_ite (hP.linkFails h ..) (hP.countError h _)
  · exact h

theorem execHbmPatrol (word errors : Nat) : Answer.Gives P (execHbmPatrol word errors s) := by
  unfold Machine.execHbmPatrol
  dsimp only [Answer.Gives]
  split
  · exact keep_ite h (keep_ite (hP.countError h _) (hP.setPoison h ..))
  · exact h

/-! ### The arms of the events at the host (R331 to R338, R364) -/

theorem execHostGrant (hpa : Nat) (state : BitVec 2) (data : BitVec 512) : Answer.Gives P (execHostGrant hpa state data s) := by
  unfold Machine.execHostGrant
  dsimp only [Answer.Gives]
  split
  · exact h
  · exact keep_ite (hP.setHostLine (keep_ite h (hP.putLine h ..)) _) h

theorem execHostSnoop (hpa : Nat) (invalidate : Bool) : Answer.Gives P (execHostSnoop hpa invalidate s) := by
  unfold Machine.execHostSnoop
  refine keep_ite (P := P) h (keep_foldl h fun t l ht => ?_)
  split
  · exact ht
  · split
    · exact keep_ite (hP.setHostLine (hP.sendHost ht _) _) ht
    · exact hP.setHostLine ht _

theorem execSnoopAnswer (hpa : Nat) : Answer.Gives P (execSnoopAnswer hpa s) :=
  keep_ite (P := P) h (keep_foldl h fun _ _ ht => hP.setHostLine (keep_ite (hP.sendHost ht _) ht) _)

theorem execWritePullDrop (hpa : Nat) : Answer.Gives P (execWritePullDrop hpa s) := by
  unfold Machine.execWritePullDrop
  dsimp only [Answer.Gives]
  split
  · exact h
  · exact hP.dropHostLine h _

theorem execHostMemAccess (vf addr : Nat) (write : Option (BitVec 512)) : Answer.Gives P (execHostMemAccess vf addr write s) := by
  refine keep_ite (P := P) h (keep_ite (hP.hostDenied h ..) (keep_ite h (keep_ite (hP.frame h) (keep_ite h ?_))))
  cases write with
  | none => exact hP.sendHost h _
  | some d => exact hP.putLine h ..

theorem execBiasFlipToHost (page : Nat) : Answer.Gives P (execBiasFlipToHost page s) := keep_ite (P := P) (hP.frame h) h

theorem execLaunchPortWrite (vf offset : Nat) (bytes : List Byte) : Answer.Gives P (execLaunchPortWrite vf offset bytes s) := by
  unfold Machine.execLaunchPortWrite
  dsimp only [Answer.Gives]
  split
  · exact h
  · split
    · exact hP.setLstat h ..
    · split
      · exact hP.setLstat h ..
      · refine keep_ite (hP.setLstat h ..) (keep_ite (hP.setLstat (keep_ite h (hP.offer h ..)) ..) ?_)
        split
        all_goals rename_i e; have read := hP.of_portList h e
        · exact hP.portRecord read ..
        · exact keep_ite (hP.portRecord h ..) read
        · exact hP.portRecord read ..

theorem execVfRegisterWrite (vf offset : Nat) (value : Word) : Answer.Gives P (execVfRegisterWrite vf offset value s) := by
  unfold Machine.execVfRegisterWrite
  refine keep_ite (P := P) h (keep_ite (hP.setLstat h ..) ?_)
  dsimp only
  split
  · exact hP.frame h
  · exact hP.frame h
  · exact hP.frame h
  · exact h

/-! ### The arms of the events at Zwion ports and collectives (R339 to R343) -/

theorem execZwionFlitReceive (port : Nat) (kind : BitVec 4) (seq ack : BitVec 12) (cls : BitVec 4) (payload : List Byte) (crcGood full : Bool) :
    Answer.Gives P (execZwionFlitReceive port kind seq ack cls payload crcGood full s) := keep_ite (P := P) h (hP.onPort h ..)

theorem execZwionNak (port : Nat) (last : BitVec 12) : Answer.Gives P (execZwionNak port last s) := keep_ite (P := P) h (hP.onPort h ..)

theorem execZwionBusyReplay (port : Nat) (seq : BitVec 12) : Answer.Gives P (execZwionBusyReplay port seq s) := by
  unfold Machine.execZwionBusyReplay
  dsimp only [Answer.Gives]
  split
  · exact keep_ite (hP.onPort h ..) h
  · exact h

theorem execZwionRetrain (port : Nat) (lanesGood : Bool) : Answer.Gives P (execZwionRetrain port lanesGood s) := keep_ite (P := P) (hP.onPort h ..) h

theorem execCollStart (part slot : Nat) : Answer.Gives P (execCollStart part slot s) := by
  unfold Machine.execCollStart
  dsimp only [Answer.Gives]
  split
  · exact h
  · exact keep_ite h (keep_ite (hP.collGive h ..) (keep_ite h (hP.collGate h ..)))

theorem execCollChunk (part slot rank chunk : Nat) (data : List Word) : Answer.Gives P (execCollChunk part slot rank chunk data s) := by
  unfold Machine.execCollChunk
  dsimp only [Answer.Gives]
  split
  · exact keep_ite (keep_ite h (keep_ite (hP.sendRank h ..) (hP.setColl h ..))) h
  · exact h

theorem execCollResult (part slot : Nat) (result : List Word) (flags : BitVec 5) (ending : BitVec 4) (peer : BitVec 8) :
    Answer.Gives P (execCollResult part slot result flags ending peer s) := by
  unfold Machine.execCollResult
  dsimp only [Answer.Gives]
  split
  · exact h
  · refine keep_ite h (keep_ite (keep_ite (hP.setColl h ..) h) (keep_ite (hP.setColl h ..) ?_))
    split
    · exact keep_ite (hP.setColl h ..) h
    · exact keep_ite (keep_ite h (keep_ite (keep_ite (hP.collEnd h ..) h) (keep_ite (hP.collEnd h ..) h))) (keep_ite (hP.collEnd h ..) h)

theorem execCollDeadline (part slot : Nat) : Answer.Gives P (execCollDeadline part slot s) := by
  unfold Machine.execCollDeadline
  dsimp only [Answer.Gives]
  split
  · exact h
  · split
    · exact hP.collEnd h ..
    · exact keep_ite (hP.collEnd h ..) (keep_ite (hP.offerChunks h ..) h)

/-! ### The arms of power, bring-up and clamps (R328, R369 to R372) -/

theorem execMainUndervoltage : Answer.Gives P (execMainUndervoltage s) := keep_ite (P := P) (hP.powerOff s) h

theorem execMainPowerOn : Answer.Gives P (execMainPowerOn s) := by
  unfold Machine.execMainPowerOn
  dsimp only [Answer.Gives]
  split
  · exact h
  · split
    · exact hP.frame (hP.restart s)
    · exact hP.restart s

theorem execCxlHotReset : Answer.Gives P (execCxlHotReset s) := keep_ite (P := P) (hP.restart s) h
theorem execPrimroseSelfTest (good : Bool) : Answer.Gives P (execPrimroseSelfTest good s) := hP.bootStep h _ _ fun _ ht => ht
theorem execFirmwareVerify (signed : Bool) (image : Nat × List Byte) : Answer.Gives P (execFirmwareVerify signed image s) := hP.bootStep h _ _ fun _ ht => hP.frame ht
theorem execStewardStart (failed : Option Nat) : Answer.Gives P (execStewardStart failed s) := hP.bootStep h _ _ fun _ ht => ht
theorem execHbmTraining (failed : Option Nat) : Answer.Gives P (execHbmTraining failed s) := hP.bootStep h _ _ fun _ ht => ht
theorem execDisableMapLoad (clusters : List Nat) : Answer.Gives P (execDisableMapLoad clusters s) := hP.bootStep h _ _ fun _ ht => hP.frame ht
theorem execModuleWipe (failed : Option Nat) : Answer.Gives P (execModuleWipe failed s) := hP.bootStep h _ _ fun t _ => hP.frame (hP.wipeModule t)

theorem execGtrInitialLock (failed : Option Nat) : Answer.Gives P (execGtrInitialLock failed s) :=
  hP.bootStep h _ _ fun _ ht => keep_foldl ht fun _ _ hu => hP.onDie hu ..

theorem execIsobarStart (good : Bool) : Answer.Gives P (execIsobarStart good s) := keep_ite (P := P) h (keep_ite (hP.frame h) (hP.bootFails h ..))
theorem execReady : Answer.Gives P (execReady s) := keep_ite (P := P) (hP.bootStep h _ _ fun _ ht => ht) h
theorem execCDieClamp (tile degrees : Nat) : Answer.Gives P (execCDieClamp tile degrees s) := keep_ite (P := P) (hP.clamp h ..) h
theorem execBaseDieClamp (die degrees : Nat) : Answer.Gives P (execBaseDieClamp die degrees s) := keep_ite (P := P) (hP.clamp h ..) h
theorem execSDieClamp (degrees : Nat) : Answer.Gives P (execSDieClamp degrees s) := keep_ite (P := P) (hP.clamp h ..) h
theorem execClampLift (die degrees : Nat) : Answer.Gives P (execClampLift die degrees s) := keep_ite (P := P) (hP.onDie h ..) h

theorem execThermalTrip (die degrees : Nat) : Answer.Gives P (execThermalTrip die degrees s) := by
  unfold Machine.execThermalTrip
  exact keep_ite (P := P) (hP.frame (hP.powerOff s)) h

/-! ### The arms of mailbox commands (R304 to R318, R373 to R375) -/

theorem execGetStatus : Answer.Gives P (execGetStatus s) := hP.command h _ _ fun _ ht => hP.mbEnd ht ..

theorem execSetCap (watts : Nat) (oob : Bool) : Answer.Gives P (execSetCap watts oob s) :=
  keep_ite (P := P) (keep_ite (hP.setCap h _) h) (hP.command h _ _ fun _ ht => keep_ite (hP.mbEnd (hP.setCap ht _) ..) (hP.mbEnd ht ..))

theorem execGetClocks : Answer.Gives P (execGetClocks s) := hP.command h _ _ fun _ ht => hP.mbEnd ht ..

theorem execReadDisableMap (page : Nat) : Answer.Gives P (execReadDisableMap page s) :=
  hP.command h _ _ fun _ ht => keep_ite (hP.mbEnd ht ..) (hP.mbEnd ht ..)

theorem execPartCreate (desc : List Word) : Answer.Gives P (execPartCreate desc s) := by
  refine hP.command h _ _ fun t ht => keep_ite (hP.mbEnd ht ..) ?_
  split
  · exact hP.mbEnd ht ..
  · exact keep_ite (hP.mbEnd ht ..) (hP.mbEnd (hP.wipeHomes (hP.frame ht) _) ..)

theorem execPartEnd (part : Nat) : Answer.Gives P (execPartEnd part s) := by
  refine hP.command h _ _ fun t ht => ?_
  split
  · exact hP.mbEnd ht ..
  · refine keep_ite (hP.mbEnd ?_ ..) (hP.mbEnd ht ..)
    exact hP.frame (hP.onPart' (hP.withdraw (keep_foldl ht fun _ _ hu => hP.orderAbort hu ..) ..) ..)

theorem execPartPreempt (part deadline : Nat) : Answer.Gives P (execPartPreempt part deadline s) := by
  refine hP.command h _ _ fun t ht => ?_
  split
  · exact hP.mbEnd ht ..
  · exact keep_ite (hP.mbEnd ht ..) (hP.busyFor (hP.startPreempt ht ..) _)

theorem execPartRestore (part : Nat) : Answer.Gives P (execPartRestore part s) := by
  have ends {t : State} (ht : P t) : P (if t.restores part then ({ t with mgmt := { t.mgmt with code := 0 } }).busyFor part else t.mbEnd 0 []) :=
    keep_ite (hP.busyFor (hP.frame ht) _) (hP.mbEnd ht ..)
  refine hP.command h _ _ fun t ht => ?_
  split
  · exact hP.mbEnd ht ..
  · exact keep_ite (ends (hP.restorePart ht _)) (keep_ite (ends (hP.resumeParked ht ..)) (hP.mbEnd ht ..))

theorem execPartResize (part : Nat) (desc : List Word) (forced : Bool) : Answer.Gives P (execPartResize part desc forced s) := by
  refine hP.command h _ _ fun t ht => ?_
  dsimp only
  split
  · exact hP.mbEnd ht ..
  · exact keep_ite (hP.mbEnd ht ..) (keep_ite (hP.mbEnd ht ..) (keep_ite (hP.mbEnd (hP.onPart' ht ..) ..)
      (keep_ite (hP.busyFor (hP.onPart' (hP.startPreempt ht ..) ..) _) (hP.mbEnd ht ..))))

theorem execPartDrain (part deadline : Nat) : Answer.Gives P (execPartDrain part deadline s) :=
  hP.command h _ _ fun _ ht => keep_ite (hP.mbEnd (hP.onPart' ht ..) ..) (hP.mbEnd ht ..)

theorem execDomainCreate (part : Nat) (owner : Option Nat) : Answer.Gives P (execDomainCreate part owner s) := by
  refine hP.command h _ _ fun t ht => ?_
  split
  · exact keep_ite (hP.mbEnd (hP.frame ht) ..) (hP.mbEnd ht ..)
  · exact hP.mbEnd ht ..

theorem execDomainRetire (id : Nat) : Answer.Gives P (execDomainRetire id s) :=
  hP.command h _ _ fun _ ht => keep_ite (hP.mbEnd (hP.frame ht) ..) (hP.mbEnd ht ..)

theorem execRightsWrite (id : Nat) (index : List Nat) (word0 word1 : List Word) : Answer.Gives P (execRightsWrite id index word0 word1 s) := by
  refine hP.command h _ _ fun t ht => ?_
  split
  · exact hP.mbEnd ht ..
  · exact keep_ite (hP.mbEnd ht ..) (keep_ite (hP.mbEnd ht ..) (hP.writeRights (keep_foldl ht fun _ _ hu => hP.dropLines hu ..) ..))

theorem execReadAbortLog (part : Nat) : Answer.Gives P (execReadAbortLog part s) := by
  refine hP.command h _ _ fun t ht => ?_
  split
  · exact hP.mbEnd ht ..
  · exact hP.mbEnd ht ..

theorem execReadErrors : Answer.Gives P (execReadErrors s) := hP.command h _ _ fun _ ht => hP.mbEnd ht ..

theorem execCollWrite (part slot : Nat) (desc : List Word) : Answer.Gives P (execCollWrite part slot desc s) :=
  hP.command h _ _ fun _ ht => keep_ite (hP.mbEnd ht ..) (keep_ite (hP.mbEnd ht ..) (hP.mbEnd (hP.setColl ht ..) ..))

theorem execTimeSource (source : Nat) : Answer.Gives P (execTimeSource source s) :=
  hP.command h _ _ fun _ ht => keep_ite (hP.mbEnd ht ..) (hP.mbEnd (hP.frame ht) ..)

theorem execBiasDevice (page : Nat) : Answer.Gives P (execBiasDevice page s) :=
  keep_ite (P := P) (hP.biasCleared h _) (hP.command h _ _ fun _ ht => keep_ite (hP.mbEnd ht ..) (hP.biasCleared (hP.frame ht) _))

theorem execVfReset (vf : Nat) : Answer.Gives P (execVfReset vf s) := by
  refine hP.command h _ _ fun t ht => keep_ite (hP.mbEnd ht ..) ?_
  have aborted (p : Nat) (slots : List Nat) : P (slots.foldl
      (fun (s : State) k => (s.onLaunch p k fun l => { l with pendingAbort := none }).orderAbort p k { kind := 19 }) t) :=
    keep_foldl ht fun _ _ hu => hP.orderAbort (hP.onLaunch hu ..) ..
  dsimp only
  split
  · exact hP.frame ht
  · exact hP.frame (hP.onPart' (hP.withdraw (aborted ..) ..) ..)

theorem execLifecycle (target : BitVec 2) (signed : Bool) (key : BitVec 512) : Answer.Gives P (execLifecycle target signed key s) :=
  hP.command h _ _ fun _ ht => keep_ite (hP.frame ht) (hP.mbEnd ht ..)

theorem execRaiseCounter (signed : Bool) : Answer.Gives P (execRaiseCounter signed s) :=
  hP.command h _ _ fun _ ht => keep_ite (hP.mbEnd (hP.frame ht) ..) (hP.mbEnd ht ..)

theorem execReset (oob : Bool) : Answer.Gives P (execReset oob s) :=
  keep_ite (P := P) (keep_ite (hP.restart s) h) (hP.command h _ _ fun t _ => hP.restart t)

theorem execI3cMainOff : Answer.Gives P (execI3cMainOff s) := keep_ite (P := P) (hP.powerOff s) h

/-! ### The arms of other words, SPDM, the host and region maps (R153, R309, R329) -/

theorem execIllegalInstruction (word : IWord) : Answer.Gives P (execIllegalInstruction word s) := hP.trap h ..

theorem execUnknownOpcode (opcode : BitVec 16) : Answer.Gives P (execUnknownOpcode opcode s) :=
  keep_ite (P := P) h (hP.command h _ _ fun _ ht => hP.mbEnd ht ..)

theorem execPtmTimeExchange (measured : Int) : Answer.Gives P (execPtmTimeExchange measured s) := keep_ite (P := P) (hP.follow h _) h

theorem execDirtyEvictionAnswer (hpa : Nat) : Answer.Gives P (execDirtyEvictionAnswer hpa s) := by
  unfold Machine.execDirtyEvictionAnswer
  dsimp only [Answer.Gives]
  split
  · exact h
  · exact hP.dropHostLine (hP.sendHost h _) _

theorem execRegionMapWrite (part index : Nat) (word0 word1 : Word) : Answer.Gives P (execRegionMapWrite part index word0 word1 s) := by
  unfold Machine.execRegionMapWrite
  dsimp only [Answer.Gives]
  split
  · exact h
  · exact keep_ite h (keep_ite (hP.onPart' h ..) (keep_ite (hP.onPart' h ..) h))

theorem execIdeKeyProgramming (fn stream : Nat) (key : BitVec 256) : Answer.Gives P (execIdeKeyProgramming fn stream key s) := by
  have asked := hP.request h fn 3 (fun x => x.inSession) fun x => (x, .ideProgrammed)
  exact keep_ite (P := P) (hP.frame asked) asked

end OfBytes

end Sys2Proof.Machine

namespace Sys2Proof.Machine

namespace OfBytes
variable {P : State → Prop} (hP : OfBytes P) {s : State} (h : P s)
include hP

/-! ### Every instruction and event of the map -/

/-- Every event keeps a predicate of the bytes that writing, dropping and clearing bytes keep. -/
theorem exec_event (h : P s) {i : Instr} (hi : ¬ i.isWord = true) : Answer.Gives P (exec i s) := by
  cases i with
  | waittExpiry => exact hP.execWaittExpiry h ..
  | gamoWindowEnd => exact hP.execGamoWindowEnd h ..
  | migrateToWCore => exact hP.migrateHead h ..
  | migrateReturn => exact hP.execMigrateReturn h ..
  | wCoreEarlyReturn => exact hP.execWCoreEarlyReturn h ..
  | copyCompletionInterrupt => exact hP.execCopyCompletionInterrupt h ..
  | homeLoad => exact hP.execHomeLoad h ..
  | dewAnswer => exact hP.execDewAnswer h ..
  | loadReply => exact hP.execLoadReply h ..
  | homeStore => exact hP.execHomeStore h ..
  | horizonWaitEnd => exact hP.execHorizonWaitEnd h ..
  | plsharedWriteRelease => exact hP.execPlsharedWriteRelease h ..
  | storeAck => exact hP.execStoreAck h ..
  | homeAtomic => exact hP.execHomeAtomic h ..
  | atomicResult => exact hP.execAtomicResult h ..
  | lmAtomic => exact hP.execLmAtomic h ..
  | pubPublish => exact hP.execPubPublish h ..
  | homeSweep => exact hP.execHomeSweep h
  | pushReceive => exact hP.execPushReceive h ..
  | pushAnswer => exact hP.execPushAnswer h ..
  | pushAck => exact hP.execPushAck h ..
  | purgeAck => exact hP.execPurgeAck h ..
  | squallWait => exact hP.execSquallWait h ..
  | squallWake => exact hP.execSquallWake h ..
  | squallEntryExpiry => exact hP.execSquallEntryExpiry h ..
  | homeWaitRecord => exact hP.execHomeWaitRecord h ..
  | waitWake => exact hP.execWaitWake h ..
  | waitRepoll => exact hP.execWaitRepoll h ..
  | unrecordedResend => exact hP.execUnrecordedResend h ..
  | messageArrival => exact hP.execMessageArrival h ..
  | handlerStart => exact hP.execHandlerStart h ..
  | messageAnswer => exact hP.execMessageAnswer h ..
  | handlerOverrun => exact hP.execHandlerOverrun h ..
  | remoteLmStore => exact hP.execRemoteLmStore h ..
  | refusedOfferRetry => exact hP.execRefusedOfferRetry h ..
  | reservedHoldLapse => exact hP.execReservedHoldLapse h ..
  | pageResolve => exact hP.execPageResolve h ..
  | faultWake => exact hP.execFaultWake h ..
  | gateOpen => exact hP.execGateOpen h ..
  | launchAged => exact hP.execLaunchAged h ..
  | threadPlace => exact hP.execThreadPlace h ..
  | stagingDone => exact hP.execStagingDone h ..
  | launchComplete => exact hP.execLaunchComplete h ..
  | completionPost => exact hP.execCompletionPost h ..
  | launchAbort => exact hP.execLaunchAbort h ..
  | isobarEstimate => exact hP.execIsobarEstimate h ..
  | workAged => exact hP.execWorkAged h ..
  | clockRaiseCheck => exact hP.execClockRaiseCheck h ..
  | jobDispatch => exact hP.execJobDispatch h ..
  | jobRetire => exact hP.execJobRetire h ..
  | copyDispatch => exact hP.execCopyDispatch h ..
  | copyElement => exact hP.execCopyElement h ..
  | copyResume => exact hP.execCopyResume h ..
  | copyDone => exact hP.execCopyDone h ..
  | gtrExchange => exact hP.execGtrExchange h ..
  | zwionTimeExchange => exact hP.execZwionTimeExchange h ..
  | replyTimeout => exact hP.execReplyTimeout h ..
  | seqFetch => exact hP.execSeqFetch h ..
  | rightsPurge => exact hP.execRightsPurge h ..
  | translationPurge => exact hP.execTranslationPurge h ..
  | pageMigration => exact hP.execPageMigration h ..
  | wipe => exact hP.execWipe h ..
  | preemptDrainDeadline => exact hP.execPreemptDrainDeadline h ..
  | drainComplete => exact hP.execDrainComplete h ..
  | dieReset => exact hP.execDieReset h ..
  | quiesceDeadline => exact hP.execQuiesceDeadline h ..
  | homeReturn => exact hP.execHomeReturn h ..
  | crossingReplay => exact hP.execCrossingReplay h ..
  | linkCrcRetry => exact hP.execLinkCrcRetry h ..
  | hbmPatrol => exact hP.execHbmPatrol h ..
  | hostGrant => exact hP.execHostGrant h ..
  | hostSnoop => exact hP.execHostSnoop h ..
  | snoopAnswer => exact hP.execSnoopAnswer h ..
  | writePullDrop => exact hP.execWritePullDrop h ..
  | hostMemAccess => exact hP.execHostMemAccess h ..
  | biasFlipToHost => exact hP.execBiasFlipToHost h ..
  | launchPortWrite => exact hP.execLaunchPortWrite h ..
  | vfRegisterWrite => exact hP.execVfRegisterWrite h ..
  | zwionFlitReceive => exact hP.execZwionFlitReceive h ..
  | zwionNak => exact hP.execZwionNak h ..
  | zwionBusyReplay => exact hP.execZwionBusyReplay h ..
  | zwionRetrain => exact hP.execZwionRetrain h ..
  | collStart => exact hP.execCollStart h ..
  | collChunk => exact hP.execCollChunk h ..
  | collResult => exact hP.execCollResult h ..
  | collDeadline => exact hP.execCollDeadline h ..
  | mainUndervoltage => exact hP.execMainUndervoltage h
  | mainPowerOn => exact hP.execMainPowerOn h
  | cxlHotReset => exact hP.execCxlHotReset h
  | primroseSelfTest => exact hP.execPrimroseSelfTest h ..
  | firmwareVerify => exact hP.execFirmwareVerify h ..
  | stewardStart => exact hP.execStewardStart h ..
  | hbmTraining => exact hP.execHbmTraining h ..
  | disableMapLoad => exact hP.execDisableMapLoad h ..
  | moduleWipe => exact hP.execModuleWipe h ..
  | gtrInitialLock => exact hP.execGtrInitialLock h ..
  | isobarStart => exact hP.execIsobarStart h ..
  | ready => exact hP.execReady h
  | cDieClamp => exact hP.execCDieClamp h ..
  | baseDieClamp => exact hP.execBaseDieClamp h ..
  | sDieClamp => exact hP.execSDieClamp h ..
  | clampLift => exact hP.execClampLift h ..
  | thermalTrip => exact hP.execThermalTrip h ..
  | getStatus => exact hP.execGetStatus h
  | setCap => exact hP.execSetCap h ..
  | getClocks => exact hP.execGetClocks h
  | readDisableMap => exact hP.execReadDisableMap h ..
  | partCreate => exact hP.execPartCreate h ..
  | partEnd => exact hP.execPartEnd h ..
  | partPreempt => exact hP.execPartPreempt h ..
  | partRestore => exact hP.execPartRestore h ..
  | partResize => exact hP.execPartResize h ..
  | partDrain => exact hP.execPartDrain h ..
  | domainCreate => exact hP.execDomainCreate h ..
  | domainRetire => exact hP.execDomainRetire h ..
  | rightsWrite => exact hP.execRightsWrite h ..
  | readAbortLog => exact hP.execReadAbortLog h ..
  | readErrors => exact hP.execReadErrors h
  | collWrite => exact hP.execCollWrite h ..
  | timeSource => exact hP.execTimeSource h ..
  | biasDevice => exact hP.execBiasDevice h ..
  | vfReset => exact hP.execVfReset h ..
  | lifecycle => exact hP.execLifecycle h ..
  | raiseCounter => exact hP.execRaiseCounter h ..
  | reset => exact hP.execReset h ..
  | i3cMainOff => exact hP.execI3cMainOff h
  | getVersion | getCapabilities | negotiateAlgorithms | getDigests | getCertificate | challenge | getMeasurements | keyExchange | finish | endSession =>
    exact hP.request h ..
  | illegalInstruction => exact hP.execIllegalInstruction h ..
  | unknownOpcode => exact hP.execUnknownOpcode h ..
  | ptmTimeExchange => exact hP.execPtmTimeExchange h ..
  | dirtyEvictionAnswer => exact hP.execDirtyEvictionAnswer h ..
  | regionMapWrite => exact hP.execRegionMapWrite h ..
  | ideKeyProgramming => exact hP.execIdeKeyProgramming h ..
  | _ => exact absurd rfl hi

theorem exec_gives (h : P s) (i : Instr) : Answer.Gives P (exec i s) := by
  by_cases hi : i.isWord = true
  · exact hP.exec_word h hP.writes hi
  · exact hP.exec_event h hi

/-! ### Turns of cores (R15, R42) -/

theorem issueAt (h : P s) (id : Nat) : Answer.Gives P (s.issueAt id) := by
  have turned (c : Core → Core) : P { s.onCore (coreOf id) c with cur := id } := hP.frame (hP.onCore h ..)
  unfold State.issueAt
  dsimp only
  split
  · exact hP.takeDue (turned _) ..
  · exact hP.returnFromW (turned _) _
  · exact hP.takeCompletion (turned _) _
  · exact turned _
  · exact hP.trap (turned _) ..
  · exact hP.machineCheck (turned _) ..
  · exact hP.execIllegalInstruction (hP.keepWord (turned _) ..) _
  · exact hP.exec_gives (hP.keepWord (turned _) ..) _

theorem issueCore (h : P s) (core : Nat) : Answer.Gives P (s.issueCore core) := by
  unfold State.issueCore
  split
  · exact h
  · exact hP.issueAt h _

/-! ### The model's own moves (log 7) -/

omit hP in
/-- An event that keeps a predicate. -/
def Kept (P : State → Prop) (e : State → Answer) : Prop := ∀ t, P t → Answer.Gives P (e t)

omit hP in
theorem orElse {a : Answer} (ha : a.Gives P) (h : P s) : P (a.orElse s) := by
  cases a with
  | next t => exact ha
  | _ => exact h

omit hP in
theorem firstChange {es : List (State → Answer)} (hes : ∀ e ∈ es, Kept P e) (h : P s) {t : State} (ht : firstChange s es = some t) : P t := by
  induction es with
  | nil => nomatch ht
  | cons e es ih =>
    unfold Machine.firstChange at ht
    dsimp only at ht
    split at ht
    · exact ih (fun e he => hes e (List.mem_cons_of_mem _ he)) ht
    · exact Option.some.inj ht ▸ orElse (hes e List.mem_cons_self s h) h

theorem flightEvent (h : P s) (n : Nat) (f : Flight) : Answer.Gives P (s.flightEvent n f) := by
  have orNext {a b : Answer} (ha : a.Gives P) (hb : b.Gives P) : Answer.Gives P (match a with
      | .next t => if t = s then b else .next t
      | a => a) := by
    cases a with
    | next t => exact keep_ite (P := Answer.Gives P) hb ha
    | _ => trivial
  unfold State.flightEvent
  split
  · exact orNext (hP.execDewAnswer h ..) (hP.execHomeLoad h ..)
  · exact hP.execLoadReply h _
  · exact hP.execLoadReply h _
  · exact keep_ite (hP.execRefusedOfferRetry h _) (keep_ite (hP.execHorizonWaitEnd h _) (keep_ite (hP.execPlsharedWriteRelease h _) (hP.execHomeStore h _)))
  · exact hP.execStoreAck h _
  · exact keep_ite (hP.execRefusedOfferRetry h _) (keep_ite (hP.execHorizonWaitEnd h _) (keep_ite (hP.execPlsharedWriteRelease h _)
      (keep_ite (hP.execHomeAtomic h _) (keep_ite (hP.execLmAtomic h _) (hP.execHomeAtomic h _)))))
  · exact hP.execAtomicResult h _
  · exact hP.execRemoteLmStore h _
  · exact hP.execStoreAck h _
  · exact hP.execRefusedOfferRetry h _
  · exact hP.execPurgeAck h _
  · exact hP.execPushReceive h _
  · exact hP.execPushAnswer h _
  · exact hP.execPushAck h _
  · exact hP.execHomeStore h _
  · exact orNext (hP.execSquallWait h _) (hP.execHomeWaitRecord h _)
  · exact hP.execWaitWake h _
  · exact hP.execWaitWake h _
  · exact hP.execFaultWake h _
  · exact hP.execWaitWake h _
  · exact hP.execFaultWake h _
  · exact orNext (hP.execCopyResume h _) (hP.execFaultWake h _)
  · exact hP.execSquallWake h _
  · exact hP.execMessageArrival h _
  · exact hP.execMessageAnswer h _
  · exact hP.execSeqFetch h _
  · exact hP.launchArrive h n
  · exact hP.launchArrive h n

/-- What is listed for a flight, a loss or a combiner window. -/
theorem flightEvents : ∀ e ∈ s.flightEvents, Kept P e := by
  unfold State.flightEvents
  intro e he
  simp only [List.mem_append, List.mem_map] at he
  rcases he with (⟨n, _, rfl⟩ | ⟨n, _, rfl⟩) | ⟨n, _, rfl⟩
  · intro t ht
    dsimp only
    split
    · exact hP.flightEvent ht ..
    · exact ht
  · exact fun t ht => hP.execReplyTimeout ht n
  · exact fun t ht => hP.execGamoWindowEnd ht n

theorem partEvents (p : Nat) (q : Part) : ∀ e ∈ q.events p, Kept P e := by
  unfold Part.events
  simp only [List.forall_mem_append, List.forall_mem_flatMap, List.forall_mem_cons]
  refine ⟨⟨⟨fun _ _ => ⟨fun _ ht => hP.execLaunchAbort ht .., fun _ ht => hP.execLaunchComplete ht .., fun _ ht => hP.execGateOpen ht ..,
    fun _ ht => hP.execLaunchAged ht .., fun _ ht => hP.execUnrecordedResend ht _, fun _ ht => hP.execWaitRepoll ht _, List.forall_mem_nil _⟩,
    fun _ ht => hP.execThreadPlace ht _, fun _ ht => hP.execCompletionPost ht _, fun _ ht => hP.execDrainComplete ht _, fun _ ht => hP.execPreemptDrainDeadline ht _,
    List.forall_mem_nil _⟩, ?_⟩,
    fun _ _ => ⟨fun _ ht => hP.execCollDeadline ht .., fun _ ht => hP.execCollStart ht .., fun _ ht => hP.execUnrecordedResend ht _, fun _ ht => hP.execWaitRepoll ht _,
      List.forall_mem_nil _⟩⟩
  split
  · exact List.forall_mem_singleton.2 fun _ ht => hP.continueRestore ht p
  · exact List.forall_mem_nil _

theorem ctxEvents (id : Nat) (c : Ctx) : ∀ e ∈ c.events id, Kept P e := by
  unfold Ctx.events
  split
  · exact List.forall_mem_nil _
  · exact List.forall_mem_nil _
  all_goals simp only [List.forall_mem_cons]
  · exact ⟨fun _ ht => hP.execStagingDone ht _, fun _ ht => hP.execUnrecordedResend ht _, fun _ ht => hP.execWaitRepoll ht _, List.forall_mem_nil _⟩
  · exact ⟨fun _ ht => hP.migrateHead ht _, List.forall_mem_nil _⟩
  · exact ⟨fun _ ht => hP.execHandlerOverrun ht _, fun _ ht => hP.execWCoreEarlyReturn ht _, List.forall_mem_nil _⟩
  all_goals
    exact ⟨fun _ ht => hP.execWaittExpiry ht _, fun _ ht => hP.execUnrecordedResend ht _, fun _ ht => hP.execWaitRepoll ht _, fun _ ht => hP.execWCoreEarlyReturn ht _,
      List.forall_mem_nil _⟩

theorem coreEvents (i : Nat) (c : Core) : ∀ e ∈ c.events i, Kept P e := by
  unfold Core.events
  simp only [List.forall_mem_append, List.forall_mem_cons, List.forall_mem_flatMap]
  refine ⟨⟨⟨fun _ ht => hP.execHandlerStart ht .., fun _ ht => hP.execHandlerStart ht .., fun _ ht => hP.execJobRetire ht _, fun _ ht => hP.execJobDispatch ht _,
    fun _ ht => hP.execCopyDispatch ht _, List.forall_mem_nil _⟩, fun _ ht => hP.execUnrecordedResend ht _, fun _ ht => hP.execWaitRepoll ht _, List.forall_mem_nil _⟩,
    fun x _ => ?_⟩
  split
  · simp only [List.forall_mem_append, List.forall_mem_map, List.forall_mem_singleton]
    exact ⟨fun _ _ _ ht => hP.execCopyElement ht .., fun _ ht => hP.execCopyDone ht ..⟩
  · exact List.forall_mem_nil _

theorem timers : ∀ e ∈ s.timers, Kept P e := by
  have exchanged : ∀ e ∈ s.exchanges, Kept P e := by
    unfold State.exchanges
    split
    · exact List.forall_mem_nil _
    · intro e he
      obtain ⟨x, _, hx⟩ := List.mem_filterMap.1 he
      split at hx
      · nomatch hx
      · exact Option.some.inj hx ▸ fun _ ht => hP.execGtrExchange ht ..
  have swept : ∀ e ∈ s.sweepEvents, Kept P e := by
    unfold State.sweepEvents
    split
    · exact List.forall_mem_singleton.2 fun _ ht => hP.execHomeSweep ht
    · exact List.forall_mem_nil _
  have replayed : ∀ e ∈ s.zwion.filterMap fun x => x.2.resend.map fun r => Machine.execZwionBusyReplay x.1 r.1, Kept P e := by
    intro e he
    obtain ⟨x, _, hx⟩ := List.mem_filterMap.1 he
    obtain ⟨r, _, rfl⟩ := Option.map_eq_some_iff.1 hx
    exact fun _ ht => hP.execZwionBusyReplay ht ..
  unfold State.timers
  simp only [List.forall_mem_append, List.forall_mem_map, List.forall_mem_flatMap]
  exact ⟨⟨⟨⟨⟨⟨⟨⟨fun _ _ _ ht => hP.execReservedHoldLapse ht _, fun _ _ _ ht => hP.execHomeReturn ht _⟩, fun _ _ _ ht => hP.execQuiesceDeadline ht _⟩,
    fun _ _ _ ht => hP.execQuiesceDeadline ht _⟩, fun _ _ _ ht => hP.execBiasDevice ht _⟩, exchanged⟩, swept⟩, fun _ _ _ _ _ ht => hP.execRightsPurge ht ..⟩, replayed⟩

theorem events : ∀ e ∈ s.events, Kept P e := by
  have expired : ∀ e ∈ s.expiries, Kept P e := List.forall_mem_map.2 fun _ _ _ ht => hP.execSquallEntryExpiry ht _
  have published : ∀ e ∈ s.publishEvents, Kept P e := List.forall_mem_map.2 fun _ _ _ ht => hP.execPubPublish ht ..
  unfold State.events
  simp only [List.forall_mem_append, List.forall_mem_flatMap]
  exact ⟨⟨⟨⟨⟨⟨expired, hP.flightEvents⟩, fun x _ => hP.partEvents x.1 x.2⟩, fun x _ => hP.ctxEvents x.1 x.2⟩, fun x _ => hP.coreEvents x.1 x.2⟩, published⟩, hP.timers⟩

theorem defaultMove (h : P s) : s.defaultMove.Gives P := by
  unfold State.defaultMove
  split
  · rename_i e; exact firstChange hP.events h e
  · split
    · exact hP.issueCore (hP.elapse h _) _
    · exact hP.elapse h _

/-! ### Every step -/

theorem onTime {a : Answer} (ha : a.Gives P) : a.onTime.Gives P := by
  cases a with
  | next t => exact hP.frame ha
  | _ => trivial

theorem execUpset (h : P s) (u : Upset) (corrected : Bool) : Answer.Gives P (execUpset u corrected s) := by
  unfold Machine.execUpset
  dsimp only [Answer.Gives]
  split
  · exact hP.countError h _
  · exact keep_ite h (hP.upsetHard h u)

theorem step_gives (h : P s) : Answer.Gives P (step s) := by
  have moved (rest : List Move) : P { s with agenda := rest } := hP.frame h
  unfold step
  split
  · exact keep_ite (P := Answer.Gives P) (hP.defaultMove h) trivial
  · exact keep_ite (P := Answer.Gives P) (hP.issueCore (moved _) _) trivial
  · exact keep_ite (P := Answer.Gives P) (moved _) (hP.exec_gives (moved _) _)
  · exact hP.elapse (moved _) _
  · exact keep_ite (P := Answer.Gives P) (hP.execUpset (moved _) ..) (moved _)
  · exact hP.otherRequest (moved _) _
  · exact keep_ite (P := Answer.Gives P) (hP.onTime (hP.issueCore (hP.frame h) _)) trivial
  · exact hP.jobRead (moved _) ..
  · exact hP.jobWrite (moved _) ..
  · exact hP.launchArrive (moved _) _
  · exact hP.mailboxData (moved _) ..
  · exact hP.i3cRead (moved _)
  · exact hP.abortParked (moved _) ..
  · exact hP.continueRestore (moved _) _

end OfBytes

/-- Settles O58: every step writes, drops or clears bytes by operations that keep memory in its form. -/
theorem memoryFormIsKept : Obligations.MemoryFormIsKept := fun _ _ h next => Answer.Gives.next (ofBytes_memWf.step_gives h) next

end Sys2Proof.Machine


/-!
PROOFS. Writes of the shared control registers (R78 to R81, R28, R111, R196): what waking the waiters of a ring leaves alone, and then each register's write.
-/
namespace Sys2Proof.Machine

/-! ### Waking what waits for a ring (R170) -/

/-- Between `s` and `t` nothing has happened to memory, to other cores than `core`, to that core's rings, or to what the context `id` runs with. -/
structure State.Beside (core id : Nat) (s t : State) : Prop where
  cur : t.cur = s.cur
  mem : t.mem = s.mem
  cores : ∀ j, j ≠ core → t.core j = s.core j
  rings : (t.core core).rings = (s.core core).rings
  pc : (t.ctx id).pc = (s.ctx id).pc
  g : (t.ctx id).g = (s.ctx id).g
  st : (t.ctx id).st = (s.ctx id).st

namespace State.Beside
variable {core id : Nat} {s t u : State}

theorem refl (s : State) : s.Beside core id s := ⟨rfl, rfl, fun _ _ => rfl, rfl, rfl, rfl, rfl⟩

theorem trans (h : s.Beside core id t) (h' : t.Beside core id u) : s.Beside core id u where
  cur := h'.cur.trans h.cur
  mem := h'.mem.trans h.mem
  cores j hj := (h'.cores j hj).trans (h.cores j hj)
  rings := h'.rings.trans h.rings
  pc := h'.pc.trans h.pc
  g := h'.g.trans h.g
  st := h'.st.trans h.st

theorem setCtx (s : State) {x : Nat} (hx : id ≠ x) (c : Ctx) : s.Beside core id (s.setCtx x c) := by
  have e := s.ctx_setCtx_ne hx c
  exact ⟨rfl, rfl, fun _ _ => rfl, rfl, by rw [e], by rw [e], by rw [e]⟩

theorem onCtx (s : State) (x : Nat) {f : Ctx → Ctx} (hpc : ∀ c, (f c).pc = c.pc) (hg : ∀ c, (f c).g = c.g) (hst : ∀ c, (f c).st = c.st) :
    s.Beside core id (s.onCtx x f) := by
  by_cases hx : id = x
  · subst hx
    have e : (s.onCtx id f).ctx id = f (s.ctx id) := by simp
    exact ⟨rfl, rfl, fun _ _ => rfl, rfl, by rw [e, hpc], by rw [e, hg], by rw [e, hst]⟩
  · exact setCtx s hx _

theorem onCore (s : State) {f : Core → Core} (hf : ∀ k, (f k).rings = k.rings) : s.Beside core id (s.onCore core f) := by
  refine ⟨rfl, rfl, fun j hj => ?_, ?_, rfl, rfl, rfl⟩
  · rw [State.onCore_eq, State.core_setCore_ne _ hj]
  · rw [State.onCore_eq, State.core_setCore_self, hf]

theorem setTurns (s : State) (t : Turns) : s.Beside core id (s.setTurns t) := ⟨rfl, rfl, fun _ _ => rfl, rfl, rfl, rfl, rfl⟩

theorem onPart (s : State) (p : Nat) (f : Part → Part) : s.Beside core id (s.onPart p f) := by
  unfold State.onPart
  split
  · exact ⟨rfl, rfl, fun _ _ => rfl, rfl, rfl, rfl, rfl⟩
  · exact refl s

theorem unitsFreed (s : State) (r : Res) (n : Nat) : s.Beside core id (s.unitsFreed r n) := by
  induction n generalizing s with
  | zero => exact refl s
  | succ n ih => exact (setTurns s _).trans (ih _)

/-- A choice between a change and none. -/
theorem ite {c : Prop} [Decidable c] (h : s.Beside core id t) (h' : s.Beside core id u) : s.Beside core id (if c then t else u) := by
  split <;> assumption

theorem endHandler (s : State) {x : Nat} (hx : id ≠ x) (hc : coreOf x = core) : s.Beside core id (s.endHandler x) := by
  subst hc
  have dormant : s.Beside (coreOf x) id ((s.onCore (coreOf x) fun k => k.freeSlot (numberOf x == 5) (s.ctx x).slot).setCtx x {}) :=
    (onCore s fun k => by unfold Core.freeSlot; split <;> rfl).trans (setCtx _ hx _)
  unfold State.endHandler
  extract_lets core high slot dormant' freed resumed
  have hFreed : s.Beside (coreOf x) id freed := ite (dormant.trans (setTurns _ _)) dormant
  have hResumed : s.Beside (coreOf x) id resumed := ite (hFreed.trans (onCtx _ _ (fun _ => rfl) (fun _ => rfl) fun _ => rfl)) hFreed
  exact ite hResumed (hResumed.trans (onCore _ fun _ => rfl))

variable {x : Nat} (hx : id ≠ x) (hc : isHandler x = true → coreOf x = core)
include hx hc

theorem chargeFailure (s : State) (r : AbortRec) : s.Beside core id (s.chargeFailure x r) := by
  unfold State.chargeFailure
  dsimp only
  split
  · exact (setCtx s hx _).trans (onPart ..)
  · split
    · rename_i handler
      exact (endHandler s hx (hc handler)).trans (onPart ..)
    · exact setCtx s hx _

theorem trapOf (s : State) (c : Cause) (addr val ret : Word) : s.Beside core id (s.trapOf x c addr val ret) :=
  ite (refl s) (ite (setCtx s hx _) (chargeFailure hx hc s _))

theorem trapLater (s : State) (c : Cause) (addr val ret : Word) : s.Beside core id (s.trapLater x c addr val ret) :=
  ite (trapOf hx hc s ..) (setCtx s hx _)

theorem retestRing (s : State) (q k d : Nat) (room : Bool) : s.Beside core id (s.retestRing x q k d room) := by
  unfold State.retestRing
  split
  · exact (setCtx s hx _).trans (trapLater hx hc _ ..)
  · exact setCtx s hx _
  · exact refl s

end State.Beside

/-- Waking the waiters of a ring happens beside a context that does not wait. -/
theorem State.Beside.wakeRing {core id : Nat} (s : State) (q : Nat) (ready : (s.ctx id).st = .ready) : s.Beside core id (s.wakeRing core q) := by
  refine List.foldlRecOn _ _ (Beside.refl s) fun t ht x _ => ht.trans ?_
  split
  · rename_i waits
    obtain ⟨waits, home⟩ := waits
    have other : id ≠ x.1 := by
      rintro rfl
      rw [ht.st, ready] at waits
      cases waits
    have own : isHandler x.1 = true → coreOf x.1 = core := by
      intro handler
      rwa [State.homeOf, if_pos handler] at home
    split
    · exact ite (retestRing other own ..) (refl t)
    · exact ite (retestRing other own ..) (refl t)
    · exact refl t
  · exact refl t

/-- A ring's new descriptor (R28, R170): it alone is written of the rings, and the waiters that it wakes are beside a context that is ready. -/
structure State.SetsRing (s : State) (core q : Nat) (w : Word) (t : State) : Prop where
  cur : t.cur = s.cur
  mem : t.mem = s.mem
  cores : ∀ j, j ≠ core → t.core j = s.core j
  ring : (t.core core).rings.getD q 0 = w
  rings : ∀ i, i ≠ q → (t.core core).rings.getD i 0 = (s.core core).rings.getD i 0
  pc : t.here.pc = s.here.pc

theorem State.setRing_sets (s : State) (core q : Nat) (w : Word) (ready : s.here.st = .ready) : s.SetsRing core q w (s.setRing core q w) := by
  have h := State.Beside.wakeRing (core := core) (id := s.cur) (s.onCore core fun c => { c with rings := c.rings.set q w }) q ready
  have written : ((s.onCore core fun c => { c with rings := c.rings.set q w }).core core).rings = (s.core core).rings.set q w := by simp
  refine ⟨h.cur, h.mem, fun j hj => (h.cores j hj).trans (s.core_setCore_ne hj _), ?_, fun i hi => ?_, ?_⟩
  · exact (congrArg (FMap.getD · q 0) (h.rings.trans written)).trans (FMap.getD_set_self ..)
  · exact (congrArg (FMap.getD · i 0) (h.rings.trans written)).trans (FMap.getD_set_ne _ hi ..)
  · have cur : (s.setRing core q w).cur = s.cur := h.cur
    rw [State.here, cur]
    exact h.pc

/-! ### CRW of the shared registers -/

theorem OnlyHere.core {s t : State} (h : OnlyHere s t) (i : Nat) : t.core i = s.core i := (congrArg (fun t : State => t.core i) h.1 :)
theorem OnlyHere.mem {s t : State} (h : OnlyHere s t) : t.mem = s.mem := (congrArg State.mem h.1 :)

/-- CRW of a register whose reading is not forbidden and is not LCLK's: the value is presented, and the one before goes to g[d] (R78). -/
theorem exec_crw {s : State} {d a : Reg} {n : BitVec 12} (allowed : (s.detHere && timingCr n.toNat && (d != 0)) = false) (hn : n ≠ 0x00B) :
    exec (.crw d a n) s = .next ((s.present n.toNat (s.rdG a)).finishG d (s.crRead n.toNat)) := by
  refine congrArg _ ((if_neg (Bool.eq_false_iff.1 allowed)).trans ?_)
  simp only [if_neg hn]

/-- Reading a register that has no timing is never forbidden (R78, R122). -/
theorem timeless_allowed {s : State} {d : Reg} {n : BitVec 12} (h : timingCr n.toNat = false) : (s.detHere && timingCr n.toNat && (d != 0)) = false := by
  simp [h]

/-- The home core becomes `k`, the value before goes to g[d], and the instruction retires. -/
theorem State.setCore_finishG (s : State) (d : Reg) (old : Word) (k : Core) : WritesCore s d old k ((s.setCore s.homeCore k).finishG d old) := by
  obtain ⟨⟨same, others⟩, pc, count, value, rest⟩ := (s.setCore s.homeCore k).finishG_writes d old
  refine ⟨⟨?_, fun i => ?_⟩, others, pc, count, value, rest⟩
  · exact congrArg (fun t : State => { t with cores := s.cores }) same
  · have e := congrArg (fun t : State => t.core i) same
    exact e.trans (s.core_setCore _ _ _)

/-- A register that keeps its value: only g[d] is written. -/
theorem State.finishG_keepsCr (s : State) (d : Reg) (old : Word) : WritesCr s d old s.here.cr (s.finishG d old) := by
  obtain ⟨only, pc, count, value, rest⟩ := s.finishG_writes d old
  exact ⟨only, pc, count, value, (congrArg Ctx.cr rest :), congrArg (fun c : Ctx => { c with cr := s.here.cr, clocks := s.here.clocks }) rest⟩

/-- The state with other turns at what is shared (R197). -/
def State.withTurns (s : State) (ts : List Turns) : State := { s with net := { s.net with turns := ts } }

theorem State.unitsFreed_eq (s : State) (r : Res) (n : Nat) : ∃ ts, s.unitsFreed r n = s.withTurns ts := by
  induction n generalizing s with
  | zero => exact ⟨s.net.turns, rfl⟩
  | succ n ih =>
    obtain ⟨_, e⟩ := ih (s.unitFreed r)
    exact ⟨_, e⟩

/-- A value that MBOXD takes stands in it; beyond the core only turns at the mailbox move (R28, R197). -/
theorem State.writeMboxd_takes (s : State) (core : Nat) {v : Nat} (low : 1 ≤ v) (high : v ≤ 8) :
    ∃ ts, s.writeMboxd core v = (s.setCore core { s.core core with mboxd := BitVec.ofNat 4 v }).withTurns ts := by
  have taken : ¬(v = 0 ∨ 8 < v) := by omega
  unfold State.writeMboxd
  rw [if_neg taken]
  extract_lets old written added k
  obtain ⟨ts, e⟩ := written.unitsFreed_eq (.mailbox core .lo) (added k.boxLo)
  obtain ⟨us, e'⟩ := (written.withTurns ts).unitsFreed_eq (.mailbox core .hi) (added k.boxHi)
  exact ⟨us, by rw [e, e']; rfl⟩

theorem completes_crw_traceb (s : State) (d a : Reg) :
    Completes (.crw d a 0x048) s (WritesCore s d (s.core s.homeCore).traceb { s.core s.homeCore with traceb := s.rdG a &&& 0x00000000008FFFFF }) :=
  ⟨_, exec_crw (timeless_allowed rfl) (by decide), s.setCore_finishG d _ _⟩

theorem completes_crw_tracen {s : State} {d : Reg} (a : Reg) (h : s.detHere = false ∨ d = 0) :
    Completes (.crw d a 0x049) s
      (WritesCore s d ((s.core s.homeCore).tracen.zeroExtend 64) { s.core s.homeCore with tracen := (s.rdG a).setWidth 32 }) := by
  have allowed : (s.detHere && timingCr (0x049 : BitVec 12).toNat && (d != 0)) = false := by
    rcases h with h | h <;> simp [h]
  exact ⟨_, exec_crw allowed (by decide), s.setCore_finishG d _ _⟩

theorem completes_crw_bounceq_invalid {s : State} {a : Reg} (d : Reg) (on : (s.rdG a).getLsbD 3 = true)
    (bad : (s.core s.homeCore).ringValid ((s.core s.homeCore).rings.getD ((s.rdG a).toNat % 8) 0) = false) :
    Completes (.crw d a 0x040) s (WritesCr s d (s.here.cr.bounceq.zeroExtend 64) s.here.cr) := by
  refine ⟨_, exec_crw (timeless_allowed rfl) (by decide), ?_⟩
  have kept : s.present (0x040 : BitVec 12).toNat (s.rdG a) = s := if_pos (by rw [Core.ring, on, bad]; rfl)
  rw [kept]
  exact s.finishG_keepsCr d _

theorem completes_crw_bounceq {s : State} {a : Reg} (d : Reg)
    (ok : (s.rdG a).getLsbD 3 = false ∨ (s.core s.homeCore).ringValid ((s.core s.homeCore).rings.getD ((s.rdG a).toNat % 8) 0) = true) :
    Completes (.crw d a 0x040) s (WritesCr s d (s.here.cr.bounceq.zeroExtend 64) { s.here.cr with bounceq := (s.rdG a).setWidth 4 }) := by
  refine ⟨_, exec_crw (timeless_allowed rfl) (by decide), ?_⟩
  have taken : s.present (0x040 : BitVec 12).toNat (s.rdG a) = s.onCr fun r => { r with bounceq := (s.rdG a).setWidth 4 } :=
    if_neg (by rw [Core.ring]; rcases ok with ok | ok <;> rw [ok] <;> simp)
  rw [taken]
  exact s.onCr_finishG d _ fun r => { r with bounceq := (s.rdG a).setWidth 4 }

theorem completes_crw_mboxd_ignored {s : State} {a : Reg} (d : Reg) (h : (s.rdG a).toNat % 16 = 0 ∨ 8 < (s.rdG a).toNat % 16) :
    Completes (.crw d a 0x042) s (WritesG s false d ((s.core s.homeCore).mboxd.zeroExtend 64) (s.here.pc + 4)) := by
  refine ⟨_, exec_crw (timeless_allowed rfl) (by decide), ?_⟩
  have kept : s.present (0x042 : BitVec 12).toNat (s.rdG a) = s := if_pos h
  rw [kept]
  exact s.finishG_writes d _

theorem completes_crw_mboxd {s : State} {a : Reg} (d : Reg) (low : 1 ≤ (s.rdG a).toNat % 16) (high : (s.rdG a).toNat % 16 ≤ 8) :
    Completes (.crw d a 0x042) s fun t =>
      (t.core s.homeCore).mboxd.toNat = (s.rdG a).toNat % 16 ∧ (d ≠ 0 → t.rdG d = (s.core s.homeCore).mboxd.zeroExtend 64) ∧ t.here.pc = s.here.pc + 4 ∧
      t.mem = s.mem := by
  refine ⟨_, exec_crw (timeless_allowed rfl) (by decide), ?_⟩
  obtain ⟨turns, taken⟩ := s.writeMboxd_takes s.homeCore low high
  rw [show s.present (0x042 : BitVec 12).toNat (s.rdG a) = _ from taken]
  generalize hu : (s.setCore s.homeCore { s.core s.homeCore with mboxd := BitVec.ofNat 4 ((s.rdG a).toNat % 16) }).withTurns turns = u
  have written : (u.core s.homeCore).mboxd = BitVec.ofNat 4 ((s.rdG a).toNat % 16) := by
    rw [← hu]
    exact congrArg Core.mboxd (State.core_setCore_self ..)
  obtain ⟨only, pc, -, value, -⟩ := u.finishG_writes d (s.crRead (0x042 : BitVec 12).toNat)
  refine ⟨?_, fun hd => (value d).trans (if_pos ⟨rfl, hd⟩), ?_, ?_⟩
  · rw [only.core, written, BitVec.toNat_ofNat]
    omega
  · rw [pc, ← hu]; rfl
  · exact only.mem.trans (by rw [← hu]; rfl)

/-! The numbers 0x060 to 0x067 are those of RING0 to RING7 (R77). -/

theorem State.present_ring (s : State) {n : Nat} {v : Word} (low : 0x060 ≤ n) (high : n ≤ 0x067) :
    s.present n v = s.setRing s.homeCore (n - 0x060) (ringBits v) := by
  interval_cases n <;> rfl

theorem State.crRead_ring (s : State) {n : Nat} (low : 0x060 ≤ n) (high : n ≤ 0x067) : s.crRead n = (s.core s.homeCore).ring (n - 0x060) := by
  interval_cases n <;> rfl

theorem timingCr_ring {n : Nat} (low : 0x060 ≤ n) (high : n ≤ 0x067) : timingCr n = false := by
  interval_cases n <;> rfl

theorem completes_crw_ring {s : State} (d a : Reg) (q : BitVec 3) (ready : s.here.st = .ready) :
    Completes (.crw d a (0x060 + q.zeroExtend 12)) s fun t =>
      (t.core s.homeCore).rings.getD q.toNat 0 = s.rdG a &&& 0xFFFFFFFFFF00FFFF ∧
      (∀ i, i ≠ q.toNat → (t.core s.homeCore).rings.getD i 0 = (s.core s.homeCore).rings.getD i 0) ∧
      (∀ i, i ≠ s.homeCore → t.core i = s.core i) ∧
      (d ≠ 0 → t.rdG d = (s.core s.homeCore).rings.getD q.toNat 0) ∧ t.here.pc = s.here.pc + 4 ∧ t.mem = s.mem := by
  have index : ((0x060 : BitVec 12) + q.zeroExtend 12).toNat = 0x060 + q.toNat := by
    have := q.isLt
    simp [BitVec.toNat_add]
    omega
  have ring : 0x060 ≤ ((0x060 : BitVec 12) + q.zeroExtend 12).toNat ∧ ((0x060 : BitVec 12) + q.zeroExtend 12).toNat ≤ 0x067 := by
    have := q.isLt
    omega
  have presented : s.present ((0x060 : BitVec 12) + q.zeroExtend 12).toNat (s.rdG a) = s.setRing s.homeCore q.toNat (s.rdG a &&& 0xFFFFFFFFFF00FFFF) := by
    rw [State.present_ring s ring.1 ring.2, index, Nat.add_sub_cancel_left]
    rfl
  have read : s.crRead ((0x060 : BitVec 12) + q.zeroExtend 12).toNat = (s.core s.homeCore).rings.getD q.toNat 0 := by
    rw [State.crRead_ring s ring.1 ring.2, index, Nat.add_sub_cancel_left]
    rfl
  have free := timingCr_ring ring.1 ring.2
  have notLclk : (0x060 : BitVec 12) + q.zeroExtend 12 ≠ 0x00B := by
    intro e
    rw [e] at ring
    exact absurd ring.1 (by decide)
  refine ⟨_, exec_crw (timeless_allowed free) notLclk, ?_⟩
  rw [presented, read]
  obtain ⟨-, mem, cores, ring, rings, pc⟩ := s.setRing_sets s.homeCore q.toNat (s.rdG a &&& 0xFFFFFFFFFF00FFFF) ready
  obtain ⟨only, pc', -, value, -⟩ :=
    (s.setRing s.homeCore q.toNat (s.rdG a &&& 0xFFFFFFFFFF00FFFF)).finishG_writes d ((s.core s.homeCore).rings.getD q.toNat 0)
  refine ⟨?_, fun i hi => ?_, fun i hi => (only.core i).trans (cores i hi), fun hd => (value d).trans (if_pos ⟨rfl, hd⟩), pc'.trans (by rw [pc]),
    only.mem.trans mem⟩
  · rw [only.core, ring]
  · rw [only.core, rings i hi]

/-- Settles O6, register by register. -/
theorem sharedRegisterWrites : Obligations.SharedRegisterWrites := fun s d a =>
  ⟨completes_crw_traceb s d a, completes_crw_tracen a, completes_crw_bounceq_invalid d, completes_crw_bounceq d, completes_crw_mboxd_ignored d, completes_crw_mboxd d,
    fun q ready => completes_crw_ring d a q ready⟩

end Sys2Proof.Machine


/-!
PROOFS. What sending a request, waiting for a result, and writing an LM word of the own core do (R15, R110, R115, R357), as the statements about instructions say it.
-/
namespace Sys2Proof.Machine

/-! ### Sending (R115, R358, R362) -/

/-- The state with other requests on their way, other contexts and other cores. -/
def State.withTravel (s : State) (ctxs : FMap Ctx) (cores : FMap Core) (fs : List Flight) : State :=
  { s with ctxs := ctxs, cores := cores, net := { s.net with flights := fs } }

/-- Which die sends a flight, if one does, does not hang on the incarnation that it carries. -/
theorem State.laneOf_sender (s : State) (f : Flight) (d : BitVec 4) : s.laneOf { f with sender := d } = s.laneOf f := rfl

theorem State.stamped_stamped (s : State) (f : Flight) : s.stamped (s.stamped f) = s.stamped f := by
  cases h : (s.laneOf f).bind fun l => l.2.1.die? with
  | none =>
    have e : s.stamped f = f := by simp only [State.stamped, h]
    rw [e, e]
  | some d =>
    have e : s.stamped f = { f with sender := (s.die d).incarnation } := by simp only [State.stamped, h]
    rw [e]
    simp only [State.stamped, State.laneOf_sender, h]

/-- A flight that was given its sender's incarnation is current. -/
theorem State.current_stamped (s : State) (f : Flight) : s.current (s.stamped f) = true := by
  rw [State.current, s.stamped_stamped]
  exact beq_self_eq_true _

/-- The request that the executing context sends (R115). -/
def State.outgoing (s : State) (k : FKind) : Flight :=
  { kind := k, ctx := s.cur, uid := s.here.uid, part := s.here.partNo, domain := s.here.accessDomain, launch := s.here.launch
    seq := (s.core s.execCore).reqSeq, sentAt := s.gtrOf (tileOf s.execCore), incarnation := (s.die (tileOf s.execCore)).incarnation, word := s.wordHere
    home := s.homeCore }

theorem State.send_eq (s : State) (k : FKind) :
    s.send k = s.withTravel s.ctxs (s.cores.set s.execCore { s.core s.execCore with reqSeq := (s.core s.execCore).reqSeq + 1 })
      (s.net.flights ++ [s.stamped (s.outgoing k)]) := rfl

theorem State.stamped_keeps (s : State) (f : Flight) : ∃ i, s.stamped f = { f with sender := i } := by
  unfold State.stamped
  split
  · exact ⟨_, rfl⟩
  · exact ⟨f.sender, rfl⟩

theorem FMap.core_set (s : State) (i j : Nat) (k : Core) : (s.cores.set i k).getD j {} = if j = i then k else s.core j := FMap.getD_set ..

/-- Sending a request, with what then becomes of the executing context (R115). -/
theorem State.send_setCtx_sends (s : State) (k : FKind) (c : Ctx) : Sends s k ((s.send k).setCtx s.cur c) := by
  rw [State.send_eq]
  obtain ⟨i, e⟩ := s.stamped_keeps (s.outgoing k)
  refine ⟨⟨s.stamped (s.outgoing k), rfl, ?_, ?_, ?_, ?_, ?_, ?_, ?_, s.current_stamped _⟩, ?_, fun j hj => ?_, fun id hid => ?_, rfl⟩
  iterate 7 rw [e]; rfl
  · exact congrArg (fun q : Core => { q with plb := (s.core s.execCore).plb }) ((FMap.core_set s _ _ _).trans (if_pos rfl))
  · exact (FMap.core_set s _ _ _).trans (if_neg hj)
  · exact s.ctx_setCtx_ne hid c

/-- Marking the last request as one that skips nothing changes nothing (R144). -/
theorem State.sendSkip_false (s : State) (k : FKind) : s.sendSkip k false = s.send k := by
  obtain ⟨i, e⟩ := s.stamped_keeps (s.outgoing k)
  have marked : { s.stamped (s.outgoing k) with skip := false } = s.stamped (s.outgoing k) := by rw [e]; rfl
  rw [State.sendSkip, State.send_eq]
  simp [State.onLast, State.setFlights, State.withTravel, marked]

/-! ### Retiring (R37, R73) -/

/-- Retiring a context in which PC and the count of R73 stand as before. -/
theorem retiresAs_setCtx {s u : State} {c : Ctx} (cur : u.cur = s.cur) (pc : c.pc = s.here.pc) (migrated : c.migrated = s.here.migrated)
    (count : c.migCount = s.here.migCount) : RetiresAs s c (u.setCtx s.cur (c.retireAt false (c.pc + 4))) := by
  have now : (u.setCtx s.cur (c.retireAt false (c.pc + 4))).here = c.retireAt false (c.pc + 4) := by
    rw [State.here, State.cur_setCtx, cur, State.ctx_setCtx_self]
  have counted : (c.countRetired false).migCount = (s.here.countRetired false).migCount := by
    rw [Ctx.migCount_countRetired, Ctx.migCount_countRetired, migrated, count]
  unfold RetiresAs
  rw [now, Ctx.retireAt_eq, counted, pc]

/-- A request is sent, a register waits for its result, and the instruction retires (R15, R115). -/
theorem State.send_await_retire (s : State) (k : FKind) (r : Option RegRef) :
    Sends s k ((s.send k).onHere fun c => c.awaitMaybe r).retire ∧ RetiresAs s (s.here.awaitMaybe r) ((s.send k).onHere fun c => c.awaitMaybe r).retire := by
  have e : ((s.send k).onHere fun c => c.awaitMaybe r).retire =
      (s.send k).setCtx s.cur ((s.here.awaitMaybe r).retireAt false ((s.here.awaitMaybe r).pc + 4)) := State.retire_setCtx _ _
  rw [e]
  refine ⟨s.send_setCtx_sends k _, retiresAs_setCtx rfl ?_ ?_ ?_⟩
  all_goals cases r <;> rfl

/-- A request is sent, and the instruction retires. -/
theorem State.send_retire (s : State) (k : FKind) : Sends s k (s.send k).retire ∧ RetiresAs s s.here (s.send k).retire :=
  ⟨s.send_setCtx_sends k _, retiresAs_setCtx rfl rfl rfl rfl⟩

/-! ### Writing LM (R110, R357) -/

theorem State.lmWrite_writes {s : State} (wf : s.memWf) (core off n v : Nat) : WritesLm s core off n v (s.lmWrite core off n v) where
  value := Memory.readNat_writeNat wf ..
  frame _ hy := Memory.read_writeNat_out wf _ hy
  kept := congrArg (fun k : Core => { k with fetch := (s.core core).fetch }) (State.core_setCore_self ..)
  cores _ hi := State.core_setCore_ne _ hi _
  rest := rfl

/-! ### A context with nothing on its way -/

theorem State.Idle.acquiring {s : State} (h : s.Idle) (scope : Nat) : s.acquiring s.cur scope = false := by
  obtain ⟨flights, waiters, -, -⟩ := h
  rw [State.acquiring, flights, waiters]
  rfl

theorem State.Idle.feHeld {s : State} (h : s.Idle) (core : Nat) : s.feHeld s.cur core = false := by
  obtain ⟨flights, waiters, -, -⟩ := h
  rw [State.feHeld, flights, waiters]
  rfl

/-- Nothing holds back an access to the own LM (R105). -/
theorem State.Idle.lmHeld {s : State} (h : s.Idle) (a n : Nat) (reads : Bool) : s.lmHeld s.cur s.homeCore a n reads = false := by
  rw [State.lmHeld, h.feHeld, h.1]
  exact if_pos rfl

/-! ### Instructions that name registers outside g (R41, R42, R73) -/

theorem State.allow_executes {s : State} {i : Instr} {regs : List Reg} {body : State → State} (low : s.inHandler = true → names 8 regs = false)
    (exist : names 16 regs = false) : s.allow i regs false body = body s := by
  have fate : s.fate regs false = .execute := by
    unfold State.fate
    cases handler : s.inHandler with
    | true => simp [low handler, exist]
    | false => simp [exist]
  rw [State.allow, fate]

theorem State.allow_g (s : State) (i : Instr) (body : State → State) : s.allow i [] false body = body s := State.allow_executes (fun _ => rfl) rfl

theorem State.allow_hasReg {s : State} {d : Reg} (h : s.hasReg d) (i : Instr) (body : State → State) : s.allow i [d] false body = body s := by
  unfold State.hasReg at h
  refine State.allow_executes (fun handler => ?_) ?_
  · rw [handler, if_pos rfl] at h
    simp [names]
    omega
  · have : d.toNat < 16 := by split at h <;> omega
    simp [names]
    omega

end Sys2Proof.Machine


/-!
PROOFS. The ring instructions (R169 to R172): what each does for a ring of the home core, by what its descriptor says.
-/
namespace Sys2Proof.Machine

/-! ### RWAIT and RROOM (R171) -/

section
variable {s : State} {d a : Reg} {q n : Nat} (free : s.acquiring s.cur 0 = false)
include free

theorem State.ringWait_eq (room : Bool) : s.ringWait d a q n room = match (s.core s.homeCore).ringTest q ((s.rdG a).toNat + n) room with
    | .fault => s.trap .ringFault 0 (BitVec.ofNat 64 ((s.rdG a).toNat + n))
    | .met count => s.finishG d (BitVec.ofNat 64 count)
    | .wait => s.onHere fun x => { x with
        st := .waiting, wait := if room then .rroom q ((s.rdG a).toNat + n) d.toNat else .rwait q ((s.rdG a).toNat + n) d.toNat } := by
  unfold State.ringWait
  rw [free]
  rfl

theorem State.ringWait_faults (room : Bool)
    (bad : (s.core s.homeCore).ringValid ((s.core s.homeCore).ring q) = false ∨ ringSlots ((s.core s.homeCore).ring q) < (s.rdG a).toNat + n) :
    s.ringWait d a q n room = s.trap .ringFault 0 (BitVec.ofNat 64 ((s.rdG a).toNat + n)) := by
  have fault : (s.core s.homeCore).ringTest q ((s.rdG a).toNat + n) room = .fault := if_pos (by rcases bad with bad | bad <;> simp [bad])
  rw [State.ringWait_eq free, fault]

variable (valid : (s.core s.homeCore).ringValid ((s.core s.homeCore).ring q) = true) (fits : (s.rdG a).toNat + n ≤ ringSlots ((s.core s.homeCore).ring q))
include valid fits

/-- What RWAIT and RROOM compare with is reached. -/
theorem State.ringWait_met (room : Bool) {count : Nat} (hc : count = if room then ringFree ((s.core s.homeCore).ring q) else ringFilled ((s.core s.homeCore).ring q))
    (met : (s.rdG a).toNat + n ≤ count) : s.ringWait d a q n room = s.finishG d (BitVec.ofNat 64 count) := by
  have test : (s.core s.homeCore).ringTest q ((s.rdG a).toNat + n) room = .met count := by
    unfold Core.ringTest
    dsimp only
    rw [valid, ← hc]
    exact (if_neg (by simpa using fits)).trans (if_pos met)
  rw [State.ringWait_eq free, test]

theorem State.ringWait_waits (room : Bool) {count : Nat} (hc : count = if room then ringFree ((s.core s.homeCore).ring q) else ringFilled ((s.core s.homeCore).ring q))
    (short : count < (s.rdG a).toNat + n) : s.ringWait d a q n room = s.onHere fun x => { x with
      st := .waiting, wait := if room then .rroom q ((s.rdG a).toNat + n) d.toNat else .rwait q ((s.rdG a).toNat + n) d.toNat } := by
  have test : (s.core s.homeCore).ringTest q ((s.rdG a).toNat + n) room = .wait := by
    unfold Core.ringTest
    dsimp only
    rw [valid, ← hc]
    exact (if_neg (by simpa using fits)).trans (if_neg (by omega))
  rw [State.ringWait_eq free, test]

end

/-! ### RADVH and RADVT (R172) -/

theorem withHead_moved (w : Word) (h : Nat) : withHead w (h % 65536) = BitVec.ofNat 64 (ringTail w * 2 ^ 48 + h % 65536 * 2 ^ 32 + w.toNat % 2 ^ 32) := by
  have := w.isLt
  have tail : ringTail w = w.toNat / 2 ^ 48 := by unfold ringTail bitsOf; omega
  rw [withHead, tail, Nat.mod_mod]

theorem withTail_moved (w : Word) (t : Nat) : withTail w (t % 65536) = BitVec.ofNat 64 (t % 65536 * 2 ^ 48 + ringHead w * 2 ^ 32 + w.toNat % 2 ^ 32) := by
  have low : w.toNat % 2 ^ 48 = ringHead w * 2 ^ 32 + w.toNat % 2 ^ 32 := by unfold ringHead bitsOf; omega
  rw [withTail, Nat.mod_mod, low, Nat.add_assoc]

section
variable {s : State} {d a : Reg} {q n : Nat} (free : s.acquiring s.cur 0 = false)
include free

theorem State.ringAdvance_faults (tail : Bool)
    (bad : (s.core s.homeCore).ringValid ((s.core s.homeCore).ring q) = false ∨
      (if tail then ringFree ((s.core s.homeCore).ring q) else ringFilled ((s.core s.homeCore).ring q)) < (s.rdG a).toNat + n) :
    s.ringAdvance d a q n tail = s.trap .ringFault 0 (BitVec.ofNat 64 ((s.rdG a).toNat + n)) := by
  unfold State.ringAdvance
  dsimp only
  rw [if_neg (by simp [free])]
  exact if_pos (by rcases bad with bad | bad <;> simp [bad])

theorem State.ringAdvance_moves (idle : s.Idle) (tail : Bool) (valid : (s.core s.homeCore).ringValid ((s.core s.homeCore).ring q) = true)
    (enough : (s.rdG a).toNat + n ≤ if tail then ringFree ((s.core s.homeCore).ring q) else ringFilled ((s.core s.homeCore).ring q)) {p : Nat}
    (hp : p = ((if tail then ringTail ((s.core s.homeCore).ring q) else ringHead ((s.core s.homeCore).ring q)) + ((s.rdG a).toNat + n)) % 65536) :
    s.ringAdvance d a q n tail = (s.setRing s.homeCore q (if tail then withTail ((s.core s.homeCore).ring q) p else withHead ((s.core s.homeCore).ring q) p)).finishG d
      (BitVec.ofNat 64 p) := by
  subst hp
  unfold State.ringAdvance
  dsimp only
  rw [if_neg (by simp [free]), if_neg (by simpa [valid] using enough), if_neg (by simp [idle.lmHeld])]

end

/-- A ring's descriptor has been written and another value has gone to g[d] (R28, R172). -/
structure State.RingWritten (s : State) (core q : Nat) (w : Word) (d : Reg) (v : Word) (t : State) : Prop where
  ring : (t.core core).rings.getD q 0 = w
  value : d ≠ 0 → t.rdG d = v
  pc : t.here.pc = s.here.pc + 4
  mem : t.mem = s.mem
  cores : ∀ j, j ≠ core → t.core j = s.core j

theorem State.setRing_finishG {s : State} (ready : s.here.st = .ready) (core q : Nat) (w : Word) (d : Reg) (v : Word) :
    s.RingWritten core q w d v ((s.setRing core q w).finishG d v) := by
  obtain ⟨-, mem, cores, ring, -, pc⟩ := s.setRing_sets core q w ready
  obtain ⟨only, pc', -, value, -⟩ := (s.setRing core q w).finishG_writes d v
  exact ⟨by rw [only.core, ring], fun hd => (value d).trans (if_pos ⟨rfl, hd⟩), pc'.trans (by rw [pc]), only.mem.trans mem, fun j hj => (only.core j).trans (cores j hj)⟩

theorem State.RingWritten.unitsFreed {s t : State} {core q : Nat} {w : Word} {d : Reg} {v : Word} (h : s.RingWritten core q w d v t) (r : Res) (n : Nat) :
    s.RingWritten core q w d v (t.unitsFreed r n) := by
  obtain ⟨_, e⟩ := t.unitsFreed_eq r n
  rw [e]
  exact ⟨h.ring, h.value, h.pc, h.mem, h.cores⟩

/-! ### RLD and RST (R172) -/

section
variable {s : State} {t : BitVec 1} {size q i o : Nat} {run : State → Nat → State} (free : s.acquiring s.cur 0 = false)
include free

theorem State.ringAccess_faults
    (bad : (s.core s.homeCore).ringValid ((s.core s.homeCore).ring q) = false ∨ ringSlots ((s.core s.homeCore).ring q) ≤ i ∨
      ringSlotSize ((s.core s.homeCore).ring q) < o * size + size) : s.ringAccess t size q i o run = s.trap .ringFault 0 (BitVec.ofNat 64 i) := by
  unfold State.ringAccess
  dsimp only
  rw [if_neg (by simp [free])]
  exact if_pos (by rcases bad with bad | bad | bad <;> simp [bad])

theorem State.ringAccess_runs (valid : (s.core s.homeCore).ringValid ((s.core s.homeCore).ring q) = true) (slot : i < ringSlots ((s.core s.homeCore).ring q))
    (fits : o * size + size ≤ ringSlotSize ((s.core s.homeCore).ring q)) :
    s.ringAccess t size q i o run = run s (ringSlotAt ((s.core s.homeCore).ring q)
      (if t = 1 then ringTail ((s.core s.homeCore).ring q) else ringHead ((s.core s.homeCore).ring q)) i + o * size) := by
  unfold State.ringAccess
  dsimp only
  rw [if_neg (by simp [free]), if_neg (by simp [valid, slot, fits])]

end

/-- Writing v[d] and retiring. -/
theorem State.wrV_retire (s : State) (d : Reg) (v : Quad) : WritesV s d v 0 (s.wrV d v).retire := by
  have e : (s.wrV d v).retire = s.setCtx s.cur ((s.here.wrV d.toNat v).retireAt false (s.here.pc + 4)) := s.retire_setCtx _
  rw [e, Ctx.retireAt_eq]
  refine ⟨OnlyHere.setCtx s _, by simp, by simp [Ctx.wrV], fun r => ?_, by simp [Ctx.wrV], by simp [Ctx.wrV]⟩
  have now : (s.setCtx s.cur { s.here.wrV d.toNat v with pc := s.here.pc + 4, migCount := ((s.here.wrV d.toNat v).countRetired false).migCount }).rdV r =
      (s.here.wrV d.toNat v).rdV r.toNat := by
    rw [State.rdV, State.here, State.cur_setCtx, State.ctx_setCtx_self]
    rfl
  rw [now, Ctx.rdV_wrV]
  simp [State.rdV, ← BitVec.toNat_inj]

section
variable {s : State} (idle : s.Idle)
include idle

theorem State.loadLm_late (late : s.late = true) (fmt : LoadFmt) (d off : Nat) :
    s.loadLm fmt d s.homeCore off false 0 = ((s.send (.lmLoad fmt d (lmAddr s.homeCore off) false 0)).onHere fun c => c.awaitMaybe (fmt.target d)).retire := by
  unfold State.loadLm
  dsimp only
  rw [if_neg (by simp [idle.acquiring, idle.lmHeld]), if_pos late]

theorem State.loadLm_now (now : s.late = false) (fmt : LoadFmt) (d off : Nat) (pure : s.poisoned (lmAddr s.homeCore off) fmt.size = false) :
    s.loadLm fmt d s.homeCore off false 0 = (s.onHere fun c => c.deliver fmt d (s.lmRead s.homeCore off fmt.size)).retire := by
  unfold State.loadLm
  dsimp only
  rw [if_neg (by simp [idle.acquiring, idle.lmHeld]), if_neg (by simp [now]), if_neg (by simp [pure])]

variable (room : s.storeBuffer s.execCore < 16)
include room

theorem State.storeLm_late (late : s.late = true) (off n : Nat) (data : Quad) :
    s.storeLm s.homeCore off n data 0 0 = (s.send (.lmWrite (lmAddr s.homeCore off) (.store n data) false 0)).retire := by
  unfold State.storeLm
  dsimp only
  rw [if_neg (by simp [idle.acquiring, idle.lmHeld, room]), if_neg (by simp [late])]
  exact congrArg State.retire (s.sendSkip_false _)

theorem State.storeLm_now (now : s.late = false) (off n : Nat) (data : Quad) :
    s.storeLm s.homeCore off n data 0 0 = ((s.setCtx s.cur s.here).portStore s.execCore s.homeCore off n data.toNat).retire := by
  unfold State.storeLm
  dsimp only
  rw [if_neg (by simp [idle.acquiring, idle.lmHeld, room]), if_pos (by simp [now])]
  simp [State.setCtx_setCtx_self]
  rfl

end

/-! ### Writes that no trace ring logs (R110 to R112) -/

/-- A port whose trace ring is off, or not valid, logs nothing. -/
theorem State.traceWrite_off {s : State} {core : Nat} (quiet : (traceOn (s.core core).traceb && (s.core core).traceValid) = false) (src kind log2 off value : Nat) :
    s.traceWrite core src kind log2 off value = s := by
  unfold State.traceWrite
  exact if_neg (Bool.eq_false_iff.1 quiet)

section
variable {s : State} {exec core : Nat} (untraced : ¬(exec ≠ core ∧ traceOn (s.core core).traceb = true ∧ (s.core core).traceValid = true))
include untraced

theorem State.quiet_of_untraced (away : exec ≠ core) : (traceOn (s.core core).traceb && (s.core core).traceValid) = false := by
  rw [Bool.and_eq_false_iff, ← Bool.not_eq_true, ← Bool.not_eq_true, ← not_and_or]
  exact fun on => untraced ⟨away, on⟩

/-- A write of another core that no trace ring logs is a write of the bytes. -/
theorem State.tracedWrite_untraced (away : exec ≠ core) (off n v src kind : Nat) : s.tracedWrite core off n v src kind = s.lmWrite core off n v := by
  have written : ((s.lmWrite core off n v).core core) = (s.core core).dropFetched off n := State.core_setCore_self ..
  have quiet : (traceOn ((s.lmWrite core off n v).core core).traceb && ((s.lmWrite core off n v).core core).traceValid) = false := by
    rw [written]
    exact State.quiet_of_untraced untraced away
  unfold State.tracedWrite
  simp only [State.traceWrite_off quiet, ite_self]

/-- A store to the own LM that no trace ring logs is a write of the bytes. -/
theorem State.portStore_untraced (off n v : Nat) : s.portStore exec core off n v = s.lmWrite core off n v := by
  unfold State.portStore
  split
  · rfl
  · rename_i away
    exact State.tracedWrite_untraced untraced away ..

end

/-- A store to a slot of the own LM, at once and not logged: its bytes alone, and the context goes on (R110). -/
theorem State.storeLm_writes {s : State} (wf : s.memWf) (idle : s.Idle) (room : s.storeBuffer s.execCore < 16) (now : s.late = false)
    (untraced : ¬(s.execCore ≠ s.homeCore ∧ traceOn (s.core s.homeCore).traceb = true ∧ (s.core s.homeCore).traceValid = true)) (off n : Nat) (data : Quad) :
    WritesLm s s.homeCore off n data.toNat (s.storeLm s.homeCore off n data 0 0) ∧ OthersAsBefore s (s.storeLm s.homeCore off n data 0 0) ∧
      RetiresAs s s.here (s.storeLm s.homeCore off n data 0 0) := by
  rw [State.storeLm_now idle room now, State.portStore_untraced (s := s.setCtx s.cur s.here) untraced]
  obtain ⟨value, frame, kept, cores, -⟩ := State.lmWrite_writes (s := s.setCtx s.cur s.here) wf s.homeCore off n data.toNat
  refine ⟨⟨value, frame, kept, cores, rfl⟩, fun id hid => ?_, ?_⟩
  · exact (State.ctx_setCtx_ne _ hid _).trans (s.ctx_setCtx_ne hid _)
  · have here : ((s.setCtx s.cur s.here).lmWrite s.homeCore off n data.toNat).here = s.here := s.ctx_setCtx_self ..
    rw [State.retire_eq, here]
    exact retiresAs_setCtx (u := (s.setCtx s.cur s.here).lmWrite s.homeCore off n data.toNat) rfl rfl rfl rfl

/-- RLD and RST name v[d] where they move a quadword, and nothing outside g where they move a doubleword. -/
theorem State.allow_slot {s : State} {d : Reg} {w : BitVec 1} (reg : w = 0 ∨ s.hasReg d) (i : Instr) (body : State → State) :
    s.allow i (if w = 0 then [] else [d]) false body = body s := by
  by_cases g : w = 0
  · rw [if_pos g, State.allow_g]
  · rw [if_neg g, State.allow_hasReg (reg.resolve_left g)]

theorem exec_rld {s : State} {d : Reg} {w : BitVec 1} (reg : w = 0 ∨ s.hasReg d) (t : BitVec 1) (q : BitVec 3) (i o : BitVec 8) :
    exec (.rld d t w q i o) s = .next (s.ringAccess t (if w = 0 then 8 else 16) q.toNat i.toNat o.toNat fun s off =>
      s.loadLm (if w = 0 then .zx 8 else .v128) d.toNat s.homeCore off false 0) :=
  congrArg Host.Outcome.next (State.allow_slot reg ..)

/-- RST is an access of its slot, and the access is a store unless the partition is deterministic (R120). -/
theorem exec_rst {s : State} {d : Reg} {w : BitVec 1} (reg : w = 0 ∨ s.hasReg d) (t : BitVec 1) (q : BitVec 3) (i o : BitVec 8) :
    ∃ run : State → Nat → State, exec (.rst d t w q i o) s = .next (s.ringAccess t (if w = 0 then 8 else 16) q.toNat i.toNat o.toNat run) ∧
      (s.detHere = false → ∀ off, run s off =
        s.storeLm s.homeCore off (if w = 0 then 8 else 16) (if w = 0 then BitVec.ofNat 128 (s.rdG d).toNat else s.rdV d) 0 0) := by
  refine ⟨_, congrArg Host.Outcome.next (State.allow_slot reg ..), fun free off => ?_⟩
  dsimp only
  rw [free]
  rfl

section
variable {s : State} {d a : Reg} {q : BitVec 3} {n : BitVec 9}

/-- Each of the six takes RINGFAULT for a descriptor that is not valid and for an operand past its limit (R172, R344). -/
theorem rings_fault (can : s.CanTrap) (free : s.acquiring s.cur 0 = false) (t w : BitVec 1) (i o : BitVec 8) :
    let k := s.core s.homeCore
    let desc := k.ring q.toNat
    let count := (s.rdG a).toNat + n.toNat
    let size := if w = 0 then 8 else 16
    let faults (i : Instr) (v : Nat) : Prop := Completes i s (TakesTrap s 10 0 (BitVec.ofNat 64 v) s.here.pc)
    (k.ringValid desc = false ∨ ringSlots desc < count → faults (.rwait d a q n) count ∧ faults (.rroom d a q n) count) ∧
    (k.ringValid desc = false ∨ ringFilled desc < count → faults (.radvh d a q n) count) ∧
    (k.ringValid desc = false ∨ ringFree desc < count → faults (.radvt d a q n) count) ∧
    (w = 0 ∨ s.hasReg d → k.ringValid desc = false ∨ ringSlots desc ≤ i.toNat ∨ ringSlotSize desc < o.toNat * size + size →
      faults (.rld d t w q i o) i.toNat ∧ faults (.rst d t w q i o) i.toNat) := by
  intro k desc count size faults
  have trap (v : Nat) : TakesTrap s 10 0 (BitVec.ofNat 64 v) s.here.pc (s.trap .ringFault 0 (BitVec.ofNat 64 v)) := s.trap_takes can .ringFault _ _
  refine ⟨fun bad => ⟨⟨_, rfl, ?_⟩, ⟨_, rfl, ?_⟩⟩, fun bad => ⟨_, rfl, ?_⟩, fun bad => ⟨_, rfl, ?_⟩, fun reg bad => ⟨?_, ?_⟩⟩
  · rw [State.ringWait_faults free false bad]; exact trap _
  · rw [State.ringWait_faults free true bad]; exact trap _
  · rw [State.ringAdvance_faults free false bad]
    dsimp only
    rw [if_pos (congrArg Core.rings ((trap _).only.core _))]
    exact trap _
  · rw [State.ringAdvance_faults free true bad]; exact trap _
  · refine ⟨_, exec_rld reg t q i o, ?_⟩
    rw [State.ringAccess_faults free bad]; exact trap _
  · obtain ⟨run, e, -⟩ := exec_rst reg t q i o
    refine ⟨_, e, ?_⟩
    rw [State.ringAccess_faults free bad]; exact trap _

/-- RWAIT and RROOM of a count within the slots (R171). -/
theorem ringWaits (free : s.acquiring s.cur 0 = false) (valid : (s.core s.homeCore).ringValid ((s.core s.homeCore).ring q.toNat) = true)
    (fits : (s.rdG a).toNat + n.toNat ≤ ringSlots ((s.core s.homeCore).ring q.toNat)) :
    let desc := (s.core s.homeCore).ring q.toNat
    let count := (s.rdG a).toNat + n.toNat
    (count ≤ ringFilled desc → Completes (.rwait d a q n) s (WritesG s false d (BitVec.ofNat 64 (ringFilled desc)) (s.here.pc + 4))) ∧
    (ringFilled desc < count → Completes (.rwait d a q n) s fun t => OnlyHere s t ∧ t.here = { s.here with st := .waiting, wait := .rwait q.toNat count d.toNat }) ∧
    (count ≤ ringFree desc → Completes (.rroom d a q n) s (WritesG s false d (BitVec.ofNat 64 (ringFree desc)) (s.here.pc + 4))) ∧
    (ringFree desc < count → Completes (.rroom d a q n) s fun t => OnlyHere s t ∧ t.here = { s.here with st := .waiting, wait := .rroom q.toNat count d.toNat }) := by
  refine ⟨fun met => ⟨_, rfl, ?_⟩, fun short => ⟨_, rfl, ?_⟩, fun met => ⟨_, rfl, ?_⟩, fun short => ⟨_, rfl, ?_⟩⟩
  · rw [State.ringWait_met free valid fits false rfl met]
    exact s.finishG_writes d _
  · rw [State.ringWait_waits free valid fits false rfl short]
    exact ⟨OnlyHere.setCtx s _, s.ctx_setCtx_self ..⟩
  · rw [State.ringWait_met free valid fits true rfl met]
    exact s.finishG_writes d _
  · rw [State.ringWait_waits free valid fits true rfl short]
    exact ⟨OnlyHere.setCtx s _, s.ctx_setCtx_self ..⟩

/-- RADVH and RADVT of a count within what is filled or free (R172). -/
theorem ringAdvances (idle : s.Idle) (free : s.acquiring s.cur 0 = false) (ready : s.here.st = .ready)
    (valid : (s.core s.homeCore).ringValid ((s.core s.homeCore).ring q.toNat) = true) :
    let desc := (s.core s.homeCore).ring q.toNat
    let count := (s.rdG a).toNat + n.toNat
    (count ≤ ringFilled desc → Completes (.radvh d a q n) s (s.RingWritten s.homeCore q.toNat (withHead desc ((ringHead desc + count) % 65536)) d
      (BitVec.ofNat 64 ((ringHead desc + count) % 65536)))) ∧
    (count ≤ ringFree desc → Completes (.radvt d a q n) s (s.RingWritten s.homeCore q.toNat (withTail desc ((ringTail desc + count) % 65536)) d
      (BitVec.ofNat 64 ((ringTail desc + count) % 65536)))) := by
  refine ⟨fun enough => ⟨_, rfl, ?_⟩, fun enough => ⟨_, rfl, ?_⟩⟩
  · rw [State.ringAdvance_moves free idle false valid enough rfl]
    have written := State.setRing_finishG (s := s) ready s.homeCore q.toNat (withHead ((s.core s.homeCore).ring q.toNat)
      ((ringHead ((s.core s.homeCore).ring q.toNat) + ((s.rdG a).toNat + n.toNat)) % 65536)) d
      (BitVec.ofNat 64 ((ringHead ((s.core s.homeCore).ring q.toNat) + ((s.rdG a).toNat + n.toNat)) % 65536))
    simp only [Bool.false_eq_true, if_false]
    split
    · exact written
    · exact written.unitsFreed ..
  · rw [State.ringAdvance_moves free idle true valid enough rfl]
    exact State.setRing_finishG ready ..

end

section
variable {s : State} {d : Reg} {q : BitVec 3} {t w : BitVec 1} {i o : BitVec 8} {size : Nat} (hs : size = if w = 0 then 8 else 16) (idle : s.Idle)
  (valid : (s.core s.homeCore).ringValid ((s.core s.homeCore).ring q.toNat) = true) (slot : i.toNat < ringSlots ((s.core s.homeCore).ring q.toNat))
  (fits : o.toNat * size + size ≤ ringSlotSize ((s.core s.homeCore).ring q.toNat)) {off : Nat}
  (ho : off = ringSlotAt ((s.core s.homeCore).ring q.toNat)
    (if t = 1 then ringTail ((s.core s.homeCore).ring q.toNat) else ringHead ((s.core s.homeCore).ring q.toNat)) i.toNat + o.toNat * size)
include hs idle valid slot fits ho

theorem exec_rld_slot (reg : w = 0 ∨ s.hasReg d) :
    exec (.rld d t w q i o) s = .next (s.loadLm (if w = 0 then .zx 8 else .v128) d.toNat s.homeCore off false 0) := by
  subst hs ho
  rw [exec_rld reg, State.ringAccess_runs (idle.acquiring 0) valid slot fits]

theorem exec_rst_slot (reg : w = 0 ∨ s.hasReg d) (nondet : s.detHere = false) :
    exec (.rst d t w q i o) s = .next (s.storeLm s.homeCore off size (if w = 0 then BitVec.ofNat 128 (s.rdG d).toNat else s.rdV d) 0 0) := by
  subst hs ho
  obtain ⟨run, e, run_eq⟩ := exec_rst reg t q i o
  rw [e, State.ringAccess_runs (idle.acquiring 0) valid slot fits, run_eq nondet]

theorem completes_rld_late (late : s.late = true) (reg : w = 0 ∨ s.hasReg d) : Completes (.rld d t w q i o) s fun u =>
    Sends s (.lmLoad (if w = 0 then .zx 8 else .v128) d.toNat (lmAddr s.homeCore off) false 0) u ∧
    RetiresAs s (s.here.awaitMaybe (LoadFmt.target (if w = 0 then .zx 8 else .v128) d.toNat)) u := by
  refine ⟨_, exec_rld_slot hs idle valid slot fits ho reg, ?_⟩
  rw [State.loadLm_late idle late]
  exact State.send_await_retire ..

theorem completes_rld_g (now : s.late = false) (pure : s.poisoned (lmAddr s.homeCore off) size = false) (hw : w = 0) :
    Completes (.rld d t w q i o) s (WritesG s false d (BitVec.ofNat 64 (s.mem.readNat (lmAddr s.homeCore off) 8)) (s.here.pc + 4)) := by
  refine ⟨_, exec_rld_slot hs idle valid slot fits ho (.inl hw), ?_⟩
  subst hs hw
  rw [if_pos rfl, State.loadLm_now idle now _ _ _ pure]
  have written : (s.onHere fun c => c.deliver (.zx 8) d.toNat (s.lmRead s.homeCore off 8)).retire =
      s.finishG d (BitVec.ofNat 64 (s.mem.readNat (lmAddr s.homeCore off) 8)) := by
    refine congrArg (fun c => (s.setCtx s.cur c).retire) (congrArg (s.here.wrG d.toNat) ?_)
    exact BitVec.setWidth_eq _
  exact (congrArg (WritesG s false d _ _) written).mpr (s.finishG_writes d _)

theorem completes_rld_v (now : s.late = false) (pure : s.poisoned (lmAddr s.homeCore off) size = false) (hw : w = 1) (reg : s.hasReg d) :
    Completes (.rld d t w q i o) s (WritesV s d (BitVec.ofNat 128 (s.mem.readNat (lmAddr s.homeCore off) 16)) 0) := by
  refine ⟨_, exec_rld_slot hs idle valid slot fits ho (.inr reg), ?_⟩
  subst hs hw
  rw [if_neg (by decide), State.loadLm_now idle now _ _ _ pure]
  exact s.wrV_retire d _

variable (nondet : s.detHere = false) (room : s.storeBuffer s.execCore < 16)
include nondet room

theorem completes_rst_late (late : s.late = true) (reg : w = 0 ∨ s.hasReg d) : Completes (.rst d t w q i o) s fun u =>
    Sends s (.lmWrite (lmAddr s.homeCore off) (.store size (if w = 0 then (s.rdG d).zeroExtend 128 else s.rdV d)) false 0) u ∧ RetiresAs s s.here u := by
  refine ⟨_, exec_rst_slot hs idle valid slot fits ho reg nondet, ?_⟩
  rw [State.storeLm_late idle room late, show BitVec.ofNat 128 (s.rdG d).toNat = (s.rdG d).zeroExtend 128 from BitVec.ofNat_toNat ..]
  exact State.send_retire ..

theorem completes_rst_g (wf : s.memWf) (now : s.late = false)
    (untraced : ¬(s.execCore ≠ s.homeCore ∧ traceOn (s.core s.homeCore).traceb = true ∧ (s.core s.homeCore).traceValid = true)) (hw : w = 0) :
    Completes (.rst d t w q i o) s fun u => WritesLm s s.homeCore off 8 (s.rdG d).toNat u ∧ OthersAsBefore s u ∧ RetiresAs s s.here u := by
  refine ⟨_, exec_rst_slot hs idle valid slot fits ho (.inl hw) nondet, ?_⟩
  subst hs hw
  have same : (BitVec.ofNat 128 (s.rdG d).toNat).toNat = (s.rdG d).toNat := by
    have := (s.rdG d).isLt
    rw [BitVec.toNat_ofNat]
    omega
  simpa only [if_pos, same] using State.storeLm_writes wf idle room now untraced off 8 (BitVec.ofNat 128 (s.rdG d).toNat)

theorem completes_rst_v (wf : s.memWf) (now : s.late = false)
    (untraced : ¬(s.execCore ≠ s.homeCore ∧ traceOn (s.core s.homeCore).traceb = true ∧ (s.core s.homeCore).traceValid = true)) (hw : w = 1) (reg : s.hasReg d) :
    Completes (.rst d t w q i o) s fun u => WritesLm s s.homeCore off 16 (s.rdV d).toNat u ∧ OthersAsBefore s u ∧ RetiresAs s s.here u := by
  refine ⟨_, exec_rst_slot hs idle valid slot fits ho (.inr reg) nondet, ?_⟩
  subst hs hw
  exact State.storeLm_writes wf idle room now untraced off 16 (s.rdV d)

end

theorem ringBase_eq (desc : Word) : ringBase desc = desc.toNat % 2 ^ 16 := by
  rw [ringBase, bitsOf, pow_zero, Nat.div_one]

/-- Settles O18, instruction by instruction. -/
theorem ringInstructions : Obligations.RingInstructions := by
  intro s d a q n t w i o core k desc tail head filled slots slot count size off wf free
  refine ⟨fun can => rings_fault can free t w i o, fun valid fits => ?_, fun valid lowSlot fits idle => ?_⟩
  · obtain ⟨waitMet, waitShort, roomMet, roomShort⟩ := ringWaits (d := d) free valid fits
    refine ⟨waitMet, waitShort, roomMet, roomShort, fun idle ready enough => ?_, fun idle ready enough => ?_⟩
    · refine ((ringAdvances idle free ready valid).1 enough).imp fun u h => ⟨?_, h.value, h.pc, h.mem, h.cores⟩
      exact h.ring.trans (withHead_moved ..)
    · refine ((ringAdvances idle free ready valid).2 enough).imp fun u h => ⟨?_, h.value, h.pc, h.mem, h.cores⟩
      exact h.ring.trans (withTail_moved ..)
  · have hs : size = if w = 0 then 8 else 16 := rfl
    have ho : off = ringSlotAt (k.ring q.toNat) (if t = 1 then ringTail (k.ring q.toNat) else ringHead (k.ring q.toNat)) i.toNat + o.toNat * size := by
      rw [ringSlotAt, ringBase_eq]
      rfl
    exact ⟨completes_rld_late hs idle valid lowSlot fits ho,
      fun now pure => ⟨completes_rld_g hs idle valid lowSlot fits ho now pure, completes_rld_v hs idle valid lowSlot fits ho now pure⟩,
      fun nondet room late => completes_rst_late hs idle valid lowSlot fits ho nondet room late,
      fun nondet room now untraced => ⟨completes_rst_g hs idle valid lowSlot fits ho nondet room wf now untraced,
        completes_rst_v hs idle valid lowSlot fits ho nondet room wf now untraced⟩⟩

end Sys2Proof.Machine


/-!
PROOFS. Full/empty instructions on a word of the home core's LM (R162 to R164): the port performs them at once or makes them wait.
-/
namespace Sys2Proof.Machine

/-! ### Full/empty bits (R18) -/

theorem mem_insertRising {x y : Nat} {l : List Nat} : y ∈ insertRising l x ↔ y = x ∨ y ∈ l := by
  induction l with
  | nil => simp [insertRising]
  | cons z zs ih =>
    unfold insertRising
    split
    · simp
    · split
      · rename_i e
        simp [e]
      · simp only [List.mem_cons, ih]
        tauto

theorem State.full_setFull_self (s : State) (a : Nat) (b : Bool) : (s.setFull a b).full a = b := by
  cases b <;> simp [State.full, State.setFull, mem_insertRising]

theorem State.full_setFull_ne (s : State) {a y : Nat} (h : wordOf y ≠ wordOf a) (b : Bool) : (s.setFull a b).full y = s.full y := by
  cases b <;> simp [State.full, State.setFull, mem_insertRising, h]

theorem State.full_setCtx (s : State) (id : Nat) (c : Ctx) (a : Nat) : (s.setCtx id c).full a = s.full a := rfl

/-! ### Where an offset lies (R20) -/

theorem lmCore?_lmAddr {core off : Nat} (h : off < 0x8000) : (lmCore? (lmAddr core off)).getD 0 = core := by
  have low : globalBase ≤ lmAddr core off := by unfold lmAddr; omega
  rw [lmCore?, if_pos low, Option.getD_some, lmAddr]
  omega

theorem lmAddr_offset {core off : Nat} (h : off < 0x8000) : (lmAddr core off - globalBase) % 0x8000 = off := by
  rw [lmAddr]
  omega

/-! ### The target (R20, R154) -/

section
variable {s : State} {addr : Word} {off : Nat} (place : placeOf s.homeCore addr = .lm s.homeCore off) (enabled : s.enabled s.homeCore = true)
  (fits : off < (s.core s.homeCore).scratchEnd) (aligned : addr.toNat % 8 = 0)
include place enabled fits aligned

theorem State.locate_home (kind : AccessKind) : s.locate s.cur kind addr 8 = (.lm s.homeCore off, s) := by
  have fate : s.lmFate (s.ctx s.cur).partNo s.homeCore (coreOf s.cur) kind s.homeCore off = .lm s.homeCore off := by
    unfold State.lmFate
    rw [if_neg (by simp [enabled]), if_pos rfl, if_neg (by omega)]
  unfold State.locate
  rw [show s.homeOf s.cur = s.homeCore from rfl, place]
  dsimp only
  rw [fate]
  exact if_neg (by simp [aligned])

theorem State.feTarget_home (kind : AccessKind) (run : State → Nat → Nat → State) : s.feTarget kind addr run = run s s.homeCore off := by
  unfold State.feTarget
  rw [place]
  unfold State.withTarget
  rw [State.locate_home place enabled fits aligned]

end

/-! ### What is shared and nobody waits for (R197) -/

/-- Nothing waits at any port, and nobody waits for a turn. -/
structure State.Unasked (s : State) : Prop where
  waiters : s.net.waiters = []
  turns : s.net.turns = []

/-- Where nobody waits for a turn, a resource with no sources is not noted. -/
theorem State.setTurns_empty {s : State} (none : s.net.turns = []) {t : Turns} (empty : t.sources = []) : s.setTurns t = s := by
  have same : s.net.turns.filter (fun u => decide (u.res ≠ t.res)) = s.net.turns := by rw [none]; rfl
  unfold State.setTurns
  dsimp only
  rw [if_pos empty, same]

/-- An offer of what nobody else wants is taken, and leaves no trace (R197). -/
theorem State.Unasked.offer {s : State} (h : s.Unasked) (r : Res) (src : Nat) {units : Nat} (some : 0 < units) : s.offer r src units = (true, s) := by
  have settled : s.settled r = { res := r } := by
    have none : s.turnsOf r = { res := r } := by rw [State.turnsOf, h.turns]; rfl
    rw [State.settled, none]
    rfl
  unfold State.offer
  rw [settled]
  dsimp only
  rw [if_pos (by simp [some]), State.setTurns_empty h.turns rfl]

/-- Where nothing waits, a port has nothing to serve (R163). -/
theorem State.serveWaiters_none {s : State} (none : s.net.waiters = []) (a : Nat) : s.serveWaiters a s.net.waiters.length = s := by
  rw [none]
  rfl

/-- Nothing that a release waits for is on its way (R105). -/
theorem State.Idle.unperformed {s : State} (h : s.Idle) (none : s.net.waiters = []) (scope before : Nat) : s.unperformed s.cur scope before = false := by
  obtain ⟨flights, -, gamos, -⟩ := h
  unfold State.unperformed State.unperformedBy
  rw [show s.gamosBy s.cur (s.ctx s.cur).uid before = [] from gamos before, show s.flightsBy s.cur (s.ctx s.cur).uid = [] from flights, none]
  rfl

/-! ### A context that changed, but for who it is -/

theorem State.Idle.setCtx {s : State} (h : s.Idle) {c : Ctx} (uid : c.uid = s.here.uid) : (s.setCtx s.cur c).Idle := by
  have same : ((s.setCtx s.cur c).ctx s.cur).uid = (s.ctx s.cur).uid := by rw [State.ctx_setCtx_self, uid]; rfl
  obtain ⟨flights, waiters, gamos, pushing⟩ := h
  unfold State.Idle State.flightsOf State.waitersOf State.gamosOf State.pushing at *
  rw [State.cur_setCtx, same]
  exact ⟨flights, waiters, gamos, pushing⟩

theorem State.homeCore_setCtx {s : State} {c : Ctx} (home : c.home = s.here.home) : (s.setCtx s.cur c).homeCore = s.homeCore := by
  unfold State.homeCore State.homeOf
  rw [State.cur_setCtx, State.ctx_setCtx_self, home]
  rfl

theorem State.Unasked.setCtx {s : State} (h : s.Unasked) (id : Nat) (c : Ctx) : (s.setCtx id c).Unasked := ⟨h.waiters, h.turns⟩

/-! ### LDF, LDFE and SDE at the port (R162, R163) -/

/-- The waiter that a full/empty operation of the executing context becomes. -/
def State.waiterHere (s : State) (a : Nat) (op : FeOp) (acq : Bool) : Waiter :=
  { addr := wordOf a, op := op, acq := acq, ctx := s.cur, uid := s.here.uid, part := s.here.partNo, launch := s.here.launch, seq := (s.core s.execCore).reqSeq,
    word := s.wordHere }

/-- The state after the executing core has used a sequence number (R115). -/
def State.counted (s : State) : State := s.onCore s.execCore fun q => { q with reqSeq := q.reqSeq + 1 }

/-- What the arrival of a full/empty operation of the executing context leaves of the port (R163). -/
def State.feServed (t : State) (a : Nat) (op : FeOp) (acq : Bool) : State :=
  if t.feReady a op then t.feDo t.cur t.here.uid a op else { t with net := { t.net with waiters := [t.waiterHere a op acq] } }

section
variable {s : State} (unasked : s.Unasked)
include unasked

/-- An operation that meets no other at its port performs, or waits there (R163). -/
theorem State.Unasked.feArrive_eq {core off : Nat} (low : off < 0x8000) (id uid : Nat) (op : FeOp) (acq : Bool) (seq part : Nat) (launch : Option Nat) (word : IWord)
    (quiet : s.feReady (lmAddr core off) op = true → (s.feDo id uid (lmAddr core off) op).net.waiters = []) :
    s.feArrive id uid (lmAddr core off) op acq seq part launch word = (true,
      if s.feReady (lmAddr core off) op then s.feDo id uid (lmAddr core off) op
      else { s with net := { s.net with waiters :=
        [{ addr := wordOf (lmAddr core off), op := op, acq := acq, ctx := id, uid := uid, part := part, launch := launch, seq := seq, word := word }] } }) := by
  have free : 0 < 32 - s.waitersAt core := by rw [State.waitersAt, unasked.waiters]; exact Nat.zero_lt_succ 31
  unfold State.feArrive
  dsimp only
  rw [lmCore?_lmAddr low, unasked.offer _ _ free]
  simp only [Bool.not_true, Bool.false_eq_true, if_false]
  split
  · rename_i ready
    rw [State.serveWaiters_none (quiet ready)]
  · rw [unasked.waiters]
    rfl

theorem State.feIssue_home (idle : s.Idle) {off : Nat} (low : off < 0x8000) (op : FeOp) (acq : Bool) {t : State} (ht : t = s.onHere fun c => c.awaitMaybe op.target)
    (quiet : t.feReady (lmAddr s.homeCore off) op = true → (t.feDo t.cur t.here.uid (lmAddr s.homeCore off) op).net.waiters = []) :
    s.feIssue s.homeCore off op acq = (t.feServed (lmAddr s.homeCore off) op acq).counted.retire := by
  have waits : t.Unasked := by rw [ht]; exact unasked.setCtx _ _
  subst ht
  unfold State.feIssue
  dsimp only
  rw [if_neg (by simp [idle.acquiring, idle.lmHeld])]
  rw [waits.feArrive_eq low s.cur _ op acq _ _ _ _ quiet]
  rfl

end

/-- The executing context of `u` has retired, and sequence numbers apart nothing else has changed since `u`. -/
structure State.Retired (u t : State) : Prop where
  cur : t.cur = u.cur
  here : t.here = u.here.retireAt false (u.here.pc + 4)
  others : ∀ id, id ≠ u.cur → t.ctx id = u.ctx id
  mem : t.mem = u.mem
  emptied : t.emptied = u.emptied
  net : t.net = u.net
  tracen : ∀ i, (t.core i).tracen = (u.core i).tracen

theorem State.retire_retired (u : State) : u.Retired u.retire :=
  ⟨rfl, State.ctx_setCtx_self .., fun _ hid => State.ctx_setCtx_ne _ hid _, rfl, rfl, rfl, fun _ => rfl⟩

theorem State.counted_retire_retired (u : State) : u.Retired u.counted.retire := by
  obtain ⟨-, here, others, -, -, -, -⟩ := u.counted.retire_retired
  refine ⟨rfl, here, others, rfl, rfl, rfl, fun i => ?_⟩
  have counted : u.counted.core i = if i = u.execCore then { u.core u.execCore with reqSeq := (u.core u.execCore).reqSeq + 1 } else u.core i :=
    State.core_setCore ..
  refine (congrArg Core.tracen counted).trans ?_
  split
  · rename_i e
    rw [e]
  · rfl

namespace State.Retired
variable {u t : State} (h : u.Retired t)
include h

theorem pc : t.here.pc = u.here.pc + 4 := by rw [h.here, Ctx.retireAt_eq]
theorem pend : t.here.pend = u.here.pend := by rw [h.here, Ctx.retireAt_eq]
theorem rdG (r : Reg) : t.rdG r = u.rdG r := by
  rw [State.rdG, h.here, Ctx.retireAt_eq]
  rfl
theorem full (y : Nat) : t.full y = u.full y := by rw [State.full, h.emptied]; rfl

end State.Retired

/-- What the executing context becomes when a value comes to g[d] that it has just asked for. -/
def Ctx.received (c : Ctx) (op : FeOp) (d v : Nat) : Ctx := ((c.awaitMaybe op.target).deliver (.zx 8) d v).arrivedMaybe op.target

theorem Ctx.received_pc (c : Ctx) (op : FeOp) (d v : Nat) : (c.received op d v).pc = c.pc := by
  cases h : op.target <;> simp [Ctx.received, h, Ctx.awaitMaybe, Ctx.arrivedMaybe, Ctx.await, Ctx.arrived, Ctx.deliver]

theorem Ctx.received_g (c : Ctx) (op : FeOp) (d v : Nat) : (c.received op d v).g = (c.wrG d (BitVec.ofNat 64 v)).g := by
  have value : (BitVec.ofNat (8 * 8) v).setWidth 64 = BitVec.ofNat 64 v := BitVec.setWidth_eq _
  have wrote (c' : Ctx) (same : c'.g = c.g) : (c'.deliver (.zx 8) d v).g = (c.wrG d (BitVec.ofNat 64 v)).g := by
    rw [Ctx.deliver, value]
    unfold Ctx.wrG
    split
    · exact same
    · exact congrArg (FMap.set · d _) same
  unfold Ctx.received
  cases op.target with
  | none => exact wrote c rfl
  | some r => exact wrote (c.await r) rfl

/-- Reading at the port for the executing context (R162). -/
theorem State.feDo_reads {s t : State} {op : FeOp} (ht : t = s.onHere fun c => c.awaitMaybe op.target) {core off : Nat} (low : off < 0x8000)
    (pure : s.poisoned (lmAddr core off) 8 = false) {d : Nat} (hop : op = .ldf d ∨ op = .ldfe d) :
    t.feDo t.cur t.here.uid (lmAddr core off) op =
      let u := s.setCtx s.cur (s.here.received op d (s.mem.readNat (lmAddr core off) 8))
      if op = .ldf d then u else u.setFull (lmAddr core off) false := by
  have live : ((t.ctx t.cur).uid == t.here.uid) = true := beq_self_eq_true _
  have clean : t.poisoned (lmAddr core off) 8 = false := by rw [ht]; exact pure
  have read : (t.onCtx t.cur fun c => (c.deliver (.zx 8) d (t.lmRead core off 8)).arrivedMaybe op.target) =
      s.setCtx s.cur (s.here.received op d (s.mem.readNat (lmAddr core off) 8)) := by
    rw [ht]
    simp only [State.onCtx_eq, State.onHere_eq, State.cur_setCtx, State.ctx_setCtx_self, State.setCtx_setCtx_self]
    rfl
  unfold State.feDo
  rw [lmCore?_lmAddr low, lmAddr_offset low, live]
  simp only [clean]
  rcases hop with rfl | rfl
  · rw [if_pos rfl]
    exact read
  · rw [if_neg (by simp)]
    exact congrArg (fun s : State => s.setFull (lmAddr core off) false) read

section
variable {s : State} (idle : s.Idle) (unasked : s.Unasked) {off : Nat} (low : off < 0x8000)
include idle unasked low

/-- A load of a full word performs at once (R162). -/
theorem State.feIssue_reads (full : s.full (lmAddr s.homeCore off) = true) (pure : s.poisoned (lmAddr s.homeCore off) 8 = false) {d : Nat} {op : FeOp}
    (hop : op = .ldf d ∨ op = .ldfe d) (acq : Bool) :
    let u := s.setCtx s.cur (s.here.received op d (s.mem.readNat (lmAddr s.homeCore off) 8))
    (if op = .ldf d then u else u.setFull (lmAddr s.homeCore off) false).Retired (s.feIssue s.homeCore off op acq) := by
  intro u
  have performed := State.feDo_reads (s := s) rfl (core := s.homeCore) low pure hop
  have ready : (s.onHere fun c => c.awaitMaybe op.target).feReady (lmAddr s.homeCore off) op = true := by
    rcases hop with rfl | rfl <;> exact full
  have served : (s.onHere fun c => c.awaitMaybe op.target).feServed (lmAddr s.homeCore off) op acq =
      if op = .ldf d then u else u.setFull (lmAddr s.homeCore off) false := (if_pos ready).trans performed
  rw [State.feIssue_home unasked idle low op acq rfl, served]
  · exact State.counted_retire_retired _
  · intro _
    rw [performed]
    dsimp only
    split <;> exact unasked.waiters

/-- A load of an empty word waits at the port (R163). -/
theorem State.feIssue_waits (empty : s.full (lmAddr s.homeCore off) = false) (d : Nat) (acq : Bool) :
    let t := s.onHere fun c => c.awaitMaybe (FeOp.ldf d).target
    ({ t with net := { t.net with waiters := [t.waiterHere (lmAddr s.homeCore off) (.ldf d) acq] } } : State).Retired (s.feIssue s.homeCore off (.ldf d) acq) := by
  intro t
  rw [State.feIssue_home unasked idle low (.ldf d) acq rfl, State.feServed, if_neg]
  · exact State.counted_retire_retired _
  · exact Bool.eq_false_iff.1 empty
  · exact fun ready => absurd ready (Bool.eq_false_iff.1 empty)

end

/-! ### Writes that a trace ring may log (R110 to R112) -/

/-- Between `s` and `t` memory, its poison and cores have changed. -/
def State.OnlyStored (s t : State) : Prop := ∃ mem poison cores, t = { s with mem := mem, poison := poison, cores := cores }

namespace State.OnlyStored
variable {s t u : State}

theorem refl (s : State) : s.OnlyStored s := ⟨_, _, _, rfl⟩
theorem trans (h : s.OnlyStored t) (h' : t.OnlyStored u) : s.OnlyStored u := by
  obtain ⟨_, _, _, rfl⟩ := h
  obtain ⟨_, _, _, rfl⟩ := h'
  exact ⟨_, _, _, rfl⟩
theorem lmWrite (s : State) (core off n v : Nat) : s.OnlyStored (s.lmWrite core off n v) := ⟨_, _, _, rfl⟩
theorem onCore (s : State) (core : Nat) (f : Core → Core) : s.OnlyStored (s.onCore core f) := ⟨_, _, _, rfl⟩
theorem ctx (h : s.OnlyStored t) (id : Nat) : t.ctx id = s.ctx id := by obtain ⟨_, _, _, rfl⟩ := h; rfl
theorem cur (h : s.OnlyStored t) : t.cur = s.cur := by obtain ⟨_, _, _, rfl⟩ := h; rfl
theorem net (h : s.OnlyStored t) : t.net = s.net := by obtain ⟨_, _, _, rfl⟩ := h; rfl
theorem emptied (h : s.OnlyStored t) : t.emptied = s.emptied := by obtain ⟨_, _, _, rfl⟩ := h; rfl
theorem here (h : s.OnlyStored t) : t.here = s.here := by obtain ⟨_, _, _, rfl⟩ := h; rfl

theorem traceWrite (s : State) (core src kind log2 off value : Nat) : s.OnlyStored (s.traceWrite core src kind log2 off value) := by
  unfold State.traceWrite
  dsimp only
  split
  · exact (lmWrite ..).trans ((lmWrite ..).trans ((lmWrite ..).trans ((lmWrite ..).trans (onCore ..))))
  · exact refl s

theorem tracedWrite (s : State) (core off n v src kind : Nat) : s.OnlyStored (s.tracedWrite core off n v src kind) := by
  unfold State.tracedWrite
  dsimp only
  split
  · exact (lmWrite ..).trans ((traceWrite ..).trans (traceWrite ..))
  · exact (lmWrite ..).trans (traceWrite ..)

end State.OnlyStored

/-- A write to LM changes of its core the fetch buffer alone (R116). -/
theorem State.core_lmWrite_self (s : State) (core off n v : Nat) : (s.lmWrite core off n v).core core = (s.core core).dropFetched off n :=
  State.core_setCore_self ..

theorem Core.tracen_dropFetched (k : Core) (off n : Nat) : (k.dropFetched off n).tracen = k.tracen := rfl

/-- A trace ring that is on logs a write by one entry (R112). -/
theorem State.traceWrite_counts {s : State} {core : Nat} (on : traceOn (s.core core).traceb = true) (valid : (s.core core).traceValid = true)
    (src kind log2 off value : Nat) : ((s.traceWrite core src kind log2 off value).core core).tracen = (s.core core).tracen + 1 := by
  unfold State.traceWrite
  dsimp only
  rw [if_pos (by simp [on, valid])]
  rw [State.onCore_eq, State.core_setCore_self]
  simp only [State.core_lmWrite_self, Core.tracen_dropFetched]

theorem State.tracedWrite_counts {s : State} {core : Nat} (on : traceOn (s.core core).traceb = true) (valid : (s.core core).traceValid = true)
    (off v src kind : Nat) : ((s.tracedWrite core off 8 v src kind).core core).tracen = (s.core core).tracen + 1 := by
  have written := s.core_lmWrite_self core off 8 v
  refine (State.traceWrite_counts (s := s.lmWrite core off 8 v) ?_ ?_ ..).trans ?_
  all_goals rw [written]
  · exact on
  · exact valid
  · rfl

/-! ### SDE and FESET -/

/-- The word that an SDE of the executing context leaves (R162). -/
def State.filled (s : State) (core off : Nat) (v : Word) : State :=
  (if s.execCore = core then s.lmWrite core off 8 v.toNat else s.tracedWrite core off 8 v.toNat s.execCore 1).setFull (lmAddr core off) true

theorem State.feDo_fills (s : State) {core off : Nat} (low : off < 0x8000) (v : Word) :
    s.feDo s.cur s.here.uid (lmAddr core off) (.sde v false) = s.filled core off v := by
  unfold State.feDo
  rw [lmCore?_lmAddr low, lmAddr_offset low]
  rfl

theorem State.onlyStored_stored (s : State) (core off : Nat) (v : Word) :
    s.OnlyStored (if s.execCore = core then s.lmWrite core off 8 v.toNat else s.tracedWrite core off 8 v.toNat s.execCore 1) := by
  split
  · exact .lmWrite ..
  · exact .tracedWrite ..

/-- SDE to an empty word performs at once (R162). -/
theorem State.feIssue_fills {s : State} (idle : s.Idle) (unasked : s.Unasked) {off : Nat} (low : off < 0x8000)
    (empty : s.full (lmAddr s.homeCore off) = false) (v : Word) :
    ((s.setCtx s.cur s.here).filled s.homeCore off v).Retired (s.feIssue s.homeCore off (.sde v false) false) := by
  have performed := (s.setCtx s.cur s.here).feDo_fills (core := s.homeCore) low v
  have ready : (s.setCtx s.cur s.here).feReady (lmAddr s.homeCore off) (.sde v false) = true := by
    rw [State.feReady, State.full_setCtx, empty]
    rfl
  have quiet : ((s.setCtx s.cur s.here).filled s.homeCore off v).net.waiters = [] := by
    rw [State.filled, State.net_setFull, (State.onlyStored_stored ..).net]
    exact unasked.waiters
  rw [State.feIssue_home unasked idle low (.sde v false) false rfl fun _ => by rw [← quiet, ← performed]; rfl]
  have served : (s.setCtx s.cur s.here).feServed (lmAddr s.homeCore off) (.sde v false) false = (s.setCtx s.cur s.here).filled s.homeCore off v :=
    (if_pos ready).trans performed
  exact served ▸ State.counted_retire_retired _

theorem State.filled_untraced {s : State} {core : Nat} (untraced : ¬(s.execCore ≠ core ∧ traceOn (s.core core).traceb = true ∧ (s.core core).traceValid = true))
    (off : Nat) (v : Word) : s.filled core off v = (s.lmWrite core off 8 v.toNat).setFull (lmAddr core off) true := by
  unfold State.filled
  split
  · rfl
  · rename_i away
    rw [State.tracedWrite_untraced untraced away]

theorem State.filled_traced {s : State} {core : Nat} (away : s.execCore ≠ core) (on : traceOn (s.core core).traceb = true)
    (valid : (s.core core).traceValid = true) (off : Nat) (v : Word) : ((s.filled core off v).core core).tracen = (s.core core).tracen + 1 := by
  unfold State.filled
  rw [if_neg away]
  exact State.tracedWrite_counts on valid ..

theorem State.here_filled (s : State) (core off : Nat) (v : Word) : (s.filled core off v).here = s.here := (State.onlyStored_stored ..).here

theorem State.ctx_filled (s : State) (core off : Nat) (v : Word) (id : Nat) : (s.filled core off v).ctx id = s.ctx id := (State.onlyStored_stored ..).ctx id

/-- Where nothing waits, FESET sets the bit alone (R162, R163). -/
theorem State.Unasked.feset_serves {s : State} (unasked : s.Unasked) (core off : Nat) (full : Bool) :
    ((s.traceFeset s.execCore core off full).setFullServe (lmAddr core off) full) = (s.traceFeset s.execCore core off full).setFull (lmAddr core off) full := by
  have quiet : (s.traceFeset s.execCore core off full).net = s.net := by
    unfold State.traceFeset
    split
    · rfl
    · exact (State.OnlyStored.traceWrite ..).net
  unfold State.setFullServe
  rw [quiet, unasked.waiters]
  rfl

theorem Ctx.recordPushesIf_keeps (c : Ctx) (b : Bool) : (if b then c.recordPushes else c).pc = c.pc ∧ (if b then c.recordPushes else c).g = c.g ∧
    (if b then c.recordPushes else c).uid = c.uid ∧ (if b then c.recordPushes else c).home = c.home := by
  have kept : c.recordPushes.pc = c.pc ∧ c.recordPushes.g = c.g ∧ c.recordPushes.uid = c.uid ∧ c.recordPushes.home = c.home := by
    unfold Ctx.recordPushes
    exact ⟨rfl, rfl, rfl, rfl⟩
  cases b
  · exact ⟨rfl, rfl, rfl, rfl⟩
  · exact kept

/-- The same for a context that changed in something that SDE does not read. -/
theorem State.feIssue_fills_of {s : State} (idle : s.Idle) (unasked : s.Unasked) {off : Nat} (low : off < 0x8000)
    (empty : s.full (lmAddr s.homeCore off) = false) {c : Ctx} (uid : c.uid = s.here.uid) (home : c.home = s.here.home) (v : Word) :
    ((s.setCtx s.cur c).filled s.homeCore off v).Retired ((s.setCtx s.cur c).feIssue s.homeCore off (.sde v false) false) := by
  have same : (s.setCtx s.cur c).homeCore = s.homeCore := State.homeCore_setCtx home
  have performed := State.feIssue_fills (idle.setCtx uid) (unasked.setCtx s.cur c) low (by rw [same, State.full_setCtx, empty]) v
  have now : (s.setCtx s.cur c).here = c := State.ctx_setCtx_self ..
  rw [same, State.cur_setCtx, State.setCtx_setCtx_self, now] at performed
  exact performed

section
variable {s : State} (idle : s.Idle) (unasked : s.Unasked) {a : Reg} {x : BitVec 8} {off : Nat}
  (place : placeOf s.homeCore (s.rdG a + x.signExtend 64 * 8) = .lm s.homeCore off) (enabled : s.enabled s.homeCore = true)
  (fits : off < (s.core s.homeCore).scratchEnd) (aligned : (s.rdG a + x.signExtend 64 * 8).toNat % 8 = 0) (low : off < 0x8000)
include idle unasked place enabled fits aligned

section
include low

theorem completes_ldf (full : s.full (lmAddr s.homeCore off) = true) (pure : s.poisoned (lmAddr s.homeCore off) 8 = false) (d : Reg) (o : BitVec 1) :
    Completes (.ldf d a o x) s
      (s.setCtx s.cur (s.here.received (.ldf d.toNat) d.toNat (s.mem.readNat (lmAddr s.homeCore off) 8))).Retired := by
  refine ⟨_, congrArg Host.Outcome.next (State.feTarget_home place enabled fits aligned ..), ?_⟩
  have performed := State.feIssue_reads idle unasked low full pure (.inl rfl : FeOp.ldf d.toNat = .ldf d.toNat ∨ _) (o == 1)
  simpa only [if_pos] using performed

theorem completes_ldfe (full : s.full (lmAddr s.homeCore off) = true) (pure : s.poisoned (lmAddr s.homeCore off) 8 = false) (d : Reg) (o : BitVec 1) :
    Completes (.ldfe d a o x) s
      ((s.setCtx s.cur (s.here.received (.ldfe d.toNat) d.toNat (s.mem.readNat (lmAddr s.homeCore off) 8))).setFull (lmAddr s.homeCore off) false).Retired := by
  refine ⟨_, congrArg Host.Outcome.next (State.feTarget_home place enabled fits aligned ..), ?_⟩
  have performed := State.feIssue_reads idle unasked low full pure (.inr rfl : FeOp.ldfe d.toNat = .ldf d.toNat ∨ _) (o == 1)
  dsimp only at performed
  rwa [if_neg (by simp)] at performed

omit low in
/-- SDE of the own LM goes to the port at once; a release closes what its pushes became (R142, R162). -/
theorem exec_sde_home (d : Reg) (o : BitVec 1) : exec (.sde d a o x) s =
    .next ((s.setCtx s.cur (if o == 1 then s.here.recordPushes else s.here)).feIssue s.homeCore off (.sde (s.rdG d)) false) := by
  have free : (o == 1 && (s.unperformed s.cur (s.scopeOf s.cur (lmAddr s.homeCore off) 0) (s.core s.execCore).reqSeq ||
      s.pushing s.cur (s.core s.execCore).reqSeq)) = false := by
    rw [idle.unperformed unasked.waiters, idle.2.2.2, Bool.or_false, Bool.and_false]
  refine congrArg Host.Outcome.next ((State.feTarget_home place enabled fits aligned ..).trans ?_)
  rw [if_pos rfl, if_neg (Bool.eq_false_iff.1 free), if_neg (by simp [idle.acquiring, idle.lmHeld])]
  rfl

theorem completes_sde (empty : s.full (lmAddr s.homeCore off) = false) (d : Reg) (o : BitVec 1) :
    Completes (.sde d a o x) s fun t => ∃ c : Ctx, c.pc = s.here.pc ∧ c.g = s.here.g ∧ ((s.setCtx s.cur c).filled s.homeCore off (s.rdG d)).Retired t := by
  refine ⟨_, exec_sde_home idle unasked place enabled fits aligned d o, ?_⟩
  obtain ⟨pc, g, uid, home⟩ := s.here.recordPushesIf_keeps (o == 1)
  exact ⟨_, pc, g, State.feIssue_fills_of idle unasked low empty uid home _⟩

end

theorem exec_feset (full : Bool) : exec (if full then .fesetF a x else .fesetE a x) s =
    .next ((s.traceFeset s.execCore s.homeCore off full).setFull (lmAddr s.homeCore off) full).retire := by
  have runs : s.feset a x full = ((s.traceFeset s.execCore s.homeCore off full).setFull (lmAddr s.homeCore off) full).retire := by
    refine (State.feTarget_home place enabled fits aligned ..).trans ?_
    dsimp only
    rw [if_neg (by simp [idle.acquiring, idle.lmHeld]), if_pos rfl, unasked.feset_serves]
  rw [← runs]
  cases full <;> rfl

/-- FESET that no trace ring logs sets the bit alone (R162). -/
theorem completes_feset_untraced
    (untraced : ¬(s.execCore ≠ s.homeCore ∧ traceOn (s.core s.homeCore).traceb = true ∧ (s.core s.homeCore).traceValid = true)) (full : Bool) :
    Completes (if full then .fesetF a x else .fesetE a x) s fun t => t.full (lmAddr s.homeCore off) = full ∧
      (∀ y, wordOf y ≠ wordOf (lmAddr s.homeCore off) → t.full y = s.full y) ∧ t.mem = s.mem ∧ GoesOn { s with emptied := t.emptied } false (s.here.pc + 4) t := by
  have quiet : s.traceFeset s.execCore s.homeCore off full = s := by
    unfold State.traceFeset
    split
    · rfl
    · rename_i away
      exact State.traceWrite_off (State.quiet_of_untraced untraced away) ..
  refine ⟨_, exec_feset idle unasked place enabled fits aligned full, ?_⟩
  rw [quiet]
  have retired := (s.setFull (lmAddr s.homeCore off) full).retire_retired
  exact ⟨(retired.full _).trans (s.full_setFull_self ..), fun y hy => (retired.full y).trans (s.full_setFull_ne hy _), rfl, State.retire_goesOn _⟩

/-- FESET of a migrated thread is logged where the trace ring of its home core is on (R111). -/
theorem completes_feset_traced (away : s.execCore ≠ s.homeCore) (on : traceOn (s.core s.homeCore).traceb = true)
    (valid : (s.core s.homeCore).traceValid = true) (full : Bool) :
    Completes (if full then .fesetF a x else .fesetE a x) s fun t => (t.core s.homeCore).tracen = (s.core s.homeCore).tracen + 1 ∧ t.here.pc = s.here.pc + 4 ∧
      t.full (lmAddr s.homeCore off) = full := by
  have logs : s.traceFeset s.execCore s.homeCore off full = _ := if_neg away
  refine ⟨_, exec_feset idle unasked place enabled fits aligned full, ?_⟩
  have retired := ((s.traceFeset s.execCore s.homeCore off full).setFull (lmAddr s.homeCore off) full).retire_retired
  refine ⟨(retired.tracen _).trans ?_, retired.pc.trans ?_, (retired.full _).trans (State.full_setFull_self ..)⟩
  · rw [logs]
    exact State.traceWrite_counts on valid ..
  · rw [logs]
    exact congrArg (fun c : Ctx => c.pc + 4) (State.OnlyStored.traceWrite ..).here

end

/-- What a read at the port leaves (R162), as the statement says it. -/
theorem State.Retired.received {s t u : State} {op : FeOp} {d : Reg} {v : Nat} (now : u.here = s.here.received op d.toNat v) (cur : u.cur = s.cur)
    (others : OthersAsBefore s u) (h : u.Retired t) :
    (∀ r : Reg, t.rdG r = if r = d ∧ r ≠ 0 then BitVec.ofNat 64 v else s.rdG r) ∧ t.here.pc = s.here.pc + 4 ∧ OthersAsBefore s t := by
  refine ⟨fun r => ?_, ?_, fun id hid => ?_⟩
  · rw [h.rdG, State.rdG, now]
    exact Ctx.rdG_of_wrG _ _ _ _ _ (Ctx.received_g ..)
  · rw [h.pc, now, Ctx.received_pc]
  · rw [h.others id (by rw [cur]; exact hid), others id hid]

/-- What SDE leaves of the context (R162). -/
theorem State.Retired.filled {s t : State} {c : Ctx} {core off : Nat} {v : Word} (pc : c.pc = s.here.pc) (g : c.g = s.here.g)
    (h : ((s.setCtx s.cur c).filled core off v).Retired t) :
    t.full (lmAddr core off) = true ∧ t.here.pc = s.here.pc + 4 ∧ (∀ r : Reg, t.rdG r = s.rdG r) ∧ OthersAsBefore s t := by
  have now : ((s.setCtx s.cur c).filled core off v).here = c := (State.here_filled ..).trans (State.ctx_setCtx_self ..)
  refine ⟨(h.full _).trans (State.full_setFull_self ..), by rw [h.pc, now, pc], fun r => ?_, fun id hid => ?_⟩
  · rw [h.rdG, State.rdG, now, Ctx.rdG, g]
    rfl
  · have cur : ((s.setCtx s.cur c).filled core off v).cur = s.cur := (State.onlyStored_stored ..).cur
    rw [h.others id (by rw [cur]; exact hid), State.ctx_filled]
    exact State.ctx_setCtx_ne _ hid _

/-- The waiter of an LDF, and what has become of the context (R163). -/
theorem State.Retired.waits {s t u : State} {d : Reg} (hu : u = s.onHere fun c => c.awaitMaybe (FeOp.ldf d.toNat).target) {w : Waiter}
    (h : ({ u with net := { u.net with waiters := [w] } } : State).Retired t) :
    t.net.waiters = [w] ∧ (d ≠ 0 → RegRef.g d.toNat ∈ t.here.pend) ∧ t.here.pc = s.here.pc + 4 ∧ t.mem = s.mem ∧ t.emptied = s.emptied := by
  have now : u.here = s.here.awaitMaybe (FeOp.ldf d.toNat).target := by rw [hu]; exact State.ctx_setCtx_self ..
  have here : ({ u with net := { u.net with waiters := [w] } } : State).here = u.here := rfl
  refine ⟨congrArg Net.waiters h.net, fun hd => ?_, ?_, h.mem.trans (by rw [hu]; rfl), h.emptied.trans (by rw [hu]; rfl)⟩
  · have nz : d.toNat ≠ 0 := fun e => hd (BitVec.eq_of_toNat_eq e)
    rw [h.pend, here, now, FeOp.target, if_neg nz]
    exact List.mem_cons_self ..
  · rw [h.pc, here, now]
    cases (FeOp.ldf d.toNat).target <;> rfl

theorem Core.low_of_scratch {off : Nat} {k : Core} (fits : off + 8 ≤ k.scratchEnd) : off < 0x8000 := by
  have : k.scratchEnd ≤ 0x6000 := Nat.sub_le ..
  omega

/-- Settles O14, instruction by instruction. -/
theorem fullEmptyInstructions : Obligations.FullEmptyInstructions := by
  intro s d a o x off addr core w v k traced wf idle waiters turns enabled place fits aligned
  have unasked : s.Unasked := ⟨waiters, turns⟩
  have low : off < 0x8000 := Core.low_of_scratch fits
  have inside : off < (s.core s.homeCore).scratchEnd := Nat.lt_of_lt_of_le (Nat.lt_add_of_pos_right (by decide)) fits
  have setCtx (c : Ctx) : OthersAsBefore s (s.setCtx s.cur c) := fun _ hid => s.ctx_setCtx_ne hid c
  refine ⟨fun full pure => ⟨?_, ?_⟩, fun empty => ⟨fun untraced => ?_, ?_⟩, fun ⟨away, on, valid⟩ => ⟨fun i hi => ?_, fun empty => ?_⟩, fun untraced => ?_, fun untraced => ?_⟩
  · refine (completes_ldf idle unasked place enabled inside aligned low full pure d o).imp fun t h => ?_
    obtain ⟨value, pc, others⟩ := h.received (State.ctx_setCtx_self ..) rfl (setCtx _)
    exact ⟨value, pc, h.mem, h.emptied, others⟩
  · refine (completes_ldfe idle unasked place enabled inside aligned low full pure d o).imp fun t h => ?_
    obtain ⟨value, pc, others⟩ := State.Retired.received (u := (s.setCtx s.cur _).setFull w false) (State.ctx_setCtx_self ..) rfl (setCtx _) h
    exact ⟨value, pc, h.mem, (h.full _).trans (State.full_setFull_self ..), fun y hy => (h.full y).trans (State.full_setFull_ne _ hy _), others⟩
  · refine (completes_sde idle unasked place enabled inside aligned low empty d o).imp fun t ⟨c, pc, g, h⟩ => ?_
    obtain ⟨full, pc, regs, others⟩ := h.filled pc g
    rw [State.filled_untraced (s := s.setCtx s.cur c) untraced] at h
    obtain ⟨value, frame, -, -, -⟩ := State.lmWrite_writes (s := s.setCtx s.cur c) wf core off 8 (s.rdG d).toNat
    refine ⟨?_, fun y hy => ?_, full, fun y hy => (h.full y).trans (State.full_setFull_ne _ hy _), pc, regs, others⟩
    · rw [h.mem, State.mem_setFull, value]
      exact Nat.mod_eq_of_lt (s.rdG d).isLt
    · rw [h.mem, State.mem_setFull]
      exact frame y hy
  · refine ⟨_, congrArg Host.Outcome.next (State.feTarget_home place enabled inside aligned ..), ?_⟩
    obtain ⟨waiters, pend, pc, mem, emptied⟩ := State.Retired.waits rfl (State.feIssue_waits idle unasked low empty d.toNat (o == 1))
    exact ⟨⟨_, waiters, rfl, rfl, rfl, rfl⟩, pend, pc, mem, emptied⟩
  · have logged (full : Bool) := completes_feset_traced idle unasked place enabled inside aligned away on valid full
    rcases List.mem_pair.1 hi with rfl | rfl
    · exact logged false
    · rw [beq_self_eq_true]
      exact logged true
  · refine (completes_sde idle unasked place enabled inside aligned low empty d o).imp fun t ⟨c, pc, g, h⟩ => ?_
    obtain ⟨full, pc, -, -⟩ := h.filled pc g
    exact ⟨(h.tracen core).trans (State.filled_traced (s := s.setCtx s.cur c) away on valid ..), pc, full⟩
  · exact completes_feset_untraced idle unasked place enabled inside aligned untraced false
  · exact completes_feset_untraced idle unasked place enabled inside aligned untraced true

end Sys2Proof.Machine


/-!
PROOFS. How an access is classified (R154): UNMAPPED, then PROT, then MISALIGN, and what passes all three.
-/
namespace Sys2Proof.Machine

/-! ### LM targets (R20, R33) -/

section
variable {s : State} {part home exec core off : Nat} {kind : AccessKind}

theorem State.lmFate_disabled (h : s.enabled core = false) : s.lmFate part home exec kind core off = .trap .unmapped := by
  rw [State.lmFate, h]
  rfl

section
variable (enabled : s.enabled core = true)
include enabled

theorem State.lmFate_home (own : core = home) :
    s.lmFate part home exec kind core off = if (s.core core).scratchEnd ≤ off then .trap .prot else .lm core off := by
  rw [State.lmFate, enabled]
  exact if_pos own

variable (away : core ≠ home)
include away

theorem State.lmFate_away : s.lmFate part home exec kind core off =
    if !(s.inPart part core) then .trap .prot
    else if clusterOf core = clusterOf exec then (if (kind = .load ∨ core = exec) ∧ (s.core core).scratchEnd ≤ off then .trap .prot else .lm core off)
    else if kind = .load then .trap .prot else .lm core off := by
  rw [State.lmFate, enabled]
  exact if_neg away

/-- LM of a core outside the partition, a load of another cluster's LM, and a cache region that the access does not reach (R33). -/
theorem State.lmFate_prot (h : s.inPart part core = false ∨ kind = .load ∧ clusterOf core ≠ clusterOf exec ∨
    (kind = .load ∨ core = exec) ∧ (s.core core).scratchEnd ≤ off) : s.lmFate part home exec kind core off = .trap .prot := by
  rw [State.lmFate_away enabled away]
  rcases h with h | ⟨load, far⟩ | h
  · rw [h]
    rfl
  · rw [if_neg far, if_pos load, ite_self]
  · by_cases near : clusterOf core = clusterOf exec
    · rw [if_pos near, if_pos h, ite_self]
    · have load : kind = .load := h.1.resolve_right fun e => near (congrArg clusterOf e)
      rw [if_neg near, if_pos load, ite_self]

theorem State.lmFate_reaches (inside : s.inPart part core = true) (load : kind = .load → clusterOf core = clusterOf exec ∧ off < (s.core core).scratchEnd)
    (own : core = exec → off < (s.core core).scratchEnd) : s.lmFate part home exec kind core off = .lm core off := by
  rw [State.lmFate_away enabled away, inside]
  refine (if_neg (by simp)).trans ?_
  split
  · refine if_neg fun ⟨h, past⟩ => ?_
    have : off < (s.core core).scratchEnd := h.elim (fun e => (load e).2) own
    omega
  · rename_i far
    exact if_neg fun e => far (load e).1

end
end

/-! ### The order of R154 -/

section
variable {s : State} {id : Nat} {addr : Word}

theorem State.locate_unmapped (place : placeOf (s.homeOf id) addr = .unmapped) (kind : AccessKind) (size : Nat) :
    s.locate id kind addr size = (.trap .unmapped, s) := by
  rw [State.locate, place]

section
variable {core off : Nat} (place : placeOf (s.homeOf id) addr = .lm core off) {kind : AccessKind}
include place

theorem State.locate_lm_trap {c : Cause} (fate : s.lmFate (s.ctx id).partNo (s.homeOf id) (coreOf id) kind core off = .trap c) (size : Nat) :
    s.locate id kind addr size = (.trap c, s) := by
  rw [State.locate, place]
  dsimp only
  rw [fate]

theorem State.locate_lm (fate : s.lmFate (s.ctx id).partNo (s.homeOf id) (coreOf id) kind core off = .lm core off) (size : Nat) :
    s.locate id kind addr size = if addr.toNat % size ≠ 0 then (.trap .misalign, s) else (.lm core off, s) := by
  rw [State.locate, place]
  dsimp only
  rw [fate]

end

/-- The state with another PLB in one core (R307). -/
def State.withPlb (s : State) (core : Nat) (plb : List (Nat × RightsEntry)) : State := s.onCore core fun k => { k with plb := plb }

/-- The rights entry of an address, of the PLB or else of the table (R307). -/
def State.entryOf (s : State) (core dom a : Nat) : Option RightsEntry :=
  match (s.core core).plb.find? fun p => p.1 == dom && p.2.holds a with
  | some p => some p.2
  | none => s.rightsFor dom a

theorem State.plbLookup_none {core dom a : Nat} (h : s.entryOf core dom a = none) : s.plbLookup core dom a = (none, s) := by
  cases look : (s.core core).plb.find? fun p => p.1 == dom && p.2.holds a with
  | some p =>
    rw [State.entryOf, look] at h
    cases h
  | none =>
    rw [State.entryOf, look] at h
    dsimp only at h
    unfold State.plbLookup
    dsimp only
    rw [look, h]

theorem State.plbLookup_some {core dom a : Nat} {e : RightsEntry} (h : s.entryOf core dom a = some e) :
    ∃ plb, s.plbLookup core dom a = (some e, s.withPlb core plb) := by
  cases look : (s.core core).plb.find? fun p => p.1 == dom && p.2.holds a with
  | some p =>
    rw [State.entryOf, look] at h
    cases h
    unfold State.plbLookup
    dsimp only
    rw [look]
    exact ⟨_, rfl⟩
  | none =>
    rw [State.entryOf, look] at h
    dsimp only at h
    unfold State.plbLookup
    dsimp only
    rw [look, h]
    exact ⟨_, rfl⟩

section
variable (place : placeOf (s.homeOf id) addr = .memory) (kind : AccessKind) (size : Nat)
include place

theorem State.locate_memory_none (h : s.entryOf (coreOf id) (s.ctx id).accessDomain addr.toNat = none) : s.locate id kind addr size = (.trap .prot, s) := by
  rw [State.locate, place]
  dsimp only
  rw [State.plbLookup_none h]

theorem State.locate_memory_some {e : RightsEntry} (h : s.entryOf (coreOf id) (s.ctx id).accessDomain addr.toNat = some e) :
    ∃ plb, s.locate id kind addr size =
      (if (kind.reads && !e.r) || (kind.writes && !e.w) then .trap .prot else if addr.toNat % size ≠ 0 then .trap .misalign else .memory e,
        s.withPlb (coreOf id) plb) := by
  obtain ⟨plb, look⟩ := State.plbLookup_some h
  refine ⟨plb, ?_⟩
  rw [State.locate, place]
  dsimp only
  rw [look]
  dsimp only
  by_cases denied : ((kind.reads && !e.r) || (kind.writes && !e.w)) = true
  · rw [if_pos denied, if_pos denied]
  · rw [if_neg denied, if_neg denied]
    dsimp only
    split <;> rfl

end
end

/-- An access that is not admitted traps at its address. -/
theorem State.withTarget_traps {s t : State} {kind : AccessKind} {addr : Word} {size : Nat} {c : Cause} (can : t.CanTrap)
    (h : s.locate s.cur kind addr size = (.trap c, t)) (lm : State → Nat → Nat → State) (mem : State → RightsEntry → State) :
    TakesTrap t c.code addr addr t.here.pc (s.withTarget kind addr size lm mem) := by
  rw [State.withTarget, h]
  exact t.trap_takes can c addr addr

/-- LD, SD and AADD.d are accesses of eight bytes, where nothing is forbidden to a deterministic partition (R120). -/
theorem exec_accesses {s : State} {d a b : Reg} {r : BitVec 2} {o1 : BitVec 1} {o sc h : BitVec 2} {h1 : BitVec 1} {x : BitVec 8} {i : Instr} {kind : AccessKind}
    {addr : Word} (free : s.detHere = false)
    (form : (i = .ld d a r o1 sc h x ∧ kind = .load ∧ addr = s.rdG a + x.signExtend 64 * 8) ∨ (i = .sd d a o sc h1 x ∧ kind = .store ∧ addr = s.rdG a + x.signExtend 64 * 8) ∨
      (i = .aadd d a b o sc 1 ∧ kind = .atomic ∧ addr = s.rdG a)) :
    ∃ lm mem, exec i s = .next (s.withTarget kind addr 8 lm mem) := by
  rcases form with ⟨rfl, rfl, rfl⟩ | ⟨rfl, rfl, rfl⟩ | ⟨rfl, rfl, rfl⟩
  · exact ⟨_, _, congrArg Host.Outcome.next (State.allow_g ..)⟩
  · exact ⟨_, _, congrArg Host.Outcome.next (State.allow_g ..)⟩
  · exact ⟨_, _, congrArg Host.Outcome.next (if_neg (by simp [free]))⟩

/-- What the rights of an entry deny an access (R306). -/
theorem AccessKind.denied_iff (kind : AccessKind) (e : RightsEntry) :
    ((kind.reads && !e.r) || (kind.writes && !e.w)) = true ↔ (kind ≠ .store ∧ e.r = false ∨ kind ≠ .load ∧ e.w = false) := by
  cases kind <;> simp [AccessKind.reads, AccessKind.writes]

/-- Settles O57, in the order of R154. -/
theorem accessesAreClassified : Obligations.AccessesAreClassified := by
  intro s d a b r o1 o sc h h1 x i kind addr can free form traps withPlb entry
  obtain ⟨lm, mem, runs⟩ := exec_accesses free form
  have takes (c : Cause) {t : State} (can' : t.CanTrap) (located : s.locate s.cur kind addr 8 = (.trap c, t)) :
      Completes i s (TakesTrap t c.code addr addr t.here.pc) := ⟨_, runs, State.withTarget_traps can' located lm mem⟩
  refine ⟨fun place => takes _ can (State.locate_unmapped place ..), fun core off place => ?_, fun place => ⟨fun none => ?_, fun e some => ?_⟩⟩
  · have prot (fate : s.lmFate s.here.partNo s.homeCore s.execCore kind core off = .trap .prot) : traps 4 := takes _ can (State.locate_lm_trap place fate 8)
    have admits (ok : s.enabled core = true ∧ ((core = s.homeCore ∧ off < (s.core core).scratchEnd) ∨
        (core ≠ s.homeCore ∧ s.inPart s.here.partNo core = true ∧ (kind = .load → clusterOf core = clusterOf s.execCore ∧ off < (s.core core).scratchEnd) ∧
          (core = s.execCore → off < (s.core core).scratchEnd)))) : s.lmFate s.here.partNo s.homeCore s.execCore kind core off = .lm core off := by
      obtain ⟨enabled, ⟨own, inside⟩ | ⟨away, member, load, exec⟩⟩ := ok
      · rw [State.lmFate_home enabled own, if_neg (by omega)]
      · exact State.lmFate_reaches enabled away member load exec
    refine ⟨fun off => takes _ can (State.locate_lm_trap place (State.lmFate_disabled off) 8), fun enabled own past => prot ?_,
      fun enabled away out => prot (State.lmFate_prot enabled away (.inl out)), fun enabled away load far => prot (State.lmFate_prot enabled away (.inr (.inl ⟨load, far⟩))),
      fun enabled away load past => prot (State.lmFate_prot enabled away (.inr (.inr ⟨.inl load, past⟩))),
      fun enabled away exec past => prot (State.lmFate_prot enabled away (.inr (.inr ⟨.inr exec, past⟩))), fun ok odd => takes .misalign can ?_, fun ok even => ?_⟩
    · rw [State.lmFate_home enabled own, if_pos past]
    · rw [State.locate_lm place (admits ok), if_pos odd]
    · rw [State.locate_lm place (admits ok), if_neg (by omega)]
  · exact takes _ can (State.locate_memory_none place kind 8 none)
  · obtain ⟨plb, located⟩ := State.locate_memory_some place kind 8 some
    have can' : (withPlb plb).CanTrap := can
    refine ⟨fun denied => ⟨plb, takes .prot can' ?_⟩, fun read write => ?_⟩
    · rw [located, if_pos ((kind.denied_iff e).2 denied)]
      rfl
    · have granted : ¬((kind.reads && !e.r) || (kind.writes && !e.w)) = true := by
        rw [AccessKind.denied_iff]
        rintro (⟨h, no⟩ | ⟨h, no⟩)
        · exact absurd (read.resolve_left h) (by simp [no])
        · exact absurd (write.resolve_left h) (by simp [no])
      refine ⟨fun odd => ⟨plb, takes .misalign can' ?_⟩, fun even => ⟨plb, ?_⟩⟩
      · rw [located, if_neg granted, if_pos odd]
        rfl
      · rw [located, if_neg granted, if_neg (by omega)]
        rfl

end Sys2Proof.Machine


/-!
PROOFS. What one step does (R15, R37, R42, R76, R116): the turn of a core, the word at PC and the move at the agenda's head.
-/
namespace Sys2Proof.Machine

/-! ### Bytes and words (R39) -/

/-- The bytes of a number read from memory are the bytes there. -/
theorem bytesOf_readNat (m : Memory) (a n : Nat) : bytesOf n (m.readNat a n) = (List.range n).map fun i => m.read (a + i) := by
  induction n generalizing a with
  | zero => rfl
  | succ n ih =>
    have low : BitVec.ofNat 8 ((m.read a).toNat + 256 * m.readNat (a + 1) n) = m.read a := by
      apply BitVec.eq_of_toNat_eq
      have := (m.read a).isLt
      rw [BitVec.toNat_ofNat]
      omega
    have high : ((m.read a).toNat + 256 * m.readNat (a + 1) n) / 256 = m.readNat (a + 1) n := by
      have := (m.read a).isLt
      omega
    rw [List.range_succ_eq_map, List.map_cons, List.map_map, Memory.readNat, bytesOf, low, high, ih]
    simp only [Nat.add_zero, Function.comp_def, Nat.succ_eq_add_one, Nat.add_assoc, Nat.add_comm 1]

theorem Memory.readNat_lt (m : Memory) (a n : Nat) : m.readNat a n < 256 ^ n := by
  induction n generalizing a with
  | zero => exact Nat.one_pos
  | succ n ih =>
    have first := (m.read a).isLt
    have others := ih (a + 1)
    rw [Memory.readNat, pow_succ]
    omega

/-- Reading the word at an offset of LM is decoding the four bytes there. -/
theorem readWord_lm (m : Memory) (core off : Nat) :
    readWord (BitVec.ofNat 32 (m.readNat (lmAddr core off) 4)) = decodeBytes ((List.range 4).map fun i => m.read (lmAddr core (off + i))) := by
  have fits : m.readNat (lmAddr core off) 4 < 2 ^ 32 := Memory.readNat_lt m (lmAddr core off) 4
  have whole : (BitVec.ofNat 32 (m.readNat (lmAddr core off) 4)).toNat = m.readNat (lmAddr core off) 4 := by
    rw [BitVec.toNat_ofNat, Nat.mod_eq_of_lt fits]
  rw [readWord, whole, bytesOf_readNat]
  rfl

/-! ### The turn of a core (R15, R37) -/

/-- The state as the instruction of an issue turn meets it: the context executes, its core has noted its turn, the move has left the agenda. -/
def State.turned (s : State) (core id : Nat) (rest : List Move) : State :=
  { ({ s with agenda := rest } : State).onCore core (fun c => c.takeTurn (numberOf id)) with cur := id }

theorem Core.takeTurn_eq (k : Core) (n : Nat) : k.takeTurn n = { k with lastIssued := (k.takeTurn n).lastIssued, owed := (k.takeTurn n).owed } := by
  unfold Core.takeTurn
  split <;> rfl

section
variable {s : State} {core id : Nat} {rest : List Move} (head : s.agenda = .issue core :: rest) (main : s.mgmt.main = true)
  (turn : s.issueFrom core = some id) (own : coreOf id = core)
include head main turn own

theorem step_issue : step s = match (s.turned core id rest).boundary id with
    | .due t => .next ((s.turned core id rest).takeDue id t)
    | .returnToL => .next ((s.turned core id rest).returnFromW id)
    | .interrupt => .next ((s.turned core id rest).takeCompletion id)
    | .hold => .next (s.turned core id rest)
    | .fault t => .next ((s.turned core id rest).trap t (s.ctx id).pc (s.ctx id).pc)
    | .poisoned => .next ((s.turned core id rest).machineCheck id (s.ctx id).pc)
    | .illegal w => execIllegalInstruction w ((s.turned core id rest).keepWord id w)
    | .run w i => exec i ((s.turned core id rest).keepWord id w) := by
  have turn' : ({ s with agenda := rest } : State).issueFrom core = some id := turn
  subst own
  unfold step
  rw [head]
  dsimp only
  rw [if_pos main, State.issueCore, turn']
  rfl

/-- A trap that is due comes before the instruction (log 54). -/
theorem step_issue_due {x : DueTrap} (h : (s.turned core id rest).boundary id = .due x) : step s = .next ((s.turned core id rest).takeDue id x) := by
  rw [step_issue head main turn own, h]

theorem step_issue_run {w : IWord} {i : Instr} (h : (s.turned core id rest).boundary id = .run w i) :
    step s = exec i ((s.turned core id rest).keepWord id w) := by
  rw [step_issue head main turn own, h]

theorem step_issue_illegal {w : IWord} (h : (s.turned core id rest).boundary id = .illegal w) :
    step s = exec (.illegalInstruction w) ((s.turned core id rest).keepWord id w) := by
  rw [step_issue head main turn own, h]
  rfl

end

/-! ### The word at PC (R42, R116) -/

theorem State.core_turned (s : State) (core id : Nat) (rest : List Move) : (s.turned core id rest).core core = (s.core core).takeTurn (numberOf id) :=
  State.core_setCore_self ..

/-- The core's note of its turn leaves its fetch buffer and its cache's size alone. -/
theorem State.fetch_turned (s : State) (core id : Nat) (rest : List Move) : ((s.turned core id rest).core core).fetch = (s.core core).fetch := by
  rw [State.core_turned, Core.takeTurn_eq]

theorem State.scratchEnd_turned (s : State) (core id : Nat) (rest : List Move) :
    ((s.turned core id rest).core core).scratchEnd = (s.core core).scratchEnd := by
  rw [State.core_turned, Core.takeTurn_eq]
  rfl

section
variable {s : State} {core id off : Nat} {rest : List Move} (own : coreOf id = core) (home : s.homeOf id = core)
  (place : placeOf core (s.ctx id).pc = .lm core off) (enabled : s.enabled core = true) (fits : off < (s.core core).scratchEnd)
include own home place enabled fits

theorem State.fetchTarget_turned : (s.turned core id rest).fetchTarget id = .ok (core, off) := by
  have fate : (s.turned core id rest).lmFate (s.ctx id).partNo core core .load core off = .lm core off := by
    rw [State.lmFate_home (show (s.turned core id rest).enabled core = true from enabled) rfl, s.scratchEnd_turned, if_neg (by omega)]
  unfold State.fetchTarget
  dsimp only
  rw [show (s.turned core id rest).homeOf id = core from home, show (s.turned core id rest).ctx id = s.ctx id from rfl, place, own]
  dsimp only
  rw [fate]

/-- A word that the fetch buffer holds runs in memory's place (log 28). -/
theorem State.fetchWord_kept {x : Nat × IWord} (kept : (s.core core).fetch.find? (fun x => x.1 == off) = some x) :
    (s.turned core id rest).fetchWord id = .word x.2 := by
  unfold State.fetchWord
  rw [State.fetchTarget_turned own home place enabled fits]
  dsimp only
  rw [own, if_pos rfl, s.fetch_turned, kept]

theorem State.fetchWord_memory (new : (s.core core).fetch.find? (fun x => x.1 == off) = none) (pure : s.poisoned (lmAddr core off) 4 = false) :
    (s.turned core id rest).fetchWord id = .word (BitVec.ofNat 32 (s.mem.readNat (lmAddr core off) 4)) := by
  unfold State.fetchWord
  rw [State.fetchTarget_turned own home place enabled fits]
  dsimp only
  rw [own, if_pos rfl, s.fetch_turned, new]
  dsimp only
  exact if_neg (Bool.eq_false_iff.1 pure)

/-! ### The fetch buffer (R116, log 28) -/

/-- The state as the instruction of an issue turn meets it, with its core's fetch buffer. -/
structure State.Turned (s : State) (core id : Nat) (rest : List Move) (fetch : List (Nat × IWord)) (t : State) : Prop where
  cur : t.cur = id
  agenda : t.agenda = rest
  own : t.core core = { (s.core core).takeTurn (numberOf id) with fetch := fetch }
  others : ∀ i, i ≠ core → t.core i = s.core i
  same : { t with cur := s.cur, agenda := s.agenda, cores := s.cores } = s

omit own home place enabled fits in
theorem State.turned_turned : s.Turned core id rest (s.core core).fetch (s.turned core id rest) := by
  refine ⟨rfl, rfl, ?_, fun i hi => State.core_setCore_ne _ hi _, rfl⟩
  rw [State.core_turned, Core.takeTurn_eq]

theorem State.keepWord_kept {x : Nat × IWord} (kept : (s.core core).fetch.find? (fun x => x.1 == off) = some x) (w : IWord) :
    s.Turned core id rest (s.core core).fetch ((s.turned core id rest).keepWord id w) := by
  have held : ((s.turned core id rest).core core).fetch.any (fun x => x.1 == off) = true := by
    rw [s.fetch_turned, List.any_eq_true]
    exact ⟨x, List.mem_of_find?_eq_some kept, List.find?_some (p := fun x : Nat × IWord => x.1 == off) kept⟩
  obtain ⟨-, -, core', cores, -⟩ := State.turned_turned (s := s) (core := core) (id := id) (rest := rest)
  have same : (s.turned core id rest).keepWord id w = (s.turned core id rest).setCore core ((s.turned core id rest).core core) := by
    unfold State.keepWord
    rw [State.fetchTarget_turned own home place enabled fits]
    dsimp only
    rw [if_pos own.symm, State.onCore_eq, if_pos held]
  rw [same]
  exact ⟨rfl, rfl, (State.core_setCore_self ..).trans core', fun i hi => (State.core_setCore_ne _ hi _).trans (cores i hi), rfl⟩

theorem State.keepWord_new (new : (s.core core).fetch.find? (fun x => x.1 == off) = none) (w : IWord) :
    s.Turned core id rest (((s.core core).fetch ++ [(off, w)]).drop ((s.core core).fetch.length + 1 - 64)) ((s.turned core id rest).keepWord id w) := by
  have absent : ((s.turned core id rest).core core).fetch.any (fun x => x.1 == off) = false := by
    rw [s.fetch_turned, List.any_eq_false]
    exact fun x hx => List.find?_eq_none.1 new x hx
  obtain ⟨-, -, core', cores, -⟩ := State.turned_turned (s := s) (core := core) (id := id) (rest := rest)
  have noted : (s.turned core id rest).keepWord id w = (s.turned core id rest).setCore core { (s.turned core id rest).core core with
      fetch := (((s.core core).fetch ++ [(off, w)]).drop ((s.core core).fetch.length + 1 - 64)) } := by
    unfold State.keepWord
    rw [State.fetchTarget_turned own home place enabled fits]
    dsimp only
    rw [if_pos own.symm, State.onCore_eq, if_neg (Bool.eq_false_iff.1 absent), s.fetch_turned]
  rw [noted]
  refine ⟨rfl, rfl, (State.core_setCore_self ..).trans ?_, fun i hi => (State.core_setCore_ne _ hi _).trans (cores i hi), rfl⟩
  rw [core']

end

/-! ### The boundary before the instruction (R15, R37, log 54) -/

section
variable {s : State} {core id : Nat} {rest : List Move}

theorem State.boundary_due {x : DueTrap} (due : (s.ctx id).due = some x) (pend : (s.ctx id).pend = []) (answered : s.answersOut id = false) :
    (s.turned core id rest).boundary id = .due x := by
  unfold State.boundary
  rw [show (s.turned core id rest).ctx id = s.ctx id from rfl, due, pend, show (s.turned core id rest).answersOut id = false from answered]
  rfl

variable (own : coreOf id = core) (due : (s.ctx id).due = none) (staying : (s.ctx id).migrated = false) (quiet : (s.ctx id).comps = [])
  (nondet : s.isDet (s.ctx id).partNo = false) {w : IWord} (word : (s.turned core id rest).fetchWord id = .word w)
include own due staying quiet nondet word

/-- Where nothing is to happen before the instruction, the word at PC decides. -/
theorem State.boundary_word : (s.turned core id rest).boundary id = match readWord w with
    | none => .illegal w
    | some i => if (s.ctx id).blocked i || decide (32 ≤ s.scoreboard core) then .hold else .run w i := by
  have uninterrupted : (s.ctx id).takesCompletion = false := by rw [Ctx.takesCompletion, quiet]; simp
  have free : (s.turned core id rest).detHeld id = false := by
    unfold State.detHeld
    rw [show (s.turned core id rest).isDet ((s.turned core id rest).ctx id).partNo = false from nondet]
    rfl
  unfold State.boundary State.nextBoundary
  dsimp only
  rw [show (s.turned core id rest).ctx id = s.ctx id from rfl, due, staying, uninterrupted, free, own, word]
  rfl

theorem State.boundary_illegal (unread : readWord w = none) : (s.turned core id rest).boundary id = .illegal w := by
  rw [State.boundary_word own due staying quiet nondet word, unread]

theorem State.boundary_run {i : Instr} (read : readWord w = some i) (ready : (s.ctx id).blocked i = false) (room : s.scoreboard core < 32) :
    (s.turned core id rest).boundary id = .run w i := by
  rw [State.boundary_word own due staying quiet nondet word, read]
  exact if_neg (by simp [ready, room])

end

/-! ### Time (R35, R321) -/

/-- What one die's state, and what a launch and a core note, leave alone: memory, the agenda and the clock of the master. -/
structure State.Timeless (s t : State) : Prop where
  mem : t.mem = s.mem
  agenda : t.agenda = s.agenda
  gtr : t.gtr = s.gtr
  slew : t.mgmt.slew = s.mgmt.slew

namespace State.Timeless
variable {s t u : State}

theorem refl (s : State) : s.Timeless s := ⟨rfl, rfl, rfl, rfl⟩
theorem trans (h : s.Timeless t) (h' : t.Timeless u) : s.Timeless u :=
  ⟨h'.mem.trans h.mem, h'.agenda.trans h.agenda, h'.gtr.trans h.gtr, h'.slew.trans h.slew⟩

theorem foldl {α : Type} {f : State → α → State} (l : List α) (hf : ∀ (t : State), ∀ a ∈ l, t.Timeless (f t a)) (s : State) : s.Timeless (l.foldl f s) :=
  List.foldlRecOn l f (refl s) fun t ht a ha => ht.trans (hf t a ha)

theorem onPart (s : State) (p : Nat) (f : Part → Part) : s.Timeless (s.onPart p f) := by
  unfold State.onPart
  split
  · exact ⟨rfl, rfl, rfl, rfl⟩
  · exact refl s

theorem noteHot (s : State) : s.Timeless s.noteHot := by
  refine foldl _ (fun t a _ => ?_) s
  split
  · exact refl t
  · exact ⟨rfl, rfl, rfl, rfl⟩

theorem noteWaits (s : State) : s.Timeless s.noteWaits := by
  have noted : s.Timeless (s.noteLaunches (s.gtrOf sDie)) := foldl _ (fun t _ _ => foldl _ (fun u _ _ => onPart u ..) t) s
  exact noted.trans ⟨rfl, rfl, rfl, rfl⟩

end State.Timeless

/-- A master with nothing to slew moves with time (R35). -/
theorem State.masterMoves_none {s : State} (h : s.mgmt.slew = 0) (n : Nat) : (s.masterMoves n).1 = 0 := by
  have still : (slewed s.mgmt.slew s.mgmt.slewTime n).1 = 0 := by
    rw [h]
    simp [slewed]
  unfold State.masterMoves
  dsimp only
  rw [still]
  omega

theorem State.agenda_pass (s : State) (n : Nat) : (s.pass n).agenda = s.agenda := rfl
theorem State.mem_pass (s : State) (n : Nat) : (s.pass n).mem = s.mem := rfl

theorem State.gtr_pass {s : State} (h : s.mgmt.slew = 0) (n : Nat) : (s.pass n).gtr = s.gtr + n := by
  have moved : (s.pass n).gtr = (((s.gtr + n : Nat) : Int) + (s.masterMoves n).1).toNat := rfl
  rw [moved, State.masterMoves_none h, Int.add_zero, Int.toNat_natCast]

/-- Time passing leaves memory and the agenda, and moves GTR by what passes where nothing is to be slewed (R35). -/
theorem State.elapse_passes (s : State) (n : Nat) : (s.elapse n).agenda = s.agenda ∧ (s.elapse n).mem = s.mem ∧
    (s.mgmt.isobar = false → (s.elapse n).cores = s.cores) ∧ (s.mgmt.slew = 0 → (s.elapse n).gtr = s.gtr + n) := by
  unfold State.elapse
  split
  · rename_i isobar
    have before := (State.Timeless.noteHot s).trans (State.Timeless.noteWaits _)
    have after := State.Timeless.noteHot (s.noteHot.noteWaits.pass n)
    refine ⟨after.agenda.trans ((State.agenda_pass ..).trans before.agenda), after.mem.trans ((State.mem_pass ..).trans before.mem), fun off => absurd isobar (by simp [off]), fun h => ?_⟩
    rw [after.gtr, State.gtr_pass (before.slew.trans h), before.gtr]
  · exact ⟨rfl, rfl, fun _ => rfl, fun h => State.gtr_pass h n⟩

/-- Settles O54: an issue turn by what stands at its boundary, and every other move by the step's own case. -/
theorem stepRunsTheDecodedInstruction : Obligations.StepRunsTheDecodedInstruction := by
  refine ⟨?_, fun s e rest head event => ?_, fun s n rest head => ?_, fun s core rest head main => ?_, fun s core rest head off => ?_, fun s u c rest head => ?_,
    fun s fn rest head => ?_⟩
  · intro s core id off rest k bytes word ready head main turn own home place enabled fits staying quiet nondet
    have finish {fetch : List (Nat × IWord)} {t : State} (h : s.Turned core id rest fetch t) : ready fetch t := ⟨h.cur, h.agenda, h.own, h.others, h.same⟩
    refine ⟨fun x due pend answered => ?_, fun due room => ⟨fun absent pure => ?_, fun w i kept read unblocked => ?_⟩⟩
    · exact ⟨_, step_issue_due head main turn own (State.boundary_due due pend answered), finish State.turned_turned⟩
    · have new : k.fetch.find? (fun x => x.1 == off) = none := List.find?_eq_none.2 fun x hx => by simpa using absent x hx
      have fetched := State.fetchWord_memory (rest := rest) own home place enabled fits new pure
      have kept := finish (State.keepWord_new (rest := rest) own home place enabled fits new word)
      have same : readWord word = decodeBytes bytes := readWord_lm s.mem core off
      exact ⟨fun i read unblocked => ⟨_, step_issue_run head main turn own
          (State.boundary_run own due staying quiet nondet fetched (same.trans read) unblocked room), kept⟩,
        fun unread => ⟨_, step_issue_illegal head main turn own (State.boundary_illegal own due staying quiet nondet fetched (same.trans unread)), kept⟩⟩
    · have fetched := State.fetchWord_kept (rest := rest) own home place enabled fits kept
      exact ⟨_, step_issue_run head main turn own (State.boundary_run own due staying quiet nondet fetched read unblocked room),
        finish (State.keepWord_kept own home place enabled fits kept w)⟩
  · rw [step, head]
    exact if_neg (by simp [event])
  · obtain ⟨agenda, mem, cores, gtr⟩ := ({ s with agenda := rest } : State).elapse_passes n
    exact ⟨_, by rw [step, head], agenda, mem, cores, fun still _ => gtr still⟩
  · rw [step, head]
    exact if_pos main
  · rw [step, head]
    exact if_neg (by simp [off])
  · rw [step, head]
  · rw [step, head]

end Sys2Proof.Machine


/-!
PROOFS. Where a bounce record finds its sender waiting for the bounce ring (R171, R216): the record also wakes the sender.
-/
namespace Sys2Proof.Machine

/-- The thread of context 0 has sent a message and waits with RWAIT for one record in ring 0 of its core, which is its bounce ring, empty, with one slot of 128 bytes;
the message's refusal is on its way. -/
def awaitingBounce : State :=
  { State.reset with
    ctxs := [(0, { st := .waiting, wait := .rwait 0 1 5, cr := { bounceq := 8 } })]
    cores := [(0, { rings := [(0, 0x40000400)] })]
    net := { flights := [{ kind := .msgAnswer { kind := 0, dest := 1, target := 0, payload := 0, tid := 0, lclk := 0, domain := 0, launch := none, part := 0 } 3 1 none
                           ctx := 0, uid := 0, part := 0, domain := 0, launch := none }] } }

/-- The record fills the ring, so the sender wakes with the count in g5, beside the status in g3. -/
theorem bounce_wakes_sender : (match exec (.messageAnswer 0) awaitingBounce with
    | .next t => ((t.ctx 0).rdG 5, (t.ctx 0).rdG 3)
    | _ => (0, 0)) = (1, 1) := by decide +kernel

/-- Refutes O38: a sender that waits for its bounce ring takes the ring's count as well as the status when the bounce record is written. -/
theorem not_messagesAndHandlers : ¬ Obligations.MessagesAndHandlers := by
  unfold Obligations.MessagesAndHandlers
  intro h
  obtain ⟨-, -, answers, -⟩ := h
  obtain ⟨-, -, bounced⟩ := answers awaitingBounce 0 _ _ 3 1 ⟨rfl, rfl⟩ (by decide +kernel) (by decide +kernel)
  obtain ⟨t, run, status, -⟩ := bounced rfl (by decide +kernel) (by decide +kernel)
  have woken := bounce_wakes_sender
  rw [run] at woken
  have count : (t.ctx 0).rdG 5 = 1 := congrArg Prod.fst woken
  have kept : (t.ctx 0).rdG 5 = 0 := (status 5).trans (by decide +kernel)
  rw [kept] at count
  exact absurd count (by decide)

end Sys2Proof.Machine


/-!
PROOFS. What sending, waking and writing a version change of the state (R100, R115, R144, R199, R362), each said once.
-/
namespace Sys2Proof.Machine

/-! ### Sending (R115, R362) -/

/-- The state with another network. -/
def State.withNet (s : State) (net : Net) : State := { s with net := net }

/-- Which incarnation a flight gets hangs on the network only for an answer to a push, whose home gathers answers (R145, R362). -/
theorem State.stamped_withNet (s : State) (net : Net) {f : Flight} (h : ∀ g c b, f.kind ≠ .pushAnswer g c b) : (s.withNet net).stamped f = s.stamped f := by
  have lane : (s.withNet net).laneOf f = s.laneOf f := by
    unfold State.laneOf
    cases k : f.kind with
    | pushAnswer g c b => exact absurd k (h g c b)
    | _ => rfl
  unfold State.stamped
  rw [lane]
  rfl

/-- The state after a flight is sent, if there is one. -/
def State.sendSome (s : State) (f : Option Flight) : State :=
  match f with
  | some f => s.sendFlight f
  | none => s

/-- Flights sent one after another, where what is sent does not hang on those sent before. -/
theorem State.foldl_sendSome {α : Type} (s : State) (F : State → α → Option Flight) (alone : ∀ net x, F (s.withNet net) x = F s x)
    (place : ∀ net x f, F s x = some f → (s.withNet net).stamped f = s.stamped f) (l : List α) :
    l.foldl (fun t x => t.sendSome (F t x)) s = s.withNet { s.net with flights := s.net.flights ++ l.filterMap fun x => (F s x).map s.stamped } := by
  suffices h : ∀ net, l.foldl (fun t x => t.sendSome (F t x)) (s.withNet net) =
      s.withNet { net with flights := net.flights ++ l.filterMap fun x => (F s x).map s.stamped } from h s.net
  induction l with
  | nil => intro net; simp
  | cons x l ih =>
    intro net
    rw [List.foldl_cons, alone]
    cases sent : F s x with
    | none =>
      refine (ih net).trans ?_
      simp [sent]
    | some f =>
      have one : (s.withNet net).sendSome (some f) = s.withNet { net with flights := net.flights ++ [s.stamped f] } := by
        have e := place net x f sent
        exact congrArg (fun g => s.withNet { net with flights := net.flights ++ [g] }) e
      rw [one, ih]
      simp [sent]

/-! ### Waking (R199) -/

/-- A wake as it is sent. -/
def State.wakeOf (s : State) (p : Nat) (key : Key) (v : Word) (w : Stamp) (port : Port) (u : Bool) : Flight :=
  { kind := .wake key v w port u, ctx := 0, uid := 0, part := p, domain := 0, launch := none, sentAt := s.gtr }

theorem State.stamped_kind (s : State) (f : Flight) : (s.stamped f).kind = f.kind := by
  obtain ⟨_, e⟩ := s.stamped_keeps f
  rw [e]

theorem State.stamped_part (s : State) (f : Flight) : (s.stamped f).part = f.part := by
  obtain ⟨_, e⟩ := s.stamped_keeps f
  rw [e]

/-- Whether a write of `n` bytes at `a`, from one state to another, wakes what is recorded. -/
def WaitRec.wokenBy (r : WaitRec) (before after : State) (sl p a n : Nat) : Bool :=
  r.slice == sl && r.part == p && match r.key with
    | .word k => overlaps k 8 a n && before.wordAt k != after.wordAt k
    | .page _ => false

/-- The wake of a recorded word. -/
def State.wordWake (s : State) (sl p : Nat) (w : Stamp) (r : WaitRec) : Option Flight :=
  match r.key with
  | .word k => some (s.wakeOf p r.key (s.wordAt k) w (elevatorPort sl) false)
  | .page _ => none

theorem State.wakeChanged_eq (before s : State) (sl p a n : Nat) (w : Stamp) : before.wakeChanged s sl p a n w =
    s.withNet { s.net with
      waits := s.net.waits.filter fun r => !(r.wokenBy before s sl p a n)
      flights := s.net.flights ++ (s.net.waits.filter fun r => r.wokenBy before s sl p a n).filterMap fun r => (s.wordWake sl p w r).map s.stamped } := by
  have sends : (fun (t : State) (r : WaitRec) => match r.key with
      | .word k => t.sendWake p r.key (t.wordAt k) w (elevatorPort sl) false
      | .page _ => t) = fun t r => t.sendSome (t.wordWake sl p w r) := by
    funext t r
    unfold State.wordWake
    cases r.key <;> rfl
  refine Eq.trans ?_ (State.foldl_sendSome (s.withNet { s.net with waits := s.net.waits.filter fun r => !(r.wokenBy before s sl p a n) })
    (fun t r => t.wordWake sl p w r) (fun _ _ => rfl) (fun net r f hf => ?_) (s.net.waits.filter fun r => r.wokenBy before s sl p a n))
  · rw [← sends]
    rfl
  · refine State.stamped_withNet _ net fun g c b => ?_
    unfold State.wordWake at hf
    split at hf
    · cases hf
      exact FKind.noConfusion
    · cases hf

/-! ### A new version (R100, R122) -/

/-- Bytes have been written, and what a home keeps beside them has changed: stamps, poison and host lines. -/
def State.Versioned (s : State) (a n v : Nat) (t : State) : Prop :=
  ∃ po re ms me mp li, t = { s with
    mem := s.mem.writeNat a n v, poison := po, net := { s.net with recs := re, mstamps := ms, mexpiry := me, mparties := mp }, host := { s.host with lines := li } }

/-- A new version is bytes and stamps, a host line that is written, and the wakes that they cause. -/
theorem State.makeVersion_eq (s : State) (sl : Nat) (host : Option Nat) (p a n v : Nat) (w : Stamp) (x : SecRec) :
    ∃ t, s.Versioned a n v t ∧ t.sector sl p a = newVersion w x ∧ s.makeVersion sl host p a n v w x = s.wakeChanged t sl p a n w := by
  obtain ⟨re, ms, me, mp, e⟩ := (s.writeMem a n v).setSector_frame sl p a (newVersion w x)
  have stamps := (s.writeMem a n v).sector_setSector sl p a (newVersion w x)
  unfold State.makeVersion
  generalize (s.writeMem a n v).setSector sl p a (newVersion w x) = u at e stamps ⊢
  have plain : s.Versioned a n v u := ⟨_, re, ms, me, mp, s.host.lines, e⟩
  cases host with
  | none => exact ⟨u, plain, stamps, rfl⟩
  | some hpa =>
    dsimp only
    cases line : u.hostLine? hpa p with
    | none => exact ⟨u, plain, stamps, rfl⟩
    | some l =>
      refine ⟨u.setHostLine { l with mesi := .m }, ⟨(s.writeMem a n v).poison, re, ms, me, mp, (u.setHostLine { l with mesi := .m }).host.lines, ?_⟩, stamps, rfl⟩
      subst e
      rfl

/-! ### Copies of a pushed version (R144, R146) -/

/-- Whether a flight is neither a store nor an atomic: it cannot wait at a home for a page. -/
def Flight.Unparked (g : Flight) : Prop := (∀ q, g.kind ≠ .store q) ∧ ∀ q, g.kind ≠ .atomic q

/-- What a push store adds at its home after it has performed: flights, and the copies' interval in the sector's stamps. -/
structure State.Pushed (s : State) (f : Flight) (q : StoreReq) (sl : Nat) (host : Option Nat) (v : SecCopy) (top : Stamp) (t : State) : Prop where
  net : t = s.withNet t.net
  waits : t.net.waits = s.net.waits
  flights : ∃ ps, t.net.flights = s.net.flights ++ ps ∧ ∀ g ∈ ps, g.Unparked
  sector : t.sector sl f.part q.addr = if q.pushes host = true ∧ s.mayGrant sl top = true then
    { s.sector sl f.part q.addr with rts := maxStamp (s.sector sl f.part q.addr).rts top } else s.sector sl f.part q.addr
  pushed : q.pushes host = true → s.mayGrant sl top = true → ∀ k ∈ psetCores q.pset, s.enabled k = true → ∃ g,
    s.stamped { f with kind := .push (lineOf q.addr) (sectorNo q.addr) { v with rts := top } k g, sentAt := s.gtr } ∈ t.net.flights
  delayed : q.pushes host = true → s.mayGrant sl top = false → s.stamped { f with kind := .pushDue q v top, sentAt := s.gtr } ∈ t.net.flights
  skips : q.push = true → q.pushes host = false → s.stamped { f with kind := .pushAck q.addr 0 0 true, sentAt := s.gtr } ∈ t.net.flights

theorem State.unparked_stamped {s : State} {g : Flight} (h : g.Unparked) : (s.stamped g).Unparked := by
  unfold Flight.Unparked at *
  rwa [s.stamped_kind]

/-- Copies go to every core of the set that is enabled, and what they are answered is gathered. -/
theorem State.pushCopies_eq (s : State) (f : Flight) (q : StoreReq) (sl : Nat) (v : SecCopy) : ∃ (ga : List Gather) (nx : Nat) (ps : List Flight),
    s.pushCopies f q sl v = s.withNet { s.net with gathers := ga, nextGather := nx, flights := s.net.flights ++ ps } ∧ (∀ g ∈ ps, g.Unparked) ∧
    ∀ k ∈ psetCores q.pset, s.enabled k = true → ∃ g, s.stamped { f with kind := .push (lineOf q.addr) (sectorNo q.addr) v k g, sentAt := s.gtr } ∈ ps := by
  unfold State.pushCopies
  extract_lets cores live g src u
  split
  · rename_i none
    refine ⟨s.net.gathers, s.net.nextGather, [s.stamped { f with kind := .pushAck q.addr 0 cores.length false, sentAt := s.gtr }], rfl, fun h hh => ?_, fun k hk enabled => ?_⟩
    · rw [List.mem_singleton.1 hh]
      exact State.unparked_stamped ⟨fun _ => FKind.noConfusion, fun _ => FKind.noConfusion⟩
    · have : k ∈ live := List.mem_filter.2 ⟨hk, enabled⟩
      rw [none] at this
      cases this
  · have sent := State.foldl_sendSome u (fun t k => some { f with kind := .push (lineOf q.addr) (sectorNo q.addr) v k g, sentAt := t.gtr }) (fun _ _ => rfl)
      (fun net k h hh => State.stamped_withNet _ _ fun _ _ _ => by cases hh; exact FKind.noConfusion) live
    refine ⟨u.net.gathers, u.net.nextGather, _, sent, fun h hh => ?_, fun k hk enabled => ⟨g, ?_⟩⟩
    · obtain ⟨k, -, hk⟩ := List.mem_filterMap.1 hh
      cases hk
      exact State.unparked_stamped ⟨fun _ => FKind.noConfusion, fun _ => FKind.noConfusion⟩
    · exact List.mem_filterMap.2 ⟨k, List.mem_filter.2 ⟨hk, enabled⟩, rfl⟩

/-- Noting a stamp that is to be published changes nothing else (R134). -/
theorem State.wantStamp_eq (s : State) (sl : Nat) (v : Stamp) : ∃ wa, s.wantStamp sl v = s.withNet { s.net with wanted := wa } := by
  unfold State.wantStamp
  split
  · exact ⟨s.net.wanted, rfl⟩
  · exact ⟨_, rfl⟩

theorem State.raiseRts_eq (s : State) (sl p a : Nat) (top : Stamp) :
    (∃ re ms me mp, s.raiseRts sl p a top = s.withNet { s.net with recs := re, mstamps := ms, mexpiry := me, mparties := mp }) ∧
      (s.raiseRts sl p a top).sector sl p a = { s.sector sl p a with rts := maxStamp (s.sector sl p a).rts top } :=
  ⟨s.setSector_frame .., s.sector_setSector ..⟩

theorem State.stamped_unparked (s : State) {g : Flight} (hg : g.Unparked) : ∀ h ∈ [s.stamped g], h.Unparked := by
  intro h hh
  rw [List.mem_singleton.1 hh]
  exact State.unparked_stamped hg

section
variable {s : State} {f : Flight} {q : StoreReq} (sl : Nat) {host : Option Nat} (v : SecCopy) {top : Stamp}

/-- Once PUB allows the end of their interval, copies go out and the sector's rts covers it. -/
theorem State.pushAfter_granted (nondet : s.isDet f.part = false) (push : q.push = true) (sends : q.pushes host = true) (grant : s.mayGrant sl top = true) :
    s.Pushed f q sl host v top (s.pushAfter f q sl host v top) := by
  obtain ⟨⟨re, ms, me, mp, raised⟩, sector⟩ := s.raiseRts_eq sl f.part q.addr top
  obtain ⟨ga, nx, ps, copies, unparked, sent⟩ := (s.raiseRts sl f.part q.addr top).pushCopies_eq f q sl { v with rts := top }
  have e : s.pushAfter f q sl host v top = (s.raiseRts sl f.part q.addr top).pushCopies f q sl { v with rts := top } := by
    unfold State.pushAfter
    rw [if_neg (by simp [push]), if_neg (by simp [sends]), if_neg (by simp [nondet]), if_pos grant]
  rw [e, copies]
  refine ⟨by rw [raised]; rfl, by rw [raised]; rfl, ⟨ps, by rw [raised]; rfl, unparked⟩, ?_, fun _ _ k hk enabled => ?_, fun _ h => ?_, fun _ h => ?_⟩
  · rw [if_pos ⟨sends, grant⟩]
    exact sector
  · obtain ⟨g, hg⟩ := sent k hk (by rw [raised]; exact enabled)
    rw [raised, State.stamped_withNet _ _ fun _ _ _ => FKind.noConfusion] at hg
    exact ⟨g, List.mem_append_right _ hg⟩
  · rw [grant] at h
    cases h
  · rw [sends] at h
    cases h

/-- Until PUB allows it, the copies wait. -/
theorem State.pushAfter_delayed (nondet : s.isDet f.part = false) (push : q.push = true) (sends : q.pushes host = true) (early : ¬s.mayGrant sl top = true) :
    s.Pushed f q sl host v top (s.pushAfter f q sl host v top) := by
  obtain ⟨wa, noted⟩ := s.wantStamp_eq sl top
  have e : s.pushAfter f q sl host v top = (s.wantStamp sl top).sendFlight { f with kind := .pushDue q v top, sentAt := s.gtr } := by
    unfold State.pushAfter
    rw [if_neg (by simp [push]), if_neg (by simp [sends]), if_neg (by simp [nondet]), if_neg early]
  have flight : (s.wantStamp sl top).stamped { f with kind := .pushDue q v top, sentAt := s.gtr } = s.stamped { f with kind := .pushDue q v top, sentAt := s.gtr } := by
    rw [noted]
    exact State.stamped_withNet _ _ fun _ _ _ => FKind.noConfusion
  rw [e]
  refine ⟨by rw [noted]; rfl, by rw [noted]; rfl, ⟨[s.stamped { f with kind := .pushDue q v top, sentAt := s.gtr }], ?_, ?_⟩, ?_, fun _ h => absurd h early, fun _ _ => ?_, fun _ h => ?_⟩
  · rw [← flight, noted]
    rfl
  · exact s.stamped_unparked ⟨fun _ => FKind.noConfusion, fun _ => FKind.noConfusion⟩
  · rw [if_neg fun h => early h.2, noted]
    rfl
  · rw [← flight, noted]
    exact List.mem_append_right _ (List.mem_singleton_self _)
  · rw [sends] at h
    cases h

/-- A push store without a good PSET is skipped, and its thread learns it (R146). -/
theorem State.pushAfter_skipped (push : q.push = true) (skips : ¬q.pushes host = true) : s.Pushed f q sl host v top (s.pushAfter f q sl host v top) := by
  have e : s.pushAfter f q sl host v top = s.sendPushAck f q.addr 0 0 true := by
    unfold State.pushAfter
    rw [if_neg (by simp [push]), if_pos (by simp [skips])]
  rw [e]
  exact ⟨rfl, rfl, ⟨_, rfl, s.stamped_unparked ⟨fun _ => FKind.noConfusion, fun _ => FKind.noConfusion⟩⟩, (if_neg fun h => skips h.1).symm, fun h => absurd h skips,
    fun h => absurd h skips, fun _ _ => List.mem_append_right _ (List.mem_singleton_self _)⟩

/-- A store that is no push store adds nothing. -/
theorem State.pushAfter_plain (plain : ¬q.push = true) : s.Pushed f q sl host v top (s.pushAfter f q sl host v top) := by
  have sends : ¬q.pushes host = true := by
    unfold StoreReq.pushes
    simp [plain]
  have e : s.pushAfter f q sl host v top = s := by
    unfold State.pushAfter
    exact if_pos (by simp [plain])
  rw [e]
  exact ⟨rfl, rfl, ⟨[], (List.append_nil _).symm, fun _ h => absurd h (List.not_mem_nil)⟩, (if_neg fun h => sends h.1).symm, fun h => absurd h sends, fun h => absurd h sends,
    fun h => absurd h plain⟩

end

/-- The home's part of a push store that has performed (R144), outside deterministic partitions. -/
theorem State.pushAfter_pushes {s : State} {f : Flight} (nondet : s.isDet f.part = false) (q : StoreReq) (sl : Nat) (host : Option Nat) (v : SecCopy) (top : Stamp) :
    s.Pushed f q sl host v top (s.pushAfter f q sl host v top) := by
  by_cases push : q.push = true
  · by_cases sends : q.pushes host = true
    · by_cases grant : s.mayGrant sl top = true
      · exact State.pushAfter_granted sl v nondet push sends grant
      · exact State.pushAfter_delayed sl v nondet push sends grant
    · exact State.pushAfter_skipped sl v push sends
  · exact State.pushAfter_plain sl v push

end Sys2Proof.Machine


/-!
PROOFS. A store performs at its home (R100, R144, R199): everything that it leaves.
-/
namespace Sys2Proof.Machine

theorem State.recordRelease_eq (s : State) (f : Flight) (rel : Bool) : ∃ cs, s.recordRelease f rel = { s with ctxs := cs } ∧
    (∀ id, id ≠ f.ctx ∨ rel = false → (s.recordRelease f rel).ctx id = s.ctx id) ∧
    ∀ id, ((s.recordRelease f rel).ctx id).g = (s.ctx id).g ∧ ((s.recordRelease f rel).ctx id).f = (s.ctx id).f ∧
      ((s.recordRelease f rel).ctx id).v = (s.ctx id).v ∧ ((s.recordRelease f rel).ctx id).pc = (s.ctx id).pc := by
  unfold State.recordRelease
  split
  · rename_i records
    refine ⟨_, rfl, fun id hid => ?_, fun id => ?_⟩
    · have other : id ≠ f.ctx := hid.resolve_right fun no => by simp [no] at records
      exact s.ctx_setCtx_ne other _
    · rw [State.onCtx_eq, State.ctx_setCtx]
      split
      · rename_i e
        rw [e]
        unfold Ctx.recordPushes
        exact ⟨rfl, rfl, rfl, rfl⟩
      · exact ⟨rfl, rfl, rfl, rfl⟩
  · exact ⟨s.ctxs, rfl, fun _ _ => rfl, fun _ => ⟨rfl, rfl, rfl, rfl⟩⟩

theorem State.carryPoison_eq (s : State) (a : Nat) (p : BitVec 2) : ∃ po, s.carryPoison a p = { s with poison := po } := by
  unfold State.carryPoison
  dsimp only
  split <;> split <;> exact ⟨_, rfl⟩

/-- A store that meets nothing at its home, step by step (R100). -/
theorem State.storeReady_eq {s : State} {f : Flight} (nondet : s.isDet f.part = false) (n : Nat) (q : StoreReq) {sl : Nat} {host : Option Nat} {w : Stamp}
    (stamp : w = writeStamp (s.writeClock f q.rel q.l) (s.sector sl f.part q.addr)) (leased : s.leased sl host f.part q.attr (s.sector sl f.part q.addr) = false)
    (horizon : later w (s.horizon f.part (homeDie sl host)) = false) (pub : s.mayGrant sl w = true) :
    let B := ((s.recordRelease f q.rel).makeVersion sl host f.part q.addr q.size q.data.toNat w (s.sector sl f.part q.addr)).carryPoison q.addr f.poison
    let v := B.version f.part q.addr host (newVersion w (s.sector sl f.part q.addr)) none
    s.storeReady n f q sl host = ((B.keepAnswer sl f (.storeAck q v)).answer n f (.storeAck q v)).pushAfter f q sl host v
      (minStamp (w + 64) (s.horizon f.part (homeDie sl host))) := by
  intro B v
  have unchecked : s.detWho f = none := by
    unfold State.detWho
    rw [nondet]
    rfl
  have performs : s.storeAt n f q sl host (s.sector sl f.part q.addr) = .ok (((B.keepAnswer sl f (.storeAck q v)).answer n f (.storeAck q v)).pushAfter f q sl host v
      (minStamp (w + 64) (s.horizon f.part (homeDie sl host)))) := by
    unfold State.storeAt
    dsimp only
    rw [← stamp, if_neg (Bool.eq_false_iff.1 leased), if_neg (Bool.eq_false_iff.1 horizon), if_neg (by simp [pub])]
  unfold State.storeReady
  rw [unchecked]
  dsimp only
  rw [performs]

/-- What a store that performs leaves beside what the statements say: no new flight can wait for a page, no wait for a page is woken, and translations and fault
records stand. -/
structure State.LeavesPages (s : State) (n : Nat) (t : State) : Prop where
  flights : ∀ g ∈ t.net.flights, g ∈ s.net.flights.eraseIdx n ∨ g.Unparked
  waits : ∀ r ∈ s.net.waits, ∀ page, r.key = .page page → r ∈ t.net.waits

/-- The state in which a store's answer is made: it has been written, poison and wakes with it (R100, R199, R357). -/
structure State.Written (s : State) (f : Flight) (q : StoreReq) (sl : Nat) (w : Stamp) (x : SecRec) (t : State) : Prop where
  rest : ∃ cs po re ms me mp li wa ws, t = { s with
    ctxs := cs, mem := s.mem.writeNat q.addr q.size q.data.toNat, poison := po, host := { s.host with lines := li }
    net := { s.net with recs := re, mstamps := ms, mexpiry := me, mparties := mp, waits := wa, flights := s.net.flights ++ ws } } ∧ ∀ g ∈ ws, g.Unparked
  sector : t.sector sl f.part q.addr = newVersion w x
  regs : ∀ id, (t.ctx id).g = (s.ctx id).g ∧ (t.ctx id).f = (s.ctx id).f ∧ (t.ctx id).v = (s.ctx id).v ∧ (t.ctx id).pc = (s.ctx id).pc
  others : ∀ id, id ≠ f.ctx ∨ q.rel = false → t.ctx id = s.ctx id
  wakes : ∀ r ∈ s.net.waits, ∀ k, r.slice = sl → r.part = f.part → r.key = .word k → overlaps k 8 q.addr q.size = true → s.wordAt k ≠ t.wordAt k →
    r ∉ t.net.waits ∧ ∃ ws, t.net.flights = s.net.flights ++ ws ∧ ∃ g ∈ ws, g.part = f.part ∧ g.kind = .wake (.word k) (t.wordAt k) w (elevatorPort sl) false
  pages : ∀ r ∈ s.net.waits, ∀ page, r.key = .page page → r ∈ t.net.waits

theorem WaitRec.wokenBy_word {r : WaitRec} {before after : State} {sl p a n k : Nat} (slice : r.slice = sl) (part : r.part = p) (key : r.key = .word k)
    (overlap : overlaps k 8 a n = true) (changed : before.wordAt k ≠ after.wordAt k) : r.wokenBy before after sl p a n = true := by
  unfold WaitRec.wokenBy
  rw [key, slice, part]
  simp [overlap, changed]

theorem WaitRec.wokenBy_page {r : WaitRec} {page : Nat} (key : r.key = .page page) (before after : State) (sl p a n : Nat) : r.wokenBy before after sl p a n = false := by
  unfold WaitRec.wokenBy
  rw [key]
  exact Bool.and_false _

theorem State.wordWake_unparked {s : State} {sl p : Nat} {w : Stamp} {r : WaitRec} {g : Flight} (h : s.wordWake sl p w r = some g) : g.Unparked := by
  unfold State.wordWake at h
  split at h
  · cases h
    exact ⟨fun _ => FKind.noConfusion, fun _ => FKind.noConfusion⟩
  · cases h

theorem State.written (s : State) (f : Flight) (q : StoreReq) (sl : Nat) (host : Option Nat) (w : Stamp) (x : SecRec) : s.Written f q sl w x
    (((s.recordRelease f q.rel).makeVersion sl host f.part q.addr q.size q.data.toNat w x).carryPoison q.addr f.poison) := by
  obtain ⟨cs, released, others, regs⟩ := s.recordRelease_eq f q.rel
  generalize s.recordRelease f q.rel = A at released others regs ⊢
  obtain ⟨T, ⟨po, re, ms, me, mp, li, versioned⟩, sector, made⟩ := A.makeVersion_eq sl host f.part q.addr q.size q.data.toNat w x
  rw [made, State.wakeChanged_eq]
  obtain ⟨po', poisoned⟩ := (T.withNet { T.net with
    waits := T.net.waits.filter fun r => !(r.wokenBy A T sl f.part q.addr q.size)
    flights := T.net.flights ++ (T.net.waits.filter fun r => r.wokenBy A T sl f.part q.addr q.size).filterMap fun r => (T.wordWake sl f.part w r).map T.stamped }).carryPoison_eq
      q.addr f.poison
  rw [poisoned]
  have ctx (id : Nat) : T.ctx id = A.ctx id := by rw [versioned]; rfl
  have word (k : Nat) : s.wordAt k = A.wordAt k := by rw [released]; rfl
  have waits : T.net.waits = s.net.waits := by rw [versioned, released]
  have flights : T.net.flights = s.net.flights := by rw [versioned, released]
  refine ⟨⟨cs, po', re, ms, me, mp, li, _, _, by rw [versioned, released]; rfl, fun g hg => ?_⟩, sector, fun id => ?_, fun id hid => ?_,
    fun r hr k slice part key overlap changed => ?_, fun r hr page key => ?_⟩
  · obtain ⟨r, -, hr⟩ := List.mem_filterMap.1 hg
    obtain ⟨h, wake, rfl⟩ := Option.map_eq_some_iff.1 hr
    exact State.unparked_stamped (State.wordWake_unparked wake)
  · have same := regs id
    rwa [← ctx id] at same
  · exact (ctx id).trans (others id hid)
  · have differs : A.wordAt k ≠ T.wordAt k := by
      rw [← word k]
      exact changed
    have woken : r.wokenBy A T sl f.part q.addr q.size = true := WaitRec.wokenBy_word slice part key overlap differs
    refine ⟨fun h => ?_, _, congrArg (· ++ (T.net.waits.filter fun r => r.wokenBy A T sl f.part q.addr q.size).filterMap fun r =>
      (T.wordWake sl f.part w r).map T.stamped) flights, ?_⟩
    · have := (List.mem_filter.1 h).2
      rw [woken] at this
      cases this
    · refine ⟨T.stamped (T.wakeOf f.part r.key (T.wordAt k) w (elevatorPort sl) false), ?_, T.stamped_part _, ?_⟩
      · refine List.mem_filterMap.2 ⟨r, List.mem_filter.2 ⟨waits ▸ hr, woken⟩, ?_⟩
        rw [State.wordWake, key]
        rfl
      · rw [T.stamped_kind, State.wakeOf, key]
        rfl
  · refine List.mem_filter.2 ⟨waits ▸ hr, ?_⟩
    rw [WaitRec.wokenBy_page key]
    rfl

/-- An answer that is kept and sent (R359, R362): the flight it answers is gone, and the answer is the last on its way. -/
theorem State.keepAnswer_answer_eq (s : State) (sl n : Nat) (f : Flight) {k : FKind} (h : ∀ g c b, k ≠ .pushAnswer g c b) : ∃ an,
    (s.keepAnswer sl f k).answer n f k = s.withNet { s.net with answers := an, flights := s.net.flights.eraseIdx n ++ [s.stamped { f with kind := k }] } := by
  have same (net : Net) : (s.withNet net).stamped { f with kind := k } = s.stamped { f with kind := k } := s.stamped_withNet net h
  refine ⟨(s.keepAnswer sl f k).net.answers, ?_⟩
  rw [← same ((s.keepAnswer sl f k).dropFlight n).net]
  rfl

theorem State.mayGrant_of_pub {s t : State} (h : t.net.pub = s.net.pub) (sl : Nat) (v : Stamp) : t.mayGrant sl v = s.mayGrant sl v := by
  unfold State.mayGrant
  rw [h]

/-- A store that meets nothing at its home performs there (R100, R144, R199). -/
theorem State.storeReady_performs {s : State} {n : Nat} (carried : n < s.net.flights.length) {f : Flight} (nondet : s.isDet f.part = false) {q : StoreReq} {sl : Nat}
    {host : Option Nat} {w : Stamp} (stamp : w = writeStamp (s.writeClock f q.rel q.l) (s.sector sl f.part q.addr))
    (leased : s.leased sl host f.part q.attr (s.sector sl f.part q.addr) = false) (horizon : later w (s.horizon f.part (homeDie sl host)) = false)
    (pub : s.mayGrant sl w = true) :
    StorePerforms s s f q sl host w (s.storeReady n f q sl host) ∧ s.LeavesPages n (s.storeReady n f q sl host) := by
  rw [State.storeReady_eq nondet n q stamp leased horizon pub]
  have written := s.written f q sl host w (s.sector sl f.part q.addr)
  generalize ((s.recordRelease f q.rel).makeVersion sl host f.part q.addr q.size q.data.toNat w (s.sector sl f.part q.addr)).carryPoison q.addr f.poison = B at written ⊢
  obtain ⟨⟨cs, po, re, ms, me, mp, li, wa, ws, rest, unparked⟩, sector, regs, others, wakes, pages⟩ := written
  generalize hv : B.version f.part q.addr host (newVersion w (s.sector sl f.part q.addr)) none = v
  obtain ⟨an, answered⟩ := B.keepAnswer_answer_eq sl n f (k := .storeAck q v) fun _ _ _ => FKind.noConfusion
  have isDet : ((B.keepAnswer sl f (.storeAck q v)).answer n f (.storeAck q v)).isDet f.part = false := by
    rw [answered, rest]
    exact nondet
  have pushes := State.pushAfter_pushes isDet q sl host v (minStamp (w + 64) (s.horizon f.part (homeDie sl host)))
  generalize (B.keepAnswer sl f (.storeAck q v)).answer n f (.storeAck q v) = C at answered isDet pushes ⊢
  generalize C.pushAfter f q sl host v (minStamp (w + 64) (s.horizon f.part (homeDie sl host))) = t at pushes ⊢
  obtain ⟨net, waits, ⟨ps, flights, unparked'⟩, sector', pushed, delayed, skips⟩ := pushes
  have mem : t.mem = B.mem := by rw [net, answered]; rfl
  have bytes : B.mem = s.mem.writeNat q.addr q.size q.data.toNat := by rw [rest]
  have time : C.gtr = s.gtr := by rw [answered, rest]; rfl
  have ctx (id : Nat) : t.ctx id = B.ctx id := by rw [net, answered]; rfl
  have grant (u : Stamp) : C.mayGrant sl u = s.mayGrant sl u := State.mayGrant_of_pub (by rw [answered, rest]; rfl) sl u
  have before : C.sector sl f.part q.addr = newVersion w (s.sector sl f.part q.addr) := by rw [answered]; exact sector
  have stamped {g : Flight} (h : ∀ a c b, g.kind ≠ .pushAnswer a c b) : t.stamped g = C.stamped g := by rw [net]; exact C.stamped_withNet _ h
  have sent : t.net.flights = s.net.flights.eraseIdx n ++ ws ++ [C.stamped { f with kind := .storeAck q v }] ++ ps := by
    have left : B.net.flights.eraseIdx n = s.net.flights.eraseIdx n ++ ws := by
      rw [rest]
      exact List.eraseIdx_append_of_lt_length carried ws
    have same : C.stamped { f with kind := .storeAck q v } = B.stamped { f with kind := .storeAck q v } := by
      rw [answered]
      exact B.stamped_withNet _ fun _ _ _ => FKind.noConfusion
    rw [flights, same, ← left, answered]
    rfl
  have woken : t.net.waits = B.net.waits := by rw [waits, answered]; rfl
  have stampOf : v.wts = w := by rw [← hv]; rfl
  have interval : t.sector sl f.part q.addr = if q.pushes host = true ∧ s.mayGrant sl (s.pushEnd f sl host w) = true then
      { newVersion w (s.sector sl f.part q.addr) with rts := maxStamp w (s.pushEnd f sl host w) } else newVersion w (s.sector sl f.part q.addr) := by
    rw [sector', before, grant]
    rfl
  refine ⟨⟨mem.trans bytes, ⟨?_, ?_, ?_⟩, ⟨v, stampOf, ?_, ?_⟩, fun h grants k hk enabled => ?_, fun h grants => ⟨v, stampOf, ?_⟩, fun h no => ?_, fun id => ?_, fun id hid => ?_, ?_,
    fun r hr k slice part key overlap changed => ?_⟩, ⟨fun g hg => ?_, fun r hr page key => ?_⟩⟩
  · rw [interval]
    split <;> rfl
  · rw [interval]
    split <;> rfl
  · rw [interval]
    split <;> rfl
  · rw [← hv, mem]
    rfl
  · rw [stamped fun _ _ _ => FKind.noConfusion, sent]
    simp
  · obtain ⟨g, hg⟩ := pushed h ((grant _).trans grants) k hk (by rw [answered, rest]; exact enabled)
    refine ⟨{ v with rts := s.pushEnd f sl host w }, g, stampOf, rfl, ?_⟩
    rw [stamped fun _ _ _ => FKind.noConfusion, ← time]
    exact hg
  · rw [stamped fun _ _ _ => FKind.noConfusion, ← time]
    exact delayed h ((grant _).trans grants)
  · rw [stamped fun _ _ _ => FKind.noConfusion, ← time]
    exact skips h no
  · rw [ctx]
    exact regs id
  · rw [ctx]
    exact others id hid
  · rw [net, answered, rest]
    rfl
  · have value : t.wordAt k = B.wordAt k := by rw [State.wordAt, mem]; rfl
    obtain ⟨gone, ws', e, g, hg, part', kind⟩ := wakes r hr k slice part key overlap (by rw [← value]; exact changed)
    rw [woken, value]
    refine ⟨gone, g, ?_, part', kind⟩
    have same : ws' = ws := List.append_cancel_left (e.symm.trans (by rw [rest]))
    rw [sent, ← same]
    simp [hg]
  · rw [sent] at hg
    simp only [List.mem_append, List.mem_singleton] at hg
    obtain ((old | wake) | ack) | push := hg
    · exact .inl old
    · exact .inr (unparked g wake)
    · rw [ack]
      exact .inr (State.unparked_stamped ⟨fun _ => FKind.noConfusion, fun _ => FKind.noConfusion⟩)
    · exact .inr (unparked' g push)
  · rw [woken]
    exact pages r hr page key

/-- A store that is ready at its home performs as it arrives (R100, R160). -/
theorem State.storeArrives_performs {s s1 : State} {n : Nat} (carried : n < s.net.flights.length) {f : Flight} {q : StoreReq} {sl : Nat} {host : Option Nat} {w : Stamp}
    (ready : StoreReady s s1 f q sl host w) : StorePerforms s s1 f q sl host w (s.storeArrives n f q) ∧ s.LeavesPages n (s.storeArrives n f q) := by
  obtain ⟨home, nondet, fresh, first, stamp, leased, horizon, pub⟩ := ready
  have arrives : s.storeArrives n f q = s1.storeReady n f q sl host := by
    unfold State.storeArrives
    rw [home]
    dsimp only
    rw [fresh]
    exact if_neg (Bool.eq_false_iff.1 first)
  obtain ⟨m, po, tr, fa, li, e, -, -⟩ := State.atHome_frame home
  have flights : s1.net.flights = s.net.flights := by rw [e]
  have waiting : s1.net.waits = s.net.waits := by rw [e]
  have time : s1.gtr = s.gtr := by rw [e]
  have limit : s1.horizon f.part (homeDie sl host) = s.horizon f.part (homeDie sl host) := by rw [e]; rfl
  have grant (v : Stamp) : s1.mayGrant sl v = s.mayGrant sl v := State.mayGrant_of_pub (by rw [e]) sl v
  have clock : s1.writeClock f q.rel q.l = s.writeClock f q.rel q.l := by rw [e]; rfl
  have ends : s1.pushEnd f sl host w = s.pushEnd f sl host w := by unfold State.pushEnd; rw [limit]
  have ctx (id : Nat) : s1.ctx id = s.ctx id := by rw [e]; rfl
  obtain ⟨⟨mem, stamps, ack, pushed, waits, skips, regs, others, cores, wakes⟩, leaves⟩ := State.storeReady_performs (s := s1) (n := n) (flights ▸ carried)
    (by rw [e]; exact nondet) (stamp.trans (by rw [← State.writeClock, ← clock]; rfl)) leased (by rw [limit]; exact horizon) (by rw [grant]; exact pub)
  rw [arrives]
  refine ⟨⟨mem, ?_, ack, fun h g k hk on => ?_, fun h g => ?_, ?_, fun id => ?_, fun id hid => ?_, ?_, wakes⟩, ⟨?_, ?_⟩⟩
  · rw [← grant, ← ends]
    exact stamps
  · rw [← time, ← ends]
    exact pushed h (by rw [grant, ends]; exact g) k hk (by rw [e]; exact on)
  · rw [← time, ← ends]
    exact waits h (by rw [grant, ends]; exact g)
  · rw [← time]
    exact skips
  · rw [← ctx]
    exact regs id
  · rw [← ctx]
    exact others id hid
  · rw [cores, e]
  · rw [← flights]
    exact leaves.flights
  · rw [← waiting]
    exact leaves.waits

end Sys2Proof.Machine


/-!
PROOFS. Writes of other cores at an LM port (R20, R110 to R112, R162 to R164), and offers that are made again (R161, R197, R200).
-/
namespace Sys2Proof.Machine

/-! ### Answers -/

/-- An answer in a state with the same flights (R115, R362). -/
theorem State.answer_answered {s u : State} (same : u.net.flights = s.net.flights) (n : Nat) (f : Flight) (k : FKind) : Answered s n f k (u.answer n f k) := by
  have sent : (u.answer n f k).net.flights = u.net.flights.eraseIdx n ++ [(u.dropFlight n).stamped { f with kind := k }] := rfl
  unfold Answered
  rw [sent, same]
  rfl

/-- An offer of what nobody waits for, and of which nothing is free, is refused (R200). -/
theorem State.offer_none {s : State} (none : s.net.turns = []) (r : Res) (src : Nat) : ∃ ts, s.offer r src 0 = (false, s.withTurns ts) := by
  have settled : s.settled r = { res := r } := by
    have none : s.turnsOf r = { res := r } := by rw [State.turnsOf, none]; rfl
    rw [State.settled, none]
    rfl
  unfold State.offer
  rw [settled]
  exact ⟨_, rfl⟩

/-! ### The port (R110) -/

section
variable {s : State} {n : Nat} {f : Flight} {core off : Nat} {w : LmWrite} {rel : Bool} {sc : Nat} (carried : s.Carries n f (.lmWrite (lmAddr core off) w rel sc))
  (order : s.inOrder n = true) (free : rel = true → s.releaseHeld f sc = false) (low : off < 0x6000) (away : coreOf f.ctx ≠ core) (foreign : f.home ≠ core)
  (present : s.refuses (tileOf core) (some f.sentAt) = false)

/-- What a write of another core records in its context before it performs (R105, R159). -/
def State.noted (s : State) (f : Flight) (rel : Bool) : State :=
  let t := s.recordRelease f rel
  if f.skip && t.alive f then t.onCtx f.ctx fun c => { c with pushSkipped := true } else t

theorem State.noted_eq (s : State) (f : Flight) (rel : Bool) : ∃ cs, s.noted f rel = { s with ctxs := cs } := by
  obtain ⟨cs, e, -, -⟩ := s.recordRelease_eq f rel
  unfold State.noted
  dsimp only
  rw [e]
  split
  · exact ⟨_, rfl⟩
  · exact ⟨cs, rfl⟩

include carried order free low away foreign present

/-- The mailbox area and the cache region of another core answer with the imprecise error (R20). -/
theorem exec_remoteLmStore_closed (closed : off < 0x400 ∨ (s.core core).scratchEnd ≤ off) :
    exec (.remoteLmStore n) s = .next (s.answer n f (.lmAck (lmAddr core off) true)) := by
  obtain ⟨flight, kind⟩ := carried
  have small : off < 0x8000 := by omega
  refine congrArg Host.Outcome.next ?_
  rw [flight]
  dsimp only
  rw [kind]
  dsimp only
  rw [lmCore?_lmAddr small, show lmOffset (lmAddr core off) = off from lmAddr_offset small, if_neg, if_pos ⟨away, foreign, closed⟩]
  rw [order, present]
  cases rel
  · simp
  · simp [free rfl]

omit away foreign in
/-- A write that the port admits performs there (R110, R162). -/
theorem exec_remoteLmStore (open_ : 0x400 ≤ off) (inside : off < (s.core core).scratchEnd) : exec (.remoteLmStore n) s = .next (match (generalizing := false) w with
    | .sde v =>
      match (s.noted f rel).feArrive f.ctx f.uid (lmAddr core off) (.sde v (f.poison != 0)) false f.seq f.part f.launch f.word with
      | (true, t) => t.dropFlight n
      | (false, t) => t.putFlight n { f with kind := .feOffer (lmAddr core off) (.sde v (f.poison != 0)) false, offered := t.gtrOf (tileOf (coreOf f.ctx)) }
    | w => (((s.noted f rel).portWrite f (lmAddr core off) w).carryPoison (lmAddr core off) f.poison).answer n f (.lmAck (lmAddr core off) false)) := by
  obtain ⟨flight, kind⟩ := carried
  have small : off < 0x8000 := by omega
  refine congrArg Host.Outcome.next ?_
  rw [flight]
  dsimp only
  rw [kind]
  dsimp only
  rw [lmCore?_lmAddr small, show lmOffset (lmAddr core off) = off from lmAddr_offset small, if_neg, if_neg (by omega)]
  · rfl
  · rw [order, present]
    cases rel
    · simp
    · simp [free rfl]

end

/-- A write at a port whose trace ring is off (R110, R162). -/
theorem State.portWrite_store {s : State} {f : Flight} {core off : Nat} (low : off < 0x8000) (quiet : traceOn (s.core core).traceb = false) (size : Nat)
    (v : Quad) : s.portWrite f (lmAddr core off) (.store size v) = s.lmWrite core off size v.toNat := by
  have e : s.portWrite f (lmAddr core off) (.store size v) = s.portStore (coreOf f.ctx) core off size v.toNat := by
    unfold State.portWrite
    rw [lmCore?_lmAddr low, show lmOffset (lmAddr core off) = off from lmAddr_offset low]
  rw [e]
  exact State.portStore_untraced (fun ⟨_, on, _⟩ => by simp [quiet] at on) ..

theorem State.setFullServe_none {s : State} (none : s.net.waiters = []) (a : Nat) (full : Bool) : s.setFullServe a full = s.setFull a full := by
  unfold State.setFullServe
  rw [none]
  rfl

theorem State.portWrite_feset {s : State} {f : Flight} {core off : Nat} (low : off < 0x8000) (quiet : traceOn (s.core core).traceb = false)
    (none : s.net.waiters = []) (full : Bool) : s.portWrite f (lmAddr core off) (.feset full) = s.setFull (lmAddr core off) full := by
  have e : s.portWrite f (lmAddr core off) (.feset full) = (s.traceFeset (coreOf f.ctx) core off full).setFullServe (lmAddr core off) full := by
    unfold State.portWrite
    rw [lmCore?_lmAddr low, show lmOffset (lmAddr core off) = off from lmAddr_offset low]
  have untraced : s.traceFeset (coreOf f.ctx) core off full = s := by
    unfold State.traceFeset
    rw [State.traceWrite_off (by rw [quiet]; rfl), ite_self]
  rw [e, untraced, State.setFullServe_none none]

/-- SDE of another core to an empty word (R162). -/
theorem State.feDo_sde_away {s : State} {id uid core off : Nat} (low : off < 0x8000) (away : coreOf id ≠ core) (quiet : traceOn (s.core core).traceb = false) (v : Word) (bad : Bool) :
    s.feDo id uid (lmAddr core off) (.sde v bad) =
      (if bad then (s.lmWrite core off 8 v.toNat).setPoison (lmAddr core off) true else s.lmWrite core off 8 v.toNat).setFull (lmAddr core off) true := by
  have e : s.feDo id uid (lmAddr core off) (.sde v bad) =
      (if bad then (s.tracedWrite core off 8 v.toNat (coreOf id) 1).setPoison (lmAddr core off) true else s.tracedWrite core off 8 v.toNat (coreOf id) 1).setFull (lmAddr core off) true := by
    unfold State.feDo
    rw [lmCore?_lmAddr low, lmAddr_offset low]
    dsimp only
    rw [if_neg away]
  rw [e, State.tracedWrite_untraced (fun ⟨_, on, _⟩ => by simp [quiet] at on) away]

/-! ### The trace ring (R111, R112) -/

/-- Where in the address space the next trace entry of a core goes (R111). -/
def State.traceSlot (s : State) (core : Nat) : Nat :=
  lmAddr core (traceBase (s.core core).traceb + (s.core core).tracen.toNat % 2 ^ traceLog (s.core core).traceb * 32)

/-- Memory with a trace entry written at `o` (R112). -/
def Memory.logged (m : Memory) (o gtr meta_ off value : Nat) : Memory :=
  (((m.writeNat o 8 gtr).writeNat (o + 8) 8 meta_).writeNat (o + 16) 8 off).writeNat (o + 24) 8 value

theorem State.mem_lmWrite (s : State) (core off n v : Nat) : (s.lmWrite core off n v).mem = s.mem.writeNat (lmAddr core off) n v := rfl

theorem State.mem_onCore (s : State) (core : Nat) (f : Core → Core) : (s.onCore core f).mem = s.mem := rfl

theorem lmAddr_add (core off k : Nat) : lmAddr core (off + k) = lmAddr core off + k := (Nat.add_assoc ..).symm

theorem State.traceWrite_mem {s : State} {core : Nat} (on : traceOn (s.core core).traceb = true) (valid : (s.core core).traceValid = true)
    (src kind log2 off value : Nat) : (s.traceWrite core src kind log2 off value).mem =
      s.mem.logged (s.traceSlot core) (s.gtrOf (tileOf core)) (src % 2 ^ 20 + log2 * 2 ^ 24 + kind * 2 ^ 28) off value := by
  unfold State.traceWrite
  dsimp only
  rw [if_pos (by simp [on, valid])]
  simp only [State.mem_onCore, State.mem_lmWrite, lmAddr_add, Memory.logged, State.traceSlot]

theorem State.tracedWrite_mem {s : State} {core : Nat} (on : traceOn (s.core core).traceb = true) (valid : (s.core core).traceValid = true) {off : Nat}
    (aligned : off % 8 = 0) (v src : Nat) : (s.tracedWrite core off 8 v src 0).mem =
      let m := s.mem.writeNat (lmAddr core off) 8 v
      m.logged (s.traceSlot core) (s.gtrOf (tileOf core)) (src % 2 ^ 20 + 3 * 2 ^ 24) off (m.readNat (lmAddr core off) 8) := by
  have written := s.core_lmWrite_self core off 8 v
  have slot : (s.lmWrite core off 8 v).traceSlot core = s.traceSlot core := by
    unfold State.traceSlot
    rw [written]
    rfl
  have start : off / 8 * 8 = off := by omega
  refine (State.traceWrite_mem (s := s.lmWrite core off 8 v) (by rw [written]; exact on) (by rw [written]; exact valid) ..).trans ?_
  rw [slot, start]
  rfl

section
variable {s : State} {n : Nat} {f : Flight} {core off : Nat} {rel : Bool} {sc : Nat}
  (order : s.inOrder n = true) (free : rel = true → s.releaseHeld f sc = false) (low : off < 0x6000)
  (present : s.refuses (tileOf core) (some f.sentAt) = false) (open_ : 0x400 ≤ off) (inside : off < (s.core core).scratchEnd)
include order free low present open_ inside

section
variable (quiet : traceOn (s.core core).traceb = false)
include quiet

theorem completes_remoteLmStore_store {size : Nat} {v : Quad} (carried : s.Carries n f (.lmWrite (lmAddr core off) (.store size v) rel sc)) :
    Completes (.remoteLmStore n) s fun t => t.mem = s.mem.writeNat (lmAddr core off) size v.toNat ∧ Answered s n f (.lmAck (lmAddr core off) false) t := by
  refine ⟨_, exec_remoteLmStore carried order free low present open_ inside, ?_⟩
  obtain ⟨cs, noted⟩ := s.noted_eq f rel
  dsimp only
  rw [noted, State.portWrite_store (s := { s with ctxs := cs }) (by omega) quiet]
  obtain ⟨po, poisoned⟩ := (State.lmWrite { s with ctxs := cs } core off size v.toNat).carryPoison_eq (lmAddr core off) f.poison
  rw [poisoned]
  exact ⟨rfl, State.answer_answered rfl ..⟩

theorem completes_remoteLmStore_feset {full : Bool} (carried : s.Carries n f (.lmWrite (lmAddr core off) (.feset full) rel sc)) (none : s.net.waiters = []) :
    Completes (.remoteLmStore n) s fun t => t.mem = s.mem ∧ t.full (lmAddr core off) = full ∧ (∀ b, wordOf b ≠ wordOf (lmAddr core off) → t.full b = s.full b) ∧
      Answered s n f (.lmAck (lmAddr core off) false) t := by
  refine ⟨_, exec_remoteLmStore carried order free low present open_ inside, ?_⟩
  obtain ⟨cs, noted⟩ := s.noted_eq f rel
  dsimp only
  rw [noted, State.portWrite_feset (s := { s with ctxs := cs }) (by omega) quiet none]
  obtain ⟨po, poisoned⟩ := (State.setFull { s with ctxs := cs } (lmAddr core off) full).carryPoison_eq (lmAddr core off) f.poison
  rw [poisoned]
  exact ⟨rfl, State.full_setFull_self { s with ctxs := cs } _ _, fun b hb => State.full_setFull_ne { s with ctxs := cs } hb _, State.answer_answered rfl ..⟩

variable {v : Word} (carried : s.Carries n f (.lmWrite (lmAddr core off) (.sde v) rel sc)) (turns : s.net.turns = [])
include carried turns

theorem completes_remoteLmStore_sde (away : coreOf f.ctx ≠ core) (empty : s.full (lmAddr core off) = false) (none : s.net.waiters = []) :
    Completes (.remoteLmStore n) s fun t => t.mem = s.mem.writeNat (lmAddr core off) 8 v.toNat ∧ t.full (lmAddr core off) = true ∧
      t.net.flights = s.net.flights.eraseIdx n := by
  refine ⟨_, exec_remoteLmStore carried order free low present open_ inside, ?_⟩
  obtain ⟨cs, noted⟩ := s.noted_eq f rel
  have small : off < 0x8000 := by omega
  have unasked : ({ s with ctxs := cs } : State).Unasked := ⟨none, turns⟩
  have ready : ({ s with ctxs := cs } : State).feReady (lmAddr core off) (.sde v (f.poison != 0)) = true := by
    rw [State.feReady, show ({ s with ctxs := cs } : State).full (lmAddr core off) = false from empty]
    rfl
  have fills := State.feDo_sde_away (s := { s with ctxs := cs }) (id := f.ctx) (uid := f.uid) small away quiet v (f.poison != 0)
  have quietly : (State.feDo { s with ctxs := cs } f.ctx f.uid (lmAddr core off) (.sde v (f.poison != 0))).net.waiters = [] := by
    rw [fills]
    split <;> exact none
  dsimp only
  rw [noted, unasked.feArrive_eq small _ _ _ _ _ _ _ _ fun _ => quietly, if_pos ready, fills]
  dsimp only
  split
  · exact ⟨rfl, State.full_setFull_self ((State.lmWrite { s with ctxs := cs } core off 8 v.toNat).setPoison (lmAddr core off) true) (lmAddr core off) true, rfl⟩
  · exact ⟨rfl, State.full_setFull_self (State.lmWrite { s with ctxs := cs } core off 8 v.toNat) (lmAddr core off) true, rfl⟩

omit quiet in
/-- An SDE that finds every entry of the port in use is kept as an offer (R164). -/
theorem completes_remoteLmStore_refusedSde (busy : 32 ≤ s.waitersAt core) :
    Completes (.remoteLmStore n) s fun t => t.mem = s.mem ∧ t.emptied = s.emptied ∧
      ∃ g : Flight, t.net.flights = s.net.flights.set n g ∧ g.kind = .feOffer (lmAddr core off) (.sde v (f.poison != 0)) false := by
  refine ⟨_, exec_remoteLmStore carried order free low present open_ inside, ?_⟩
  obtain ⟨cs, noted⟩ := s.noted_eq f rel
  have small : off < 0x8000 := by omega
  have none : 32 - ({ s with ctxs := cs } : State).waitersAt core = 0 := Nat.sub_eq_zero_of_le busy
  obtain ⟨ts, refused⟩ := State.offer_none (s := { s with ctxs := cs }) turns (.lmPort core) f.ctx
  have arrives : State.feArrive { s with ctxs := cs } f.ctx f.uid (lmAddr core off) (.sde v (f.poison != 0)) false f.seq f.part f.launch f.word =
      (false, State.withTurns { s with ctxs := cs } ts) := by
    unfold State.feArrive
    dsimp only
    rw [lmCore?_lmAddr small, none, refused]
    rfl
  dsimp only
  rw [noted, arrives]
  exact ⟨rfl, rfl, _, rfl, State.stamped_kind ..⟩

end

/-- A store from another core that the trace ring logs: its entry, at TRACEN (R111, R112). -/
theorem completes_remoteLmStore_traced {v : Quad} (carried : s.Carries n f (.lmWrite (lmAddr core off) (.store 8 v) rel sc)) (away : coreOf f.ctx ≠ core)
    (on : traceOn (s.core core).traceb = true) (valid : (s.core core).traceValid = true) (aligned : off % 8 = 0) :
    Completes (.remoteLmStore n) s fun t =>
      let m := s.mem.writeNat (lmAddr core off) 8 v.toNat
      t.mem = m.logged (s.traceSlot core) (s.gtrOf (tileOf core)) (coreOf f.ctx % 2 ^ 20 + 3 * 2 ^ 24) off (m.readNat (lmAddr core off) 8) ∧
        (t.core core).tracen = (s.core core).tracen + 1 := by
  refine ⟨_, exec_remoteLmStore carried order free low present open_ inside, ?_⟩
  obtain ⟨cs, noted⟩ := s.noted_eq f rel
  have small : off < 0x8000 := by omega
  have written : State.portWrite { s with ctxs := cs } f (lmAddr core off) (.store 8 v) =
      State.tracedWrite { s with ctxs := cs } core off 8 v.toNat (coreOf f.ctx) 0 := by
    unfold State.portWrite
    rw [lmCore?_lmAddr small, show lmOffset (lmAddr core off) = off from lmAddr_offset small]
    exact if_neg away
  dsimp only
  rw [noted, written]
  obtain ⟨po, poisoned⟩ := (State.tracedWrite { s with ctxs := cs } core off 8 v.toNat (coreOf f.ctx) 0).carryPoison_eq (lmAddr core off) f.poison
  rw [poisoned]
  exact ⟨State.tracedWrite_mem (s := { s with ctxs := cs }) on valid aligned .., State.tracedWrite_counts (s := { s with ctxs := cs }) on valid ..⟩

end

end Sys2Proof.Machine


/-!
PROOFS. Offers that are made again (R161, R200), holds that lapse (R200), and purges (R142).
-/
namespace Sys2Proof.Machine

/-! ### Turns (R200) -/

theorem Turns.settle_steady {now : Nat} {t : Turns} (steady : t.lapse now = t) (k : Nat) : t.settle now k = t := by
  induction k with
  | zero => rfl
  | succ k ih => rw [Turns.settle, steady, ih]

/-- A hold whose source did not offer passes to the next source (R200). -/
theorem Turns.lapse_passes {now x y e : Nat} {rest : List Nat} {t : Turns} (sources : t.sources = x :: y :: rest) (ne : x ≠ y) (fresh : x ∉ rest)
    (holds : t.holds = [(x, e)]) (silent : x ∉ t.asked) (due : e ≤ now) :
    t.lapse now = { t with sources := y :: rest, holds := [(y, e + 64000)] } := by
  have asked : t.asked.filter (· != x) = t.asked := by
    rw [List.filter_eq_self]
    intro z hz
    simp only [bne_iff_ne]
    rintro rfl
    exact silent hz
  have left : (x :: y :: rest).filter (· != x) = y :: rest := by
    rw [List.filter_cons_of_neg (by simp), List.filter_eq_self]
    intro z hz
    rcases List.mem_cons.1 hz with rfl | hz
    · simpa using ne.symm
    · simp only [bne_iff_ne]
      rintro rfl
      exact fresh hz
  have dropped : t.without x = { t with sources := y :: rest, holds := [] } := by
    rw [Turns.without, asked, sources, left, holds]
    simp
  unfold Turns.lapse
  rw [holds]
  simp only [due, decide_true, List.find?_cons_of_pos]
  rw [if_neg (by simpa using silent), dropped]
  rfl

theorem Turns.lapse_early {now : Nat} {t : Turns} (early : ∀ h ∈ t.holds, now < h.2) : t.lapse now = t := by
  have none : t.holds.find? (fun h => decide (h.2 ≤ now)) = none := by
    rw [List.find?_eq_none]
    exact fun h hh => by simpa using early h hh
  unfold Turns.lapse
  rw [none]

/-- What a resource that is noted is set to is what it then is. -/
theorem State.turnsOf_setTurns {s : State} {t : Turns} (some : t.sources ≠ []) (noted : ∃ u ∈ s.net.turns, u.res = t.res) : (s.setTurns t).turnsOf t.res = t := by
  have found : ∀ ts : List Turns, (∃ u ∈ ts, u.res = t.res) →
      (ts.map fun u => if u.res = t.res then t else u).find? (fun u => decide (u.res = t.res)) = .some t := by
    intro ts
    induction ts with
    | nil => simp
    | cons u ts ih =>
      intro h
      rw [List.map_cons]
      by_cases e : u.res = t.res
      · rw [if_pos e, List.find?_cons_of_pos (by simp)]
      · rw [if_neg e, List.find?_cons_of_neg (by simpa using e)]
        exact ih (by simpa [e] using h)
  have set : (s.setTurns t).net.turns = s.net.turns.map fun u => if u.res = t.res then t else u := by
    unfold State.setTurns
    dsimp only
    rw [if_neg some, if_pos (by simpa using noted)]
  rw [State.turnsOf, set, found _ noted]
  rfl

/-- RESERVED_HOLD_LAPSE: the hold of a source that did not offer passes to the next (R200). -/
theorem completes_reservedHoldLapse {s : State} {n x y e : Nat} {rest : List Nat} {t : Turns} (noted : s.net.turns[n]? = some t) (current : s.turnsOf t.res = t)
    (sources : t.sources = x :: y :: rest) (ne : x ≠ y) (fresh : x ∉ rest) (holds : t.holds = [(x, e)]) (silent : x ∉ t.asked)
    (due : e ≤ s.gtrOf t.res.die) (recent : s.gtrOf t.res.die < e + 64000) : Completes (.reservedHoldLapse n) s fun u =>
      u.turnsOf t.res = { t with sources := y :: rest, holds := [(y, e + 64000)] } ∧ u.mem = s.mem ∧ u.ctxs = s.ctxs ∧ u.net.flights = s.net.flights := by
  have settled : s.settled t.res = { t with sources := y :: rest, holds := [(y, e + 64000)] } := by
    rw [State.settled, current, Turns.settle, Turns.lapse_passes sources ne fresh holds silent due]
    exact Turns.settle_steady (Turns.lapse_early (by simpa using recent)) _
  refine ⟨s.setTurns (s.settled t.res), ?_, ?_, rfl, rfl, rfl⟩
  · refine congrArg Host.Outcome.next ?_
    rw [noted]
  · rw [settled]
    exact State.turnsOf_setTurns (t := { t with sources := y :: rest, holds := [(y, e + 64000)] }) (by simp) ⟨t, List.mem_of_getElem? noted, rfl⟩

/-! ### Purges (R142) -/

theorem exec_purgeAck {s : State} {n line rc : Nat} {f : Flight} (carried : s.Carries n f (.purge line rc)) (order : s.inOrder n = true) :
    exec (.purgeAck n) s = .next (s.dropFlight n) := by
  obtain ⟨flight, kind⟩ := carried
  refine congrArg Host.Outcome.next ?_
  rw [flight]
  dsimp only
  rw [kind]
  exact if_pos order

/-! ### Offers made again (R161) -/

/-- A refused store that is offered again performs where nothing holds it back (R161). -/
theorem completes_refusedOfferRetry_store {s s1 : State} {n : Nat} {f : Flight} {q : StoreReq} {sl : Nat} {host : Option Nat} {w : Stamp}
    (carried : s.Carries n f (.store q)) (refused : q.refused = true) (next : s.offersNext f q.addr = true)
    (due : f.offered + 16000 ≤ s.gtrOf (tileOf (coreOf f.ctx)))
    (ready : StoreReady (s.putFlight n { f with offered := s.gtrOf (tileOf (coreOf f.ctx)) }) s1 { f with offered := s.gtrOf (tileOf (coreOf f.ctx)) } q sl host w) :
    Completes (.refusedOfferRetry n) s (StorePerforms (s.putFlight n { f with offered := s.gtrOf (tileOf (coreOf f.ctx)) }) s1
      { f with offered := s.gtrOf (tileOf (coreOf f.ctx)) } { q with refused := false } sl host w) := by
  obtain ⟨flight, kind⟩ := carried
  have inside : n < (s.putFlight n { f with offered := s.gtrOf (tileOf (coreOf f.ctx)) }).net.flights.length := by
    obtain ⟨inside, -⟩ := List.getElem?_eq_some_iff.1 flight
    exact Nat.lt_of_lt_of_eq inside (List.length_set ..).symm
  obtain ⟨home, det, fresh, first, stamp, leased, horizon, pub⟩ := ready
  refine ⟨_, ?_, (State.storeArrives_performs (q := { q with refused := false }) inside ⟨home, det, fresh, first, stamp, leased, horizon, pub⟩).1⟩
  refine congrArg Host.Outcome.next ?_
  rw [flight]
  dsimp only
  rw [kind]
  exact (if_neg (Nat.not_lt.2 due)).trans (if_pos (by simp [refused, next]))

theorem Ctx.rdG_arrivedMaybe (c : Ctx) (r : Option RegRef) (m : Nat) : (c.arrivedMaybe r).rdG m = c.rdG m := by cases r <;> rfl

/-- An LDF that is offered again at a full word delivers it (R161, R162). -/
theorem completes_refusedOfferRetry_ldf {s : State} {n : Nat} {f : Flight} {core off d : Nat} {acq : Bool}
    (carried : s.Carries n f (.feOffer (lmAddr core off) (.ldf d) acq)) (due : f.offered + 16000 ≤ s.gtrOf (tileOf (coreOf f.ctx))) (low : off < 0x6000)
    (unasked : s.Unasked) (present : s.refuses (tileOf core) (some f.sentAt) = false) (live : s.alive f = true)
    (clean : s.poisoned (lmAddr core off) 8 = false) (full : s.full (lmAddr core off) = true) : Completes (.refusedOfferRetry n) s fun t =>
      t.net.flights = s.net.flights.eraseIdx n ∧ t.mem = s.mem ∧ t.full (lmAddr core off) = true ∧ (∀ id, id ≠ f.ctx → t.ctx id = s.ctx id) ∧
      ∀ m, (t.ctx f.ctx).rdG m = if m = d ∧ m ≠ 0 then BitVec.ofNat 64 (s.mem.readNat (lmAddr core off) 8) else (s.ctx f.ctx).rdG m := by
  obtain ⟨flight, kind⟩ := carried
  have small : off < 0x8000 := by omega
  have ready : s.feReady (lmAddr core off) (.ldf d) = true := full
  have reads : s.feDo f.ctx f.uid (lmAddr core off) (.ldf d) =
      s.onCtx f.ctx fun c => (c.deliver (.zx 8) d (s.lmRead core off 8)).arrivedMaybe (FeOp.target (.ldf d)) := by
    unfold State.feDo
    rw [lmCore?_lmAddr small, lmAddr_offset small]
    dsimp only
    rw [show ((s.ctx f.ctx).uid == f.uid) = true from live, clean]
    rfl
  have arrives := unasked.feArrive_eq small f.ctx f.uid (.ldf d) acq f.seq f.part f.launch f.word fun _ => by rw [reads]; exact unasked.waiters
  rw [if_pos ready, reads] at arrives
  refine ⟨(s.onCtx f.ctx fun c => (c.deliver (.zx 8) d (s.lmRead core off 8)).arrivedMaybe (FeOp.target (.ldf d))).dropFlight n, ?_, rfl, rfl, full,
    fun id other => s.ctx_setCtx_ne other _, fun m => ?_⟩
  · refine congrArg Host.Outcome.next ?_
    rw [flight]
    dsimp only
    rw [kind]
    refine (if_neg (Nat.not_lt.2 due)).trans ?_
    dsimp only
    rw [lmCore?_lmAddr small, present, arrives]
    rfl
  · have self : ((s.onCtx f.ctx fun c => (c.deliver (.zx 8) d (s.lmRead core off 8)).arrivedMaybe (FeOp.target (.ldf d))).dropFlight n).ctx f.ctx =
        ((s.ctx f.ctx).deliver (.zx 8) d (s.lmRead core off 8)).arrivedMaybe (FeOp.target (.ldf d)) := s.ctx_setCtx_self ..
    have value : (BitVec.ofNat (8 * 8) (s.lmRead core off 8)).setWidth 64 = BitVec.ofNat 64 (s.mem.readNat (lmAddr core off) 8) := BitVec.setWidth_eq ..
    rw [self, Ctx.rdG_arrivedMaybe, Ctx.deliver, value, Ctx.rdG_wrG]

/-- Settles O34, port by port: the write arm of R110 to R112, an offer made again (R161), a lapsed hold (R200) and a purge (R142). -/
theorem portsAndRefusedOffers : Obligations.PortsAndRefusedOffers := by
  refine ⟨?store, ?again, ?load, ?lapse, fun s n f line rc carried order => exec_purgeAck carried order⟩
  case store =>
    rintro s n f a core off w rel sc carried order free rfl low away foreign present
    refine ⟨fun closed => ⟨_, exec_remoteLmStore_closed carried order free low away foreign present closed, rfl, State.answer_answered rfl ..⟩, fun open_ inside quiet => ⟨?_, ?_, ?_, ?_⟩, ?_⟩
    · rintro size v rfl
      exact completes_remoteLmStore_store order free low present open_ inside quiet carried
    · rintro full rfl waiters
      exact completes_remoteLmStore_feset order free low present open_ inside quiet carried waiters
    · rintro v rfl turns empty waiters
      exact completes_remoteLmStore_sde order free low present open_ inside quiet carried turns away empty waiters
    · rintro v rfl turns busy
      exact completes_remoteLmStore_refusedSde order free low present open_ inside carried turns busy
    · rintro open_ inside on valid v rfl aligned
      exact completes_remoteLmStore_traced order free low present open_ inside carried away on valid aligned
  case again =>
    intro s s1 n f q sl host w now g carried refused next due ready
    exact completes_refusedOfferRetry_store carried refused next due ready
  case load =>
    intro s n f core off d acq a c carried due low _ turns waiters present live clean full
    exact completes_refusedOfferRetry_ldf carried due low ⟨waiters, turns⟩ present live clean full
  case lapse =>
    intro s n x y e rest t noted current sources ne fresh holds silent due recent
    exact completes_reservedHoldLapse noted current sources ne fresh holds silent due recent

end Sys2Proof.Machine


/-!
PROOFS. Waits for a word (R104, R199): a wake, a wait that is sent again, and a wait for a time (R88).
-/
namespace Sys2Proof.Machine

/-! ### A wait as it is sent -/

theorem State.stamped_ctx (s : State) (f : Flight) : (s.stamped f).ctx = f.ctx := by
  obtain ⟨_, e⟩ := s.stamped_keeps f
  rw [e]

theorem State.stamped_uid (s : State) (f : Flight) : (s.stamped f).uid = f.uid := by
  obtain ⟨_, e⟩ := s.stamped_keeps f
  rw [e]

theorem State.sendWait_ctx_self (s : State) (id : Nat) (key : Key) (target : Word) :
    (s.sendWait id key target).ctx id = { s.ctx id with waitSent := s.gtrOf (tileOf (coreOf id)), unrecorded := false } := s.ctx_setCtx_self ..

theorem State.sendWait_sends (s : State) (id : Nat) (key : Key) (target : Word) : ∃ g : Flight, (s.sendWait id key target).net.flights = s.net.flights ++ [g] ∧
    g.ctx = id ∧ g.uid = (s.ctx id).uid ∧ g.kind = .wait key key.address target 0 (.core (coreOf id)) := by
  exact ⟨_, rfl, State.stamped_ctx .., State.stamped_uid .., State.stamped_kind ..⟩

/-! ### Serving contexts one after another -/

/-- Between `s` and `t` only the contexts `ids` have changed, and flights have been sent. -/
structure State.Serves (ids : List Nat) (s t : State) : Prop where
  rest : ∃ cs fs, t = { s with ctxs := cs, net := { s.net with flights := s.net.flights ++ fs } }
  ctx : ∀ i, i ∉ ids → t.ctx i = s.ctx i

namespace State.Serves
variable {s t u : State} {ids : List Nat}

theorem refl (s : State) : s.Serves [] s := ⟨⟨s.ctxs, [], by rw [List.append_nil]⟩, fun _ _ => rfl⟩

theorem trans {more : List Nat} (h : s.Serves ids t) (h' : t.Serves more u) : s.Serves (ids ++ more) u := by
  obtain ⟨cs, fs, e⟩ := h.rest
  obtain ⟨cs', fs', e'⟩ := h'.rest
  refine ⟨⟨cs', fs ++ fs', by rw [e', e, ← List.append_assoc]⟩, fun i hi => ?_⟩
  obtain ⟨first, second⟩ := not_or.1 (mt List.mem_append.2 hi)
  exact (h'.ctx i second).trans (h.ctx i first)

theorem onCtx (s : State) (id : Nat) (f : Ctx → Ctx) : s.Serves [id] (s.onCtx id f) :=
  ⟨⟨_, [], by rw [List.append_nil]; rfl⟩, fun _ hi => s.ctx_setCtx_ne (List.ne_of_not_mem_cons hi) _⟩

theorem same {id : Nat} (h : s.Serves [id] t) (h' : t.Serves [id] u) : s.Serves [id] u := by
  obtain ⟨rest, ctx⟩ := h.trans h'
  exact ⟨rest, fun i hi => ctx i (by simpa using hi)⟩

theorem foldl {F : State → Nat → State} (hF : ∀ (t : State) (id : Nat), t.Serves [id] (F t id)) (l : List Nat) (s : State) : s.Serves l (l.foldl F s) := by
  induction l generalizing s with
  | nil => exact refl s
  | cons x l ih => exact (hF s x).trans (ih (F s x))

theorem sendWait (s : State) (id : Nat) (key : Key) (target : Word) : s.Serves [id] (s.sendWait id key target) :=
  ⟨⟨_, _, rfl⟩, fun _ hi => s.ctx_setCtx_ne (List.ne_of_not_mem_cons hi) _⟩

theorem takeWord (s : State) (id : Nat) (k : Wait) (v : Word) (wts : Stamp) : s.Serves [id] (s.takeWord id k v wts) := by
  unfold State.takeWord
  split
  · exact (onCtx ..).same (onCtx ..)
  · exact (onCtx ..).same (sendWait ..)

theorem wakeOne (s : State) (v : Word) (wts : Stamp) (unrec : Bool) (id : Nat) : s.Serves [id] (s.wakeOne v wts unrec id) := by
  unfold State.wakeOne
  split
  · exact onCtx ..
  · exact takeWord ..

theorem lclkOf (h : s.Serves ids t) {id : Nat} (other : id ∉ ids) : t.lclkOf id = s.lclkOf id := by
  obtain ⟨cs, fs, e⟩ := h.rest
  have same := h.ctx id other
  have lf : t.lfOf id = s.lf (t.ctx id).partNo (tileOf (coreOf id)) := by rw [e]; rfl
  rw [State.lclkOf, lf, same]
  rfl

end State.Serves

/-! ### A wake (R199) -/

theorem Ctx.wrG_cr (c : Ctx) (d : Nat) (v : Word) : (c.wrG d v).cr = c.cr := by
  unfold Ctx.wrG
  split <;> rfl

section
variable (s : State) (id : Nat) {k : Wait} {v : Word} (wts : Stamp)

/-- A waiter whose condition holds goes on with its result and the stamp of the word. -/
theorem State.takeWord_holds (holds : k.holds v = true) : let c := s.ctx id
    let t := s.takeWord id k v wts
    (t.ctx id).st = .ready ∧ (t.ctx id).wait = .none ∧ (t.ctx id).cr = { c.cr with lclk := maxStamp (s.lclkOf id) wts } ∧
      ∀ m, (t.ctx id).rdG m = if m = (k.result c v).1 ∧ m ≠ 0 then (k.result c v).2 else c.rdG m := by
  intro c t
  have raised : (s.raiseLclk id wts).ctx id = { c with clocks := s.clocksAt id wts, cr := { c.cr with lclk := maxStamp (s.lclkOf id) wts } } := s.ctx_setCtx_self ..
  have self : t.ctx id = { (((s.raiseLclk id wts).ctx id).wrG (k.result c v).1 (k.result c v).2).arrived (.g (k.result c v).1) with
      st := .ready, wait := .none, unrecorded := false } :=
    (congrArg (fun u : State => u.ctx id) (if_pos holds)).trans ((s.raiseLclk id wts).ctx_setCtx_self ..)
  refine ⟨by rw [self], by rw [self], ?_, fun m => ?_⟩
  · rw [self, raised]
    exact Ctx.wrG_cr ..
  · rw [self, raised]
    exact Ctx.rdG_wrG ..

/-- A waiter whose condition does not hold waits on, and sends its wait again. -/
theorem State.takeWord_waits (fails : k.holds v = false) : let t := s.takeWord id k v wts
    (t.ctx id).st = .waiting ∧ (t.ctx id).wait = k ∧ (t.ctx id).g = (s.ctx id).g ∧
      ∃ g ∈ t.net.flights, g.ctx = id ∧ g.uid = (s.ctx id).uid ∧ g.kind = .wait (.word (k.word?.getD 0)) (k.word?.getD 0) k.target 0 (.core (coreOf id)) := by
  intro t
  have waits : (s.onCtx id fun c => { c with st := .waiting, wait := k }).ctx id = { s.ctx id with st := .waiting, wait := k } := s.ctx_setCtx_self ..
  have e : t = (s.onCtx id fun c => { c with st := .waiting, wait := k }).sendWait id (.word (k.word?.getD 0)) k.target := if_neg (by simp [fails])
  have self := (s.onCtx id fun c => { c with st := .waiting, wait := k }).sendWait_ctx_self id (.word (k.word?.getD 0)) k.target
  obtain ⟨g, flights, ctx, uid, kind⟩ := (s.onCtx id fun c => { c with st := .waiting, wait := k }).sendWait_sends id (.word (k.word?.getD 0)) k.target
  rw [waits] at self uid
  rw [e, self]
  exact ⟨rfl, rfl, rfl, g, by rw [flights]; exact List.mem_append_right _ (List.mem_singleton_self g), ctx, uid, kind⟩

end

theorem coreOf_threadId {core num : Nat} (h : num < 6) : coreOf (core * 8 + num) = core := by
  unfold coreOf
  omega

theorem threadIds_nodup (core : Nat) : ((List.range 6).map (core * 8 + ·)).Nodup :=
  List.nodup_range.map fun _ _ e => Nat.add_left_cancel e

/-- WAIT_WAKE: each waiter of the core on the word tests its condition (R199). -/
theorem completes_waitWake {s : State} {n a core num : Nat} {f : Flight} {v : Word} {wts : Stamp} (carried : s.Carries n f (.wake (.word a) v wts (.core core) false))
    (order : s.inOrder n = true) (thread : num < 6) (waiting : (s.ctx (core * 8 + num)).st = .waiting) (part : (s.ctx (core * 8 + num)).partNo = f.part)
    (word : (s.ctx (core * 8 + num)).wait.word? = some a) : Completes (.waitWake n) s fun t => t.mem = s.mem ∧ t.cores = s.cores ∧
      let id := core * 8 + num
      let c := s.ctx id
      (c.wait.holds v = true → (t.ctx id).st = .ready ∧ (t.ctx id).wait = .none ∧ (t.ctx id).cr = { c.cr with lclk := maxStamp (s.lclkOf id) wts } ∧
        ∀ m, (t.ctx id).rdG m = if m = (c.wait.result c v).1 ∧ m ≠ 0 then (c.wait.result c v).2 else c.rdG m) ∧
      (c.wait.holds v = false → (t.ctx id).st = .waiting ∧ (t.ctx id).wait = c.wait ∧ (t.ctx id).g = c.g ∧
        ∃ g ∈ t.net.flights, g.ctx = id ∧ g.uid = c.uid ∧ g.kind = .wait (.word a) a c.wait.target 0 (.core core)) := by
  obtain ⟨flight, kind⟩ := carried
  have member : core * 8 + num ∈ s.waitersFor core f.part a :=
    List.mem_filter.2 ⟨List.mem_map.2 ⟨num, List.mem_range.2 thread, rfl⟩, by simp [waiting, part, word]⟩
  have distinct : (s.waitersFor core f.part a).Nodup := (threadIds_nodup core).filter _
  have performs : exec (.waitWake n) s = .next ((s.waitersFor core f.part a).foldl (fun s id => s.wakeOne v wts false id) (s.dropFlight n)) := by
    refine congrArg Host.Outcome.next ?_
    rw [flight]
    dsimp only
    rw [kind]
    dsimp only
    rw [order]
    rfl
  obtain ⟨before, after, split⟩ := List.append_of_mem member
  rw [split] at distinct performs
  obtain ⟨-, -, apart⟩ := List.nodup_append.1 distinct
  have fresh : core * 8 + num ∉ before := fun h => apart _ h _ List.mem_cons_self rfl
  have last : core * 8 + num ∉ after := (List.nodup_cons.1 (List.nodup_append.1 distinct).2.1).1
  rw [List.foldl_append, List.foldl_cons] at performs
  have first := State.Serves.foldl (F := fun s id => s.wakeOne v wts false id) (fun t i => .wakeOne t v wts false i) before (s.dropFlight n)
  generalize before.foldl (fun s id => s.wakeOne v wts false id) (s.dropFlight n) = u at first performs
  have same : u.ctx (core * 8 + num) = s.ctx (core * 8 + num) := first.ctx _ fresh
  have clock : u.lclkOf (core * 8 + num) = s.lclkOf (core * 8 + num) := first.lclkOf fresh
  have mine : u.wakeOne v wts false (core * 8 + num) = u.takeWord (core * 8 + num) (s.ctx (core * 8 + num)).wait v wts := by rw [← same]; rfl
  have served := State.Serves.takeWord u (core * 8 + num) (s.ctx (core * 8 + num)).wait v wts
  have rest := State.Serves.foldl (F := fun s id => s.wakeOne v wts false id) (fun t i => .wakeOne t v wts false i) after
    (u.takeWord (core * 8 + num) (s.ctx (core * 8 + num)).wait v wts)
  refine ⟨_, performs, ?_⟩
  rw [mine]
  have ctx := rest.ctx _ last
  obtain ⟨cs, fs, all⟩ := (first.trans (served.trans rest)).rest
  obtain ⟨cs', fs', ends⟩ := rest.rest
  refine ⟨by rw [all]; rfl, by rw [all]; rfl, fun holds => ?_, fun fails => ?_⟩
  · have taken := u.takeWord_holds (core * 8 + num) wts holds
    rw [same, clock] at taken
    rw [ctx]
    exact taken
  · obtain ⟨st, wait, g, sent, mem, sender, uid, carries⟩ := u.takeWord_waits (core * 8 + num) wts fails
    rw [same] at g uid
    rw [word, Option.getD_some, coreOf_threadId thread] at carries
    rw [ctx]
    refine ⟨st, wait, g, sent, ?_, sender, uid, carries⟩
    rw [ends]
    exact List.mem_append_left _ mem

/-! ### Waits that are sent again (R104) -/

/-- The wait of a context for the word `a` has been sent again. -/
def State.Resent (s : State) (id a : Nat) (t : State) : Prop :=
  t.ctx id = { s.ctx id with waitSent := s.gtrOf (tileOf (coreOf id)), unrecorded := false } ∧ t.mem = s.mem ∧ (∀ i, i ≠ id → t.ctx i = s.ctx i) ∧
    ∃ g : Flight, t.net.flights = s.net.flights ++ [g] ∧ g.ctx = id ∧ g.uid = (s.ctx id).uid ∧
      g.kind = .wait (.word a) a (s.ctx id).wait.target 0 (.core (coreOf id))

section
variable {s : State} {id a : Nat} (thread : numberOf id < 6) (waiting : (s.ctx id).st = .waiting) (word : (s.ctx id).wait.word? = some a)
include word

theorem State.resendWaits_word : s.Resent id a (s.resendWaits id) := by
  have e : s.resendWaits id = s.sendWait id (.word a) (s.ctx id).wait.target := by
    unfold State.resendWaits
    rw [word]
  rw [e]
  exact ⟨s.sendWait_ctx_self .., rfl, fun i hi => s.ctx_setCtx_ne hi _, s.sendWait_sends id (.word a) _⟩

include thread waiting

theorem completes_waitRepoll (due : (s.ctx id).waitSent + 1024000 ≤ s.gtrOf (tileOf (coreOf id))) : Completes (.waitRepoll id) s (s.Resent id a) := by
  refine ⟨s.resendWaits id, ?_, State.resendWaits_word word⟩
  have squall : s.squallWaiting id = true := by simp [State.squallWaiting, waiting, word]
  have due' : (s.ctx id).waitSent + 64 * microsecond ≤ s.gtrOf (tileOf (coreOf id)) := due
  refine congrArg Host.Outcome.next ?_
  rw [if_neg (by omega), if_neg (by simp [isXu]; omega), if_pos (by simp [squall, due'])]

theorem completes_unrecordedResend (unrecorded : (s.ctx id).unrecorded = true) (due : (s.ctx id).waitSent + 64000 ≤ s.gtrOf (tileOf (coreOf id))) :
    Completes (.unrecordedResend id) s (s.Resent id a) := by
  refine ⟨s.resendWaits id, ?_, State.resendWaits_word word⟩
  have squall : s.squallWaiting id = true := by simp [State.squallWaiting, waiting, word]
  have due' : (s.ctx id).waitSent + 4 * microsecond ≤ s.gtrOf (tileOf (coreOf id)) := due
  refine congrArg Host.Outcome.next ?_
  rw [if_neg (by omega), if_neg (by simp [isXu]; omega), if_pos (by simp [squall, unrecorded, due'])]

end

/-! ### Waits for a time (R88) -/

theorem exec_waittExpiry {s : State} {id : Nat} {v : Word} (waiting : (s.ctx id).st = .waiting) (wait : (s.ctx id).wait = .waitt v)
    (due : v.toNat ≤ s.gtrOf (tileOf (coreOf id))) :
    exec (.waittExpiry id) s = .next (s.setCtx id { s.ctx id with st := .ready, wait := .none, unrecorded := false }) := by
  refine congrArg Host.Outcome.next ?_
  rw [waiting, wait]
  exact if_pos due

end Sys2Proof.Machine


/-!
PROOFS. Launches that are ordered to abort (R345, R346): the record that ends one stays, whatever is charged to it later.
-/
namespace Sys2Proof.Machine

/-! ### A launch of a partition -/

theorem State.launch?_eq (s : State) (p slot : Nat) : s.launch? p slot = (s.parts.get p).bind fun q => q.launches.get slot := by
  unfold State.launch?
  cases s.parts.get p <;> rfl

theorem State.get_parts_onPart (s : State) (p p' : Nat) (f : Part → Part) :
    (s.onPart p f).parts.get p' = if p' = p then (s.parts.get p).map f else s.parts.get p' := by
  unfold State.onPart
  cases part : s.parts.get p with
  | none => by_cases e : p' = p <;> simp [e, part]
  | some q => exact FMap.get_set ..

theorem Part.get_launches_onLaunch (q : Part) (slot slot' : Nat) (f : Launch → Launch) :
    (q.onLaunch slot f).launches.get slot' = if slot' = slot then (q.launches.get slot).map f else q.launches.get slot' := by
  unfold Part.onLaunch
  cases launch : q.launches.get slot with
  | none => by_cases e : slot' = slot <;> simp [e, launch]
  | some l => exact FMap.get_set ..

theorem State.launch?_onLaunch (s : State) (p slot p' slot' : Nat) (f : Launch → Launch) :
    (s.onLaunch p slot f).launch? p' slot' = if p' = p ∧ slot' = slot then (s.launch? p slot).map f else s.launch? p' slot' := by
  rw [State.onLaunch, State.launch?_eq, State.get_parts_onPart]
  by_cases hp : p' = p
  · subst hp
    cases part : s.parts.get p' with
    | none => simp [State.launch?_eq, part]
    | some q => simp [State.launch?_eq, part, Part.get_launches_onLaunch]
  · simp [State.launch?_eq, hp]

theorem State.launch?_onPart {f : Part → Part} (same : ∀ q, (f q).launches = q.launches) (s : State) (p p' slot : Nat) :
    (s.onPart p f).launch? p' slot = s.launch? p' slot := by
  rw [State.launch?_eq, State.get_parts_onPart, State.launch?_eq]
  by_cases hp : p' = p
  · subst hp
    cases s.parts.get p' <;> simp [same]
  · simp [hp]

/-- A launch of a partition of which `Q` holds. -/
def State.HasLaunch (s : State) (p slot : Nat) (Q : Launch → Prop) : Prop := ∃ l, s.launch? p slot = some l ∧ Q l

/-- A launch that its record `x` aborts. -/
def Launch.AbortsWith (x : AbortRec) (l : Launch) : Prop := l.st = .aborted ∧ l.pendingAbort = some x

/-- A launch that is to end as one with a page that is not mapped, if at all (R350). -/
def Launch.EndsAtPage (l : Launch) : Prop := ∀ x, l.pendingAbort = some x → x.kind = 17

namespace State.HasLaunch
variable {s : State} {p slot : Nat} {Q : Launch → Prop}

theorem orderAbort (h : s.HasLaunch p slot Q) (p' slot' : Nat) {r : AbortRec} (keeps : ∀ l x, x.kind = r.kind → Q l → Q (l.orderAbort x)) :
    (s.orderAbort p' slot' r).HasLaunch p slot Q := by
  obtain ⟨l, launch, holds⟩ := h
  unfold HasLaunch State.orderAbort
  rw [State.launch?_onLaunch]
  split
  · rename_i e
    obtain ⟨rfl, rfl⟩ := e
    rw [launch]
    exact ⟨_, rfl, keeps _ _ rfl holds⟩
  · exact ⟨l, launch, holds⟩

theorem onPart (h : s.HasLaunch p slot Q) {f : Part → Part} (same : ∀ q, (f q).launches = q.launches) (p' : Nat) : (s.onPart p' f).HasLaunch p slot Q := by
  obtain ⟨l, launch, holds⟩ := h
  exact ⟨l, (State.launch?_onPart same ..).trans launch, holds⟩

theorem of_parts {t : State} (h : s.HasLaunch p slot Q) (same : t.parts = s.parts) : t.HasLaunch p slot Q := by
  obtain ⟨l, launch, holds⟩ := h
  refine ⟨l, ?_, holds⟩
  rw [State.launch?, same]
  exact launch

end State.HasLaunch

theorem Launch.AbortsWith.orderAbort {x : AbortRec} {l : Launch} (h : l.AbortsWith x) (r : AbortRec) : (l.orderAbort r).AbortsWith x := by
  refine ⟨rfl, ?_⟩
  unfold Launch.orderAbort
  rw [h.2]
  rfl

theorem Launch.EndsAtPage.orderAbort {l : Launch} (h : l.EndsAtPage) {r : AbortRec} (kind : r.kind = 17) : (l.orderAbort r).EndsAtPage := by
  intro x hx
  unfold Launch.orderAbort at hx
  cases pending : l.pendingAbort with
  | none =>
    rw [pending] at hx
    cases hx
    exact kind
  | some y =>
    rw [pending] at hx
    cases hx
    exact h _ pending

/-- The first order to abort a launch is the one that counts. -/
theorem State.orderAbort_first {s : State} {p slot : Nat} {l : Launch} (launch : s.launch? p slot = some l) (none : l.pendingAbort = none) (r : AbortRec) :
    (s.orderAbort p slot r).HasLaunch p slot (Launch.AbortsWith { r with slot := slot, gtr := s.gtrOf sDie }) := by
  refine ⟨l.orderAbort { r with slot := slot, gtr := s.gtrOf sDie }, ?_, rfl, ?_⟩
  · rw [State.orderAbort, State.launch?_onLaunch, if_pos ⟨rfl, rfl⟩, launch]
    rfl
  · unfold Launch.orderAbort
    rw [none]
    rfl

/-- A launch that ends at a page, if at all, does once an order says so. -/
theorem State.HasLaunch.orderAbort_page {s : State} {p slot : Nat} (h : s.HasLaunch p slot Launch.EndsAtPage) {r : AbortRec} (kind : r.kind = 17) :
    ∃ x : AbortRec, x.kind = 17 ∧ (s.orderAbort p slot r).HasLaunch p slot (Launch.AbortsWith x) := by
  obtain ⟨l, launch, ends⟩ := h
  cases pending : l.pendingAbort with
  | none => exact ⟨{ r with slot := slot, gtr := s.gtrOf sDie }, kind, State.orderAbort_first launch pending r⟩
  | some x =>
    refine ⟨x, ends x pending, l.orderAbort { r with slot := slot, gtr := s.gtrOf sDie }, ?_, rfl, ?_⟩
    · rw [State.orderAbort, State.launch?_onLaunch, if_pos ⟨rfl, rfl⟩, launch]
      rfl
    · unfold Launch.orderAbort
      rw [pending]
      rfl

end Sys2Proof.Machine


/-!
PROOFS. A page that is mapped or denied (R315, R316, R350): what writing its leaf leaves alone, its parked store, its waiters and its launches.
-/
namespace Sys2Proof.Machine

/-! ### Writing a leaf (R314 to R316, R324) -/

/-- Between `s` and `t` only the bytes, poison, host lines, memory stamps, wipes still to come, places and entries of pages have changed. -/
def State.PagesOnly (s t : State) : Prop :=
  ∃ m po pt li ms uw pl, t = { s with
    mem := m, poison := po, pte := pt, host := { s.host with lines := li }, net := { s.net with mstamps := ms, unwiped := uw, places := pl } }

namespace State.PagesOnly
variable {s t u : State}

theorem refl (s : State) : s.PagesOnly s := ⟨s.mem, s.poison, s.pte, s.host.lines, s.net.mstamps, s.net.unwiped, s.net.places, rfl⟩

theorem trans (h : s.PagesOnly t) (h' : t.PagesOnly u) : s.PagesOnly u := by
  obtain ⟨_, _, _, _, _, _, _, rfl⟩ := h
  obtain ⟨m, po, pt, li, ms, uw, pl, rfl⟩ := h'
  exact ⟨m, po, pt, li, ms, uw, pl, rfl⟩

theorem foldl {α : Type} {F : State → α → State} (hF : ∀ (t : State) (x : α), t.PagesOnly (F t x)) (l : List α) (s : State) : s.PagesOnly (l.foldl F s) := by
  induction l generalizing s with
  | nil => exact refl s
  | cons x l ih => exact (hF s x).trans (ih _)

theorem writeMem (s : State) (a n v : Nat) : s.PagesOnly (s.writeMem a n v) :=
  ⟨s.mem.writeNat a n v, (s.writeMem a n v).poison, s.pte, s.host.lines, s.net.mstamps, s.net.unwiped, s.net.places, rfl⟩

theorem setHostLine (s : State) (l : HostLine) : s.PagesOnly (s.setHostLine l) :=
  ⟨s.mem, s.poison, s.pte, (s.setHostLine l).host.lines, s.net.mstamps, s.net.unwiped, s.net.places, rfl⟩

theorem setPoison (s : State) (a : Nat) (on : Bool) : s.PagesOnly (s.setPoison a on) :=
  ⟨s.mem, (s.setPoison a on).poison, s.pte, s.host.lines, s.net.mstamps, s.net.unwiped, s.net.places, rfl⟩

theorem hostAt (s : State) (l : HostLine) (a : Nat) : s.PagesOnly (s.hostAt l a) := by
  unfold State.hostAt
  split
  · exact refl s
  · exact ((writeMem ..).trans (setHostLine ..)).trans (foldl (fun t i => setPoison t _ true) _ _)

theorem wipeStamps (s : State) (p a k : Nat) : s.PagesOnly (s.wipeStamps p a k) := by
  unfold State.wipeStamps
  split
  · exact refl s
  · refine List.foldlRecOn _ _ (refl s) fun t ht sl _ => ht.trans (List.foldlRecOn _ _ (refl t) fun u hu i _ => hu.trans ?_)
    exact ⟨u.mem, u.poison, u.pte, u.host.lines, _, u.net.unwiped, u.net.places, rfl⟩

theorem wipePage (s : State) (p a n : Nat) : s.PagesOnly (s.wipePage p a n) := by
  have aside : s.PagesOnly (s.hostAside a n) := foldl (fun t l => hostAt t l _) _ s
  have bytes (u : State) : u.PagesOnly (u.wipeMemory a n) := ⟨_, _, u.pte, u.host.lines, u.net.mstamps, u.net.unwiped, u.net.places, rfl⟩
  exact (aside.trans (bytes _)).trans (wipeStamps ..)

theorem wipeOrWait (s : State) (a n owner : Nat) : s.PagesOnly (s.wipeOrWait a n owner) := by
  unfold State.wipeOrWait
  split
  · exact ⟨s.mem, s.poison, s.pte, s.host.lines, s.net.mstamps, _, s.net.places, rfl⟩
  · exact wipePage ..

end State.PagesOnly

/-- Writing the leaf of a page of 64 KiB writes its entry, and changes nothing but pages. -/
theorem State.writeLeaf_writes (s : State) (page : Nat) (e : Word) :
    s.PagesOnly (s.writeLeaf 4 page e) ∧ (s.writeLeaf 4 page e).pte.getD (pteKey 4 (page * 65536)) 0 = e := by
  have start : page * 65536 / (65536 * 1) * (65536 * 1) = page * 65536 := by omega
  unfold State.writeLeaf
  extract_lets large size a old owner net s1 s2 s3 above
  have whole : a = page * 65536 := start
  have placed : s.PagesOnly s1 := ⟨s.mem, s.poison, s.pte, s.host.lines, s.net.mstamps, s.net.unwiped, _, rfl⟩
  have wiped : s1.PagesOnly s3 := by
    show s1.PagesOnly (if (sameOwner old e || leadsOn 4 old) = true then s1 else s1.wipeOrWait a size owner)
    split
    · exact .refl s1
    · exact .wipeOrWait ..
  refine ⟨(placed.trans wiped).trans ⟨s3.mem, s3.poison, _, s3.host.lines, s3.net.mstamps, s3.net.unwiped, s3.net.places, rfl⟩, ?_⟩
  rw [whole]
  exact FMap.getD_set_self ..

/-- A page whose leaf may be written with a valid one has no translation at any slice (R314, R315). -/
theorem State.untranslated_of_mayWrite {s : State} {page p : Nat} {e : Word} (leaf : leafFor e p = true) (may : s.mayWrite 4 page e = true) :
    ∀ x ∈ s.net.trans, x.page ≠ page := by
  have valid : bitsOf e 63 1 = 1 := by
    have walks : walkEntry 4 e = some (.leaf e) := by
      unfold leafFor at leaf
      simp only [Bool.and_eq_true, beq_iff_eq] at leaf
      exact leaf.1
    have bit : bitsOf e 63 1 < 2 := by unfold bitsOf; omega
    by_contra no
    unfold walkEntry at walks
    rw [if_pos (by omega)] at walks
    split at walks <;> cases walks
  have uncached : s.cached page 1 = false := by
    unfold State.mayWrite at may
    dsimp only at may
    split at may
    · cases may
    · simp only [Bool.and_eq_true, Bool.not_eq_true'] at may
      exact may.1
  intro x hx
  have apart := List.any_eq_false.1 uncached x hx
  simpa using apart

/-! ### A fault record that is closed (R199, R350) -/

/-- The fault record of a page is gone, and every wait for the page that `s` recorded has been woken with `v`. -/
def State.Closes (s : State) (p page : Nat) (v : Word) (t : State) : Prop :=
  (∀ x ∈ t.net.faults, ¬(x.part = p ∧ x.page = page)) ∧ ∀ w ∈ s.net.waits, w.part = p → w.key = .page page →
    ∃ g ∈ t.net.flights, g.part = p ∧ g.kind = .wake (.page page) v 0 (elevatorPort w.slice) false

theorem State.closeFault_eq (s : State) (r : FaultRec) (v : Word) : (∃ fa wa ws, s.closeFault r v = s.withNet { s.net with faults := fa, waits := wa, flights := s.net.flights ++ ws }) ∧
    s.Closes r.part r.page v (s.closeFault r v) := by
  have sent := State.foldl_sendSome (s.withNet { s.net with
      faults := s.net.faults.filter fun x => !(x.part == r.part && x.page == r.page)
      waits := s.net.waits.filter fun w => !(w.part == r.part && decide (w.key = .page r.page)) })
    (fun t (w : WaitRec) => some (t.wakeOf r.part (.page r.page) v 0 (elevatorPort w.slice) false)) (fun _ _ => rfl)
    (fun net w f hf => State.stamped_withNet _ net fun g c b => by cases hf; exact FKind.noConfusion)
    (s.net.waits.filter fun w => w.part == r.part && decide (w.key = .page r.page))
  have e : s.closeFault r v = _ := sent
  refine ⟨⟨_, _, _, e⟩, fun x hx => ?_, fun w hw part key => ?_⟩
  · rw [e] at hx
    have kept := (List.mem_filter.1 hx).2
    rintro ⟨part, paged⟩
    simp [part, paged] at kept
  · rw [e]
    refine ⟨_, List.mem_append_right _ (List.mem_filterMap.2 ⟨w, List.mem_filter.2 ⟨hw, by simp [part, key]⟩, rfl⟩), State.stamped_part .., State.stamped_kind ..⟩

/-! ### Parked stores and atomics (R350) -/

/-- Whether a flight is parked for a page of a partition. -/
def Flight.parkedFor (f : Flight) (p page : Nat) : Bool :=
  f.part == p && match f.kind with
    | .store q => q.parked && pageOf q.addr == page
    | .atomic q => q.parked && pageOf q.addr == page
    | _ => false

theorem State.firstParked_none {s : State} {p page : Nat} : s.firstParked p page = none ↔ ∀ g ∈ s.net.flights, g.parkedFor p page = false :=
  List.findIdx?_eq_none_iff

theorem State.firstParked_store {s : State} {p page n : Nat} {f : Flight} {q : StoreReq} (first : s.firstParked p page = some n) (carried : s.Carries n f (.store q)) :
    f.part = p ∧ q.parked = true ∧ f.parkedAddr = some q.addr ∧ n < s.net.flights.length := by
  obtain ⟨flight, kind⟩ := carried
  obtain ⟨inside, parked, -⟩ := List.findIdx?_eq_some_iff_getElem.1 first
  have e : s.net.flights[n] = f := (List.getElem?_eq_some_iff.1 flight).2
  rw [e, kind] at parked
  simp only [Bool.and_eq_true, beq_iff_eq] at parked
  obtain ⟨part, parked, -⟩ := parked
  refine ⟨part, parked, ?_, inside⟩
  unfold Flight.parkedAddr
  rw [kind]
  simp [parked]

theorem Flight.Unparked.parkedFor {g : Flight} (h : g.Unparked) (p page : Nat) : g.parkedFor p page = false := by
  obtain ⟨store, atomic⟩ := h
  unfold Flight.parkedFor
  cases kind : g.kind with
  | store q => exact absurd kind (store q)
  | atomic q => exact absurd kind (atomic q)
  | _ => exact Bool.and_false _

theorem State.unpark_none {s : State} {p page : Nat} (none : s.firstParked p page = none) (sl k : Nat) : s.unpark p page sl k = s := by
  cases k with
  | zero => rfl
  | succ k => rw [State.unpark, none]

theorem State.denyParked_none {s : State} {p page : Nat} (none : s.firstParked p page = none) (sl k : Nat) : s.denyParked p page sl k = s := by
  cases k with
  | zero => rfl
  | succ k => rw [State.denyParked, none]

/-! ### A mapped page -/

theorem exec_pageResolve_leaf {s : State} {p page : Nat} {r : FaultRec} {e : Word} (recorded : s.net.faults.find? (fun x => x.part == p && x.page == page) = some r)
    (leaf : leafFor e p = true) (may : s.mayWrite 4 page e = true) (stays : ∀ o, s.pagePlace 4 (page * 65536) = some o → dataMoves o e = false) :
    exec (.pageResolve p page (some e)) s = .next ((s.writeLeaf 4 page e).mapFault r) := by
  have still : ((s.pagePlace 4 (page * 65536)).any fun o => dataMoves o e) = false := by
    cases place : s.pagePlace 4 (page * 65536) with
    | none => rfl
    | some o => exact stays o place
  refine congrArg Host.Outcome.next ?_
  rw [recorded]
  exact if_pos (by simp [leaf, may, still])

theorem FaultRec.found {s : State} {p page : Nat} {r : FaultRec} (recorded : s.net.faults.find? (fun x => x.part == p && x.page == page) = some r) :
    r.part = p ∧ r.page = page := by
  have h := List.find?_some recorded
  simpa using h

theorem completes_pageResolve_unparked {s : State} {p page : Nat} {r : FaultRec} {e : Word}
    (recorded : s.net.faults.find? (fun x => x.part == p && x.page == page) = some r) (leaf : leafFor e p = true) (may : s.mayWrite 4 page e = true)
    (stays : ∀ o, s.pagePlace 4 (page * 65536) = some o → dataMoves o e = false) (none : s.firstParked p page = none) : Completes (.pageResolve p page (some e)) s fun t =>
      t.pte.getD (pteKey 4 (page * 65536)) 0 = e ∧ s.Closes p page 1 t ∧ (∀ x ∈ t.net.trans, x.page ≠ page) ∧ t.ctxs = s.ctxs := by
  refine ⟨_, exec_pageResolve_leaf recorded leaf may stays, ?_⟩
  have translated := State.untranslated_of_mayWrite leaf may
  obtain ⟨part, paged⟩ := FaultRec.found recorded
  obtain ⟨pages, entry⟩ := s.writeLeaf_writes page e
  generalize s.writeLeaf 4 page e = m at pages entry ⊢
  obtain ⟨me, po, pt, li, ms, uw, pl, same⟩ := pages
  have none' : m.firstParked r.part r.page = .none := by
    rw [part, paged, same]
    exact none
  unfold State.mapFault
  rw [State.unpark_none none']
  obtain ⟨⟨fa, wa, ws, closed⟩, closes⟩ := m.closeFault_eq r 1
  have waits : m.net.waits = s.net.waits := by rw [same]
  refine ⟨?_, ?_, ?_, ?_⟩
  · rw [closed]
    exact entry
  · rw [part, paged] at closes
    obtain ⟨gone, woken⟩ := closes
    rw [waits] at woken
    exact ⟨gone, woken⟩
  · rw [closed, same]
    exact translated
  · rw [closed, same]
    rfl

end Sys2Proof.Machine


/-!
PROOFS. The store that is parked for a page: it performs once the page is mapped, and ends its launch once the page is denied (R350).
-/
namespace Sys2Proof.Machine

/-! ### A mapped page -/

theorem State.unitFreed_eq (s : State) (r : Res) : ∃ ts, s.unitFreed r = s.withTurns ts := ⟨_, rfl⟩

/-- Whether a store stands behind others does not hang on the store itself. -/
theorem State.parkedBehind_putFlight {s : State} {n : Nat} {f : Flight} {q : StoreReq} (carried : s.Carries n f (.store q)) (g : Flight) {p a : Nat}
    (free : (s.putFlight n g).parkedBehind n p a = false) : s.parkedBehind n p a = false := by
  obtain ⟨flight, kind⟩ := carried
  have taken : (s.putFlight n g).net.flights.take n = s.net.flights.take n := List.take_set_of_le (Nat.le_refl n)
  unfold State.parkedBehind at free ⊢
  rw [taken, Bool.or_eq_false_iff] at free
  obtain ⟨before, pushes⟩ := free
  rw [Bool.or_eq_false_iff]
  refine ⟨before, List.any_eq_false.2 fun x hx => ?_⟩
  obtain ⟨i, there⟩ := List.mem_iff_getElem?.1 hx
  by_cases own : i = n
  · have same : x = f := by
      rw [own] at there
      exact Option.some.inj (there.symm.trans flight)
    rw [same, kind]
    simp
  · refine List.any_eq_false.1 pushes x (List.mem_iff_getElem?.2 ⟨i, ?_⟩)
    exact (List.getElem?_set_ne (Ne.symm own)).trans there

/-- The first parked flight is a store that no other holds back: it arrives at its home again. -/
theorem State.unpark_store {s : State} {p page n : Nat} {f : Flight} {q : StoreReq} (first : s.firstParked p page = some n) (carried : s.Carries n f (.store q)) (sl k : Nat)
    (free : ((s.unitFreed (.park ((s.homeSlice p q.addr).getD sl))).putFlight n { f with kind := .store { q with parked := false, held := 4 } }).parkedBehind n p q.addr = false) :
    s.unpark p page sl (k + 1) =
      (((s.unitFreed (.park ((s.homeSlice p q.addr).getD sl))).putFlight n { f with kind := .store { q with parked := false, held := 4 } }).storeArrives n f
        { q with parked := false }).unpark p page sl k := by
  obtain ⟨-, -, place, -⟩ := State.firstParked_store first carried
  have alone := State.parkedBehind_putFlight (s := s.unitFreed (.park ((s.homeSlice p q.addr).getD sl))) carried _ free
  obtain ⟨flight, kind⟩ := carried
  rw [State.unpark, first]
  dsimp only
  rw [flight]
  dsimp only
  rw [place, kind]
  dsimp only
  rw [Option.getD_some, if_neg (Bool.eq_false_iff.1 alone)]

theorem completes_pageResolve_parked {s s1 : State} {p page n sl : Nat} {r : FaultRec} {e : Word} {f : Flight} {q : StoreReq} {host : Option Nat} {w : Stamp}
    (recorded : s.net.faults.find? (fun x => x.part == p && x.page == page) = some r) (leaf : leafFor e p = true) (may : s.mayWrite 4 page e = true)
    (stays : ∀ o, s.pagePlace 4 (page * 65536) = some o → dataMoves o e = false) (carried : s.Carries n f (.store q)) (first : s.firstParked p page = some n)
    {m u : State} (mapped : m = s.writeLeaf 4 page e)
    (unparked : u = (m.unitFreed (.park ((m.homeSlice p q.addr).getD r.slice))).putFlight n { f with kind := .store { q with parked := false, held := 4 } })
    (only : u.firstParked p page = none) (free : u.parkedBehind n p q.addr = false) (ready : StoreReady u s1 f { q with parked := false } sl host w) :
    Completes (.pageResolve p page (some e)) s fun t => s.Closes p page 1 t ∧ t.mem = s1.mem.writeNat q.addr q.size q.data.toNat ∧
      ∃ v, t.stamped { f with kind := .storeAck { q with parked := false } v } ∈ t.net.flights := by
  refine ⟨_, exec_pageResolve_leaf recorded leaf may stays, ?_⟩
  rw [← mapped]
  obtain ⟨part, paged⟩ := FaultRec.found recorded
  obtain ⟨me, po, pt, li, ms, uw, pl, same⟩ : s.PagesOnly m := mapped ▸ (s.writeLeaf_writes page e).1
  have carried' : m.Carries n f (.store q) := by rw [same]; exact carried
  have first' : m.firstParked p page = some n := by rw [same]; exact first
  obtain ⟨-, -, -, inside⟩ := State.firstParked_store first' carried'
  obtain ⟨ts, freed⟩ := m.unitFreed_eq (.park ((m.homeSlice p q.addr).getD r.slice))
  have carried'' : n < u.net.flights.length := by
    rw [unparked, freed]
    exact Nat.lt_of_lt_of_eq inside (List.length_set ..).symm
  have waits : u.net.waits = s.net.waits := by
    rw [unparked, freed, same]
    rfl
  obtain ⟨performs, leaves⟩ := State.storeArrives_performs carried'' ready
  have arrives : m.unpark p page r.slice m.net.flights.length = u.storeArrives n f { q with parked := false } := by
    obtain ⟨k, long⟩ := Nat.exists_eq_succ_of_ne_zero (Nat.ne_zero_of_lt inside)
    rw [long, State.unpark_store first' carried' r.slice k (by rw [← unparked]; exact free), ← unparked]
    refine State.unpark_none (State.firstParked_none.2 fun g hg => ?_) ..
    rcases leaves.flights g hg with old | new
    · exact State.firstParked_none.1 only g (List.mem_of_mem_eraseIdx old)
    · exact new.parkedFor p page
  unfold State.mapFault
  rw [part, paged, arrives]
  generalize u.storeArrives n f { q with parked := false } = x at performs leaves
  obtain ⟨⟨fa, wa, ws, closed⟩, closes⟩ := x.closeFault_eq r 1
  rw [part, paged] at closes
  obtain ⟨v, -, -, ack⟩ := performs.ack
  refine ⟨⟨closes.1, fun y hy party key => closes.2 y (leaves.waits y (waits ▸ hy) page key) party key⟩, ?_, v, ?_⟩
  · rw [closed]
    exact performs.mem
  · have stamped (net : Net) : (x.withNet net).stamped { f with kind := .storeAck { q with parked := false } v } =
        x.stamped { f with kind := .storeAck { q with parked := false } v } := x.stamped_withNet net fun _ _ _ => FKind.noConfusion
    rw [closed]
    refine (stamped _).symm ▸ ?_
    exact List.mem_append_left _ ack

/-! ### A denied page -/

/-- Between `s` and `t` only partitions have changed. -/
def State.PartsOnly (s t : State) : Prop := ∃ ps, t = { s with parts := ps }

theorem State.PartsOnly.onPart (s : State) (p : Nat) (f : Part → Part) : s.PartsOnly (s.onPart p f) := by
  unfold State.onPart
  split
  · exact ⟨_, rfl⟩
  · exact ⟨s.parts, rfl⟩

/-- Between `s` and `t` launches have been ordered to abort: only partitions have changed, and an order that stood already stands. -/
structure State.Orders (s t : State) : Prop where
  only : s.PartsOnly t
  keeps : ∀ p slot x, s.HasLaunch p slot (Launch.AbortsWith x) → t.HasLaunch p slot (Launch.AbortsWith x)

namespace State.Orders
variable {s t : State}

theorem refl (s : State) : s.Orders s := ⟨⟨s.parts, rfl⟩, fun _ _ _ h => h⟩

theorem orderAbort (h : s.Orders t) (p slot : Nat) (r : AbortRec) : s.Orders (t.orderAbort p slot r) := by
  obtain ⟨⟨ps, rest⟩, keeps⟩ := h
  obtain ⟨ps', e⟩ := State.PartsOnly.onPart t p fun q => q.onLaunch slot fun l => l.orderAbort { r with slot := slot, gtr := t.gtrOf sDie }
  exact ⟨⟨ps', e.trans (by rw [rest])⟩, fun p' slot' x standing => (keeps p' slot' x standing).orderAbort p slot fun _ y _ aborts => aborts.orderAbort y⟩

/-- Launches that the denied page keeps are ordered to abort. -/
theorem denyLaunches (s : State) (p page : Nat) : s.Orders (s.denyLaunches p page) := by
  unfold State.denyLaunches
  split
  · exact refl s
  · refine List.foldlRecOn _ _ (refl s) fun t ht y _ => ?_
    dsimp only
    split
    · exact ht.orderAbort ..
    · split
      · exact ht.orderAbort ..
      · exact ht

end State.Orders

/-- The first parked flight is a store of a launch: it is dropped, and the launch is ordered to abort. -/
theorem State.denyParked_store {s : State} {p page n slot : Nat} {f : Flight} {q : StoreReq} (first : s.firstParked p page = some n) (carried : s.Carries n f (.store q))
    (squall : isXu f.ctx = false) (launch : f.launch = some slot) (sl k : Nat) : ∃ ts tid,
    s.denyParked p page sl (k + 1) = (((s.withTurns ts).dropFlight n).orderAbort p slot { kind := 17, tid := tid, addr := BitVec.ofNat 64 q.addr }).denyParked p page sl k := by
  obtain ⟨part, -, place, -⟩ := State.firstParked_store first carried
  obtain ⟨flight, kind⟩ := carried
  obtain ⟨ts, freed⟩ := s.unitFreed_eq (.park ((s.homeSlice p q.addr).getD sl))
  refine ⟨ts, if ((s.withTurns ts).dropFlight n).alive f then (((s.withTurns ts).dropFlight n).ctx f.ctx).cr.tid else 0, ?_⟩
  rw [State.denyParked, first]
  dsimp only
  rw [flight]
  dsimp only
  rw [place, Option.getD_some, freed, State.failFlight, squall, launch, part]
  rfl

theorem completes_pageResolve_denied {s : State} {p page n slot : Nat} {r : FaultRec} {f : Flight} {q : StoreReq} {l : Launch}
    (recorded : s.net.faults.find? (fun x => x.part == p && x.page == page) = some r) (carried : s.Carries n f (.store q)) (first : s.firstParked p page = some n)
    (squall : isXu f.ctx = false) (issued : f.launch = some slot) (launch : s.launch? p slot = some l) (unordered : l.pendingAbort = none)
    (stores : ∀ m g q', m ≠ n → s.Carries m g (.store q') → q'.parked = false) (atomics : ∀ m g q', s.Carries m g (.atomic q') → q'.parked = false) :
    Completes (.pageResolve p page none) s fun t => s.Closes p page 2 t ∧ t.mem = s.mem ∧ ∃ (l' : Launch) (x : AbortRec), t.launch? p slot = some l' ∧ l'.st = .aborted ∧
      l'.pendingAbort = some x ∧ x.kind = 17 ∧ x.addr = BitVec.ofNat 64 q.addr := by
  have denies : exec (.pageResolve p page none) s = .next (s.denyFault r) := by
    refine congrArg Host.Outcome.next ?_
    rw [recorded]
  refine ⟨_, denies, ?_⟩
  obtain ⟨part, paged⟩ := FaultRec.found recorded
  obtain ⟨-, -, -, inside⟩ := State.firstParked_store first carried
  obtain ⟨k, long⟩ := Nat.exists_eq_succ_of_ne_zero (Nat.ne_zero_of_lt inside)
  obtain ⟨ts, tid, denied⟩ := State.denyParked_store first carried squall issued r.slice k
  have aborts := State.orderAbort_first (s := (s.withTurns ts).dropFlight n) launch unordered { kind := 17, tid := tid, addr := BitVec.ofNat 64 q.addr }
  obtain ⟨ps, ordered⟩ := State.PartsOnly.onPart ((s.withTurns ts).dropFlight n) p fun q' => q'.onLaunch slot fun l =>
    l.orderAbort { kind := 17, tid := tid, addr := BitVec.ofNat 64 q.addr, slot := slot, gtr := ((s.withTurns ts).dropFlight n).gtrOf sDie }
  have rest : ((s.withTurns ts).dropFlight n).orderAbort p slot { kind := 17, tid := tid, addr := BitVec.ofNat 64 q.addr } = { (s.withTurns ts).dropFlight n with parts := ps } := ordered
  generalize ((s.withTurns ts).dropFlight n).orderAbort p slot { kind := 17, tid := tid, addr := BitVec.ofNat 64 q.addr } = m at denied aborts rest
  have unparked : m.firstParked p page = .none := by
    refine State.firstParked_none.2 fun g hg => ?_
    rw [rest] at hg
    obtain ⟨i, other, there⟩ := List.mem_eraseIdx_iff_getElem?.1 hg
    unfold Flight.parkedFor
    cases kind : g.kind with
    | store q' => simp [stores i g q' other ⟨there, kind⟩]
    | atomic q' => simp [atomics i g q' ⟨there, kind⟩]
    | _ => exact Bool.and_false _
  rw [State.denyParked_none unparked] at denied
  unfold State.denyFault
  rw [part, paged, long, denied]
  obtain ⟨⟨ps', later⟩, keeps⟩ := State.Orders.denyLaunches m p page
  have standing := keeps p slot _ aborts
  generalize m.denyLaunches p page = d at later standing
  obtain ⟨⟨fa, wa, ws, closed⟩, closes⟩ := d.closeFault_eq r 2
  rw [part, paged] at closes
  have waits : d.net.waits = s.net.waits := by rw [later, rest]; rfl
  obtain ⟨l', found, st, pending⟩ := standing.of_parts (t := d.closeFault r 2) (by rw [closed]; rfl)
  refine ⟨⟨closes.1, by rw [← waits]; exact closes.2⟩, ?_, l', _, found, st, pending, rfl, rfl⟩
  rw [closed, later, rest]
  rfl

end Sys2Proof.Machine


/-!
PROOFS. Accesses that wait for a page (R348, R350): FAULT_WAKE lets them be performed again, or orders their launches to abort.
-/
namespace Sys2Proof.Machine

/-! ### Performed again -/

/-- What a flight becomes when its access may be performed again: its fault is over. -/
def Flight.resumed (f : Flight) (id u page : Nat) : Flight :=
  if f.ctx = id ∧ f.uid = u then
    match f.kind with
    | .load q => if q.fault = 1 ∧ pageOf q.addr = page then { f with kind := .load { q with fault := 2 } } else f
    | .atomic q => if q.fault = 1 ∧ pageOf q.addr = page then { f with kind := .atomic { q with fault := 2 } } else f
    | _ => f
  else f

/-- Between `s` and `t` the loads of context `id` to a page may be performed again; other loads, other contexts and memory stand. -/
structure State.LoadsAgain (page id : Nat) (s t : State) : Prop where
  mem : t.mem = s.mem
  ctx : ∀ i, i ≠ id → t.ctx i = s.ctx i
  loads : ∀ f ∈ s.net.flights, ∀ q, f.kind = .load q → f.resumed id (s.ctx id).uid page ∈ t.net.flights

/-- Between `s` and `t` no load on its way, no context and no byte has changed. -/
structure State.KeepsLoads (s t : State) : Prop where
  mem : t.mem = s.mem
  ctxs : t.ctxs = s.ctxs
  loads : ∀ f ∈ s.net.flights, ∀ q, f.kind = .load q → f ∈ t.net.flights

/-- Atomics that were combined go their ways again; loads stand. -/
theorem State.gamosAgain_keeps (s : State) (id page : Nat) : s.KeepsLoads (s.gamosAgain id page) := by
  unfold State.gamosAgain
  extract_lets due waiting u
  have start : s.KeepsLoads u := ⟨rfl, rfl, fun f hf q kind => List.mem_filter.2 ⟨hf, by simp [due, kind]⟩⟩
  refine List.foldlRecOn (motive := s.KeepsLoads) _ _ start fun t ht f _ => ?_
  split
  · refine List.foldlRecOn (motive := s.KeepsLoads) _ _ ht fun w hw x _ => ?_
    obtain ⟨mem, ctxs, loads⟩ := hw
    dsimp only
    split
    · rename_i v into
      unfold State.intoCombiner at into
      dsimp only at into
      split at into
      · cases into
        exact ⟨mem, ctxs, loads⟩
      · split at into
        · cases into
          exact ⟨mem, ctxs, loads⟩
        · cases into
    · exact ⟨mem, ctxs, fun g hg q kind => List.mem_append_left _ (loads g hg q kind)⟩
  · exact ht

theorem State.faultOver_ctx (s : State) (id : Nat) : (s.faultOver id).mem = s.mem ∧ (s.faultOver id).net = s.net ∧ ∀ i, i ≠ id → (s.faultOver id).ctx i = s.ctx i := by
  unfold State.faultOver
  split
  · exact ⟨rfl, rfl, fun i hi => s.ctx_setCtx_ne hi _⟩
  · exact ⟨rfl, rfl, fun _ _ => rfl⟩

theorem State.wakeFault_again (s : State) (page id : Nat) : s.LoadsAgain page id (s.wakeFault page 1 id) := by
  obtain ⟨mem, ctxs, loads⟩ := s.gamosAgain_keeps id page
  have ctx (i : Nat) : (s.gamosAgain id page).ctx i = s.ctx i := by rw [State.ctx, ctxs]; rfl
  have e : s.wakeFault page 1 id =
      let t := (s.gamosAgain id page).setFlights ((s.gamosAgain id page).net.flights.map fun f => f.resumed id (s.ctx id).uid page)
      if (t.ctx id).st = .staging then t.onCtx id fun c => { c with wait := .none } else t.faultOver id := rfl
  rw [e]
  dsimp only
  generalize s.gamosAgain id page = u at mem ctx loads
  have mapped : ∀ f ∈ s.net.flights, ∀ q, f.kind = .load q → f.resumed id (s.ctx id).uid page ∈ u.net.flights.map fun f => f.resumed id (s.ctx id).uid page :=
    fun f hf q kind => List.mem_map_of_mem (loads f hf q kind)
  split
  · exact ⟨mem, fun i hi => (State.ctx_setCtx_ne _ hi _).trans (ctx i), mapped⟩
  · obtain ⟨mem', net, others⟩ := (u.setFlights (u.net.flights.map fun f => f.resumed id (s.ctx id).uid page)).faultOver_ctx id
    exact ⟨mem'.trans mem, fun i hi => (others i hi).trans (ctx i), by rw [net]; exact mapped⟩

/-- Other contexts' accesses that are performed again leave a load, and its context, alone. -/
theorem State.wakeFaults_others {f : Flight} {q : LoadReq} (kind : f.kind = .load q) (page : Nat) {l : List Nat} (other : f.ctx ∉ l) (s : State) (sent : f ∈ s.net.flights) :
    let t := l.foldl (fun s id => s.wakeFault page 1 id) s
    t.mem = s.mem ∧ t.ctx f.ctx = s.ctx f.ctx ∧ f ∈ t.net.flights := by
  induction l generalizing s with
  | nil => exact ⟨rfl, rfl, sent⟩
  | cons x l ih =>
    obtain ⟨first, rest⟩ := not_or.1 (mt List.mem_cons.2 other)
    obtain ⟨mem, ctx, loads⟩ := s.wakeFault_again page x
    have stays : f.resumed x (s.ctx x).uid page = f := if_neg fun e => first e.1
    have there := loads f sent q kind
    rw [stays] at there
    obtain ⟨mem', ctx', sent'⟩ := ih rest (s.wakeFault page 1 x) there
    exact ⟨mem'.trans mem, ctx'.trans (ctx _ first), sent'⟩

/-! ### Ordered to abort -/

/-- Between `s` and `t` the contexts `ids` have failed at a page: flights and other contexts' incarnations stand, and every order to abort that was given is one for
a page. -/
structure State.Fails (ids : List Nat) (s t : State) : Prop where
  flights : t.net.flights = s.net.flights
  lost : t.net.lost = s.net.lost
  uids : ∀ i, i ∉ ids → (t.ctx i).uid = (s.ctx i).uid
  aborts : ∀ p slot x, s.HasLaunch p slot (Launch.AbortsWith x) → t.HasLaunch p slot (Launch.AbortsWith x)
  ends : ∀ p slot, s.HasLaunch p slot Launch.EndsAtPage → t.HasLaunch p slot Launch.EndsAtPage

namespace State.Fails
variable {ids : List Nat} {s t u : State}

theorem refl (s : State) : s.Fails ids s := ⟨rfl, rfl, fun _ _ => rfl, fun _ _ _ h => h, fun _ _ h => h⟩

theorem trans (h : s.Fails ids t) (h' : t.Fails ids u) : s.Fails ids u where
  flights := h'.flights.trans h.flights
  lost := h'.lost.trans h.lost
  uids i hi := (h'.uids i hi).trans (h.uids i hi)
  aborts p slot x hx := h'.aborts p slot x (h.aborts p slot x hx)
  ends p slot hx := h'.ends p slot (h.ends p slot hx)

theorem of_mem {id : Nat} (member : id ∈ ids) (h : s.Fails [id] t) : s.Fails ids t where
  flights := h.flights
  lost := h.lost
  uids i hi := h.uids i fun own => hi (List.mem_singleton.1 own ▸ member)
  aborts := h.aborts
  ends := h.ends

theorem foldl {α : Type} {F : State → α → State} {l : List α} (hF : ∀ (t : State) (x : α), x ∈ l → t.Fails ids (F t x)) (s : State) : s.Fails ids (l.foldl F s) :=
  List.foldlRecOn l F (refl s) fun t ht x hx => ht.trans (hF t x hx)

theorem of_parts (parts : t.parts = s.parts) (flights : t.net.flights = s.net.flights) (lost : t.net.lost = s.net.lost)
    (uids : ∀ i, i ∉ ids → (t.ctx i).uid = (s.ctx i).uid) : s.Fails ids t :=
  ⟨flights, lost, uids, fun _ _ _ h => h.of_parts parts, fun _ _ h => h.of_parts parts⟩

theorem setCtx (s : State) (id : Nat) (c : Ctx) : s.Fails [id] (s.setCtx id c) :=
  of_parts rfl rfl rfl fun _ hi => congrArg Ctx.uid (s.ctx_setCtx_ne (List.ne_of_not_mem_cons hi) c)

theorem orderAbort (s : State) (p slot : Nat) {r : AbortRec} (kind : r.kind = 17) : s.Fails ids (s.orderAbort p slot r) := by
  obtain ⟨ps, e⟩ := State.PartsOnly.onPart s p fun q => q.onLaunch slot fun l => l.orderAbort { r with slot := slot, gtr := s.gtrOf sDie }
  have e : s.orderAbort p slot r = { s with parts := ps } := e
  exact ⟨by rw [e], by rw [e], fun i _ => by rw [e]; rfl, fun _ _ _ h => h.orderAbort p slot fun _ x _ aborts => aborts.orderAbort x,
    fun _ _ h => h.orderAbort p slot fun _ x hx ends => ends.orderAbort (hx.trans kind)⟩

theorem logAbort (s : State) (p : Nat) (r : AbortRec) : s.Fails ids (s.logAbort p r) := by
  unfold State.logAbort
  obtain ⟨ps, e⟩ := State.PartsOnly.onPart s p fun q => { q with aborts := ((if r.noLaunch then { r with gtr := s.gtrOf sDie } else r) :: q.aborts).take 64 }
  exact ⟨by rw [e], by rw [e], fun i _ => by rw [e]; rfl, fun _ _ _ h => h.onPart (by intro q; rfl) p, fun _ _ h => h.onPart (by intro q; rfl) p⟩

theorem endHandler (s : State) (id : Nat) : s.Fails [id] (s.endHandler id) := by
  unfold State.endHandler
  extract_lets core high slot dormant freed resumed
  have hDormant : s.Fails [id] dormant := of_parts rfl rfl rfl fun i hi =>
    congrArg Ctx.uid ((s.onCore core fun k => k.freeSlot high slot).ctx_setCtx_ne (List.ne_of_not_mem_cons hi) {})
  have hFreed : s.Fails [id] freed := by
    show s.Fails [id] (if slot < (dormant.core core).mboxd.toNat then _ else _)
    split
    · exact hDormant.trans (of_parts rfl rfl rfl fun _ _ => rfl)
    · exact hDormant
  have hResumed : s.Fails [id] resumed := by
    show s.Fails [id] (if high = true then _ else _)
    split
    · refine hFreed.trans (of_parts rfl rfl rfl fun i _ => ?_)
      rw [State.onCtx_eq, State.ctx_setCtx]
      split
      · rename_i e
        rw [e]
      · rfl
    · exact hFreed
  split
  · exact hResumed
  · exact hResumed.trans (of_parts rfl rfl rfl fun _ _ => rfl)

theorem chargeIssuer (s : State) (launch : Option Nat) (p id u : Nat) {r : AbortRec} (kind : r.kind = 17) : s.Fails [id] (s.chargeIssuer launch p id u r) := by
  cases launch with
  | some slot => exact orderAbort s p slot kind
  | none =>
    unfold State.chargeIssuer
    dsimp only
    split
    · exact (endHandler s id).trans (logAbort ..)
    · exact logAbort ..

theorem failFlight (s : State) {f : Flight} (thread : isXu f.ctx = false) (a : Nat) : s.Fails [f.ctx] (s.failFlight f 17 a) := by
  unfold State.failFlight
  dsimp only
  rw [thread]
  exact chargeIssuer s _ _ _ _ rfl

theorem chargeFailure (s : State) (id : Nat) {r : AbortRec} (kind : r.kind = 17) : s.Fails [id] (s.chargeFailure id r) := by
  unfold State.chargeFailure
  dsimp only
  split
  · exact (setCtx ..).trans (orderAbort _ _ _ kind)
  · split
    · exact (endHandler s id).trans (logAbort ..)
    · exact setCtx ..

end State.Fails

/-- An access that faults at a page fails there. -/
def State.failAt (s : State) (page : Nat) (f : Flight) : State :=
  match f.kind with
  | .load q => if q.fault = 1 ∧ pageOf q.addr = page then s.failFlight f 17 q.addr else s
  | .atomic q => if q.fault = 1 ∧ pageOf q.addr = page then s.failFlight f 17 q.addr else s
  | _ => s

theorem State.Fails.failAt (s : State) (page : Nat) {f : Flight} (thread : isXu f.ctx = false) : s.Fails [f.ctx] (s.failAt page f) := by
  unfold State.failAt
  split
  · split
    · exact failFlight s thread _
    · exact refl s
  · split
    · exact failFlight s thread _
    · exact refl s
  · exact refl s

/-- A context that waits at a page without an access fails there. -/
def State.failWaiting (s : State) (page id : Nat) : State :=
  if (s.ctx id).st = .staging ∨ ((s.ctx id).st = .faultWaiting ∧ s.faulting id = false) then
    let a := (s.ctx id).wait.pageAddr.getD (page * 65536)
    let r : AbortRec := { kind := 17, tid := (s.ctx id).cr.tid, addr := BitVec.ofNat 64 a }
    match (s.ctx id).launch with
    | some slot => s.orderAbort (s.ctx id).partNo slot r
    | none => s.chargeFailure id r
  else s

theorem State.Fails.failWaiting (s : State) (page id : Nat) : s.Fails [id] (s.failWaiting page id) := by
  unfold State.failWaiting
  dsimp only
  split
  · split
    · exact orderAbort s _ _ rfl
    · exact chargeFailure s id rfl
  · exact refl s

theorem State.wakeFault_denied (s : State) (page id : Nat) :
    s.wakeFault page 2 id = ((s.flightsOf id).foldl (fun s f => s.failAt page f) s).failWaiting page id := rfl

theorem State.ctx_of_flightsOf {s : State} {id : Nat} {f : Flight} (h : f ∈ s.flightsOf id) : f.ctx = id := by
  obtain ⟨-, own⟩ := List.mem_filter.1 h
  simp only [Bool.and_eq_true, beq_iff_eq] at own
  exact own.1

theorem State.Fails.wakeFault (s : State) (page : Nat) {id : Nat} (thread : isXu id = false) : s.Fails [id] (s.wakeFault page 2 id) := by
  rw [State.wakeFault_denied]
  refine trans (foldl (fun t f hf => ?_) s) (failWaiting ..)
  obtain rfl := State.ctx_of_flightsOf hf
  exact failAt t page thread

theorem State.Fails.wakeFaults (page : Nat) {l : List Nat} (threads : ∀ id ∈ l, isXu id = false) (s : State) :
    s.Fails l (l.foldl (fun s id => s.wakeFault page 2 id) s) := foldl (fun t id hid => .of_mem hid (wakeFault t page (threads id hid))) s

/-- The launch of a load that fails at a page is ordered to abort. -/
theorem State.wakeFault_orders {s : State} {g : Flight} {q : LoadReq} {page slot : Nat} (sent : g ∈ s.net.flights) (live : s.alive g = true) (kind : g.kind = .load q)
    (fault : q.fault = 1) (paged : pageOf q.addr = page) (thread : isXu g.ctx = false) (launch : g.launch = some slot) (ends : s.HasLaunch g.part slot Launch.EndsAtPage) :
    ∃ x : AbortRec, x.kind = 17 ∧ (s.wakeFault page 2 g.ctx).HasLaunch g.part slot (Launch.AbortsWith x) := by
  have uid : (s.ctx g.ctx).uid = g.uid := beq_iff_eq.1 live
  have mine : g ∈ s.flightsOf g.ctx := List.mem_filter.2 ⟨List.mem_append_left _ sent, by simp [uid]⟩
  rw [State.wakeFault_denied]
  have fails (t : State) (f : Flight) (hf : f ∈ s.flightsOf g.ctx) : t.Fails [g.ctx] (t.failAt page f) := by
    rw [← State.ctx_of_flightsOf hf]
    exact State.Fails.failAt t page (by rw [State.ctx_of_flightsOf hf]; exact thread)
  obtain ⟨before, after, split⟩ := List.append_of_mem mine
  rw [split] at fails ⊢
  rw [List.foldl_append, List.foldl_cons]
  have first : s.Fails [g.ctx] (before.foldl (fun s f => s.failAt page f) s) := .foldl (fun t f hf => fails t f (List.mem_append_left _ hf)) s
  generalize before.foldl (fun s f => s.failAt page f) s = u at first
  have at_ : u.failAt page g = u.orderAbort g.part slot { kind := 17, tid := if u.alive g then (u.ctx g.ctx).cr.tid else 0, addr := BitVec.ofNat 64 q.addr } := by
    unfold State.failAt
    rw [kind]
    dsimp only
    rw [if_pos ⟨fault, paged⟩, State.failFlight, thread, launch]
    rfl
  obtain ⟨x, page17, ordered⟩ := (first.ends _ _ ends).orderAbort_page (r := { kind := 17, tid := if u.alive g then (u.ctx g.ctx).cr.tid else 0, addr := BitVec.ofNat 64 q.addr }) rfl
  rw [← at_] at ordered
  have rest : (u.failAt page g).Fails [g.ctx] (after.foldl (fun s f => s.failAt page f) (u.failAt page g)) :=
    .foldl (fun t f hf => fails t f (List.mem_append_right _ (List.mem_cons_of_mem g hf))) _
  exact ⟨x, page17, (rest.trans (.failWaiting ..)).aborts _ _ x ordered⟩

/-! ### FAULT_WAKE -/

section
variable {s : State} {n : Nat} {f g : Flight} {page core : Nat} {v : Word} {wts : Stamp} {u : Bool} {q : LoadReq}
  (carried : s.Carries n f (.wake (.page page) v wts (.core core) u)) (order : s.inOrder n = true) (sent : g ∈ s.net.flights) (kind : g.kind = .load q)
  (fault : q.fault = 1) (paged : pageOf q.addr = page) (live : s.alive g = true) (place : coreOf g.ctx = core) (thread : numberOf g.ctx < 6)
  (party : (s.ctx g.ctx).partNo = f.part)
include carried order sent kind fault paged live place thread party

/-- FAULT_WAKE serves the contexts of the core that wait for the page, that of a load that faults there among them (R199). -/
theorem exec_faultWake : ∃ (s' : State) (before after : List Nat), exec (.faultWake n) s = .next ((before ++ g.ctx :: after).foldl (fun s id => s.wakeFault page v id) s') ∧
    (∃ fs, s' = s.setFlights fs) ∧ g ∈ s'.net.flights ∧ g.ctx ∉ before ∧ g.ctx ∉ after ∧ ∀ id ∈ before ++ g.ctx :: after, isXu id = false := by
  obtain ⟨flight, wake⟩ := carried
  have uid : (s.ctx g.ctx).uid = g.uid := beq_iff_eq.1 live
  have mine : g ∈ s.flightsOf g.ctx := List.mem_filter.2 ⟨List.mem_append_left _ sent, by simp [uid]⟩
  have waits : page ∈ s.faultPages g.ctx := by
    unfold State.faultPages
    refine List.mem_append_left _ (List.mem_filterMap.2 ⟨g, mine, ?_⟩)
    rw [kind]
    exact (if_pos fault).trans (by rw [paged])
  have member : g.ctx ∈ s.pageWaiters core f.part page := by
    refine List.mem_filter.2 ⟨List.mem_map.2 ⟨numberOf g.ctx, List.mem_range.2 thread, ?_⟩, by simp [party, waits]⟩
    unfold coreOf at place
    unfold numberOf
    omega
  have distinct : (s.pageWaiters core f.part page).Nodup := (threadIds_nodup core).filter _
  have threads : ∀ id ∈ s.pageWaiters core f.part page, isXu id = false := by
    intro id hid
    obtain ⟨num, low, rfl⟩ := List.mem_map.1 (List.mem_filter.1 hid).1
    have low := List.mem_range.1 low
    simp only [isXu, numberOf, beq_eq_false_iff_ne]
    omega
  have performs : exec (.faultWake n) s = .next ((s.pageWaiters core f.part page).foldl (fun s id => s.wakeFault page v id)
      (if s.copyParkedOn core f.part page && v != 0 then s else s.dropFlight n)) := by
    refine congrArg Host.Outcome.next ?_
    rw [flight]
    dsimp only
    rw [wake]
    dsimp only
    rw [order]
    rfl
  obtain ⟨before, after, split⟩ := List.append_of_mem member
  rw [split] at performs distinct threads
  refine ⟨_, before, after, performs, ?_, ?_, ?_, ?_, threads⟩
  · split
    · exact ⟨s.net.flights, rfl⟩
    · exact ⟨_, rfl⟩
  · split
    · exact sent
    · obtain ⟨i, there⟩ := List.mem_iff_getElem?.1 sent
      refine List.mem_eraseIdx_iff_getElem?.2 ⟨i, ?_, there⟩
      rintro rfl
      have same : g = f := Option.some.inj (there.symm.trans flight)
      rw [same, wake] at kind
      cases kind
  · exact fun h => (List.nodup_append.1 distinct).2.2 _ h _ List.mem_cons_self rfl
  · exact (List.nodup_cons.1 (List.nodup_append.1 distinct).2.1).1

theorem completes_faultWake_mapped (mapped : v = 1) :
    Completes (.faultWake n) s fun t => { g with kind := .load { q with fault := 2 } } ∈ t.net.flights ∧ t.mem = s.mem := by
  obtain ⟨s', before, after, performs, ⟨fs, same⟩, there, fresh, last, -⟩ := exec_faultWake carried order sent kind fault paged live place thread party
  refine ⟨_, performs, ?_⟩
  rw [mapped, List.foldl_append, List.foldl_cons]
  obtain ⟨mem, ctx, there⟩ := State.wakeFaults_others kind page fresh s' there
  generalize before.foldl (fun s id => s.wakeFault page 1 id) s' = x at mem ctx there
  obtain ⟨mem', -, loads⟩ := x.wakeFault_again page g.ctx
  have uid : g.uid = (x.ctx g.ctx).uid := by
    rw [ctx, same]
    exact (beq_iff_eq.1 live).symm
  have performed : g.resumed g.ctx (x.ctx g.ctx).uid page = { g with kind := .load { q with fault := 2 } } := by
    unfold Flight.resumed
    rw [if_pos ⟨rfl, uid⟩, kind]
    exact if_pos ⟨fault, paged⟩
  have now := loads g there q kind
  rw [performed] at now
  obtain ⟨mem'', -, stays⟩ := State.wakeFaults_others (f := { g with kind := .load { q with fault := 2 } }) rfl page last (x.wakeFault page 1 g.ctx) now
  exact ⟨stays, mem''.trans (mem'.trans (mem.trans (by rw [same]; rfl)))⟩

theorem completes_faultWake_denied {slot : Nat} {l : Launch} (denied : v = 2) (own : g.part = f.part) (issued : g.launch = some slot)
    (launch : s.launch? f.part slot = some l) (unordered : l.pendingAbort = none) : Completes (.faultWake n) s fun t =>
      ∃ (l' : Launch) (x : AbortRec), t.launch? f.part slot = some l' ∧ l'.st = .aborted ∧ l'.pendingAbort = some x ∧ x.kind = 17 := by
  obtain ⟨s', before, after, performs, ⟨fs, same⟩, there, fresh, last, threads⟩ := exec_faultWake carried order sent kind fault paged live place thread party
  refine ⟨_, performs, ?_⟩
  rw [denied, List.foldl_append, List.foldl_cons]
  have ends : s'.HasLaunch g.part slot Launch.EndsAtPage := by
    rw [own, same]
    exact ⟨l, launch, fun x hx => by rw [unordered] at hx; cases hx⟩
  obtain ⟨flights, -, uids, -, ends'⟩ := State.Fails.wakeFaults page (fun id hid => threads id (List.mem_append_left _ hid)) s'
  generalize before.foldl (fun s id => s.wakeFault page 2 id) s' = y at flights uids ends'
  have live' : y.alive g = true := by
    rw [State.alive, uids _ fresh, same]
    exact live
  obtain ⟨x, page17, ordered⟩ := State.wakeFault_orders (flights ▸ there) live' kind fault paged (threads g.ctx (by simp)) issued (ends' _ _ ends)
  obtain ⟨-, -, -, aborts, -⟩ := State.Fails.wakeFaults page (fun id hid => threads id (List.mem_append_right _ (List.mem_cons_of_mem _ hid))) (y.wakeFault page 2 g.ctx)
  obtain ⟨l', found, st, pending⟩ := aborts _ _ x ordered
  exact ⟨l', x, own ▸ found, st, pending, page17⟩

end

/-- Settles O37, event by event: a wake (R199), a wait sent again (R104), a wait for a time (R88), a page resolved (R315, R350), and the wake of what faulted (R348). -/
theorem waitersWakeAndPagesResolve : Obligations.WaitersWakeAndPagesResolve := by
  refine ⟨?wake, ?resend, fun s id v waiting wait due => exec_waittExpiry waiting wait due, ?page, ?fault⟩
  case wake =>
    intro s n f a core num v wts id c carried order thread waiting part word
    exact completes_waitWake carried order thread waiting part word
  case resend =>
    intro s id a c now resent thread waiting word
    exact ⟨completes_waitRepoll thread waiting word, completes_unrecordedResend thread waiting word⟩
  case page =>
    intro s p page r recorded closed
    refine ⟨fun e leaf may stays none => completes_pageResolve_unparked recorded leaf may stays none, ?_, ?_⟩
    · intro e n f q sl host w s1 leaf may stays carried first m u only free ready
      exact completes_pageResolve_parked recorded leaf may stays carried first rfl rfl only free ready
    · intro n f q slot l carried first squall issued launch unordered stores atomics
      exact completes_pageResolve_denied recorded carried first squall issued launch unordered stores atomics
  case fault =>
    intro s n f g page core v wts u q carried order sent kind fault paged live place thread party
    refine ⟨completes_faultWake_mapped carried order sent kind fault paged live place thread party, ?_⟩
    intro slot l denied own issued launch unordered
    exact completes_faultWake_denied carried order sent kind fault paged live place thread party denied own issued launch unordered

end Sys2Proof.Machine


/-!
PROOFS. The encoding (R37 to R57): a word holds its fixed bits and its fields beside each other, `decodeFields` finds the instruction by the fixed bits, and the round trip follows.
-/
namespace Sys2Proof.Machine
namespace Encoding

/-! ### Fields of a word (R38) -/

/-- A field of an instruction word: its lowest bit, its width and its value. -/
structure Field where
  lo : Nat
  width : Nat
  value : BitVec width

namespace Field

/-- What a field adds to its word; at bit 0 the value itself, as `encode` writes it. -/
def bits (f : Field) : Nat :=
  match f.lo with
  | 0 => f.value.toNat
  | lo + 1 => f.value.toNat * 2 ^ (lo + 1)

/-- No bit of the field is among the `n` bits from `lo` up. -/
def clearOf (lo n : Nat) : Field → Bool
  | ⟨flo, width, _⟩ => decide (flo + width ≤ lo) || decide (lo + n ≤ flo)

theorem bits_eq (f : Field) : f.bits = f.value.toNat * 2 ^ f.lo := by
  unfold bits
  split
  next h => rw [h, Nat.pow_zero, Nat.mul_one]
  next h => rw [h]

theorem clearOf_comm {f g : Field} : f.clearOf g.lo g.width = g.clearOf f.lo f.width := by
  simp only [clearOf, Bool.or_comm]

variable {f : Field} {c lo n : Nat}

theorem div_add_bits : (c + f.bits) / 2 ^ f.lo = c / 2 ^ f.lo + f.value.toNat := by
  rw [bits_eq, Nat.add_mul_div_right _ _ (Nat.two_pow_pos _)]

/-- A field put where the word is zero reads back. -/
theorem fld_add_bits (zero : c / 2 ^ f.lo % 2 ^ f.width = 0) : fld (c + f.bits) f.lo f.width = f.value := by
  apply BitVec.eq_of_toNat_eq
  rw [fld, BitVec.toNat_ofNat, div_add_bits, Nat.add_mod, zero, Nat.zero_add, Nat.mod_mod, Nat.mod_eq_of_lt f.value.isLt]

/-- It leaves the bits above it, since nothing carries out of it, and the bits below it. -/
theorem digit_add_bits (zero : c / 2 ^ f.lo % 2 ^ f.width = 0) (clear : f.clearOf lo n = true) :
    (c + f.bits) / 2 ^ lo % 2 ^ n = c / 2 ^ lo % 2 ^ n := by
  simp only [clearOf, Bool.or_eq_true, decide_eq_true_eq] at clear
  rcases clear with above | below
  · have carry : (c / 2 ^ f.lo + f.value.toNat) / 2 ^ f.width = c / 2 ^ f.lo / 2 ^ f.width := by
      rw [Nat.add_div_of_dvd_right (Nat.dvd_of_mod_eq_zero zero), Nat.div_eq_of_lt f.value.isLt, Nat.add_zero]
    obtain ⟨k, rfl⟩ := Nat.exists_eq_add_of_le above
    simp only [Nat.pow_add, ← Nat.div_div_eq_div_mul, div_add_bits, carry]
  · obtain ⟨k, hk⟩ := Nat.exists_eq_add_of_le below
    have split : f.bits = f.value.toNat * 2 ^ k * 2 ^ n * 2 ^ lo := by
      rw [bits_eq, hk]
      ring
    rw [split, Nat.add_mul_div_right _ _ (Nat.two_pow_pos _), Nat.add_mul_mod_self_right]

end Field

/-! ### Words made of fixed bits and fields (R38, R42) -/

/-- The word with the fixed bits `c` and the fields `fs`, summed in the order of `encode`. -/
def packed (c : Nat) : List Field → Nat
  | [] => c
  | f :: fs => packed (c + f.bits) fs

/-- Fields within 32 bits that overlap neither each other nor a fixed bit that is set. -/
def fits (c : Nat) : List Field → Bool
  | [] => true
  | ⟨lo, width, _⟩ :: fs => decide (lo + width ≤ 32) && c / 2 ^ lo % 2 ^ width == 0 && fs.all (Field.clearOf lo width) && fits c fs

/-- Every field reads as its value. -/
def Holds (w : Nat) : List Field → Prop
  | [] => True
  | ⟨lo, width, value⟩ :: fs => fld w lo width = value ∧ Holds w fs

/-- Beside the fields `fs` the word `w` is as `c`. -/
def Beside (w c : Nat) (fs : List Field) : Prop := ∀ lo n, fs.all (Field.clearOf lo n) = true → w / 2 ^ lo % 2 ^ n = c / 2 ^ lo % 2 ^ n

section
variable {w c : Nat} {fs : List Field}

theorem fits_cons {f : Field} : fits c (f :: fs) = true ↔
    f.lo + f.width ≤ 32 ∧ c / 2 ^ f.lo % 2 ^ f.width = 0 ∧ fs.all (Field.clearOf f.lo f.width) = true ∧ fits c fs = true := by
  simp only [fits, Bool.and_eq_true, beq_iff_eq, decide_eq_true_eq, and_assoc]

theorem fits_add_bits {f : Field} (zero : c / 2 ^ f.lo % 2 ^ f.width = 0) (clear : fs.all (Field.clearOf f.lo f.width) = true)
    (fit : fits c fs = true) : fits (c + f.bits) fs = true := by
  induction fs with
  | nil => rfl
  | cons g gs ih =>
    obtain ⟨short, zero', apart, fit⟩ := fits_cons.1 fit
    rw [List.all_cons, Bool.and_eq_true] at clear
    exact fits_cons.2 ⟨short, (f.digit_add_bits zero (Field.clearOf_comm.trans clear.1)).trans zero', apart, ih clear.2 fit⟩

theorem beside_packed (fit : fits c fs = true) : Beside (packed c fs) c fs := by
  induction fs generalizing c with
  | nil => exact fun _ _ _ => rfl
  | cons f fs ih =>
    intro lo n clear
    obtain ⟨-, zero, apart, fit⟩ := fits_cons.1 fit
    rw [List.all_cons, Bool.and_eq_true] at clear
    exact (ih (fits_add_bits zero apart fit) lo n clear.2).trans (f.digit_add_bits zero clear.1)

/-- The fields put in after a field leave it as it was put in. -/
theorem holds_packed (fit : fits c fs = true) : Holds (packed c fs) fs := by
  induction fs generalizing c with
  | nil => trivial
  | cons f fs ih =>
    obtain ⟨-, zero, apart, fit⟩ := fits_cons.1 fit
    have fit' := fits_add_bits zero apart fit
    have kept : fld (packed (c + f.bits) fs) f.lo f.width = fld (c + f.bits) f.lo f.width :=
      BitVec.eq_of_toNat_eq (by simpa only [fld, BitVec.toNat_ofNat] using beside_packed fit' _ _ apart)
    exact ⟨kept.trans (Field.fld_add_bits zero), ih fit'⟩

theorem Beside.low (beside : Beside w c fs) (n : Nat) (clear : fs.all (Field.clearOf 0 n) = true) : w % 2 ^ n = c % 2 ^ n := by
  simpa only [Nat.pow_zero, Nat.div_one] using beside 0 n clear

theorem clearOf_above (fit : fits c fs = true) (n : Nat) : fs.all (Field.clearOf 32 n) = true := by
  induction fs with
  | nil => rfl
  | cons f fs ih =>
    obtain ⟨short, -, -, fit⟩ := fits_cons.1 fit
    simp only [List.all_cons, Field.clearOf, short, decide_true, Bool.true_or, ih fit, Bool.and_self]

/-- Above bit 32 a word is as its fixed bits: zero. -/
theorem packed_lt (fit : fits c fs = true) (small : c < 2 ^ 32) : packed c fs < 2 ^ 32 := by
  have above : packed c fs / 2 ^ 32 = 0 := by
    have short : packed c fs / 2 ^ 32 < 2 ^ packed c fs := (Nat.div_le_self ..).trans_lt Nat.lt_two_pow_self
    rw [← Nat.mod_eq_of_lt short, beside_packed fit _ _ (clearOf_above fit _), Nat.div_eq_of_lt small, Nat.zero_mod]
  omega

end

/-! ### Where each instruction holds its operands (R45 to R57) -/

/-- The fields of an instruction's word, from the highest down; an event of the module has none. -/
def fieldsOf : Instr → List Field
  | .add d a b | .sub d a b | .and d a b | .or d a b | .xor d a b | .andn d a b | .sll d a b | .srl d a b | .sra d a b | .slt d a b | .sltu d a b | .min d a b
  | .max d a b | .minu d a b | .maxu d a b | .mul d a b | .mulh d a b | .mulhu d a b | .div d a b | .divu d a b | .rem d a b | .remu d a b | .spawn d a b | .join d a b
  | .cwait d a b | .gamoD d a b | .gamoW d a b | .kand d a b | .kor d a b | .kxor d a b | .kandn d a b | .vcrc d a b => [⟨21, 5, d⟩, ⟨16, 5, a⟩, ⟨11, 5, b⟩]
  | .clz d a | .ctz d a | .popc d a | .lclkup d a | .bar d a | .ticket d a | .launch d a | .xpush d a | .xstat d a | .jwait d a | .jpoll d a | .kmovg d a | .gmovk d a =>
    [⟨21, 5, d⟩, ⟨16, 5, a⟩]
  | .addi d a i | .andi d a i | .ori d a i | .xori d a i | .slti d a i | .sltiu d a i | .shori d a i | .jalr d a i => [⟨21, 5, d⟩, ⟨16, 5, a⟩, ⟨0, 16, i⟩]
  | .slli d a s | .srli d a s | .srai d a s => [⟨21, 5, d⟩, ⟨16, 5, a⟩, ⟨0, 6, s⟩]
  | .lhi d i => [⟨21, 5, d⟩, ⟨0, 16, i⟩]
  | .beq a b o | .bne a b o | .blt a b o | .bge a b o | .bltu a b o | .bgeu a b o => [⟨21, 5, a⟩, ⟨16, 5, b⟩, ⟨0, 16, o⟩]
  | .jal o => [⟨0, 26, o⟩]
  | .home d => [⟨21, 5, d⟩]
  | .waitt a | .leave a | .serve a => [⟨16, 5, a⟩]
  | .trap c => [⟨0, 5, c⟩]
  | .crr d n => [⟨21, 5, d⟩, ⟨0, 12, n⟩]
  | .crw d a n | .crs d a n | .crc d a n => [⟨21, 5, d⟩, ⟨16, 5, a⟩, ⟨0, 12, n⟩]
  | .rwait d a q n | .rroom d a q n | .radvh d a q n | .radvt d a q n => [⟨21, 5, d⟩, ⟨16, 5, a⟩, ⟨10, 3, q⟩, ⟨0, 9, n⟩]
  | .rld d t w q i o | .rst d t w q i o => [⟨21, 5, d⟩, ⟨20, 1, t⟩, ⟨19, 1, w⟩, ⟨16, 3, q⟩, ⟨8, 8, i⟩, ⟨0, 8, o⟩]
  | .sendLo d a b v | .sendHi d a b v | .sendr d a b v => [⟨21, 5, d⟩, ⟨16, 5, a⟩, ⟨11, 5, b⟩, ⟨0, 5, v⟩]
  | .aadd d a b o s z | .aand d a b o s z | .aor d a b o s z | .axor d a b o s z | .amin d a b o s z | .amax d a b o s z | .aminu d a b o s z | .amaxu d a b o s z
  | .aswap d a b o s z | .acas d a b o s z | .afadd d a b o s z => [⟨21, 5, d⟩, ⟨16, 5, a⟩, ⟨11, 5, b⟩, ⟨5, 2, o⟩, ⟨3, 2, s⟩, ⟨2, 1, z⟩]
  | .mma d a b p c | .mmasp d a b p c => [⟨21, 5, d⟩, ⟨16, 5, a⟩, ⟨11, 5, b⟩, ⟨5, 4, p⟩, ⟨0, 5, c⟩]
  | .ewr a e => [⟨16, 5, a⟩, ⟨0, 4, e⟩]
  | .erd d e => [⟨21, 5, d⟩, ⟨0, 4, e⟩]
  | .mzero c => [⟨0, 2, c⟩]
  | .mst d a b c => [⟨21, 5, d⟩, ⟨16, 5, a⟩, ⟨11, 5, b⟩, ⟨0, 2, c⟩]
  | .mldt d a b q => [⟨21, 5, d⟩, ⟨16, 5, a⟩, ⟨11, 5, b⟩, ⟨0, 3, q⟩]
  | .lb d a r o s h x | .lbu d a r o s h x | .lh d a r o s h x | .lhu d a r o s h x | .lw d a r o s h x | .lwu d a r o s h x | .ld d a r o s h x | .flw d a r o s h x
  | .fld d a r o s h x | .vld d a r o s h x => [⟨21, 5, d⟩, ⟨16, 5, a⟩, ⟨14, 2, r⟩, ⟨12, 1, o⟩, ⟨10, 2, s⟩, ⟨8, 2, h⟩, ⟨0, 8, x⟩]
  | .sb d a o s h x | .sh d a o s h x | .sw d a o s h x | .sd d a o s h x | .fsw d a o s h x | .fsd d a o s h x | .vst d a o s h x =>
    [⟨21, 5, d⟩, ⟨16, 5, a⟩, ⟨12, 2, o⟩, ⟨10, 2, s⟩, ⟨8, 1, h⟩, ⟨0, 8, x⟩]
  | .ldf d a o x | .ldfe d a o x | .sde d a o x => [⟨21, 5, d⟩, ⟨16, 5, a⟩, ⟨12, 1, o⟩, ⟨0, 8, x⟩]
  | .fesetE a x | .fesetF a x => [⟨16, 5, a⟩, ⟨0, 8, x⟩]
  | .fence s => [⟨10, 2, s⟩]
  | .ppurge a r x => [⟨16, 5, a⟩, ⟨14, 2, r⟩, ⟨0, 8, x⟩]
  | .lease d a r x => [⟨21, 5, d⟩, ⟨16, 5, a⟩, ⟨14, 2, r⟩, ⟨0, 8, x⟩]
  | .pref a r h x => [⟨16, 5, a⟩, ⟨14, 2, r⟩, ⟨8, 1, h⟩, ⟨0, 8, x⟩]
  | .vadd d a b k w | .vsub d a b k w | .vmul d a b k w | .vmulh d a b k w | .vmulhu d a b k w | .vand d a b k w | .vor d a b k w | .vxor d a b k w | .vsll d a b k w
  | .vsrl d a b k w | .vsra d a b k w | .vmin d a b k w | .vmax d a b k w | .vminu d a b k w | .vmaxu d a b k w | .vadds d a b k w | .vsubs d a b k w | .vaddus d a b k w
  | .vsubus d a b k w | .vcmpeq d a b k w | .vcmplt d a b k w | .vcmpltu d a b k w | .vsel d a b k w | .vperm d a b k w =>
    [⟨21, 5, d⟩, ⟨16, 5, a⟩, ⟨11, 5, b⟩, ⟨8, 3, k⟩, ⟨5, 2, w⟩]
  | .vsplat d a k w | .vred d a k w => [⟨21, 5, d⟩, ⟨16, 5, a⟩, ⟨8, 3, k⟩, ⟨5, 2, w⟩]
  | .vext d a b w | .vins d a b w => [⟨21, 5, d⟩, ⟨16, 5, a⟩, ⟨11, 5, b⟩, ⟨5, 2, w⟩]
  | .vdot d a b k w => [⟨21, 5, d⟩, ⟨16, 5, a⟩, ⟨11, 5, b⟩, ⟨8, 3, k⟩, ⟨5, 1, w⟩]
  | .fexp d a p m | .flog d a p m | .ferf d a p m => [⟨21, 5, d⟩, ⟨16, 5, a⟩, ⟨8, 1, p⟩, ⟨5, 3, m⟩]
  | .fdivD d a b m | .fdivS d a b m => [⟨21, 5, d⟩, ⟨16, 5, a⟩, ⟨11, 5, b⟩, ⟨5, 3, m⟩]
  | .fsqrtD d a m | .fsqrtS d a m => [⟨21, 5, d⟩, ⟨16, 5, a⟩, ⟨5, 3, m⟩]
  | .fadd d a b p m | .fsub d a b p m | .fmul d a b p m | .fma d a b p m | .fms d a b p m | .fnma d a b p m | .fnms d a b p m =>
    [⟨21, 5, d⟩, ⟨16, 5, a⟩, ⟨11, 5, b⟩, ⟨8, 1, p⟩, ⟨5, 3, m⟩]
  | .fmin d a b p | .fmax d a b p | .feq d a b p | .flt d a b p | .fle d a b p | .fsgnj d a b p | .fsgnjn d a b p | .fsgnjx d a b p =>
    [⟨21, 5, d⟩, ⟨16, 5, a⟩, ⟨11, 5, b⟩, ⟨8, 1, p⟩]
  | .fclass d a p | .fmvfg d a p | .fmvgf d a p => [⟨21, 5, d⟩, ⟨16, 5, a⟩, ⟨8, 1, p⟩]
  | .fcvt d a s m t => [⟨21, 5, d⟩, ⟨16, 5, a⟩, ⟨11, 5, s⟩, ⟨5, 3, m⟩, ⟨0, 5, t⟩]
  | .vcvt d a s k m t => [⟨21, 5, d⟩, ⟨16, 5, a⟩, ⟨11, 5, s⟩, ⟨8, 3, k⟩, ⟨5, 3, m⟩, ⟨0, 5, t⟩]
  | .vfadd d a b k m t | .vfsub d a b k m t | .vfmul d a b k m t | .vfma d a b k m t | .vfnma d a b k m t =>
    [⟨21, 5, d⟩, ⟨16, 5, a⟩, ⟨11, 5, b⟩, ⟨8, 3, k⟩, ⟨5, 3, m⟩, ⟨3, 2, t⟩]
  | .vfmin d a b k t | .vfmax d a b k t => [⟨21, 5, d⟩, ⟨16, 5, a⟩, ⟨11, 5, b⟩, ⟨8, 3, k⟩, ⟨3, 2, t⟩]
  | .vfcmp d a b k p t => [⟨21, 5, d⟩, ⟨16, 5, a⟩, ⟨11, 5, b⟩, ⟨8, 3, k⟩, ⟨5, 2, p⟩, ⟨3, 2, t⟩]
  | .vfredSum d a k m t => [⟨21, 5, d⟩, ⟨16, 5, a⟩, ⟨8, 3, k⟩, ⟨5, 3, m⟩, ⟨3, 2, t⟩]
  | .vfredMin d a k t | .vfredMax d a k t => [⟨21, 5, d⟩, ⟨16, 5, a⟩, ⟨8, 3, k⟩, ⟨3, 2, t⟩]
  | _ => []

/-- An instruction decodes from its word when every word with its fixed bits and its fields decodes to it. -/
theorem decodes {i : Instr} {c : Nat} (sum : encode i = packed c (fieldsOf i)) (fit : (decide (c < 2 ^ 32) && fits c (fieldsOf i)) = true)
    (table : ∀ w, Beside w c (fieldsOf i) → Holds w (fieldsOf i) → decodeFields w = some i) : encode i < 2 ^ 32 ∧ decodeFields (encode i) = some i := by
  rw [Bool.and_eq_true, decide_eq_true_eq] at fit
  obtain ⟨small, fit⟩ := fit
  rw [sum]
  exact ⟨packed_lt fit small, table _ (beside_packed fit) (holds_packed fit)⟩

/-! ### Majors with minors (R44) -/

section
variable {w : Nat}

theorem decodeFields_integer (major : w / 67108864 % 64 = 0) : decodeFields w = integerOf w := by
  rw [decodeFields, major]
  rfl

theorem decodeFields_division (major : w / 67108864 % 64 = 1) : decodeFields w = divisionOf w := by
  rw [decodeFields, major]
  rfl

theorem decodeFields_shift (major : w / 67108864 % 64 = 8) : decodeFields w = shiftOf w := by
  rw [decodeFields, major]
  rfl

theorem decodeFields_system (major : w / 67108864 % 64 = 24) : decodeFields w = systemOf w := by
  rw [decodeFields, major]
  rfl

theorem decodeFields_control (major : w / 67108864 % 64 = 25) : decodeFields w = controlOf w := by
  rw [decodeFields, major]
  rfl

theorem decodeFields_ring (major : w / 67108864 % 64 = 26) : decodeFields w = ringOf w := by
  rw [decodeFields, major]
  rfl

theorem decodeFields_sync (major : w / 67108864 % 64 = 29) : decodeFields w = syncOf w := by
  rw [decodeFields, major]
  rfl

theorem decodeFields_atomic (major : w / 67108864 % 64 = 30) : decodeFields w = atomicOf w := by
  rw [decodeFields, major]
  rfl

theorem decodeFields_engine (major : w / 67108864 % 64 = 31) : decodeFields w = engineOf w := by
  rw [decodeFields, major]
  rfl

theorem decodeFields_feset (major : w / 67108864 % 64 = 52) : decodeFields w = fesetOf w := by
  rw [decodeFields, major]
  rfl

theorem decodeFields_vectorInt (major : w / 67108864 % 64 = 57) : decodeFields w = vectorIntOf w := by
  rw [decodeFields, major]
  rfl

theorem decodeFields_wArith (major : w / 67108864 % 64 = 58) : decodeFields w = wArithOf w := by
  rw [decodeFields, major]
  rfl

theorem decodeFields_scalarFp (major : w / 67108864 % 64 = 59) : decodeFields w = scalarFpOf w := by
  rw [decodeFields, major]
  rfl

theorem decodeFields_vectorFp (major : w / 67108864 % 64 = 62) : decodeFields w = vectorFpOf w := by
  rw [decodeFields, major]
  rfl

theorem decodeFields_vfred (major : w / 67108864 % 64 = 63) : decodeFields w = vfredOf w := by
  rw [decodeFields, major]
  rfl

theorem syncOf_gamo (minor : w / 32 % 64 = 6) : syncOf w = gamoOf w := by
  rw [syncOf, minor]
  rfl

theorem engineOf_minor (minor : w / 512 % 4 = 2) : engineOf w = engineMinorOf w := by
  rw [engineOf, minor]
  rfl

theorem vectorIntOf_mask (minor : w % 32 = 29) : vectorIntOf w = maskOf w := by
  rw [vectorIntOf, minor]
  rfl

end

/-! ### From instructions to words and back (R42) -/

/-- Majors and minors are fixed bits, so that the decoder meets the row of the instruction, and there it reads the fields. ADDI is the one whose row depends on its fields: with all
of them zero it is NOP (R43). -/
theorem encode_lt_and_decodeFields {i : Instr} (word : i.isWord = true) (fine : i.wf = true) : encode i < 2 ^ 32 ∧ decodeFields (encode i) = some i := by
  cases i with
  | nop => exact ⟨by decide, rfl⟩
  | add | sub | and | or | xor | andn | sll | srl | sra | slt | sltu | min | max | minu | maxu | mul | mulh | mulhu | clz | ctz | popc =>
    refine decodes rfl rfl fun w beside holds => ?_
    repeat obtain ⟨rfl, holds⟩ := holds
    rw [decodeFields_integer (beside 26 6 rfl), integerOf, show w % 64 = _ from beside.low 6 rfl]
    rfl
  | div | divu | rem | remu =>
    refine decodes rfl rfl fun w beside holds => ?_
    repeat obtain ⟨rfl, holds⟩ := holds
    rw [decodeFields_division (beside 26 6 rfl), divisionOf, show w % 64 = _ from beside.low 6 rfl]
    rfl
  | addi =>
    refine decodes rfl rfl fun w beside holds => ?_
    repeat obtain ⟨rfl, holds⟩ := holds
    have notNop : w ≠ 134217728 := by
      rintro rfl
      exact absurd fine (by decide)
    rw [decodeFields, show w / 67108864 % 64 = _ from beside 26 6 rfl]
    exact congrArg some (if_neg notNop)
  | andi | ori | xori | slti | sltiu | lhi | shori | beq | bne | blt | bge | bltu | bgeu | jal | jalr | rld | rst | lb | lbu | lh | lhu | lw | lwu | ld | flw | fld | vld
  | sb | sh | sw | sd | fsw | fsd | vst | ldf | ldfe | sde | fence | ppurge | lease | pref | fcvt | vcvt =>
    refine decodes rfl rfl fun w beside holds => ?_
    repeat obtain ⟨rfl, holds⟩ := holds
    rw [decodeFields, show w / 67108864 % 64 = _ from beside 26 6 rfl]
    rfl
  | slli | srli | srai =>
    refine decodes rfl rfl fun w beside holds => ?_
    repeat obtain ⟨rfl, holds⟩ := holds
    rw [decodeFields_shift (beside 26 6 rfl), shiftOf, show w / 64 % 4 = _ from beside 6 2 rfl]
    rfl
  | spawn | exit | yield | home | waitt | lclkup | iflush | trap | eret =>
    refine decodes rfl rfl fun w beside holds => ?_
    repeat obtain ⟨rfl, holds⟩ := holds
    rw [decodeFields_system (beside 26 6 rfl), systemOf, show w / 32 % 64 = _ from beside 5 6 rfl]
    rfl
  | crr | crw | crs | crc =>
    refine decodes rfl rfl fun w beside holds => ?_
    repeat obtain ⟨rfl, holds⟩ := holds
    rw [decodeFields_control (beside 26 6 rfl), controlOf, show w / 4096 % 16 = _ from beside 12 4 rfl]
    rfl
  | rwait | rroom | radvh | radvt =>
    refine decodes rfl rfl fun w beside holds => ?_
    repeat obtain ⟨rfl, holds⟩ := holds
    rw [decodeFields_ring (beside 26 6 rfl), ringOf, show w / 8192 % 8 = _ from beside 13 3 rfl]
    rfl
  | join | leave | bar | cwait | ticket | serve | launch | sendLo | sendHi | sendr | hret | xpush | xstat =>
    refine decodes rfl rfl fun w beside holds => ?_
    repeat obtain ⟨rfl, holds⟩ := holds
    rw [decodeFields_sync (beside 26 6 rfl), syncOf, show w / 32 % 64 = _ from beside 5 6 rfl]
    rfl
  | gamoD | gamoW =>
    refine decodes rfl rfl fun w beside holds => ?_
    repeat obtain ⟨rfl, holds⟩ := holds
    rw [decodeFields_sync (beside 26 6 rfl), syncOf_gamo (beside 5 6 rfl), gamoOf, show w % 32 = _ from beside.low 5 rfl]
    rfl
  | aadd | aand | aor | axor | amin | amax | aminu | amaxu | aswap | acas | afadd =>
    refine decodes rfl rfl fun w beside holds => ?_
    repeat obtain ⟨rfl, holds⟩ := holds
    rw [decodeFields_atomic (beside 26 6 rfl), atomicOf, show w / 128 % 16 = _ from beside 7 4 rfl]
    rfl
  | mma | mmasp =>
    refine decodes rfl rfl fun w beside holds => ?_
    repeat obtain ⟨rfl, holds⟩ := holds
    rw [decodeFields_engine (beside 26 6 rfl), engineOf, show w / 512 % 4 = _ from beside 9 2 rfl]
    rfl
  | ewr | erd | mzero | mst | mldt | jwait | jpoll =>
    refine decodes rfl rfl fun w beside holds => ?_
    repeat obtain ⟨rfl, holds⟩ := holds
    rw [decodeFields_engine (beside 26 6 rfl), engineOf_minor (beside 9 2 rfl), engineMinorOf, show w / 32 % 64 = _ from beside 5 6 rfl]
    rfl
  | fesetE | fesetF =>
    refine decodes rfl rfl fun w beside holds => ?_
    repeat obtain ⟨rfl, holds⟩ := holds
    rw [decodeFields_feset (beside 26 6 rfl), fesetOf, show w / 4096 % 2 = _ from beside 12 1 rfl]
    rfl
  | vadd | vsub | vmul | vmulh | vmulhu | vand | vor | vxor | vsll | vsrl | vsra | vmin | vmax | vminu | vmaxu | vadds | vsubs | vaddus | vsubus | vcmpeq | vcmplt
  | vcmpltu | vsel | vsplat | vext | vins | vperm | vdot | vred =>
    refine decodes rfl rfl fun w beside holds => ?_
    repeat obtain ⟨rfl, holds⟩ := holds
    rw [decodeFields_vectorInt (beside 26 6 rfl), vectorIntOf, show w % 32 = _ from beside.low 5 rfl]
    rfl
  | kand | kor | kxor | kandn | kmovg | gmovk =>
    refine decodes rfl rfl fun w beside holds => ?_
    repeat obtain ⟨rfl, holds⟩ := holds
    rw [decodeFields_vectorInt (beside 26 6 rfl), vectorIntOf_mask (beside.low 5 rfl), maskOf, show w / 32 % 8 = _ from beside 5 3 rfl]
    rfl
  | fexp | flog | ferf | fdivD | fsqrtD | vcrc =>
    refine decodes rfl rfl fun w beside holds => ?_
    repeat obtain ⟨rfl, holds⟩ := holds
    rw [decodeFields_wArith (beside 26 6 rfl), wArithOf, show w % 32 = _ from beside.low 5 rfl]
    rfl
  | fadd | fsub | fmul | fdivS | fsqrtS | fmin | fmax | fma | fms | fnma | fnms | feq | flt | fle | fclass | fsgnj | fsgnjn | fsgnjx | fmvfg | fmvgf =>
    refine decodes rfl rfl fun w beside holds => ?_
    repeat obtain ⟨rfl, holds⟩ := holds
    rw [decodeFields_scalarFp (beside 26 6 rfl), scalarFpOf, show w % 32 = _ from beside.low 5 rfl]
    rfl
  | vfadd | vfsub | vfmul | vfma | vfnma | vfmin | vfmax | vfcmp =>
    refine decodes rfl rfl fun w beside holds => ?_
    repeat obtain ⟨rfl, holds⟩ := holds
    rw [decodeFields_vectorFp (beside 26 6 rfl), vectorFpOf, show w % 8 = _ from beside.low 3 rfl]
    rfl
  | vfredSum | vfredMin | vfredMax =>
    refine decodes rfl rfl fun w beside holds => ?_
    repeat obtain ⟨rfl, holds⟩ := holds
    rw [decodeFields_vfred (beside 26 6 rfl), vfredOf, show w % 8 = _ from beside.low 3 rfl]
    rfl
  | _ => nomatch word

theorem encode_of_not_isWord {i : Instr} (event : i.isWord = false) : encode i = 0 := by
  have either : (i.isWord || encode i == 0) = true := by cases i <;> rfl
  simpa [event] using either

theorem decode_eq_some_iff {w : Nat} {i : Instr} : decode w = some i ↔ decodeFields w = some i ∧ w ≠ 0 ∧ i.wf = true ∧ encode i = w := by
  unfold decode
  cases decodeFields w with
  | none => simp
  | some j =>
    simp only [Option.ite_none_right_eq_some, Option.some.injEq]
    constructor
    · rintro ⟨h, rfl⟩
      exact ⟨rfl, h⟩
    · rintro ⟨rfl, h⟩
      exact ⟨h, rfl⟩

/-- The one instruction with the word 0 would be ADD g0, g0, g0, which is not well-formed (R42). -/
theorem encode_ne_zero {i : Instr} (word : i.isWord = true) (fine : i.wf = true) : encode i ≠ 0 := by
  intro zero
  have row := (encode_lt_and_decodeFields word fine).2
  rw [zero] at row
  obtain rfl : Instr.add 0 0 0 = i := Option.some.inj row
  exact absurd fine (by decide)

theorem decode_encode {i : Instr} (word : i.isWord = true) (fine : i.wf = true) : decode (encode i) = some i :=
  decode_eq_some_iff.2 ⟨(encode_lt_and_decodeFields word fine).2, encode_ne_zero word fine, fine, rfl⟩

theorem isWord_of_decode {w : Nat} {i : Instr} (h : decode w = some i) : i.isWord = true := by
  obtain ⟨-, nonzero, -, rfl⟩ := decode_eq_some_iff.1 h
  by_contra event
  exact nonzero (encode_of_not_isWord (Bool.eq_false_of_not_eq_true event))

/-! ### Words as bytes (R37) -/

theorem length_bytesOf (n w : Nat) : (bytesOf n w).length = n := by
  induction n generalizing w with
  | zero => rfl
  | succ n ih => rw [bytesOf, List.length_cons, ih]

theorem ofBytes_bytesOf (n w : Nat) : ofBytes (bytesOf n w) = w % 256 ^ n := by
  induction n generalizing w with
  | zero => rw [bytesOf, ofBytes, Nat.pow_zero, Nat.mod_one]
  | succ n ih =>
    have first : (BitVec.ofNat 8 w).toNat = w % 256 := BitVec.toNat_ofNat ..
    rw [bytesOf, ofBytes, ih, first, Nat.pow_succ', Nat.mod_mul]

theorem decodeBytes_bytesOf {w : Nat} (h : w < 2 ^ 32) : decodeBytes (bytesOf 4 w) = decode w := by
  have all : (bytesOf 4 w).take 4 = bytesOf 4 w := List.take_of_length_le (length_bytesOf 4 w).le
  rw [decodeBytes, length_bytesOf, if_neg (by decide), all, ofBytes_bytesOf, Nat.mod_eq_of_lt (show w < 256 ^ 4 from h)]

/-- Settles O56: `decode_encode` for the first half, and for the second what `decode` checks of its answer. -/
theorem encodingsRoundTrip : Obligations.EncodingsRoundTrip := by
  refine ⟨fun i word fine => ?_, fun w i h => ?_⟩
  · have short := (encode_lt_and_decodeFields word fine).1
    exact ⟨short, decode_encode word fine, (decodeBytes_bytesOf short).trans (decode_encode word fine)⟩
  · obtain ⟨-, -, fine, same⟩ := decode_eq_some_iff.1 h
    exact ⟨isWord_of_decode h, fine, same⟩

/-- Settles O55: each printed word, read by the decoder. -/
theorem printedWordsDecode : Obligations.PrintedWordsDecode := by
  unfold Obligations.PrintedWordsDecode
  decide

end Encoding

end Sys2Proof.Machine


/-!
PROOFS. Integer words (R71, R74) and their encodings (R38, R42): what each result of the model is by the tables, and the words of majors 0x00 and 0x02 to 0x0A.
-/
namespace Sys2Proof.Machine

/-! ### Results (R71, R74) -/

/-- An instruction that writes g[d] and retires. -/
theorem Completes.writesG {i : Instr} {s : State} {d : Reg} {v w : Word} (he : exec i s = .next (s.finishG d w)) (hv : w = v) :
    Completes i s (WritesG s false d v (s.here.pc + 4)) :=
  ⟨_, he, hv ▸ s.finishG_writes d w⟩

theorem flag_eq (p : Prop) [Decidable p] : flag (decide p) = if p then 1 else 0 := by simp [flag]

theorem ofInt_min (x y : Word) : (if x.toInt ≤ y.toInt then x else y) = BitVec.ofInt 64 (min x.toInt y.toInt) := by
  rw [Int.min_def]; split <;> simp

theorem ofInt_max (x y : Word) : (if x.toInt ≤ y.toInt then y else x) = BitVec.ofInt 64 (max x.toInt y.toInt) := by
  rw [Int.max_def]; split <;> simp

theorem ofNat_min (x y : Word) : (if x.toNat ≤ y.toNat then x else y) = BitVec.ofNat 64 (min x.toNat y.toNat) := by
  rw [Nat.min_def]; split <;> simp

theorem ofNat_max (x y : Word) : (if x.toNat ≤ y.toNat then y else x) = BitVec.ofNat 64 (max x.toNat y.toNat) := by
  rw [Nat.max_def]; split <;> simp

theorem mul_eq_ofNat (x y : Word) : x * y = BitVec.ofNat 64 (x.toNat * y.toNat) := by
  apply BitVec.eq_of_toNat_eq; simp [BitVec.toNat_mul]

theorem mulHigh_eq (x y : Word) : mulHigh x y = (BitVec.ofInt 128 (x.toInt * y.toInt)).extractLsb' 64 64 := by
  apply BitVec.eq_of_toNat_eq
  simp only [mulHigh, BitVec.extractLsb'_toNat, BitVec.toNat_ofInt, Nat.shiftRight_eq_div_pow]
  generalize x.toInt * y.toInt = p
  norm_num
  omega

theorem mulHighU_eq (x y : Word) : mulHighU x y = (BitVec.ofNat 128 (x.toNat * y.toNat)).extractLsb' 64 64 := by
  apply BitVec.eq_of_toNat_eq
  simp only [mulHighU, BitVec.extractLsb'_toNat, BitVec.toNat_ofNat, Nat.shiftRight_eq_div_pow]
  generalize x.toNat * y.toNat = p
  omega

theorem shori_eq (x : Word) (imm : BitVec 16) : (x <<< 16) ||| zimm imm = BitVec.append (x.setWidth 48) imm := by
  refine BitVec.eq_of_getLsbD_eq fun i hi => ?_
  rw [show BitVec.append (x.setWidth 48) imm = x.setWidth 48 ++ imm from rfl, BitVec.getLsbD_append]
  by_cases h : i < 16
  · simp [zimm, h, hi]
  · have low : i - 16 < 64 := by omega
    simp [zimm, h, hi, BitVec.getLsbD_of_ge imm i (by omega), show i - 16 < 48 by omega, BitVec.getLsbD_eq_getElem low]

/-! ### Counts of bits (R71) -/

theorem testBit_top_false {x n : Nat} (small : x < 2 ^ (n + 1)) (clear : x.testBit n = false) : x < 2 ^ n := by
  by_contra high
  rw [Nat.testBit_eq_decide_div_mod_eq] at clear
  have : x / 2 ^ n = 1 := Nat.div_eq_of_lt_le (by omega) (by rw [pow_succ] at small; omega)
  simp [this] at clear

/-- Above its leading zeros a number has no one, and the bit below them is one. -/
theorem leadingZeros_spec (x n : Nat) (small : x < 2 ^ n) :
    leadingZeros x n ≤ n ∧ (x = 0 → leadingZeros x n = n) ∧ x < 2 ^ (n - leadingZeros x n) ∧
      (leadingZeros x n < n → x.testBit (n - 1 - leadingZeros x n) = true) := by
  induction n with
  | zero => exact ⟨le_rfl, fun _ => rfl, small, fun h => absurd h (Nat.lt_irrefl _)⟩
  | succ n ih =>
    cases top : x.testBit n with
    | true =>
      have nonzero : x ≠ 0 := by rintro rfl; simp at top
      simp [leadingZeros, top, small, nonzero]
    | false =>
      obtain ⟨le, zero, lt, bit⟩ := ih (testBit_top_false small top)
      have e : leadingZeros x (n + 1) = leadingZeros x n + 1 := by simp [leadingZeros, top]
      rw [e]
      refine ⟨by omega, fun h => by rw [zero h], by rwa [Nat.add_sub_add_right], fun h => ?_⟩
      have at' := bit (by omega)
      rwa [show n + 1 - 1 - (leadingZeros x n + 1) = n - 1 - leadingZeros x n by omega]

/-- From bit `i` on, 2 to the trailing zeros divides a number, and the bit above them is one. -/
theorem trailingZeros_spec (x i n : Nat) (low : 2 ^ i ∣ x) :
    trailingZeros x i n ≤ n ∧ (x = 0 → trailingZeros x i n = n) ∧ 2 ^ (i + trailingZeros x i n) ∣ x ∧
      (trailingZeros x i n < n → x.testBit (i + trailingZeros x i n) = true) := by
  induction n generalizing i with
  | zero => exact ⟨le_rfl, fun _ => rfl, low, fun h => absurd h (Nat.lt_irrefl _)⟩
  | succ n ih =>
    cases bit : x.testBit i with
    | true =>
      have nonzero : x ≠ 0 := by rintro rfl; simp at bit
      simp [trailingZeros, bit, low, nonzero]
    | false =>
      have low' : 2 ^ (i + 1) ∣ x := by
        obtain ⟨k, rfl⟩ := low
        rw [Nat.testBit_eq_decide_div_mod_eq, Nat.mul_div_cancel_left _ (Nat.two_pow_pos i)] at bit
        have even : 2 ∣ k := Nat.dvd_of_mod_eq_zero (by simpa using bit)
        exact pow_succ 2 i ▸ Nat.mul_dvd_mul_left _ even
      obtain ⟨le, zero, dvd, one⟩ := ih (i + 1) low'
      have e : trailingZeros x i (n + 1) = trailingZeros x (i + 1) n + 1 := by simp [trailingZeros, bit]
      have at' : i + (trailingZeros x (i + 1) n + 1) = i + 1 + trailingZeros x (i + 1) n := by omega
      rw [e, at']
      exact ⟨by omega, fun h => by rw [zero h], dvd, fun h => one (by omega)⟩

theorem oneBits_eq (x n : Nat) : oneBits x n = ((List.range n).filter fun i => x.testBit i).length := by
  induction n with
  | zero => rfl
  | succ n ih =>
    rw [oneBits, ih, List.range_succ, List.filter_append, List.length_append]
    cases h : x.testBit n <;> simp [h]

theorem toNat_ofNat_count {k : Nat} (h : k ≤ 64) : (BitVec.ofNat 64 k).toNat = k := by
  rw [BitVec.toNat_ofNat]; omega

theorem completes_clz (s : State) (d a : Reg) : ∃ v, Completes (.clz d a) s (WritesG s false d v (s.here.pc + 4)) ∧ v.toNat ≤ 64 ∧
    (s.rdG a = 0 → v = 64) ∧ (s.rdG a).toNat < 2 ^ (64 - v.toNat) ∧ (v.toNat < 64 → (s.rdG a).toNat.testBit (63 - v.toNat) = true) := by
  obtain ⟨le, zero, lt, bit⟩ := leadingZeros_spec (s.rdG a).toNat 64 (s.rdG a).isLt
  refine ⟨BitVec.ofNat 64 (leadingZeros (s.rdG a).toNat 64), .writesG rfl rfl, ?_⟩
  rw [toNat_ofNat_count le]
  exact ⟨le, fun h => by rw [zero (by simp [h])]; rfl, lt, bit⟩

theorem completes_ctz (s : State) (d a : Reg) : ∃ v, Completes (.ctz d a) s (WritesG s false d v (s.here.pc + 4)) ∧ v.toNat ≤ 64 ∧
    (s.rdG a = 0 → v = 64) ∧ 2 ^ v.toNat ∣ (s.rdG a).toNat ∧ (v.toNat < 64 → (s.rdG a).toNat.testBit v.toNat = true) := by
  obtain ⟨le, zero, dvd, bit⟩ := trailingZeros_spec (s.rdG a).toNat 0 64 (one_dvd _)
  rw [Nat.zero_add] at dvd bit
  refine ⟨BitVec.ofNat 64 (trailingZeros (s.rdG a).toNat 0 64), .writesG rfl rfl, ?_⟩
  rw [toNat_ofNat_count le]
  exact ⟨le, fun h => by rw [zero (by simp [h])]; rfl, dvd, bit⟩

theorem completes_popc (s : State) (d a : Reg) : ∃ v, Completes (.popc d a) s (WritesG s false d v (s.here.pc + 4)) ∧
    v.toNat = ((List.range 64).filter fun i => (s.rdG a).toNat.testBit i).length := by
  have le : oneBits (s.rdG a).toNat 64 ≤ 64 := by
    rw [oneBits_eq]
    exact (List.length_filter_le _ _).trans_eq List.length_range
  exact ⟨_, .writesG rfl rfl, (toNat_ofNat_count le).trans (oneBits_eq _ _)⟩

/-! ### Words (R38, R42, R43) -/

namespace Encoding

theorem decode_of_encode {w : Nat} {i : Instr} (sum : encode i = w) (word : i.isWord = true) (fine : i.wf = true) : decode w = some i :=
  sum ▸ decode_encode word fine

/-- A word whose row does not hold all of its bits is no instruction. -/
theorem decode_eq_none {w : Nat} {i : Instr} (row : decodeFields w = some i) (rest : encode i ≠ w) : decode w = none := by
  rw [Option.eq_none_iff_forall_ne_some]
  intro j h
  obtain ⟨row', -, -, same⟩ := decode_eq_some_iff.1 h
  obtain rfl : i = j := Option.some.inj (row.symm.trans row')
  exact rest same

/-- The row of a word, from its fixed bits and its fields. -/
theorem decodeFields_packed {w c : Nat} {fs : List Field} {r : Option Instr} (sum : w = packed c fs) (fit : fits c fs = true)
    (table : ∀ w, Beside w c fs → Holds w fs → decodeFields w = r) : decodeFields w = r :=
  sum ▸ table _ (beside_packed fit) (holds_packed fit)

/-- The word of major 0x00 with three register fields (R45). -/
def integerWord (d a b : Reg) (fn : Nat) : Nat := d.toNat * 2 ^ 21 + a.toNat * 2 ^ 16 + b.toNat * 2 ^ 11 + fn

theorem decode_integerWord {i : Instr} {d a b : Reg} {fn : Nat} (sum : encode i = fn + d.toNat * 2097152 + a.toNat * 65536 + b.toNat * 2048)
    (word : i.isWord = true) (fine : i.wf = true) : decode (integerWord d a b fn) = some i :=
  decode_of_encode (by rw [sum, integerWord]; omega) word fine

/-- CLZ, CTZ and POPC read one register: the other's field is zero (R71). -/
theorem decode_integerWord_unary {i : Instr} {d a b : Reg} {fn : Nat} (row : decodeFields (integerWord d a b fn) = some i)
    (sum : encode i = fn + d.toNat * 2097152 + a.toNat * 65536) (word : i.isWord = true) (fine : i.wf = true) :
    decode (integerWord d a b fn) = if b = 0 then some i else none := by
  split
  next h => subst h; exact decode_of_encode (by rw [sum, integerWord, show (0 : Reg).toNat = 0 from rfl]; omega) word fine
  next h =>
    have : b.toNat ≠ 0 := fun z => h (BitVec.eq_of_toNat_eq z)
    exact decode_eq_none row (by rw [sum, integerWord]; omega)

theorem integerWord_eq (d a b : Reg) (fn : Nat) : integerWord d a b fn = packed fn [⟨21, 5, d⟩, ⟨16, 5, a⟩, ⟨11, 5, b⟩] := by
  simp only [packed, Field.bits, integerWord]
  omega

theorem decodeFields_unary (d a b : Reg) : decodeFields (integerWord d a b 18) = some (.clz d a) ∧
    decodeFields (integerWord d a b 19) = some (.ctz d a) ∧ decodeFields (integerWord d a b 20) = some (.popc d a) := by
  refine ⟨decodeFields_packed (integerWord_eq ..) rfl fun w beside holds => ?clz, decodeFields_packed (integerWord_eq ..) rfl fun w beside holds => ?ctz,
    decodeFields_packed (integerWord_eq ..) rfl fun w beside holds => ?popc⟩
  all_goals
    obtain ⟨rfl, rfl, rfl, -⟩ := holds
    rw [decodeFields_integer (beside 26 6 rfl), integerOf, show w % 64 = _ from beside.low 6 rfl]
    rfl

/-- The word 0 alone is no ADD (R42). -/
theorem decode_add {d a b : Reg} (h : integerWord d a b 0 ≠ 0) : decode (integerWord d a b 0) = some (.add d a b) := by
  refine decode_integerWord rfl rfl ?_
  change (!(d == 0 && a == 0 && b == 0)) = true
  by_contra zero
  obtain ⟨⟨rfl, rfl⟩, rfl⟩ : (d = 0 ∧ a = 0) ∧ b = 0 := by simpa using zero
  exact h rfl

/-- The word of a major with two register fields and 16 bits (R45). -/
def immediateWord (d a : Reg) (imm : BitVec 16) (op : Nat) : Nat := op * 2 ^ 26 + d.toNat * 2 ^ 21 + a.toNat * 2 ^ 16 + imm.toNat

theorem decode_immediateWord {i : Instr} {d a : Reg} {imm : BitVec 16} {op c : Nat} (sum : encode i = c + d.toNat * 2097152 + a.toNat * 65536 + imm.toNat)
    (major : c = op * 2 ^ 26) (word : i.isWord = true) (fine : i.wf = true) : decode (immediateWord d a imm op) = some i :=
  decode_of_encode (by rw [sum, immediateWord, major]; omega) word fine

theorem decode_addi (d a : Reg) (imm : BitVec 16) :
    decode (immediateWord d a imm 2) = some (if d = 0 ∧ a = 0 ∧ imm = 0 then .nop else .addi d a imm) := by
  split
  next h => obtain ⟨rfl, rfl, rfl⟩ := h; exact decode_encode (i := .nop) rfl rfl
  next h => exact decode_immediateWord rfl rfl rfl (by change (!(d == 0 && a == 0 && imm == 0)) = true; simp; tauto)

theorem decode_lhi (d a : Reg) (imm : BitVec 16) : decode (immediateWord d a imm 9) = if a = 0 then some (.lhi d imm) else none := by
  have sum : encode (.lhi d imm) = 603979776 + d.toNat * 2097152 + imm.toNat := rfl
  split
  next h => subst h; exact decode_of_encode (by rw [sum, immediateWord, show (0 : Reg).toNat = 0 from rfl]; omega) rfl rfl
  next h =>
    have packs : immediateWord d a imm 9 = packed (9 * 2 ^ 26) [⟨21, 5, d⟩, ⟨16, 5, a⟩, ⟨0, 16, imm⟩] := rfl
    have row : decodeFields (immediateWord d a imm 9) = some (.lhi d imm) := by
      refine decodeFields_packed packs rfl fun w beside holds => ?_
      obtain ⟨rfl, rfl, rfl, -⟩ := holds
      rw [decodeFields, show w / 67108864 % 64 = _ from beside 26 6 rfl]
      rfl
    have : a.toNat ≠ 0 := fun z => h (BitVec.eq_of_toNat_eq z)
    exact decode_eq_none row (by rw [sum, immediateWord]; omega)

theorem shiftWord_low (d a : Reg) (n : BitVec 6) {c : Nat} (hc : c % 64 = 0) (high : c % 65536 ≤ 128) :
    (c + d.toNat * 2097152 + a.toNat * 65536 + n.toNat) % 65536 / 64 ≤ 2 := by
  have := n.isLt
  omega

/-- A word of major 0x08 that decodes has bits [15:8] clear and does not have 0b11 in [7:6] (R74). -/
theorem shift_of_decode {w : Nat} {i : Instr} (major : w / 67108864 % 64 = 8) (h : decode w = some i) : w % 65536 / 64 ≤ 2 := by
  obtain ⟨row, -, -, same⟩ := decode_eq_some_iff.1 h
  rw [decodeFields_shift major, shiftOf] at row
  rw [← same]
  split at row
  · exact Option.some.inj row ▸ shiftWord_low _ _ _ (by decide) (by decide)
  · exact Option.some.inj row ▸ shiftWord_low _ _ _ (by decide) (by decide)
  · exact Option.some.inj row ▸ shiftWord_low _ _ _ (by decide) (by decide)
  · cases row

theorem decode_shift (d a : Reg) (imm : BitVec 16) : decode (immediateWord d a imm 8) =
    if imm.toNat / 64 = 0 then some (.slli d a (imm.setWidth 6)) else if imm.toNat / 64 = 1 then some (.srli d a (imm.setWidth 6))
    else if imm.toNat / 64 = 2 then some (.srai d a (imm.setWidth 6)) else none := by
  have low : (imm.setWidth 6).toNat = imm.toNat % 64 := BitVec.toNat_setWidth ..
  have := imm.isLt
  have := d.isLt
  have := a.isLt
  split_ifs
  iterate 3 exact decode_of_encode (by simp only [encode, immediateWord, low]; omega) rfl rfl
  rw [Option.eq_none_iff_forall_ne_some]
  intro i h
  have := shift_of_decode (by rw [immediateWord]; omega) h
  rw [immediateWord] at this
  omega

end Encoding

open Encoding in
/-- Settles O1: results by `Completes.writesG` and the lemmas about each operation, words by `decode_encode`. -/
theorem integerOperations : Obligations.IntegerOperations := by
  unfold Obligations.IntegerOperations
  refine ⟨fun s d a b => ?_, fun s d a imm n => ?_, fun d a b => ?_, fun d a imm => ?_⟩
  · exact ⟨.writesG rfl rfl, .writesG rfl rfl, .writesG rfl rfl, .writesG rfl rfl, .writesG rfl rfl, .writesG rfl rfl, .writesG rfl rfl, .writesG rfl rfl,
      .writesG rfl rfl, .writesG rfl (flag_eq _), .writesG rfl (flag_eq _), .writesG rfl (ofInt_min _ _), .writesG rfl (ofInt_max _ _),
      .writesG rfl (ofNat_min _ _), .writesG rfl (ofNat_max _ _), .writesG rfl (mul_eq_ofNat _ _), .writesG rfl (mulHigh_eq _ _),
      .writesG rfl (mulHighU_eq _ _), completes_clz s d a, completes_ctz s d a, completes_popc s d a⟩
  · have signed : imm.toInt = (simm imm).toInt := (BitVec.toInt_signExtend_of_le (by decide)).symm
    rw [signed]
    exact ⟨⟨_, rfl, s.retire_goesOn⟩, .writesG rfl rfl, .writesG rfl rfl, .writesG rfl rfl, .writesG rfl rfl, .writesG rfl (flag_eq _),
      .writesG rfl (flag_eq _), .writesG rfl rfl, .writesG rfl rfl, .writesG rfl rfl, .writesG rfl rfl, .writesG rfl (shori_eq _ _)⟩
  · obtain ⟨clz, ctz, popc⟩ := decodeFields_unary d a b
    have three {fn : Nat} {i : Instr} := @decode_integerWord i d a b fn
    exact ⟨decode_add, three rfl rfl rfl, three rfl rfl rfl, three rfl rfl rfl, three rfl rfl rfl, three rfl rfl rfl, three rfl rfl rfl, three rfl rfl rfl,
      three rfl rfl rfl, three rfl rfl rfl, three rfl rfl rfl, three rfl rfl rfl, three rfl rfl rfl, three rfl rfl rfl, three rfl rfl rfl, three rfl rfl rfl,
      three rfl rfl rfl, three rfl rfl rfl, decode_integerWord_unary clz rfl rfl rfl,
      decode_integerWord_unary ctz rfl rfl rfl, decode_integerWord_unary popc rfl rfl rfl⟩
  · have row {op c : Nat} {i : Instr} := @decode_immediateWord i d a imm op c
    exact ⟨decode_addi d a imm, row rfl rfl rfl rfl, row rfl rfl rfl rfl, row rfl rfl rfl rfl, row rfl rfl rfl rfl, row rfl rfl rfl rfl,
      decode_shift d a imm, decode_lhi d a imm, row rfl rfl rfl rfl⟩

end Sys2Proof.Machine


/-!
PROOFS. Branches and jumps (R75), the precise traps of TRAP, ERET and the words beside them (R90 to R92, R344), and where a division executes (R73, R198).
-/
namespace Sys2Proof.Machine

/-! ### Branches and jumps (R75) -/

/-- A branch goes to its target or to the next word. -/
theorem State.branch_goesOn (s : State) (a b : Reg) (off : BitVec 16) (test : Word → Word → Bool) {p : Prop} [Decidable p]
    (h : test (s.rdG a) (s.rdG b) = decide p) :
    GoesOn s false (if p then s.here.pc + off.signExtend 64 * 4 else s.here.pc + 4) (s.branch a b off test) := by
  unfold State.branch
  rw [h]
  by_cases hp : p
  · simp only [hp, decide_true, if_true]
    exact s.retireTo_goesOn false _
  · simp only [hp, decide_false, Bool.false_eq_true, if_false]
    exact s.retire_goesOn

theorem completes_jalr {s : State} {a : Reg} {imm : BitVec 16} (d : Reg) (even : (s.rdG a + imm.signExtend 64).toNat % 4 = 0) :
    Completes (.jalr d a imm) s (WritesG s false d (s.here.pc + 4) (s.rdG a + imm.signExtend 64)) :=
  .of_if_not rfl (not_not.mpr even) (s.wrG_retireTo false d _ _)

theorem completes_jalr_misaligned {s : State} {a : Reg} {imm : BitVec 16} (d : Reg) (can : s.CanTrap) (odd : (s.rdG a + imm.signExtend 64).toNat % 4 ≠ 0) :
    Completes (.jalr d a imm) s (TakesTrap s 3 (s.rdG a + imm.signExtend 64) (s.rdG a + imm.signExtend 64) s.here.pc) :=
  .of_if rfl odd (s.trap_takes can .misalign _ _)

open Encoding in
/-- Settles O3: a branch by `State.branch_goesOn`, JALR by its target, and the words by `decode_encode`. -/
theorem branchesAndJumps : Obligations.BranchesAndJumps := by
  unfold Obligations.BranchesAndJumps
  intro s a b d off joff imm
  have goes (test : Word → Word → Bool) {p : Prop} [Decidable p] (h : test (s.rdG a) (s.rdG b) = decide p) := s.branch_goesOn a b off test h
  refine ⟨⟨_, rfl, goes _ rfl⟩, ⟨_, rfl, goes _ rfl⟩, ⟨_, rfl, goes _ rfl⟩, ⟨_, rfl, goes _ rfl⟩, ⟨_, rfl, goes _ rfl⟩, ⟨_, rfl, goes _ rfl⟩,
    ⟨_, rfl, s.wrG_retireTo false 1 _ _⟩, completes_jalr d, completes_jalr_misaligned d, ?words, decode_encode (i := .jal joff) rfl rfl,
    decode_encode (i := .jalr d a imm) rfl rfl⟩
  case words =>
    exact ⟨decode_encode (i := .beq a b off) rfl rfl, decode_encode (i := .bne a b off) rfl rfl, decode_encode (i := .blt a b off) rfl rfl,
      decode_encode (i := .bge a b off) rfl rfl, decode_encode (i := .bltu a b off) rfl rfl, decode_encode (i := .bgeu a b off) rfl rfl⟩

/-! ### Division on an L-core (R73, R198) -/

/-- A thread of core 0, which is an L-core, that stands in its cluster's migration FIFO already. -/
def queuedThread : State := { State.reset with migFifo := [(0, [0])] }

/-- Refutes O2: `State.awaitWCore` takes a context's older entry out of the FIFO, so where the FIFO is just that context (`queuedThread`), DIV leaves it as it was and does not
put a second entry at its end. -/
theorem not_divisionOnTheWCore : ¬Obligations.DivisionOnTheWCore := by
  unfold Obligations.DivisionOnTheWCore
  intro h
  obtain ⟨-, onL, -⟩ := h queuedThread 0 0 0
  obtain ⟨t, ran, -, -, queued, -⟩ := onL (by decide) (by decide) (.div 0 0 0) (.inl rfl)
  have same : t = queuedThread.awaitWCore := (Host.Outcome.next.inj ran).symm
  rw [same] at queued
  exact absurd queued (by decide)

/-! ### Traps that are not vectored (R345 to R347) -/

@[simp] theorem State.ctx_onPart (s : State) (p : Nat) (f : Part → Part) (id : Nat) : (s.onPart p f).ctx id = s.ctx id := by
  rw [State.ctx, State.ctxs_onPart]; rfl

@[simp] theorem State.core_onPart (s : State) (p : Nat) (f : Part → Part) (i : Nat) : (s.onPart p f).core i = s.core i := by
  rw [State.core, State.cores_onPart]; rfl

/-- A trap within a trap, or without a vector, is not vectored (R90). -/
theorem State.not_vectored {s : State} {id : Nat} (h : (s.ctx id).cr.trapvec = 0 ∨ (s.ctx id).cr.trapcause.getLsbD 8 = true) : s.vectored id = false := by
  unfold State.vectored Ctx.nested
  rcases h with h | h <;> simp [h]

theorem State.handler_not_vectored {s : State} {id : Nat} (h : isHandler id = true) : s.vectored id = false := by
  unfold State.vectored
  rw [h]
  rfl

/-- With nothing still to come, a trap that is not vectored is a failure charged to the context (R345). -/
theorem State.trapOf_charges {s : State} {id : Nat} (quiet : (s.ctx id).pend = []) (answered : s.answersOut id = false) (unvectored : s.vectored id = false)
    (c : Cause) (addr val ret : Word) :
    s.trapOf id c addr val ret = s.chargeFailure id { kind := c.code.toNat, tid := (s.ctx id).cr.tid, pc := ret, addr := addr, val := val } := by
  simp [State.trapOf, quiet, answered, unvectored]

/-- A failure that a launch bears stops the context and orders the launch to abort (R345, R346). -/
theorem State.chargeFailure_launch {s : State} {id slot : Nat} (charged : (s.ctx id).launch = some slot) (r : AbortRec) :
    s.chargeFailure id r = (s.setCtx id { s.ctx id with st := .stopped }).orderAbort (s.ctx id).partNo slot r := by
  simp only [State.chargeFailure, charged, State.onCtx_eq]

/-- The context that executes has stopped, and its launch is ordered to abort with a record (R345 to R347): nothing else has changed. -/
theorem State.stops_and_aborts {s : State} {slot : Nat} {l : Launch} (launch : s.launch? s.here.partNo slot = some l) (r : AbortRec) :
    let t := (s.setCtx s.cur { s.here with st := .stopped }).orderAbort s.here.partNo slot r
    t.here = { s.here with st := .stopped } ∧ OthersAsBefore s t ∧ t.mem = s.mem ∧ t.cores = s.cores ∧ t.net = s.net ∧
      t.launch? s.here.partNo slot = some (l.orderAbort { r with slot := slot, gtr := s.gtrOf sDie }) ∧
      ∀ p q, (p, q) ≠ (s.here.partNo, slot) → t.launch? p q = s.launch? p q := by
  intro t
  refine ⟨?_, fun id other => ?_, State.mem_onPart .., State.cores_onPart .., State.net_onPart .., ?_, fun p q other => ?_⟩
  · have cur : t.cur = s.cur := State.cur_onPart ..
    rw [State.here, cur]
    exact (State.ctx_onPart ..).trans (State.ctx_setCtx_self ..)
  · exact (State.ctx_onPart ..).trans (State.ctx_setCtx_ne _ other _)
  · exact (State.launch?_onLaunch ..).trans ((if_pos ⟨rfl, rfl⟩).trans (congrArg (Option.map _) launch))
  · exact (State.launch?_onLaunch ..).trans (if_neg fun same => other (Prod.ext same.1 same.2))

/-- Settles O7: vectored by `State.trapOf_takes`, else by the charge to the launch. -/
theorem trapRaisesBreak : Obligations.TrapRaisesBreak := by
  unfold Obligations.TrapRaisesBreak
  refine ⟨fun s c can => ⟨_, rfl, s.trapOf_takes can .brk _ _ _⟩, fun s c slot l thread quiet answered unvectored charged launch first => ?_⟩
  have stops := (State.trapOf_charges quiet answered (State.not_vectored unvectored) .brk s.here.pc (c.setWidth 64) (s.here.pc + 4)).trans
    (State.chargeFailure_launch charged _)
  exact ⟨_, congrArg Host.Outcome.next stops, State.stops_and_aborts launch _⟩

/-! ### ERET and the precise traps of other words (R75, R83, R92, R153) -/

/-- A context whose trap is vectored is a thread that stands in no trap. -/
theorem State.CanTrap.thread {s : State} (can : s.CanTrap) : s.inHandler = false ∧ s.here.nested = false := by
  obtain ⟨vectored, -, -⟩ := can
  simp only [State.vectored, Bool.and_eq_true, Bool.not_eq_true'] at vectored
  exact vectored.1

theorem completes_eret {s : State} (thread : s.inHandler = false) (nested : s.here.cr.trapcause.getLsbD 8 = true) :
    Completes .eret s fun t => OnlyHere s t ∧ t.here = s.here.leaveTrap := by
  have inTrap : ¬(s.inHandler || !s.here.nested) = true := by rw [thread, Ctx.nested, nested]; decide
  exact .of_if_not rfl inTrap ⟨OnlyHere.setCtx s _, State.ctx_setCtx_self ..⟩

/-- What a return leaves of TRAPCAUSE: CODE alone (R92). -/
theorem leaveTrap_cause (x : BitVec 10) :
    (BitVec.append (0 : BitVec 2) (x.setWidth 8)).getLsbD 8 = false ∧ (BitVec.append (0 : BitVec 2) (x.setWidth 8)).getLsbD 9 = false ∧
      (BitVec.append (0 : BitVec 2) (x.setWidth 8)).setWidth 8 = x.setWidth 8 := by
  rw [show BitVec.append (0 : BitVec 2) (x.setWidth 8) = (0 : BitVec 2) ++ x.setWidth 8 from rfl]
  exact ⟨BitVec.getLsbD_append, BitVec.getLsbD_append, BitVec.setWidth_append_eq_right⟩

/-- Settles O8: each word by the branch of its meaning that traps, and ERET by `Ctx.leaveTrap`. -/
theorem preciseTrapsAndReturn : Obligations.PreciseTrapsAndReturn := by
  unfold Obligations.PreciseTrapsAndReturn
  refine ⟨fun s d a b imm r o sc h x word can => ?_, fun s thread nested => ?_⟩
  · obtain ⟨thread, outside⟩ := can.thread
    have access : exec (.ld d a r o sc h x) s = .next (s.withTarget .load (s.rdG a + x.signExtend 64 * 8) 8 _ _) := congrArg Host.Outcome.next (State.allow_g ..)
    refine ⟨completes_jalr_misaligned d can, fun odd => ?spawn, fun _ => ?eret, fun place => ?unmapped, fun off place enabled inside odd => ?misaligned,
      _, rfl, s.trap_takes can .illegal _ _⟩
    case spawn => exact .of_if_not rfl (by simp [thread]) (by rw [if_pos odd]; exact s.trap_takes can .misalign _ _)
    case eret => exact .of_if rfl (by rw [thread, outside]; decide) (s.trap_takes can .illegal _ _)
    case unmapped => exact ⟨_, access, State.withTarget_traps can (State.locate_unmapped place ..) _ _⟩
    case misaligned =>
      have fate : s.lmFate s.here.partNo s.homeCore s.execCore .load s.homeCore off = .lm s.homeCore off := by
        rw [State.lmFate_home enabled rfl, if_neg (by omega)]
      have located : s.locate s.cur .load (s.rdG a + x.signExtend 64 * 8) 8 = (.trap .misalign, s) := by rw [State.locate_lm place fate, if_pos odd]
      exact ⟨_, access, State.withTarget_traps can located _ _⟩
  · refine (completes_eret thread nested).imp fun t ⟨only, here⟩ => ?_
    obtain ⟨nest, int, code⟩ := leaveTrap_cause s.here.cr.trapcause
    rw [here]
    exact ⟨only, rfl, nest, int, code, rfl⟩

end Sys2Proof.Machine


/-!
PROOFS. Control registers (R77 to R81, R95, R127): what CRR reads, what CRW, CRS and CRC present, LCLK after drift, and what a deterministic partition forbids.
-/
namespace Sys2Proof.Machine

/-! ### LCLK (R127) -/

/-- Drift to a floor is done once. -/
theorem maxStamp_maxStamp (x y : Stamp) : maxStamp (maxStamp x y) y = maxStamp x y := by
  unfold maxStamp
  by_cases h : later y x = true
  · simp [h]
  · simp [h]

/-- The executing context has become one whose control registers, and the values that LCLK has had, alone may differ; g[d] is written, and the instruction retires (R78). -/
theorem State.setCtx_finishG_writesCr (s : State) {c : Ctx} (d : Reg) (old : Word) (same : { c with cr := s.here.cr, clocks := s.here.clocks } = s.here) :
    WritesCr s d old c.cr ((s.setCtx s.cur c).finishG d old) := by
  have g : c.g = s.here.g := (congrArg Ctx.g same :)
  have pc : c.pc = s.here.pc := (congrArg Ctx.pc same :)
  have migrated : c.migrated = s.here.migrated := (congrArg Ctx.migrated same :)
  have count : c.migCount = s.here.migCount := (congrArg Ctx.migCount same :)
  have now : ((s.setCtx s.cur c).finishG d old).here = (c.wrG d.toNat old).retireAt false (c.pc + 4) := by
    rw [State.finishG_setCtx]
    exact State.ctx_setCtx_self ..
  have e : (c.wrG d.toNat old).retireAt false (c.pc + 4) =
      { c with g := (c.wrG d.toNat old).g, pc := c.pc + 4, migCount := (c.countRetired false).migCount } := by
    rw [Ctx.retireAt_eq, Ctx.wrG_eq]
    simp only [Ctx.migCount_countRetired]
  refine ⟨?_, ?_, ?_, fun r => ?_, ?_, ?_⟩
  · rw [State.finishG_setCtx]
    exact OnlyHere.setCtx s _
  · rw [now, e, pc]
  · rw [now, e, Ctx.migCount_countRetired, Ctx.migCount_countRetired, migrated, count]
  · rw [State.rdG, now, Ctx.rdG_of_wrG c d r old _ (by rw [e]), Ctx.rdG, g]
    rfl
  · rw [now, e]
  · rw [now, e, ← same]

/-- LCLK rises to a stamp, after drift (R97, R127). -/
theorem State.raiseLclk_finishG (s : State) (d : Reg) (old : Word) (v : Stamp) :
    WritesCr s d old { s.here.cr with lclk := maxStamp (s.lclkOf s.cur) v } ((s.raiseLclk s.cur v).finishG d old) :=
  s.setCtx_finishG_writesCr (c := { s.here with clocks := s.clocksAt s.cur v, cr := { s.here.cr with lclk := maxStamp (s.lclkOf s.cur) v } }) d old rfl

/-- Drift is stored back (R127). -/
theorem State.drift_finishG (s : State) (d : Reg) (old : Word) :
    WritesCr s d old { s.here.cr with lclk := s.lclkOf s.cur } ((s.drift s.cur).finishG d old) := by
  have h := s.raiseLclk_finishG d old (s.lfOf s.cur)
  rwa [show maxStamp (s.lclkOf s.cur) (s.lfOf s.cur) = s.lclkOf s.cur from maxStamp_maxStamp ..] at h

/-! ### One step of CRR, CRW, CRS or CRC (R78, R79, R95) -/

section
variable {s : State} {i : Instr} {reads : Bool} {d : Reg} {n : BitVec 12} {value : Option (Word → Word)}

theorem State.controlStep_forbidden (det : s.detHere = true) (timing : timingCr n.toNat = true) (h : reads = true) :
    s.controlStep i reads d n value = s.detForbid i := by
  simp [State.controlStep, det, timing, h]

theorem State.controlStep_read (allowed : (s.detHere && timingCr n.toNat && reads) = false) (hn : n ≠ 0x00B) :
    s.controlStep i reads d n none = s.finishG d (s.crRead n.toNat) := by
  simp only [State.controlStep, allowed, hn, if_false, Bool.false_eq_true]

theorem State.controlStep_present (allowed : (s.detHere && timingCr n.toNat && reads) = false) (hn : n ≠ 0x00B) (f : Word → Word) :
    s.controlStep i reads d n (some f) = (s.present n.toNat (f (s.crRead n.toNat))).finishG d (s.crRead n.toNat) := by
  simp only [State.controlStep, allowed, hn, if_false, Bool.false_eq_true]

theorem State.controlStep_lclk (allowed : (s.detHere && timingCr 0x00B && reads) = false) :
    s.controlStep i reads d 0x00B value = (s.drift s.cur).finishG d (s.crRead 0x00B) := by
  unfold State.controlStep
  rw [show (0x00B : BitVec 12).toNat = 0x00B from rfl, allowed]
  cases value <;> rfl

end

theorem completes_crr {s : State} {n : BitVec 12} (d : Reg) (allowed : s.detHere = false ∨ timingCr n.toNat = false) (hn : n ≠ 0x00B) :
    Completes (.crr d n) s (WritesG s false d (s.crRead n.toNat) (s.here.pc + 4)) :=
  .writesG (congrArg Host.Outcome.next (State.controlStep_read (by rcases allowed with h | h <;> simp [h]) hn)) rfl

theorem completes_crr_lclk {s : State} (d : Reg) (free : s.detHere = false) :
    Completes (.crr d 0x00B) s (WritesCr s d ((s.lclkOf s.cur).setWidth 64) { s.here.cr with lclk := s.lclkOf s.cur }) :=
  ⟨_, congrArg Host.Outcome.next (State.controlStep_lclk (by simp [free])), s.drift_finishG d _⟩

theorem completes_crr_ring (s : State) (d : Reg) (q : BitVec 3) :
    Completes (.crr d (0x060 + q.zeroExtend 12)) s (WritesG s false d ((s.core s.homeCore).rings.getD q.toNat 0) (s.here.pc + 4)) := by
  have index : ((0x060 : BitVec 12) + q.zeroExtend 12).toNat = 0x060 + q.toNat := by
    simp [BitVec.toNat_add]
    omega
  have low : 0x060 ≤ ((0x060 : BitVec 12) + q.zeroExtend 12).toNat := by omega
  have high : ((0x060 : BitVec 12) + q.zeroExtend 12).toNat ≤ 0x067 := by omega
  have notLclk : (0x060 : BitVec 12) + q.zeroExtend 12 ≠ 0x00B := fun e => absurd (e ▸ low) (by decide)
  have read : s.crRead ((0x060 : BitVec 12) + q.zeroExtend 12).toNat = (s.core s.homeCore).rings.getD q.toNat 0 := by
    rw [State.crRead_ring s low high, index, Nat.add_sub_cancel_left]
    rfl
  exact read ▸ completes_crr d (.inr (timingCr_ring low high)) notLclk

/-! ### The instructions that present a value (R78 to R80) -/

/-- `op` presents `new` of the old value and g[a] (R78). -/
def Presents (op : Reg → Reg → BitVec 12 → Instr) (new : Word → Word → Word) : Prop :=
  ∀ (s : State) (d a : Reg) (n : BitVec 12), exec (op d a n) s = .next (s.controlStep (op d a n) (d != 0) d n (some fun old => new old (s.rdG a)))

theorem presents_crw : Presents .crw fun _ x => x := fun _ _ _ _ => rfl
theorem presents_crs : Presents .crs fun old x => old ||| x := fun _ _ _ _ => rfl
theorem presents_crc : Presents .crc fun old x => old &&& ~~~x := fun _ _ _ _ => rfl

section
variable {op : Reg → Reg → BitVec 12 → Instr} {new : Word → Word → Word} (presents : Presents op new) {s : State} {d a : Reg} {n : BitVec 12}
include presents

theorem Presents.completes {u : State} {P : State → Prop} (allowed : (s.detHere && timingCr n.toNat && (d != 0)) = false) (hn : n ≠ 0x00B)
    (written : s.present n.toNat (new (s.crRead n.toNat) (s.rdG a)) = u) (hP : P (u.finishG d (s.crRead n.toNat))) : Completes (op d a n) s P :=
  ⟨_, (presents s d a n).trans (congrArg Host.Outcome.next (State.controlStep_present allowed hn _)), written ▸ hP⟩

/-- A value that is ignored: only g[d] is written. -/
theorem Presents.ignored (allowed : (s.detHere && timingCr n.toNat && (d != 0)) = false) (hn : n ≠ 0x00B)
    (kept : s.present n.toNat (new (s.crRead n.toNat) (s.rdG a)) = s) : Completes (op d a n) s (WritesCr s d (s.crRead n.toNat) s.here.cr) :=
  presents.completes allowed hn kept (s.finishG_keepsCr d _)

theorem Presents.lclk (allowed : (s.detHere && (d != 0)) = false) :
    Completes (op d a 0x00B) s (WritesCr s d ((s.lclkOf s.cur).setWidth 64) { s.here.cr with lclk := s.lclkOf s.cur }) := by
  have allowed' : (s.detHere && timingCr 0x00B && (d != 0)) = false := by rwa [show timingCr 0x00B = true from rfl, Bool.and_true]
  exact ⟨_, (presents s d a _).trans (congrArg Host.Outcome.next (State.controlStep_lclk allowed')), s.drift_finishG d _⟩

theorem Presents.forbidden (det : s.detHere = true) (can : s.CanTrap) (timing : timingCr n.toNat = true) (hd : d ≠ 0) :
    Completes (op d a n) s (TakesTrap s 9 s.here.pc (BitVec.ofNat 64 (encode (op d a n))) s.here.pc) :=
  ⟨_, (presents s d a n).trans (congrArg Host.Outcome.next (State.controlStep_forbidden det timing (by simpa using hd))), s.trap_takes can .detForbid _ _⟩

end

/-- Where the instruction does not read, or the partition is not deterministic, no register is forbidden (R95). -/
theorem timing_allowed {s : State} {d : Reg} (h : s.detHere = false ∨ d = 0) (n : BitVec 12) : (s.detHere && timingCr n.toNat && (d != 0)) = false := by
  rcases h with h | h <;> simp [h]

/-- Settles O5, register by register: each takes what `State.present` gives it, or ignores it. -/
theorem controlRegisterWrites : Obligations.ControlRegisterWrites := by
  unfold Obligations.ControlRegisterWrites
  intro s d a op new form
  have presents : Presents op new := by
    simp only [List.mem_cons, Prod.mk.injEq, List.not_mem_nil, or_false] at form
    rcases form with ⟨rfl, rfl⟩ | ⟨rfl, rfl⟩ | ⟨rfl, rfl⟩
    exacts [presents_crw, presents_crs, presents_crc]
  have takes (n : BitVec 12) (f : CtxCr → CtxCr) (timeless : timingCr n.toNat = false) (hn : n ≠ 0x00B)
      (written : s.present n.toNat (new (s.crRead n.toNat) (s.rdG a)) = s.onCr f) := presents.completes (timeless_allowed timeless) hn written (s.onCr_finishG d _ f)
  refine ⟨takes 0x010 (fun r => { r with fflags := (new (s.here.cr.fflags.zeroExtend 64) (s.rdG a)).setWidth 5 }) rfl (by decide) rfl,
    takes 0x011 (fun r => { r with ftrapen := (new (s.here.cr.ftrapen.zeroExtend 64) (s.rdG a)).setWidth 5 }) rfl (by decide) rfl, ?frm,
    takes 0x020 (fun r => { r with trapvec := new s.here.cr.trapvec (s.rdG a) &&& 0xFFFFFFFFFFFFFFFC }) rfl (by decide) rfl,
    takes 0x021 (fun r => { r with trappc := new s.here.cr.trappc (s.rdG a) &&& 0xFFFFFFFFFFFFFFFC }) rfl (by decide) rfl,
    takes 0x031 (fun r => { r with xien := (new (s.here.cr.xien.zeroExtend 64) (s.rdG a)).setWidth 1 }) rfl (by decide) rfl,
    takes 0x038 (fun r => { r with pset := (new (s.here.cr.pset.zeroExtend 64) (s.rdG a)).setWidth 41 }) rfl (by decide) rfl, fun free => ?bounces, fun n old mem => ?readOnly, fun free => ⟨fun n old mem => ?timed, ?lclk⟩, fun big => ?pquotaIgnored, fun small => ?pquota,
    fun no => ?hlimitIgnored, fun thread big => ?hlimit⟩
  case frm =>
    split
    next le =>
      exact presents.completes (timeless_allowed rfl) (by decide) (if_neg (Nat.not_le.mpr (Nat.lt_succ_of_le le)))
        (s.onCr_finishG d _ fun r => { r with frm := (new (s.here.cr.frm.zeroExtend 64) (s.rdG a)).setWidth 3 })
    next gt => exact presents.ignored (timeless_allowed rfl) (by decide) (if_pos (Nat.succ_le_of_lt (Nat.lt_of_not_le gt)))
  case bounces =>
    exact presents.completes (timing_allowed free _) (by decide) rfl
      (s.onCr_finishG d _ fun r => { r with bounces := (new (s.here.cr.bounces.zeroExtend 64) (s.rdG a)).setWidth 32 })
  case readOnly =>
    simp only [List.mem_cons, Prod.mk.injEq, List.not_mem_nil, or_false] at mem
    rcases mem with ⟨rfl, rfl⟩ | ⟨rfl, rfl⟩ | ⟨rfl, rfl⟩ | ⟨rfl, rfl⟩ | ⟨rfl, rfl⟩ | ⟨rfl, rfl⟩ | ⟨rfl, rfl⟩ | ⟨rfl, rfl⟩ | ⟨rfl, rfl⟩
    all_goals exact presents.ignored (timeless_allowed rfl) (by decide) rfl
  case timed =>
    simp only [List.mem_cons, Prod.mk.injEq, List.not_mem_nil, or_false] at mem
    rcases mem with ⟨rfl, rfl⟩ | ⟨rfl, rfl⟩ | ⟨rfl, rfl⟩ | ⟨rfl, rfl⟩ | ⟨rfl, rfl⟩ | ⟨rfl, rfl⟩
    all_goals exact presents.ignored (timing_allowed free _) (by decide) rfl
  case lclk => exact presents.lclk (by rcases free with h | h <;> simp [h])
  case pquotaIgnored => exact presents.ignored (timeless_allowed rfl) (by decide) (if_pos big)
  case pquota => exact presents.completes (timeless_allowed rfl) (by decide) (if_neg (Nat.not_lt.mpr small)) (s.setCore_finishG d _ _)
  case hlimitIgnored => exact presents.ignored (timeless_allowed rfl) (by decide) (if_pos ((Bool.or_eq_true _ _).mpr (no.imp_right decide_eq_true)))
  case hlimit =>
    have taken : ¬(s.inHandler || decide (((new (s.crRead (0x043 : BitVec 12).toNat) (s.rdG a)).setWidth 32 : BitVec 32).toNat < 256)) = true := by
      rw [thread, Bool.false_or, decide_eq_true_eq]
      exact Nat.not_lt.mpr big
    exact presents.completes (timeless_allowed rfl) (by decide) (if_neg taken) (s.setCore_finishG d _ _)

/-! ### What a deterministic partition forbids (R94, R95) -/

/-- The registers whose value depends on timing (R95). -/
theorem timingCr_of_mem : ∀ n ∈ [(0x001 : BitVec 12), 0x008, 0x009, 0x00A, 0x00B, 0x050, 0x049, 0x041, 0x03A], timingCr n.toNat = true :=
  List.forall_iff_forall_mem.mp ⟨rfl, rfl, rfl, rfl, rfl, rfl, rfl, rfl, rfl⟩

/-- CRW that reads nothing completes also there, and no g register changes. -/
theorem completes_crw_unread (s : State) (a : Reg) {n : BitVec 12} (mem : n ∈ [(0x001 : BitVec 12), 0x008, 0x009, 0x00A, 0x00B, 0x050, 0x049, 0x041, 0x03A]) :
    Completes (.crw 0 a n) s fun t => t.here.pc = s.here.pc + 4 ∧ ∀ q : Reg, t.rdG q = s.rdG q := by
  have reg {v : Word} {q : Reg} : (if q = 0 ∧ q ≠ 0 then v else s.rdG q) = s.rdG q := if_neg fun h => h.2 h.1
  have cr {old : Word} {r : CtxCr} (h : Completes (.crw 0 a n) s (WritesCr s 0 old r)) :
      Completes (.crw 0 a n) s fun t => t.here.pc = s.here.pc + 4 ∧ ∀ q : Reg, t.rdG q = s.rdG q :=
    h.imp fun t w => ⟨w.pc, fun q => (w.value q).trans reg⟩
  have unread := timing_allowed (s := s) (d := 0) (.inr rfl)
  simp only [List.mem_cons, List.not_mem_nil, or_false] at mem
  rcases mem with rfl | rfl | rfl | rfl | rfl | rfl | rfl | rfl | rfl
  case inr.inr.inr.inr.inl => exact cr (presents_crw.lclk (by simp))
  case inr.inr.inr.inr.inr.inr.inl => exact (completes_crw_tracen a (.inr rfl)).imp fun t w => ⟨w.pc, fun q => (w.value q).trans reg⟩
  case inr.inr.inr.inr.inr.inr.inr.inl =>
    exact cr (presents_crw.completes (unread _) (by decide) rfl (s.onCr_finishG 0 _ fun r => { r with bounces := (s.rdG a).setWidth 32 }))
  all_goals exact cr (presents_crw.ignored (unread _) (by decide) rfl)

/-- Settles O4: what each number reads, by `State.crRead`, and what is forbidden, by `State.controlStep_forbidden`. -/
theorem controlRegisterReads : Obligations.ControlRegisterReads := by
  unfold Obligations.ControlRegisterReads
  refine ⟨fun s d => ?_, fun s d a n r x det can mem => ?_⟩
  · have timeless {n : BitVec 12} (h : timingCr n.toNat = false) (hn : n ≠ 0x00B) := completes_crr (s := s) d (.inr h) hn
    have timed {n : BitVec 12} (hn : n ≠ 0x00B) (free : s.detHere = false) := completes_crr (s := s) (n := n) d (.inl free) hn
    exact ⟨timeless rfl (by decide), timed (by decide), timeless rfl (by decide), timeless rfl (by decide), timeless rfl (by decide), timed (by decide), timed (by decide),
      timed (by decide), completes_crr_lclk d, timeless rfl (by decide), timeless rfl (by decide), timeless rfl (by decide), timeless rfl (by decide),
      timeless rfl (by decide), timeless rfl (by decide), timeless rfl (by decide), timeless rfl (by decide), timeless rfl (by decide), timeless rfl (by decide),
      timeless rfl (by decide), timeless rfl (by decide), timed (by decide), timeless rfl (by decide), timed (by decide), timeless rfl (by decide),
      timeless rfl (by decide), timeless rfl (by decide), timed (by decide), timed (by decide), timeless rfl (by decide), completes_crr_ring s d⟩
  · have timing := timingCr_of_mem n mem
    have read (hd : d ≠ 0) : (s.detHere && d != 0) = true := by simpa [det] using hd
    exact ⟨⟨_, congrArg Host.Outcome.next (State.controlStep_forbidden det timing rfl), s.trap_takes can .detForbid _ _⟩,
      fun hd => ⟨presents_crw.forbidden det can timing hd, presents_crs.forbidden det can timing hd, presents_crc.forbidden det can timing hd,
        .of_if rfl (read hd) (s.trap_takes can .detForbid _ _), .of_if rfl (read hd) (s.trap_takes can .detForbid _ _)⟩,
      completes_crw_unread s a mem⟩

end Sys2Proof.Machine


/-!
PROOFS. Thread instructions (R83 to R94): YIELD, HOME, WAITT, LCLKUP and IFLUSH, a thread that a launch gains or loses, and the end of a handler.
-/
namespace Sys2Proof.Machine

/-! ### YIELD, HOME, WAITT, LCLKUP and IFLUSH (R86 to R89, R93) -/

theorem completes_waitt_reached {s : State} {a : Reg} (thread : s.inHandler = false) (reached : (s.rdG a).toNat ≤ s.gtrOf (tileOf s.execCore)) :
    Completes (.waitt a) s (GoesOn s false (s.here.pc + 4)) :=
  .of_if_not rfl (Bool.eq_false_iff.mp thread) (by rw [if_pos reached]; exact s.retire_goesOn)

theorem completes_waitt_later {s : State} {a : Reg} (thread : s.inHandler = false) (later : s.gtrOf (tileOf s.execCore) < (s.rdG a).toNat) :
    Completes (.waitt a) s fun t => OnlyHere s t ∧ t.here = { s.here with st := .waiting, wait := .waitt (s.rdG a) } :=
  .of_if_not rfl (Bool.eq_false_iff.mp thread)
    (by rw [if_neg (Nat.not_le.mpr later)]; exact ⟨OnlyHere.setCtx s _, State.ctx_setCtx_self ..⟩)

theorem completes_lclkup {s : State} {d : Reg} (a : Reg) (allowed : s.detHere = false ∨ d = 0) :
    let h := s.lf s.here.partNo (tileOf s.execCore) + 2 ^ 32
    let x : Stamp := (s.rdG a).setWidth 40
    Completes (.lclkup d a) s (WritesCr s d ((s.lclkOf s.cur).setWidth 64)
      { s.here.cr with lclk := maxStamp (s.lclkOf s.cur) (if later x h then h else x) }) := by
  have free : ¬(s.detHere && d != 0) = true := by rcases allowed with h | h <;> simp [h]
  exact .of_if_not rfl free (s.raiseLclk_finishG d _ _)

theorem completes_iflush {s : State} (flights : s.flightsOf s.cur = []) (waiters : s.waitersOf s.cur = []) : Completes .iflush s fun t =>
    OnlyCore s s.execCore { s.core s.execCore with fetch := [] } t ∧ OthersAsBefore s t ∧ RetiresAs s s.here t := by
  have performed : ¬s.ownLmWrites s.cur = true := by
    rw [State.ownLmWrites, flights, waiters]
    exact Bool.false_ne_true
  refine .of_if_not rfl performed ?_
  rw [State.retire_eq]
  exact ⟨⟨rfl, fun i => s.core_setCore _ i _⟩, fun id other => s.ctx_setCtx_ne other _, retiresAs_setCtx rfl rfl rfl rfl⟩

/-- Settles O9, instruction by instruction. -/
theorem threadInstructions : Obligations.ThreadInstructions := by
  unfold Obligations.ThreadInstructions
  intro s d a
  exact ⟨⟨_, rfl, s.retire_goesOn⟩, .writesG rfl rfl, completes_waitt_reached, completes_waitt_later, completes_lclkup a, completes_iflush⟩

/-! ### What threads of a launch change of it (R83, R85, R181) -/

/-- Settling a launch changes the state it is in alone (R181). -/
theorem Launch.settle_eq (l : Launch) : ∃ st, l.settle = { l with st := st } := by
  unfold Launch.settle
  extract_lets l1 l2
  have h1 : ∃ st, l1 = { l with st := st } := by
    unfold l1
    split
    exacts [⟨_, rfl⟩, ⟨l.st, rfl⟩]
  have h2 : ∃ st, l2 = { l with st := st } := by
    obtain ⟨_, e⟩ := h1
    unfold l2
    rw [e]
    split <;> exact ⟨_, rfl⟩
  obtain ⟨_, e⟩ := h2
  rw [e]
  split <;> exact ⟨_, rfl⟩

@[simp] theorem Launch.threads_settle (l : Launch) : l.settle.threads = l.threads := by
  obtain ⟨st, e⟩ := l.settle_eq
  rw [e]

@[simp] theorem Launch.spawned_settle (l : Launch) : l.settle.spawned = l.spawned := by
  obtain ⟨st, e⟩ := l.settle_eq
  rw [e]

@[simp] theorem Launch.live_settle (l : Launch) : l.settle.live = l.live := by
  obtain ⟨st, e⟩ := l.settle_eq
  rw [e]

@[simp] theorem Launch.clock_settle (l : Launch) : l.settle.clock = l.clock := by
  obtain ⟨st, e⟩ := l.settle_eq
  rw [e]

theorem OnlyHere.launch? {s t : State} (h : OnlyHere s t) (p slot : Nat) : t.launch? p slot = s.launch? p slot :=
  (congrArg (fun u : State => u.launch? p slot) h.1 :)

theorem OnlyHere.parts {s t : State} (h : OnlyHere s t) : t.parts = s.parts := (congrArg State.parts h.1 :)

/-! ### SPAWN (R83, R84) -/

/-- A context with nothing on its way has no access that has not performed (R83). -/
theorem State.Idle.allPerformed {s : State} (h : s.Idle) (scope before : Nat) : s.unperformed s.cur scope before = false := by
  obtain ⟨flights, waiters, gamos, -⟩ := h
  have held : ∀ w ∈ s.net.waiters, ¬(w.ctx == s.cur && w.uid == (s.ctx s.cur).uid) = true := List.filter_eq_nil_iff.mp waiters
  have none : (s.net.waiters.any fun w => w.ctx == s.cur && w.uid == (s.ctx s.cur).uid && decide (w.seq < before) &&
      decide (s.scopeFrom (coreOf s.cur) (s.homeOf s.cur) (s.ctx s.cur).partNo w.addr 0 ≤ scope)) = false := by
    refine List.any_eq_false.mpr fun w mem => ?_
    rw [Bool.eq_false_iff.mpr (held w mem), Bool.false_and, Bool.false_and]
    exact Bool.false_ne_true
  unfold State.unperformed State.unperformedBy
  rw [show s.gamosBy s.cur (s.ctx s.cur).uid before = [] from gamos before, show s.flightsBy s.cur (s.ctx s.cur).uid = [] from flights, none]
  rfl

/-- The context that executes has its LCLK after drift, and nothing else has changed (R127). -/
def State.drifted (s : State) : State := s.drift s.cur

theorem State.here_drifted (s : State) :
    s.drifted.here = { s.here with clocks := s.clocksAt s.cur (s.lfOf s.cur), cr := { s.here.cr with lclk := s.lclkOf s.cur } } := by
  refine (State.ctx_setCtx_self ..).trans ?_
  rw [show maxStamp (s.lclkOf s.cur) (s.lfOf s.cur) = s.lclkOf s.cur from maxStamp_maxStamp ..]
  rfl

theorem State.rdG_drifted (s : State) (r : Reg) : s.drifted.rdG r = s.rdG r := by
  rw [State.rdG, State.here_drifted]
  rfl

theorem State.lclkOf_drifted (s : State) : s.drifted.lclkOf s.cur = s.lclkOf s.cur := by
  have now : s.drifted.ctx s.cur = _ := s.here_drifted
  rw [State.lclkOf, State.lfOf, now]
  exact maxStamp_maxStamp ..

/-- The thread that the executing SPAWN adds (R83). -/
def State.spawned (s : State) (a b : Reg) : Spawned :=
  { number := 0, entry := s.rdG a, arg := s.rdG b, tid := s.here.cr.tid, lclk := s.lclkOf s.cur }

/-- What a launch is with one thread more (R83). -/
def Launch.gained (x : Spawned) (l : Launch) : Launch :=
  { l with threads := l.threads + 1, spawned := l.spawned ++ [{ x with number := l.threads }] }.settle

theorem Launch.gained_spec (x : Spawned) (l : Launch) :
    (l.gained x).threads = l.threads + 1 ∧ (l.gained x).spawned = l.spawned ++ [{ x with number := l.threads }] :=
  ⟨Launch.threads_settle _, Launch.spawned_settle _⟩

/-- What a partition is with a thread that waits for the phase barrier (R84). -/
def Part.listed (slot number : Nat) (x : Spawned) (q : Part) : Part :=
  { q.onLaunch slot fun l => { l with due := l.due + 1 } with phaseSpawns := q.phaseSpawns ++ [(slot, number, x)] }

/-- The state in which a thread has been added to the launch of the one that executes (R83, R84). -/
def State.withSpawn (s : State) (slot : Nat) (a b : Reg) : State :=
  s.drifted.addSpawn s.here.partNo slot (s.here.cr.tid.toNat % 2 ^ 32) (s.spawned a b)

/-- An address of the self window from 0x400 to the scratch's end (R31, R83). -/
theorem Core.scratchEntry_of {c : Core} {e : Word} (low : 0x00FE000000000400 ≤ e.toNat) (high : e.toNat < 0x00FE000000000000 + c.scratchEnd) :
    c.scratchEntry e = true := by
  unfold Core.scratchEntry selfBase
  rw [Bool.and_eq_true, decide_eq_true_eq, decide_eq_true_eq]
  refine ⟨?_, high⟩
  norm_num
  exact low

section
variable {s : State} {slot : Nat} {l : Launch} (launch : s.launch? s.here.partNo slot = some l)
include launch

/-- SPAWN of an aligned entry in the scratch of the home core, by a thread with nothing on its way (R83). -/
theorem exec_spawn {d a b : Reg} (thread : s.inHandler = false) (own : s.here.launch = some slot) (idle : s.Idle) (even : (s.rdG a).toNat % 4 = 0)
    (low : 0x00FE000000000400 ≤ (s.rdG a).toNat) (high : (s.rdG a).toNat < 0x00FE000000000000 + (s.core s.here.home).scratchEnd) :
    exec (.spawn d a b) s = .next (if l.maxThreads ≤ l.threads then s.finishG d 1 else (s.withSpawn slot a b).finishG d 0) := by
  have home : s.homeCore = s.here.home := if_neg (Bool.eq_false_iff.mp thread)
  have scratch : ¬(!(s.core s.homeCore).scratchEntry (s.rdG a)) = true := by
    rw [home, Core.scratchEntry_of low high]
    decide
  have performed : ¬(s.unperformed s.cur 3 (s.core s.execCore).reqSeq || s.pushing s.cur (s.core s.execCore).reqSeq) = true := by
    rw [idle.allPerformed, idle.2.2.2]
    decide
  refine congrArg Host.Outcome.next ((if_neg (Bool.eq_false_iff.mp thread)).trans ((if_neg (not_not.mpr even)).trans ((if_neg scratch).trans
    ((if_neg performed).trans ?_))))
  have arg : (s.drift s.cur).rdG b = s.rdG b := s.rdG_drifted b
  have clock : (s.drift s.cur).lclkOf s.cur = s.lclkOf s.cur := s.lclkOf_drifted
  have cur : (s.drift s.cur).cur = s.cur := rfl
  simp only [own, Option.getD_some, launch, cur, arg, clock]
  rfl

/-- Outside a deterministic partition the launch has the thread at once (R83). -/
theorem State.launch?_withSpawn (free : s.isDet s.here.partNo = false) (a b : Reg) :
    (s.withSpawn slot a b).launch? s.here.partNo slot = some (l.gained (s.spawned a b)) := by
  have e : s.withSpawn slot a b = s.drifted.onLaunch s.here.partNo slot (Launch.gained (s.spawned a b)) := if_neg (Bool.eq_false_iff.mp free)
  have had : s.drifted.launch? s.here.partNo slot = some l := launch
  rw [e, State.launch?_onLaunch, if_pos ⟨rfl, rfl⟩, had]
  rfl

/-- In a deterministic partition the thread is listed for the phase barrier (R84). -/
theorem State.parts_withSpawn (det : s.isDet s.here.partNo = true) (a b : Reg) :
    (s.withSpawn slot a b).launch? s.here.partNo slot = some { l with due := l.due + 1 } ∧
    ∃ q, s.parts.get s.here.partNo = some q ∧
      (s.withSpawn slot a b).parts.get s.here.partNo = some (q.listed slot (s.here.cr.tid.toNat % 2 ^ 32) (s.spawned a b)) := by
  have e : s.withSpawn slot a b = s.drifted.onPart s.here.partNo (Part.listed slot (s.here.cr.tid.toNat % 2 ^ 32) (s.spawned a b)) := if_pos det
  rw [State.launch?_eq] at launch
  obtain ⟨q, part, has⟩ := Option.bind_eq_some_iff.mp launch
  have now : (s.withSpawn slot a b).parts.get s.here.partNo = some (q.listed slot (s.here.cr.tid.toNat % 2 ^ 32) (s.spawned a b)) := by
    rw [e, State.get_parts_onPart, if_pos rfl, show s.drifted.parts.get s.here.partNo = some q from part]
    rfl
  refine ⟨?_, q, part, now⟩
  rw [State.launch?_eq, now]
  refine (Part.get_launches_onLaunch q slot slot _).trans ?_
  rw [if_pos rfl, has]
  rfl

end

theorem State.onPart_frame (s : State) (p : Nat) (f : Part → Part) : ∃ ps, s.onPart p f = { s with parts := ps } := by
  unfold State.onPart
  split
  exacts [⟨_, rfl⟩, ⟨s.parts, rfl⟩]

/-- Adding a thread changes partitions alone. -/
theorem State.addSpawn_frame (s : State) (p slot number : Nat) (x : Spawned) : ∃ ps, s.addSpawn p slot number x = { s with parts := ps } := by
  unfold State.addSpawn
  split
  exacts [s.onPart_frame .., s.onPart_frame ..]

/-- What SPAWN leaves as it was: registers but g[d], other contexts and memory. -/
theorem State.withSpawn_finishG (s : State) (slot : Nat) (d a b : Reg) :
    let t := (s.withSpawn slot a b).finishG d 0
    (∀ r : Reg, t.rdG r = if r = d ∧ r ≠ 0 then 0 else s.rdG r) ∧ t.here.pc = s.here.pc + 4 ∧ OthersAsBefore s t ∧ t.mem = s.mem := by
  obtain ⟨ps, frame⟩ := s.drifted.addSpawn_frame s.here.partNo slot (s.here.cr.tid.toNat % 2 ^ 32) (s.spawned a b)
  have e : s.withSpawn slot a b = { s.drifted with parts := ps } := frame
  obtain ⟨only, pc, -, value, -⟩ := (s.withSpawn slot a b).finishG_writes d 0
  have here : (s.withSpawn slot a b).here = s.drifted.here := by rw [e]; rfl
  have cur : (s.withSpawn slot a b).cur = s.cur := by rw [e]; rfl
  refine ⟨fun r => ?_, ?_, fun id other => ?_, ?_⟩
  · rw [value, State.rdG, here]
    exact congrArg (fun v => if r = d ∧ r ≠ 0 then 0 else v) (s.rdG_drifted r)
  · rw [pc, here, State.here_drifted]
  · refine (only.2 id (cur ▸ other)).trans ?_
    rw [e]
    exact s.ctx_setCtx_ne other _
  · rw [only.mem, e]
    rfl

/-! ### EXIT (R85) -/

theorem State.lift_frame (s : State) (c : Option Charge) : ∃ e, s.lift c = { s with energy := e } := by
  unfold State.lift
  split
  · split
    exacts [⟨_, rfl⟩, ⟨s.energy, rfl⟩]
  · exact ⟨s.energy, rfl⟩

theorem State.releasePins_frame (s : State) (p slot core : Nat) : ∃ cs, s.releasePins p slot core = { s with cores := cs } := by
  unfold State.releasePins
  split
  exacts [⟨s.cores, rfl⟩, ⟨_, rfl⟩]

/-- Outside a deterministic partition there is no phase to leave (R225). -/
theorem State.phaseStep_free {s : State} {p : Nat} (free : s.isDet p = false) (op : AtomOp) : s.phaseStep p op = s := by
  unfold State.phaseStep
  unfold State.isDet at free
  cases part : s.parts.get p with
  | none => rfl
  | some q =>
    rw [part] at free
    exact if_pos (by simp [show q.det = false from free])

theorem State.isDet_onLaunch (s : State) (p slot p' : Nat) (f : Launch → Launch) : (s.onLaunch p slot f).isDet p' = s.isDet p' := by
  have kept (q : Part) : (q.onLaunch slot f).det = q.det := by unfold Part.onLaunch; split <;> rfl
  unfold State.isDet State.onLaunch
  rw [State.get_parts_onPart]
  by_cases hp : p' = p
  · subst hp
    cases s.parts.get p' <;> simp [kept]
  · simp [hp]

theorem State.migrateHead_empty {s : State} {cluster : Nat} (h : s.migFifo.getD cluster [] = []) : s.migrateHead cluster = s := by
  rw [State.migrateHead, h]

/-- What an exiting thread leaves of its launch (R85, R185). -/
def Launch.exited (clk : Stamp) (comps : List Word) (l : Launch) : Launch :=
  ({ l with live := l.live - 1, orphanComps := l.orphanComps ++ comps }.raiseClock clk).settle

theorem Launch.exited_spec (clk : Stamp) (comps : List Word) (l : Launch) :
    (l.exited clk comps).live = l.live - 1 ∧ (l.exited clk comps).clock = maxStamp l.clock clk ∧ (l.exited clk comps).threads = l.threads :=
  ⟨Launch.live_settle _, Launch.clock_settle _, Launch.threads_settle _⟩

/-- The state in which the executing thread has left its context and its launch (R85). -/
def State.left (s : State) (slot : Nat) : State :=
  (s.setCtx s.cur {}).onLaunch s.here.partNo slot (Launch.exited (s.lclkOf s.cur) (s.here.comps.map Prod.fst))

/-- The state with other figures of Isobar and other cores. -/
def State.withCores (s : State) (energy : FMap Energy) (cores : FMap Core) : State := { s with energy := energy, cores := cores }

theorem State.onLaunch_withCores (s : State) (e : FMap Energy) (cs : FMap Core) (p slot : Nat) (f : Launch → Launch) :
    (s.withCores e cs).onLaunch p slot f = (s.onLaunch p slot f).withCores e cs := by
  have parts : (s.withCores e cs).parts = s.parts := rfl
  unfold State.onLaunch State.onPart
  rw [parts]
  cases s.parts.get p <;> rfl

/-- Beside its context and its launch, an exiting thread changes at most Isobar's figures and cores, unless a thread waits for its W-core context (R85, R192, R223). -/
theorem State.exitThread_eq {s : State} {slot : Nat} (own : s.here.launch = some slot)
    (noHead : isWCore s.execCore = false ∨ s.migFifo.getD (clusterOf s.execCore) [] = []) : ∃ e cs, s.exitThread s.cur = (s.left slot).withCores e cs := by
  obtain ⟨e, lifted⟩ := s.lift_frame s.here.charge
  unfold State.exitThread
  extract_lets c clk s1 s2
  obtain ⟨cs, hs1⟩ : ∃ cs, s1 = (s.setCtx s.cur {}).withCores e cs := ⟨_, congrArg (fun u : State => (u.setCtx s.cur {}).onCore c.home _) lifted⟩
  obtain ⟨cs', released⟩ := ((s.left slot).withCores e cs).releasePins_frame s.here.partNo slot c.home
  have hs2 : s2 = (s.left slot).withCores e cs' := by
    unfold s2
    rw [show c.launch = some slot from own, hs1]
    exact (congrArg (fun u : State => u.releasePins s.here.partNo slot c.home) (State.onLaunch_withCores ..)).trans released
  refine ⟨e, cs', ?_⟩
  have fifo : s2.migFifo = s.migFifo := by
    rw [hs2]
    exact State.migFifo_onPart ..
  split
  · rename_i onW
    have empty : s2.migFifo.getD (clusterOf (coreOf s.cur)) [] = [] := fifo ▸ noHead.resolve_left (fun off => Bool.false_ne_true (off.symm.trans onW))
    rw [State.migrateHead_empty empty, hs2]
  · exact hs2

/-- What EXIT leaves outside a deterministic partition. -/
theorem completes_exit {s : State} {slot : Nat} {l : Launch} (thread : s.inHandler = false) (own : s.here.launch = some slot)
    (launch : s.launch? s.here.partNo slot = some l) (free : s.isDet s.here.partNo = false)
    (noHead : isWCore s.execCore = false ∨ s.migFifo.getD (clusterOf s.execCore) [] = []) : Completes .exit s fun t =>
      t.here = {} ∧ OthersAsBefore s t ∧ t.mem = s.mem ∧ t.net = s.net ∧
      t.launch? s.here.partNo slot = some (l.exited (s.lclkOf s.cur) (s.here.comps.map Prod.fst)) := by
  obtain ⟨e, cs, left⟩ := State.exitThread_eq own noHead
  have free' : (s.exitThread s.cur).isDet s.here.partNo = false := by
    rw [left]
    exact (State.isDet_onLaunch ..).trans free
  refine .of_if_not rfl (Bool.eq_false_iff.mp thread) ?_
  rw [State.phaseLeave, State.phaseStep_free free', left]
  have cur : ((s.left slot).withCores e cs).cur = s.cur := State.cur_onPart ..
  refine ⟨?_, fun id other => ?_, State.mem_onPart .., State.net_onPart .., ?_⟩
  · rw [State.here, cur]
    exact (State.ctx_onPart ..).trans (State.ctx_setCtx_self ..)
  · exact (State.ctx_onPart ..).trans (State.ctx_setCtx_ne _ other _)
  · exact (State.launch?_onLaunch ..).trans ((if_pos ⟨rfl, rfl⟩).trans (congrArg (Option.map _) launch))

/-- Settles O10: a SPAWN by `exec_spawn` and what a thread more changes, an EXIT by `completes_exit`. -/
theorem spawnAndExit : Obligations.SpawnAndExit := by
  unfold Obligations.SpawnAndExit
  intro s d a b slot l thread own launch
  refine ⟨fun idle even low high => ⟨fun room => ?spawns, fun full => ?refused⟩, fun free noHead => ?exit⟩
  case spawns =>
    refine .of_if_not (exec_spawn launch thread own idle even low high) (Nat.not_le.mpr room) ?_
    obtain ⟨regs, pc, others, mem⟩ := s.withSpawn_finishG slot d a b
    have only := ((s.withSpawn slot a b).finishG_writes d 0).only
    refine ⟨regs, pc, others, mem, fun free => ?_, fun det => ?_⟩
    · exact ⟨_, (only.launch? ..).trans (State.launch?_withSpawn launch free a b), Launch.gained_spec ..⟩
    · obtain ⟨due, q, part, listed⟩ := State.parts_withSpawn launch det a b
      exact ⟨(only.launch? ..).trans due, q, _, part, only.parts ▸ listed, rfl⟩
  case refused => exact .of_if (exec_spawn launch thread own idle even low high) full (s.finishG_writes d 1)
  case exit =>
    exact (completes_exit thread own launch free noHead).imp fun t ⟨here, others, mem, net, now⟩ => ⟨here, others, mem, net, _, now, Launch.exited_spec ..⟩

end Sys2Proof.Machine


/-!
PROOFS. The end of a handler (R94, R195, R218, R345): what its HRET leaves, and the words that stop it.
-/
namespace Sys2Proof.Machine

/-! ### A handler ends (R195, R218) -/

/-- The mailbox slot of a core that a handler context has is empty. -/
def Core.slotEmpty (k : Core) (id slot : Nat) : Prop := if numberOf id = 5 then k.boxHi.get slot = none else k.boxLo.get slot = none

/-- Between `s` and `t` handler `id` has ended: its context is dormant and its mailbox slot empty, and memory, partitions and other cores are as before. -/
structure State.HandlerEnded (id : Nat) (s t : State) : Prop where
  cur : t.cur = s.cur
  mem : t.mem = s.mem
  parts : t.parts = s.parts
  dormant : t.ctx id = {}
  cores : ∀ i, i ≠ coreOf id → t.core i = s.core i
  slot : (t.core (coreOf id)).slotEmpty id (s.ctx id).slot

namespace State.HandlerEnded
variable {id : Nat} {s t u : State}

theorem freeSlot (s : State) (id : Nat) :
    s.HandlerEnded id ((s.onCore (coreOf id) fun k => k.freeSlot (numberOf id == 5) (s.ctx id).slot).setCtx id {}) := by
  refine ⟨rfl, rfl, rfl, State.ctx_setCtx_self .., fun i hi => State.core_setCore_ne _ hi _, ?_⟩
  rw [State.core_setCtx, State.onCore_eq, State.core_setCore_self, Core.slotEmpty, Core.freeSlot]
  by_cases high : numberOf id = 5
  · simp [high, FMap.get_del]
  · simp [high, FMap.get_del]

theorem setTurns (h : s.HandlerEnded id t) (ts : Turns) : s.HandlerEnded id (t.setTurns ts) := ⟨h.cur, h.mem, h.parts, h.dormant, h.cores, h.slot⟩

/-- Another context may go on. -/
theorem onCtx (h : s.HandlerEnded id t) {x : Nat} (other : id ≠ x) (f : Ctx → Ctx) : s.HandlerEnded id (t.onCtx x f) :=
  ⟨h.cur, h.mem, h.parts, (State.ctx_setCtx_ne t other _).trans h.dormant, h.cores, h.slot⟩

/-- Its core may owe turns to threads. -/
theorem owes (h : s.HandlerEnded id t) (ns : List Nat) : s.HandlerEnded id (t.onCore (coreOf id) fun k => { k with owed := ns }) := by
  refine ⟨h.cur, h.mem, h.parts, h.dormant, fun i hi => (State.core_setCore_ne t hi _).trans (h.cores i hi), ?_⟩
  rw [State.onCore_eq, State.core_setCore_self]
  exact h.slot

theorem ite {c : Prop} [Decidable c] (h : c → s.HandlerEnded id t) (h' : ¬c → s.HandlerEnded id u) : s.HandlerEnded id (if c then t else u) := by
  split
  exacts [h ‹_›, h' ‹_›]

end State.HandlerEnded

/-- The high handler's context is not the low one's (R376). -/
theorem ne_lowHandler {id : Nat} (high : numberOf id = 5) : id ≠ coreOf id * 8 + 4 := by
  unfold numberOf at high
  unfold coreOf
  omega

theorem State.endHandler_ends (s : State) (id : Nat) : s.HandlerEnded id (s.endHandler id) := by
  unfold State.endHandler
  extract_lets core high slot dormant freed resumed
  have hDormant : s.HandlerEnded id dormant := .freeSlot s id
  have hFreed : s.HandlerEnded id freed := .ite (fun _ => hDormant.setTurns _) fun _ => hDormant
  have hResumed : s.HandlerEnded id resumed := .ite (fun high => hFreed.onCtx (ne_lowHandler (beq_iff_eq.mp high)) _) fun _ => hFreed
  exact .ite (fun _ => hResumed) fun _ => hResumed.owes _

/-! ### HRET (R94, R218) -/

/-- The launch that a handler is charged to takes its clock (R185). -/
theorem State.launch?_raiseLaunch {s : State} {p k : Nat} {l : Launch} (launch : s.launch? p k = some l) (w : Stamp) :
    (s.raiseLaunch p (some k) w).launch? p k = some (l.raiseClock w) :=
  (State.launch?_onLaunch ..).trans ((if_pos ⟨rfl, rfl⟩).trans (congrArg (Option.map _) launch))

theorem State.raiseLaunch_frame (s : State) (p : Nat) (slot : Option Nat) (w : Stamp) : ∃ ps, s.raiseLaunch p slot w = { s with parts := ps } := by
  unfold State.raiseLaunch
  split
  exacts [s.onPart_frame .., ⟨s.parts, rfl⟩]

theorem completes_hret {s : State} (handler : s.inHandler = true) : Completes .hret s fun t =>
    t.here = {} ∧ t.mem = s.mem ∧ (∀ i, i ≠ s.execCore → t.core i = s.core i) ∧ (t.core s.execCore).slotEmpty s.cur s.here.slot ∧
      ∀ k l, s.here.launch = some k → s.launch? s.here.partNo k = some l → t.launch? s.here.partNo k = some (l.raiseClock (s.lclkOf s.cur)) := by
  have thread : ¬(!s.inHandler) = true := by rw [handler]; decide
  refine .of_if_not rfl thread ?_
  obtain ⟨ps, raised⟩ := s.raiseLaunch_frame s.here.partNo s.here.launch (s.lclkOf s.cur)
  obtain ⟨cur, mem, parts, dormant, cores, slot⟩ := State.endHandler_ends (s.raiseLaunch s.here.partNo s.here.launch (s.lclkOf s.cur)) s.cur
  have launches (p k : Nat) : ((s.raiseLaunch s.here.partNo s.here.launch (s.lclkOf s.cur)).endHandler s.cur).launch? p k =
      (s.raiseLaunch s.here.partNo s.here.launch (s.lclkOf s.cur)).launch? p k := by
    rw [State.launch?_eq, State.launch?_eq, parts]
  have cur' : ((s.raiseLaunch s.here.partNo s.here.launch (s.lclkOf s.cur)).endHandler s.cur).cur = s.cur := cur.trans (by rw [raised])
  refine ⟨?_, mem.trans (by rw [raised]), fun i hi => (cores i hi).trans (by rw [raised]; rfl), ?_, fun k l own launch => ?_⟩
  · rw [State.here, cur']
    exact dormant
  · rwa [raised] at slot ⊢
  · rw [launches, own]
    exact State.launch?_raiseLaunch launch _

/-! ### Words that stop a handler (R94, R345) -/

/-- A failure of a handler that no launch bears ends it, and the abort log holds its record (R345, R347). -/
theorem State.chargeFailure_handler {s : State} {id : Nat} (free : (s.ctx id).launch = none) (handler : isHandler id = true) (r : AbortRec) :
    s.chargeFailure id r = (s.endHandler id).logAbort (s.ctx id).partNo { r with noLaunch := true, slot := 0 } := by
  unfold State.chargeFailure
  simp only [free, handler, if_true]

/-- The newest record of a partition's abort log (R347). -/
theorem State.logAbort_newest {s : State} {p : Nat} {q : Part} (part : s.parts.get p = some q) {r : AbortRec} (none : r.noLaunch = true) :
    ∃ q', (s.logAbort p r).parts.get p = some q' ∧ q'.aborts = { r with gtr := s.gtrOf sDie } :: q.aborts.take 63 := by
  refine ⟨_, (State.get_parts_onPart ..).trans ((if_pos rfl).trans (congrArg (Option.map _) part)), ?_⟩
  simp only [none, if_true]
  rfl

section
variable {s : State} (handler : s.inHandler = true) (free : s.here.launch = none) (quiet : s.here.pend = []) (answered : s.answersOut s.cur = false)
  {q : Part} (part : s.parts.get s.here.partNo = some q)
include handler free quiet answered part

theorem State.illegal_stops_handler (i : Instr) :
    let t := s.illegal i
    t.here = {} ∧ t.mem = s.mem ∧ ∃ q' r rest, t.parts.get s.here.partNo = some q' ∧ q'.aborts = r :: rest ∧ r.kind = 1 ∧ r.noLaunch = true ∧
      r.pc = s.here.pc ∧ r.addr = s.here.pc ∧ r.val = BitVec.ofNat 64 (encode i) := by
  intro t
  have e : t = (s.endHandler s.cur).logAbort s.here.partNo
      { kind := Cause.illegal.code.toNat, noLaunch := true, slot := 0, tid := s.here.cr.tid, pc := s.here.pc, addr := s.here.pc, val := instrWord i } :=
    (State.trapOf_charges quiet answered (State.handler_not_vectored handler) ..).trans (State.chargeFailure_handler free handler _)
  obtain ⟨cur, mem, parts, dormant, -, -⟩ := s.endHandler_ends s.cur
  obtain ⟨q', now, newest⟩ := State.logAbort_newest (parts ▸ part) (r :=
    { kind := Cause.illegal.code.toNat, noLaunch := true, slot := 0, tid := s.here.cr.tid, pc := s.here.pc, addr := s.here.pc, val := instrWord i }) rfl
  have cur' : t.cur = s.cur := by
    rw [e]
    exact (State.cur_onPart ..).trans cur
  refine ⟨?_, ?_, q', _, _, e ▸ now, newest, rfl, rfl, rfl, rfl, rfl⟩
  · rw [State.here, cur', e]
    exact (State.ctx_onPart ..).trans dormant
  · rw [e]
    exact (State.mem_onPart ..).trans mem

end

/-- SPAWN, EXIT, WAITT and ERET are ILLEGAL in a handler (R94). -/
theorem exec_in_handler {s : State} (handler : s.inHandler = true) {d a b : Reg} {i : Instr} (mem : i ∈ [Instr.spawn d a b, .exit, .waitt a, .eret]) :
    exec i s = .next (s.illegal i) := by
  simp only [List.mem_cons, List.not_mem_nil, or_false] at mem
  rcases mem with rfl | rfl | rfl | rfl
  case inr.inr.inr => exact congrArg Host.Outcome.next (if_pos (by rw [handler]; rfl))
  all_goals exact congrArg Host.Outcome.next (if_pos handler)

/-- Settles O11: HRET by `State.endHandler_ends`, the four words by the charge of their trap, and HRET in a thread by its trap. -/
theorem handlersEndWithHret : Obligations.HandlersEndWithHret := by
  unfold Obligations.HandlersEndWithHret
  intro s d a b
  refine ⟨fun handler => ?_, fun handler free quiet answered q part i mem => ?_, fun thread can => ?_⟩
  · exact (completes_hret handler).imp fun t ⟨here, mem, cores, slot, clock⟩ =>
      ⟨here, mem, cores, slot, fun k l own launch => ⟨_, clock k l own launch, rfl⟩⟩
  · exact ⟨_, exec_in_handler handler mem, State.illegal_stops_handler handler free quiet answered part i⟩
  · exact .of_if rfl (by rw [thread]; rfl) (s.trap_takes can .illegal _ _)

end Sys2Proof.Machine


/-!
PROOFS. Threads that move between an L-core and the W-core of a cluster and back (R17, R73, R198), and the completion interrupt of a copy (R90, R223).
-/
namespace Sys2Proof.Machine

/-! ### Places (R73, R376) -/

theorem State.freeThread_spec {s : State} {core b : Nat} (h : s.freeThread core = some b) : coreOf b = core ∧ numberOf b < 4 ∧ (s.ctx b).st = .free := by
  obtain ⟨n, found, rfl⟩ := Option.map_eq_some_iff.mp h
  have small : n < 4 := by
    have mem := List.mem_of_find?_eq_some found
    simp only [List.mem_cons, List.not_mem_nil, or_false] at mem
    omega
  refine ⟨?_, ?_, of_decide_eq_true (List.find?_some (p := fun n => decide ((s.ctx (core * 8 + n)).st = .free)) found)⟩
  · unfold coreOf
    omega
  · unfold numberOf
    omega

theorem State.returnPlace_free {s : State} {id b : Nat} (h : s.returnPlace id = some b) : (s.ctx b).st = .free := by
  unfold State.returnPlace at h
  dsimp only at h
  split at h
  next home => exact Option.some.inj h ▸ (State.freeThread_spec home).2.2
  next =>
    obtain ⟨k, -, place⟩ := List.mem_filterMap.mp (List.mem_of_head? h)
    exact (State.freeThread_spec place).2.2

/-! ### Moving a context (R73, R127, R130) -/

/-- What of a context moves with it: its LCLK is after drift and its spin table is cleared. -/
def State.travelling (s : State) (id : Nat) : Ctx :=
  { s.ctx id with spin := [], clocks := [], cr := { (s.ctx id).cr with lclk := s.lclkOf id } }

theorem State.ctx_moveCtx (s : State) (a b : Nat) (f : Ctx → Ctx) (id : Nat) :
    (s.moveCtx a b f).ctx id = if id = b then f (s.travelling a) else if id = a then {} else s.ctx id := by
  refine (State.ctx_setCtx ..).trans ?_
  rw [State.ctx_setCtx]
  rfl

/-- Nothing has changed but contexts, what is on its way, and the migration FIFOs. -/
def State.MovesOnly (s t : State) : Prop := ∃ cs n fs, t = { s with ctxs := cs, net := n, migFifo := fs }

namespace State.MovesOnly
variable {s t u : State}

theorem refl (s : State) : s.MovesOnly s := ⟨s.ctxs, s.net, s.migFifo, rfl⟩

theorem trans (h : s.MovesOnly t) (h' : t.MovesOnly u) : s.MovesOnly u := by
  obtain ⟨_, _, _, rfl⟩ := h
  obtain ⟨_, _, _, rfl⟩ := h'
  exact ⟨_, _, _, rfl⟩

theorem mem (h : s.MovesOnly t) : t.mem = s.mem := by
  obtain ⟨_, _, _, rfl⟩ := h
  rfl

theorem cores (h : s.MovesOnly t) : t.cores = s.cores := by
  obtain ⟨_, _, _, rfl⟩ := h
  rfl

theorem gtrOf (h : s.MovesOnly t) (d : Nat) : t.gtrOf d = s.gtrOf d := by
  obtain ⟨_, _, _, rfl⟩ := h
  rfl

theorem moveCtx (s : State) (a b : Nat) (f : Ctx → Ctx) : s.MovesOnly (s.moveCtx a b f) := ⟨_, _, s.migFifo, rfl⟩
theorem setFifo (s : State) (cluster : Nat) (ids : List Nat) : s.MovesOnly (s.setFifo cluster ids) := ⟨s.ctxs, s.net, _, rfl⟩

theorem migrateHead (s : State) (cluster : Nat) : s.MovesOnly (s.migrateHead cluster) := by
  unfold State.migrateHead
  split
  · exact refl s
  · split
    · exact refl s
    · split
      exacts [(setFifo s cluster _).trans (moveCtx ..), refl s]

end State.MovesOnly

theorem State.getD_setFifo (s : State) (cluster : Nat) (ids : List Nat) : (s.setFifo cluster ids).migFifo.getD cluster [] = ids := by
  by_cases none : ids = []
  · simp [State.setFifo, none, FMap.getD, FMap.get_del]
  · simp [State.setFifo, none, FMap.getD_set_self]

/-- Where the head of a cluster's FIFO moves, a context that neither is free nor waits to migrate stays as it is (R198). -/
theorem State.ctx_migrateHead {s : State} {id : Nat} (taken : (s.ctx id).st ≠ .free) (stays : (s.ctx id).st ≠ .migrationWaiting) (cluster : Nat) :
    (s.migrateHead cluster).ctx id = s.ctx id := by
  unfold State.migrateHead
  split
  · rfl
  next a rest _ =>
    split
    · rfl
    next b place =>
      split
      next moves =>
        have notFree : id ≠ b := fun e => taken (e ▸ (State.freeThread_spec place).2.2)
        have notHead : id ≠ a := fun e => stays (e ▸ moves.1)
        rw [State.ctx_moveCtx, if_neg notFree, if_neg notHead]
        rfl
      · rfl

/-- MIGRATE_TO_W_CORE (R73, R198). -/
theorem completes_migrateToWCore {s : State} {cluster a b : Nat} {rest : List Nat} (fifo : s.migFifo.getD cluster [] = a :: rest)
    (place : s.freeThread (cluster * 8 + 7) = some b) (drained : s.drained a = true) (waits : (s.ctx a).st = .migrationWaiting) :
    Completes (.migrateToWCore cluster) s fun t => s.MovesOnly t ∧ t.migFifo.getD cluster [] = rest ∧ ∀ id, t.ctx id =
      if id = b then { s.travelling a with st := .ready, migrated := true, migSince := s.gtrOf (tileOf b), migCount := 0 } else if id = a then {} else s.ctx id := by
  have moves : s.migrateHead cluster = (s.setFifo cluster rest).moveCtx a b fun c =>
      { c with st := .ready, migrated := true, migSince := s.gtrOf (tileOf b), migCount := 0 } := by
    unfold State.migrateHead
    simp only [fifo, place, waits, drained, and_self, if_true]
  exact ⟨_, congrArg Host.Outcome.next moves, (State.MovesOnly.setFifo s cluster rest).trans (.moveCtx ..), s.getD_setFifo cluster rest,
    fun id => State.ctx_moveCtx _ a b _ id⟩

/-! ### Returning to an L-core (R73, R198) -/

/-- A migrated context as it comes back. -/
def State.returned (s : State) (id : Nat) : Ctx := { s.travelling id with migrated := false, migCount := 0 }

/-- The state in which a context has moved back, before the FIFO's head comes in. -/
def State.movedBack (s : State) (id b : Nat) : State := s.moveCtx id b fun c => { c with migrated := false, migCount := 0 }

section
variable {s : State} {id b : Nat} (place : s.returnPlace id = some b)
include place

theorem State.returnFromW_eq : s.returnFromW id = (s.movedBack id b).migrateHead (clusterOf (coreOf id)) := by
  unfold State.returnFromW
  rw [place]
  rfl

theorem State.returnFromW_moves : s.MovesOnly (s.returnFromW id) := by
  rw [State.returnFromW_eq place]
  exact (State.MovesOnly.moveCtx ..).trans (.migrateHead ..)

/-- A context that neither is free nor waits to migrate comes back, whoever comes in after it. -/
theorem State.ctx_returnFromW (taken : (s.ctx id).st ≠ .free) (stays : (s.ctx id).st ≠ .migrationWaiting) : (s.returnFromW id).ctx b = s.returned id := by
  have back : (s.movedBack id b).ctx b = s.returned id := (State.ctx_moveCtx ..).trans (if_pos rfl)
  rw [State.returnFromW_eq place, State.ctx_migrateHead (by rw [back]; exact taken) (by rw [back]; exact stays), back]

/-- MIGRATE_RETURN, with nothing in the FIFO (R73). -/
theorem completes_migrateReturn (migrated : (s.ctx id).migrated = true) (count : 256 ≤ (s.ctx id).migCount) (ready : (s.ctx id).st = .ready)
    (drained : s.drained id = true) (empty : s.migFifo.getD (clusterOf (coreOf id)) [] = []) : Completes (.migrateReturn id) s fun t =>
      t.ctx b = s.returned id ∧ t.ctx id = {} ∧ (∀ i, i ≠ id → i ≠ b → t.ctx i = s.ctx i) ∧ t.mem = s.mem ∧ t.cores = s.cores := by
  have returns : ((s.ctx id).migrated && decide (256 ≤ (s.ctx id).migCount) && (s.ctx id).st == .ready && s.drained id) = true := by
    simp [migrated, count, ready, drained]
  refine .of_if rfl returns ?_
  have here : s.returnFromW id = s.movedBack id b := (State.returnFromW_eq place).trans (State.migrateHead_empty empty)
  have other : id ≠ b := by
    rintro rfl
    rw [State.returnPlace_free place] at ready
    cases ready
  rw [here]
  refine ⟨(State.ctx_moveCtx ..).trans (if_pos rfl), ?_, fun i hi hb => ?_, rfl, rfl⟩
  · rw [State.movedBack, State.ctx_moveCtx, if_neg other, if_pos rfl]
  · rw [State.movedBack, State.ctx_moveCtx, if_neg hb, if_neg hi]

section
variable (migrated : (s.ctx id).migrated = true) (queued : s.migFifo.getD (clusterOf (coreOf id)) [] ≠ [])
include migrated queued

theorem exec_wCoreEarlyReturn : exec (.wCoreEarlyReturn id) s = .next
    (if ((s.ctx id).st = .waiting ∨ (s.ctx id).st = .faultWaiting) ∧ s.drainedWait id = true then (s.returnFromW id).resendWaits b
      else if (s.ctx id).st = .ready ∧ (s.ctx id).migSince + 64 * microsecond ≤ s.gtrOf (tileOf (coreOf id)) ∧ s.nextIsW id = false ∧ s.drained id = true then
        s.returnFromW id
      else s) := by
  have others : ¬(!((s.ctx id).migrated && s.migFifo.getD (clusterOf (coreOf id)) [] != [])) = true := by simp [migrated, queued]
  refine congrArg Host.Outcome.next ((if_neg others).trans ?_)
  rw [place]

/-- A thread that waits for a word comes back while others queue, and sends its wait again (R198, R199). -/
theorem completes_earlyReturn_waiting {a : Nat} (waiting : (s.ctx id).st = .waiting) (word : (s.ctx id).wait.word? = some a)
    (drained : s.drainedWait id = true) : Completes (.wCoreEarlyReturn id) s fun t =>
      t.ctx b = { s.returned id with waitSent := s.gtrOf (tileOf (coreOf b)), unrecorded := false } ∧ t.mem = s.mem ∧
      ∃ g ∈ t.net.flights, g.ctx = b ∧ g.uid = (s.ctx id).uid ∧ g.kind = .wait (.word a) a (s.ctx id).wait.target 0 (.core (coreOf b)) := by
  refine .of_if (exec_wCoreEarlyReturn place migrated queued) ⟨.inl waiting, drained⟩ ?_
  have back := State.ctx_returnFromW place (by rw [waiting]; exact nofun) (by rw [waiting]; exact nofun)
  have moves := State.returnFromW_moves place
  obtain ⟨now, mem, -, g, flights, ctx, uid, kind⟩ := State.resendWaits_word (s := s.returnFromW id) (id := b) (a := a) (by rw [back]; exact word)
  rw [back] at now uid kind
  refine ⟨?_, mem.trans moves.mem, g, ?_, ctx, uid, kind⟩
  · rw [now, moves.gtrOf]
  · rw [flights]
    exact List.mem_append_right _ (List.mem_singleton_self g)

/-- So does a thread that has had 64 µs there and is not at a W word (R198). -/
theorem completes_earlyReturn_ready (ready : (s.ctx id).st = .ready) (since : (s.ctx id).migSince + 1024000 ≤ s.gtrOf (tileOf (coreOf id)))
    (next : s.nextIsW id = false) (drained : s.drained id = true) : Completes (.wCoreEarlyReturn id) s fun t =>
      t.ctx b = s.returned id ∧ t.mem = s.mem ∧ t.cores = s.cores := by
  refine .of_if_not (exec_wCoreEarlyReturn place migrated queued) (by simp [ready]) ?_
  rw [if_pos ⟨ready, since, next, drained⟩]
  have moves := State.returnFromW_moves place
  exact ⟨State.ctx_returnFromW place (by rw [ready]; exact nofun) (by rw [ready]; exact nofun), moves.mem, moves.cores⟩

end
end

/-! ### The completion interrupt (R90, R223) -/

/-- The context that has taken its oldest completion. -/
def State.interrupted (s : State) (id : Nat) (x h : Word) (w : Stamp) (rest : List (Word × Word × Stamp)) : Ctx :=
  { { s.ctx id with clocks := s.clocksAt id w, cr := { (s.ctx id).cr with lclk := maxStamp (s.lclkOf id) w } } with comps := rest }.enterInterrupt x h

theorem completes_copyCompletionInterrupt {s : State} {id : Nat} {x h : Word} {w : Stamp} {rest : List (Word × Word × Stamp)} (thread : isHandler id = false)
    (ready : (s.ctx id).st = .ready) (enabled : (s.ctx id).cr.xien = 1) (outside : (s.ctx id).nested = false) (comps : (s.ctx id).comps = (x, h, w) :: rest)
    (quiet : (s.ctx id).pend = []) : Completes (.copyCompletionInterrupt id) s fun t =>
      t.ctx id = s.interrupted id x h w rest ∧ (∀ i, i ≠ id → t.ctx i = s.ctx i) ∧ t.mem = s.mem := by
  have takes : ((s.ctx id).takesCompletion && (s.ctx id).pend == [] && !isHandler id) = true := by
    simp [Ctx.takesCompletion, thread, ready, enabled, outside, comps, quiet]
  have taken : s.takeCompletion id = (((s.raiseLclk id w).onCtx id fun c => { c with comps := rest }.enterInterrupt x h).onCore (s.ctx id).home
      fun k => k.freeEntry x (s.ctx id).uid) := by
    unfold State.takeCompletion
    dsimp only
    rw [comps]
  refine .of_if rfl takes ?_
  rw [taken]
  have raised : (s.raiseLclk id w).ctx id = { s.ctx id with clocks := s.clocksAt id w, cr := { (s.ctx id).cr with lclk := maxStamp (s.lclkOf id) w } } :=
    State.ctx_setCtx_self ..
  refine ⟨?_, fun i hi => ?_, rfl⟩
  · exact (State.ctx_setCtx_self ..).trans (by rw [raised]; rfl)
  · exact (State.ctx_setCtx_ne _ hi _).trans (State.ctx_setCtx_ne _ hi _)

/-- INT and NEST are set, and CODE is kept (R90). -/
theorem interrupt_cause (x : BitVec 10) : BitVec.append (3 : BitVec 2) (x.setWidth 8) = x ||| 0x300 := by
  refine BitVec.eq_of_getLsbD_eq fun i hi => ?_
  refine (BitVec.getLsbD_append (x := (3 : BitVec 2)) (y := x.setWidth 8) (i := i)).trans ?_
  rw [BitVec.getLsbD_or]
  interval_cases i <;> simp

/-- Settles O39: a thread that migrates, one that returns, one that returns early while it waits or is ready, and a completion taken. -/
theorem threadsMoveAndTakeInterrupts : Obligations.ThreadsMoveAndTakeInterrupts := by
  unfold Obligations.ThreadsMoveAndTakeInterrupts
  refine ⟨fun s cluster a b rest fifo place drained waits => ?_, ?_, ?_⟩
  · obtain ⟨core, number, free⟩ := State.freeThread_spec place
    have other : a ≠ b := by
      rintro rfl
      rw [free] at waits
      cases waits
    refine (completes_migrateToWCore fifo place drained waits).imp fun t ⟨moves, rest, ctx⟩ => ?_
    refine ⟨(ctx b).trans (if_pos rfl), ?_, core, number, fun id ha hb => ?_, moves.mem, moves.cores, rest⟩
    · rw [ctx, if_neg other, if_pos rfl]
    · rw [ctx, if_neg hb, if_neg ha]
  · intro s id b c fifo moved migrated place
    exact ⟨fun count ready drained empty => completes_migrateReturn place migrated count ready drained empty,
      fun a queued _ waiting word drained => completes_earlyReturn_waiting place migrated queued waiting word drained,
      fun queued _ ready since next drained => completes_earlyReturn_ready place migrated queued ready since next drained⟩
  · intro s id x h w rest c thread ready enabled outside comps quiet
    refine (completes_copyCompletionInterrupt thread ready enabled outside comps quiet).imp fun t ⟨now, others, mem⟩ => ?_
    dsimp only
    rw [now]
    exact ⟨rfl, rfl, rfl, interrupt_cause _, rfl, rfl, rfl, rfl, rfl, rfl, rfl, rfl, others, mem⟩

end Sys2Proof.Machine


/-!
PROOFS. The copy that COPY_DISPATCH takes (R197, R222): which record a core's next copy is.
-/
namespace Sys2Proof.Machine

/-- A copy of no launch, with its status. -/
def bareCopy (status : Nat) : CopyRec :=
  { id := 0, block := [], status := status, tid := 0, ctx := 0, uid := 0, launch := none, part := 0, domain := 0, lclk := 0 }

/-- Core 0 lists two copies under sequence number 5, the first RUNNING and the second QUEUED, and Isobar has headroom for a copy. -/
def copyListedTwice : State :=
  { State.reset with cores := [(0, { copies := [(5, bareCopy 2), (5, bareCopy 1)] })], energy := [(0, { target := 1000000 })] }

/-- Refutes O43: its first clause says of every state that the record which COPY_DISPATCH takes was QUEUED. `Core.nextCopy` finds the sequence number of a QUEUED record and then reads
the record listed first under it, so in a state whose map of copies lists one number twice (`copyListedTwice`) the copy that is dispatched is one that RUNS already. The
statement does not ask that the keys of the map rise. -/
theorem not_copiesMoveTheirElements : ¬Obligations.CopiesMoveTheirElements := by
  unfold Obligations.CopiesMoveTheirElements
  rintro ⟨dispatch, -⟩
  have turn : nextTurn (clusterOf 0) (copyListedTwice.rrJobs.getD (clusterOf 0) (7, 7)).2 copyListedTwice.copyWaits = some 0 := by decide
  have next : (copyListedTwice.core 0).nextCopy = some (5, bareCopy 2) := by decide
  obtain ⟨t, -, -, queued, -⟩ := dispatch copyListedTwice 0 5 (bareCopy 2) turn next
  exact absurd queued (by decide)

end Sys2Proof.Machine

/-!
PROOFS. Stores, FENCE, PPURGE, LEASE, PREF and atomics at issue (R102, R106, R142, R157 to R159, R165 to R168, R173 to R175): what leaves the core, and what a store does to LM.
-/
namespace Sys2Proof.Machine

/-! ### A request sent after the look-up of the PLB and the drift of LCLK (R115, R127, R307) -/

/-- The state that an instruction sends from: its core has looked up its PLB, and its context has changed. -/
def State.prepared (s : State) (plb : List (Nat × RightsEntry)) (c : Ctx) : State := (s.withPlb s.execCore plb).setCtx s.cur c

/-- The context with its LCLK after drift (R127), and the values that LCLK has had. -/
def State.timed (s : State) (clocks : List (Nat × Stamp × Stamp)) : Ctx := { s.here with clocks := clocks, cr := { s.here.cr with lclk := s.clock } }

theorem State.plbLookup_state {s s1 : State} {core dom a : Nat} {e : RightsEntry} (h : s.plbLookup core dom a = (some e, s1)) : ∃ plb, s1 = s.withPlb core plb := by
  cases entry : s.entryOf core dom a with
  | none =>
    rw [State.plbLookup_none entry] at h
    cases h
  | some e' =>
    obtain ⟨plb, look⟩ := State.plbLookup_some entry
    exact ⟨plb, (Prod.mk.inj (h.symm.trans look)).2⟩

theorem State.locate_memory_state {s s1 : State} {id size : Nat} {kind : AccessKind} {addr : Word} {e : RightsEntry}
    (h : s.locate id kind addr size = (.memory e, s1)) : ∃ plb, s1 = s.withPlb (coreOf id) plb := by
  cases place : placeOf (s.homeOf id) addr with
  | unmapped =>
    rw [State.locate_unmapped place] at h
    cases h
  | lm core off =>
    cases fate : s.lmFate (s.ctx id).partNo (s.homeOf id) (coreOf id) kind core off with
    | trap c =>
      rw [State.locate_lm_trap place fate] at h
      cases h
    | lm k o =>
      rw [State.locate, place] at h
      dsimp only at h
      rw [fate] at h
      dsimp only at h
      split at h <;> cases h
    | memory e =>
      simp only [State.lmFate] at fate
      split_ifs at fate
  | memory =>
    cases entry : s.entryOf (coreOf id) (s.ctx id).accessDomain addr.toNat with
    | none =>
      rw [State.locate_memory_none place kind size entry] at h
      cases h
    | some e' =>
      obtain ⟨plb, look⟩ := State.locate_memory_some place kind size entry
      exact ⟨plb, (Prod.mk.inj (h.symm.trans look)).2⟩

theorem State.drift_prepared (s : State) (plb : List (Nat × RightsEntry)) : ∃ x, (s.withPlb s.execCore plb).drift s.cur = s.prepared plb (s.timed x) := by
  refine ⟨(s.withPlb s.execCore plb).clocksAt s.cur ((s.withPlb s.execCore plb).lfOf s.cur), ?_⟩
  have drifted : maxStamp ((s.withPlb s.execCore plb).lclkOf s.cur) ((s.withPlb s.execCore plb).lfOf s.cur) = s.clock := maxStamp_maxStamp ..
  unfold State.drift State.raiseLclk
  rw [drifted]
  rfl

/-- What a request says of its sender, which the context that sends it has kept. -/
structure Ctx.SameSender (c c' : Ctx) : Prop where
  uid : c'.uid = c.uid
  part : c'.partNo = c.partNo
  domain : c'.accessDomain = c.accessDomain
  launch : c'.launch = c.launch

/-- A request that a context sends once it has looked up its PLB, with what then becomes of the context. -/
theorem State.prepared_sends {s : State} {c : Ctx} (same : s.here.SameSender c) (plb : List (Nat × RightsEntry)) (k : FKind) (c' : Ctx) :
    Sends s k (((s.prepared plb c).send k).setCtx s.cur c') := by
  have here : (s.prepared plb c).here = c := State.ctx_setCtx_self ..
  have core : (s.prepared plb c).core s.execCore = { s.core s.execCore with plb := plb } := State.core_setCore_self ..
  obtain ⟨⟨f, net, kind, ctx, uid, part, domain, launch, seq, current⟩, own, cores, others, rest⟩ := (s.prepared plb c).send_setCtx_sends k c'
  rw [here] at uid part domain launch
  rw [show (s.prepared plb c).execCore = s.execCore from rfl, core] at seq own
  exact ⟨⟨f, net, kind, ctx, uid.trans same.uid, part.trans same.part, domain.trans same.domain, launch.trans same.launch, seq, current⟩,
    congrArg (fun q : Core => { q with plb := (s.core s.execCore).plb }) own,
    fun i other => (cores i other).trans (State.core_setCore_ne _ other _), fun id other => (others id other).trans (s.ctx_setCtx_ne other c),
    congrArg (fun t : State => { t with ctxs := s.ctxs, cores := s.cores }) rest⟩

/-- LCLK after drift does not rise by a second drift (R127). -/
theorem State.lclkOf_prepared {s : State} {c : Ctx} (plb : List (Nat × RightsEntry)) (lclk : c.cr.lclk = s.clock) (part : c.partNo = s.here.partNo) :
    (s.prepared plb c).lclkOf s.cur = s.clock := by
  have now : (s.prepared plb c).ctx s.cur = c := State.ctx_setCtx_self ..
  unfold State.lclkOf State.lfOf
  rw [now, lclk, part]
  exact maxStamp_maxStamp ..

theorem State.here_prepared (s : State) (plb : List (Nat × RightsEntry)) (c : Ctx) : (s.prepared plb c).here = c := State.ctx_setCtx_self ..

theorem State.setCtx_prepared (s : State) (plb : List (Nat × RightsEntry)) (c c' : Ctx) : (s.prepared plb c).setCtx s.cur c' = s.prepared plb c' :=
  State.setCtx_setCtx_self ..

theorem State.onHere_prepared (s : State) (plb : List (Nat × RightsEntry)) (c : Ctx) (f : Ctx → Ctx) : (s.prepared plb c).onHere f = s.prepared plb (f c) := by
  have now : (s.prepared plb c).here = c := s.here_prepared plb c
  refine (s.setCtx_prepared plb c _).trans ?_
  rw [show (s.prepared plb c).ctx (s.prepared plb c).cur = c from now]

theorem State.onHere_retire {t : State} {c : Ctx} (now : t.here = c) (f : Ctx → Ctx) :
    (t.onHere f).retire = t.setCtx t.cur ((f c).retireAt false ((f c).pc + 4)) := by
  subst now
  exact State.retire_setCtx ..

section
variable {s : State} {c : Ctx} (same : s.here.SameSender c) (pc : c.pc = s.here.pc) (migrated : c.migrated = s.here.migrated) (count : c.migCount = s.here.migCount)
include same pc migrated count

/-- A request is sent from such a state, and the instruction retires. -/
theorem State.prepared_send_retire (plb : List (Nat × RightsEntry)) (k : FKind) :
    Sends s k ((s.prepared plb c).send k).retire ∧ RetiresAs s c ((s.prepared plb c).send k).retire := by
  have now : ((s.prepared plb c).send k).here = c := s.here_prepared plb c
  rw [State.retire_eq, now]
  exact ⟨State.prepared_sends same plb k _, retiresAs_setCtx rfl pc migrated count⟩

/-- A request is sent from such a state, a register waits for its result, and the instruction retires (R15). -/
theorem State.prepared_send_await_retire (plb : List (Nat × RightsEntry)) (k : FKind) (r : Option RegRef) :
    let t := (((s.prepared plb c).send k).onHere fun c => c.awaitMaybe r).retire
    Sends s k t ∧ RetiresAs s (c.awaitMaybe r) t := by
  have now : ((s.prepared plb c).send k).here = c := s.here_prepared plb c
  have kept : (c.awaitMaybe r).pc = c.pc ∧ (c.awaitMaybe r).migrated = c.migrated ∧ (c.awaitMaybe r).migCount = c.migCount := by cases r <;> exact ⟨rfl, rfl, rfl⟩
  dsimp only
  rw [State.onHere_retire now]
  exact ⟨State.prepared_sends same plb k _, retiresAs_setCtx rfl (kept.1.trans pc) (kept.2.1.trans migrated) (kept.2.2.trans count)⟩

end

/-! ### Orders of stores (R40) -/

theorem order_rel (o : BitVec 2) : (o.toNat % 2 == 1) = (o == 1 || o == 3) := by revert o; decide

theorem order_push (o : BitVec 2) : decide (2 ≤ o.toNat) = (o == 2 || o == 3) := by revert o; decide

/-! ### Stores (R157 to R159) -/

/-- The seven stores with their size, and the register that one writes from. -/
def State.storeForms (s : State) (d : Reg) : List ((Reg → Reg → BitVec 2 → BitVec 2 → BitVec 1 → BitVec 8 → Instr) × Nat × Nat) :=
  [(Instr.sb, 1, (s.rdG d).toNat), (Instr.sh, 2, (s.rdG d).toNat), (Instr.sw, 4, (s.rdG d).toNat), (Instr.sd, 8, (s.rdG d).toNat),
    (Instr.fsw, 4, (s.rdF d).toNat), (Instr.fsd, 8, (s.rdF d).toNat), (Instr.vst, 16, (s.rdV d).toNat)]

section
variable {s : State} {d a : Reg} {o sc : BitVec 2} {h : BitVec 1} {x : BitVec 8} {n v : Nat} {op : Reg → Reg → BitVec 2 → BitVec 2 → BitVec 1 → BitVec 8 → Instr}

/-- What a store does: it takes the low bytes of its register to the target of its address. -/
theorem exec_store (form : (op, n, v) ∈ s.storeForms d)
    (reg : s.hasReg d ∨ op d a o sc h x ∈ [Instr.sb d a o sc h x, .sh d a o sc h x, .sw d a o sc h x, .sd d a o sc h x]) :
    ∃ data : State → Quad, (∀ t : State, t.here = s.here → data t = BitVec.ofNat 128 (v % 256 ^ n)) ∧
      exec (op d a o sc h x) s = .next (s.withTarget .store (s.rdG a + x.signExtend 64 * BitVec.ofNat 64 n) n
        (fun t core off => t.storeLm core off n (data t) o.toNat sc.toNat)
        fun t e => t.storeMemory (s.rdG a + x.signExtend 64 * BitVec.ofNat 64 n).toNat n (data t) o.toNat sc.toNat (h == 1) e) := by
  have gData (t : State) (now : t.here = s.here) (k : Nat) : t.gData d k = BitVec.ofNat 128 ((s.rdG d).toNat % 2 ^ k) := by
    rw [State.gData, State.rdG, now, State.rdG]
  have fData (t : State) (now : t.here = s.here) (k : Nat) : t.fData d k = BitVec.ofNat 128 ((s.rdF d).toNat % 2 ^ k) := by
    rw [State.fData, State.rdF, now, State.rdF]
  have vData (t : State) (now : t.here = s.here) : t.rdV d = BitVec.ofNat 128 ((s.rdV d).toNat % 256 ^ 16) := by
    rw [show (s.rdV d).toNat % 256 ^ 16 = (s.rdV d).toNat from Nat.mod_eq_of_lt (s.rdV d).isLt, BitVec.ofNat_toNat, BitVec.setWidth_eq, State.rdV, now, State.rdV]
  simp only [State.storeForms, List.mem_cons, Prod.mk.injEq, List.not_mem_nil, or_false] at form
  rcases form with ⟨rfl, rfl, rfl⟩ | ⟨rfl, rfl, rfl⟩ | ⟨rfl, rfl, rfl⟩ | ⟨rfl, rfl, rfl⟩ | ⟨rfl, rfl, rfl⟩ | ⟨rfl, rfl, rfl⟩ | ⟨rfl, rfl, rfl⟩
  · exact ⟨fun t => t.gData d 8, fun t now => gData t now 8, congrArg Host.Outcome.next (State.allow_g ..)⟩
  · exact ⟨fun t => t.gData d 16, fun t now => gData t now 16, congrArg Host.Outcome.next (State.allow_g ..)⟩
  · exact ⟨fun t => t.gData d 32, fun t now => gData t now 32, congrArg Host.Outcome.next (State.allow_g ..)⟩
  · exact ⟨fun t => t.gData d 64, fun t now => gData t now 64, congrArg Host.Outcome.next (State.allow_g ..)⟩
  all_goals have reg : s.hasReg d := reg.resolve_right (by simp)
  · exact ⟨fun t => t.fData d 32, fun t now => fData t now 32, congrArg Host.Outcome.next (State.allow_hasReg reg ..)⟩
  · exact ⟨fun t => t.fData d 64, fun t now => fData t now 64, congrArg Host.Outcome.next (State.allow_hasReg reg ..)⟩
  · exact ⟨fun t => t.rdV d, vData, congrArg Host.Outcome.next (State.allow_hasReg reg ..)⟩

end

/-- The request of a store to memory (R144, R158). -/
def State.storeReq (s : State) (addr n : Nat) (data : Quad) (o : BitVec 2) (sc : Nat) (nl : Bool) (attr : Nat) : StoreReq :=
  { addr := addr, size := n, data := data, rel := o == 1 || o == 3, push := o == 2 || o == 3, sc := sc, nl := nl, attr := attr
    l := s.clock, pset := s.here.cr.pset, psetOk := s.psetValid s.here.partNo s.here.cr.pset }

/-- A store to memory sends its request (R158). -/
theorem State.storeMemory_sends {s : State} {addr : Nat} {e : RightsEntry} (free : s.acquiring s.cur (s.scopeOf s.cur addr e.attr) = false)
    (room : s.storeBuffer s.execCore < 16) (plb : List (Nat × RightsEntry)) (n : Nat) (data : Quad) (o : BitVec 2) (sc : Nat) (nl : Bool) :
    let t := (s.withPlb s.execCore plb).storeMemory addr n data o.toNat sc nl e
    Sends s (.store (s.storeReq addr n data o sc nl e.attr)) t ∧
      RetiresAs s ({ s.here with cr := { s.here.cr with lclk := s.clock } }.clearSpin (sectorOf addr)) t := by
  obtain ⟨x, drift⟩ := s.drift_prepared plb
  have same : s.here.SameSender ((s.timed x).clearSpin (sectorOf addr)) := ⟨rfl, rfl, rfl, rfl⟩
  have clock : (s.prepared plb ((s.timed x).clearSpin (sectorOf addr))).lclkOf s.cur = s.clock := State.lclkOf_prepared plb rfl rfl
  have here := s.here_prepared plb ((s.timed x).clearSpin (sectorOf addr))
  have full : ¬((s.withPlb s.execCore plb).acquiring s.cur ((s.withPlb s.execCore plb).scopeOf s.cur addr e.attr) ||
      decide (16 ≤ (s.withPlb s.execCore plb).storeBuffer s.execCore)) = true := by
    rw [show (s.withPlb s.execCore plb).acquiring s.cur ((s.withPlb s.execCore plb).scopeOf s.cur addr e.attr) = false from free,
      show (s.withPlb s.execCore plb).storeBuffer s.execCore = s.storeBuffer s.execCore from rfl]
    simpa using room
  have sent : (s.withPlb s.execCore plb).storeMemory addr n data o.toNat sc nl e =
      ((s.prepared plb ((s.timed x).clearSpin (sectorOf addr))).send (.store (s.storeReq addr n data o sc nl e.attr))).retire := by
    refine (if_neg full).trans ?_
    rw [show (s.withPlb s.execCore plb).cur = s.cur from rfl, drift, State.onHere_prepared, clock, here, order_rel, order_push]
    rfl
  dsimp only
  rw [sent]
  exact State.prepared_send_retire same rfl rfl rfl plb _

/-! ### Stores to LM (R110, R111, R158, R159) -/

/-- A write that sets SKIP when it performs, if it is a push (R159). -/
theorem State.sendSkip_eq (s : State) (k : FKind) (skip : Bool) :
    s.sendSkip k skip = s.withTravel s.ctxs (s.cores.set s.execCore { s.core s.execCore with reqSeq := (s.core s.execCore).reqSeq + 1 })
      (s.net.flights ++ [{ s.stamped (s.outgoing k) with skip := skip }]) := by
  rw [State.sendSkip, State.send_eq]
  simp [State.onLast, State.setFlights, State.withTravel]

/-- Whether a write is a push does not change the die that sends it. -/
theorem State.current_skip (s : State) (f : Flight) (skip : Bool) : s.current { f with skip := skip } = s.current f := by
  unfold State.current State.stamped
  rw [show s.laneOf { f with skip := skip } = s.laneOf f from rfl]
  split <;> rfl

theorem State.sendSkip_retire (s : State) (k : FKind) (skip : Bool) :
    Sends s k (s.sendSkip k skip).retire ∧ (∀ f, (s.sendSkip k skip).retire.net.flights.getLast? = some f → f.skip = skip) ∧ RetiresAs s s.here (s.sendSkip k skip).retire := by
  rw [State.sendSkip_eq]
  obtain ⟨i, e⟩ := s.stamped_keeps (s.outgoing k)
  refine ⟨⟨⟨{ s.stamped (s.outgoing k) with skip := skip }, rfl, ?_, ?_, ?_, ?_, ?_, ?_, ?_, ?_⟩, ?_, fun j hj => ?_, fun id hid => ?_, rfl⟩, fun f last => ?_,
    retiresAs_setCtx rfl rfl rfl rfl⟩
  iterate 7 rw [e]; rfl
  · exact (s.current_skip _ skip).trans (s.current_stamped _)
  · exact congrArg (fun q : Core => { q with plb := (s.core s.execCore).plb }) ((FMap.core_set s _ _ _).trans (if_pos rfl))
  · exact (FMap.core_set s _ _ _).trans (if_neg hj)
  · exact s.ctx_setCtx_ne hid _
  · obtain rfl : { s.stamped (s.outgoing k) with skip := skip } = f := Option.some.inj ((List.getLast?_concat ..).symm.trans last)
    rfl

/-- What a release has recorded, and a push noted, once it performs at the own LM (R105, R159). -/
def Ctx.stored (c : Ctx) (rel push : Bool) : Ctx :=
  if push then { (if rel then c.recordPushes else c) with pushSkipped := true } else if rel then c.recordPushes else c

theorem Ctx.stored_keeps (c : Ctx) (rel push : Bool) :
    (c.stored rel push).pc = c.pc ∧ (c.stored rel push).migrated = c.migrated ∧ (c.stored rel push).migCount = c.migCount := by
  cases rel <;> cases push <;> simp [Ctx.stored, Ctx.recordPushes]

theorem Core.traceb_dropFetched (k : Core) (off n : Nat) : (k.dropFetched off n).traceb = k.traceb := rfl

theorem Core.traceValid_dropFetched (k : Core) (off n : Nat) : (k.dropFetched off n).traceValid = k.traceValid := rfl

theorem Core.traceValid_tracen (k : Core) (n : BitVec 32) : { k with tracen := n }.traceValid = k.traceValid := rfl

/-- Logging a write leaves the trace ring where it is, and whether it is on (R111). -/
theorem State.traceWrite_ring (s : State) (core src kind log2 off value : Nat) : let t := s.traceWrite core src kind log2 off value
    (t.core core).traceb = (s.core core).traceb ∧ (t.core core).traceValid = (s.core core).traceValid := by
  dsimp only
  unfold State.traceWrite
  dsimp only
  split
  · rw [State.onCore_eq, State.core_setCore_self]
    refine ⟨?_, (Core.traceValid_tracen ..).trans ?_⟩ <;>
      simp only [State.core_lmWrite_self, Core.traceb_dropFetched, Core.traceValid_dropFetched]
  · exact ⟨rfl, rfl⟩

/-- Each word of a logged write makes one entry (R112). -/
theorem State.tracedWrite_logs {s : State} {core : Nat} (on : traceOn (s.core core).traceb = true) (valid : (s.core core).traceValid = true)
    (off n v src kind : Nat) : ((s.tracedWrite core off n v src kind).core core).tracen = (s.core core).tracen + (if n = 16 then 2 else 1) := by
  have written := s.core_lmWrite_self core off n v
  have on' : traceOn ((s.lmWrite core off n v).core core).traceb = true := by rw [written]; exact on
  have valid' : ((s.lmWrite core off n v).core core).traceValid = true := by rw [written]; exact valid
  have before : ((s.lmWrite core off n v).core core).tracen = (s.core core).tracen := by rw [written]; rfl
  unfold State.tracedWrite
  dsimp only
  split
  · obtain ⟨on2, valid2⟩ := (s.lmWrite core off n v).traceWrite_ring core src kind (sizeLog 8) (off / 8 * 8) ((s.lmWrite core off n v).lmRead core (off / 8 * 8) 8)
    rw [State.traceWrite_counts (by rw [on2]; exact on') (valid2.trans valid'), State.traceWrite_counts on' valid', before, BitVec.add_assoc]
    rfl
  · rw [State.traceWrite_counts on' valid', before]

section
variable {s : State} (idle : s.Idle) (room : s.storeBuffer s.execCore < 16) {core : Nat}
include idle room

omit room in
theorem State.Idle.lmWritable (a n : Nat) : s.lmHeld s.cur core a n false = false := by
  rw [State.lmHeld, idle.feHeld, idle.1]
  simp

omit room in
theorem State.Idle.notPushing (before : Nat) : s.pushing s.cur before = false := idle.2.2.2 before

omit room idle in
theorem State.onHere_stored (o : BitVec 2) :
    ((s.onHere fun c => if (o == 1 || o == 3) = true then c.recordPushes else c).onHere fun c => if 2 ≤ o.toNat then { c with pushSkipped := true } else c) =
      s.setCtx s.cur (s.here.stored (o == 1 || o == 3) (o == 2 || o == 3)) := by
  have push : (2 ≤ o.toNat) = ((o == 2 || o == 3) = true) := by rw [← order_push, decide_eq_true_eq]
  simp only [State.onHere_eq, State.cur_setCtx, State.ctx_setCtx_self, State.setCtx_setCtx_self, push]
  unfold Ctx.stored
  rfl

/-- Nothing holds back a store to an LM of a context with nothing on its way: it is sent, or it performs at once at the own LM. -/
theorem State.storeLm_eq (off n : Nat) (data : Quad) (o : BitVec 2) (sc : Nat) : s.storeLm core off n data o.toNat sc =
    if core = s.homeCore ∧ s.late = false then ((s.setCtx s.cur (s.here.stored (o == 1 || o == 3) (o == 2 || o == 3))).portStore s.execCore core off n data.toNat).retire
    else (s.sendSkip (.lmWrite (lmAddr core off) (.store n data) (o == 1 || o == 3) sc) (o == 2 || o == 3)).retire := by
  have full : ¬(s.acquiring s.cur (s.scopeOf s.cur (lmAddr core off) 0) || s.lmHeld s.cur core (lmAddr core off) n false || decide (16 ≤ s.storeBuffer s.execCore)) = true := by
    rw [idle.acquiring, idle.lmWritable]
    simpa using room
  unfold State.storeLm
  dsimp only
  rw [if_neg full, idle.allPerformed, idle.notPushing, order_rel, order_push]
  simp only [Bool.or_false, Bool.and_false, true_and]
  rw [State.onHere_stored, show (s.setCtx s.cur (s.here.stored (o == 1 || o == 3) (o == 2 || o == 3))).execCore = s.execCore from rfl]

variable (home : core = s.homeCore) (now : s.late = false)
include home now

/-- A store to the own LM that no trace ring logs writes its bytes and no other (R110). -/
theorem State.storeLm_untraced (wf : s.memWf) (untraced : ¬(s.execCore ≠ core ∧ traceOn (s.core core).traceb = true ∧ (s.core core).traceValid = true))
    (off n : Nat) (data : Quad) (o : BitVec 2) (sc : Nat) : let t := s.storeLm core off n data o.toNat sc
    WritesLm s core off n data.toNat t ∧ OthersAsBefore s t ∧ RetiresAs s (s.here.stored (o == 1 || o == 3) (o == 2 || o == 3)) t := by
  have stored := s.here.stored_keeps (o == 1 || o == 3) (o == 2 || o == 3)
  dsimp only
  rw [State.storeLm_eq idle room, if_pos ⟨home, now⟩]
  generalize s.here.stored (o == 1 || o == 3) (o == 2 || o == 3) = c at stored
  rw [State.portStore_untraced (s := s.setCtx s.cur c) untraced]
  obtain ⟨value, frame, kept, cores, -⟩ := State.lmWrite_writes (s := s.setCtx s.cur c) wf core off n data.toNat
  have here : ((s.setCtx s.cur c).lmWrite core off n data.toNat).here = c := s.ctx_setCtx_self ..
  refine ⟨⟨value, frame, kept, cores, rfl⟩, fun id other => (State.ctx_setCtx_ne _ other _).trans (s.ctx_setCtx_ne other _), ?_⟩
  rw [State.retire_eq, here]
  exact retiresAs_setCtx (u := (s.setCtx s.cur c).lmWrite core off n data.toNat) rfl stored.1 stored.2.1 stored.2.2

/-- A store of a migrated thread to its home core's LM is logged there where the ring is on (R111). -/
theorem State.storeLm_traced (away : s.execCore ≠ core) (on : traceOn (s.core core).traceb = true) (valid : (s.core core).traceValid = true)
    (off n : Nat) (data : Quad) (o : BitVec 2) (sc : Nat) : let t := s.storeLm core off n data o.toNat sc
    (t.core core).tracen = (s.core core).tracen + (if n = 16 then 2 else 1) ∧ OthersAsBefore s t ∧ RetiresAs s (s.here.stored (o == 1 || o == 3) (o == 2 || o == 3)) t := by
  have stored := s.here.stored_keeps (o == 1 || o == 3) (o == 2 || o == 3)
  dsimp only
  rw [State.storeLm_eq idle room, if_pos ⟨home, now⟩]
  generalize s.here.stored (o == 1 || o == 3) (o == 2 || o == 3) = c at stored
  rw [show (s.setCtx s.cur c).portStore s.execCore core off n data.toNat = (s.setCtx s.cur c).tracedWrite core off n data.toNat s.execCore 0 from if_neg away]
  have only : (s.setCtx s.cur c).OnlyStored ((s.setCtx s.cur c).tracedWrite core off n data.toNat s.execCore 0) := .tracedWrite ..
  have counts := State.tracedWrite_logs (s := s.setCtx s.cur c) on valid off n data.toNat s.execCore 0
  generalize (s.setCtx s.cur c).tracedWrite core off n data.toNat s.execCore 0 = u at only counts
  have here : u.here = c := only.here.trans (s.ctx_setCtx_self ..)
  have cur : u.cur = s.cur := only.cur
  rw [State.retire_eq, here, cur]
  exact ⟨counts, fun id other => (State.ctx_setCtx_ne _ other _).trans ((only.ctx id).trans (s.ctx_setCtx_ne other _)), retiresAs_setCtx cur stored.1 stored.2.1 stored.2.2⟩

end

/-- The operands of a store as the statement names them. -/
theorem Ctx.stored_eq (c : Ctx) (o : BitVec 2) : c.stored (o == 1 || o == 3) (o == 2 || o == 3) =
    if o = 2 ∨ o = 3 then { (if o = 1 ∨ o = 3 then c.recordPushes else c) with pushSkipped := true } else if o = 1 ∨ o = 3 then c.recordPushes else c := by
  simp only [Ctx.stored, Bool.or_eq_true, beq_iff_eq]

/-- The data of a store are the low bytes of its register. -/
theorem toNat_storeData {n : Nat} (small : n ≤ 16) (v : Nat) : (BitVec.ofNat 128 (v % 256 ^ n)).toNat = v % 256 ^ n := by
  have positive : 0 < 256 ^ n := Nat.pow_pos (by decide)
  have fits : 256 ^ n ≤ 2 ^ 128 := (Nat.pow_le_pow_right (by decide) small).trans (by norm_num)
  rw [BitVec.toNat_ofNat, Nat.mod_eq_of_lt ((Nat.mod_lt v positive).trans_le fits)]

theorem State.storeForms_size {s : State} {d : Reg} {op : Reg → Reg → BitVec 2 → BitVec 2 → BitVec 1 → BitVec 8 → Instr} {n v : Nat} (form : (op, n, v) ∈ s.storeForms d) :
    n ≤ 16 := by
  simp only [State.storeForms, List.mem_cons, Prod.mk.injEq, List.not_mem_nil, or_false] at form
  rcases form with ⟨-, rfl, -⟩ | ⟨-, rfl, -⟩ | ⟨-, rfl, -⟩ | ⟨-, rfl, -⟩ | ⟨-, rfl, -⟩ | ⟨-, rfl, -⟩ | ⟨-, rfl, -⟩ <;> decide

/-- Settles O13: a store to LM is written or sent, and a store to memory is sent. -/
theorem storesBegin : Obligations.StoresBegin := by
  unfold Obligations.StoresBegin
  constructor
  · intro s d a o sc h x core off n v op form reg addr rel push c1 skip k traced wf idle place room
    obtain ⟨data, low, run⟩ := exec_store (s := s) (sc := sc) (h := h) (x := x) (a := a) (o := o) form reg
    have stores : exec (op d a o sc h x) s = .next (s.storeLm core off n (BitVec.ofNat 128 (v % 256 ^ n)) o.toNat sc.toNat) := by
      rw [run, State.withTarget, place, ← low s rfl]
    have bytes := toNat_storeData (State.storeForms_size form) v
    have recorded : skip c1 = s.here.stored (o == 1 || o == 3) (o == 2 || o == 3) := (Ctx.stored_eq ..).symm
    rw [recorded]
    refine ⟨fun home now untraced => ⟨_, stores, ?_⟩, fun home now ⟨away, on, valid⟩ => ⟨_, stores, ?_⟩, fun sent => ⟨_, stores, ?_⟩⟩
    · obtain ⟨⟨value, frame, kept, cores, rest⟩, others, retires⟩ := State.storeLm_untraced idle room home now wf untraced off n (BitVec.ofNat 128 (v % 256 ^ n)) o sc.toNat
      rw [bytes, Nat.mod_mod] at value
      exact ⟨⟨value, frame, kept, cores, rest⟩, others, retires⟩
    · exact State.storeLm_traced idle room home now away on valid off n _ o sc.toNat
    · have away : ¬(core = s.homeCore ∧ s.late = false) := by
        rintro ⟨home, now⟩
        rcases sent with ne | late
        · exact ne home
        · exact Bool.false_ne_true (now.symm.trans late)
      rw [State.storeLm_eq idle room, if_neg away]
      obtain ⟨sends, last, retires⟩ := s.sendSkip_retire (.lmWrite (lmAddr core off) (.store n (BitVec.ofNat 128 (v % 256 ^ n))) (o == 1 || o == 3) sc.toNat) (o == 2 || o == 3)
      have names : decide rel = (o == 1 || o == 3) ∧ decide push = (o == 2 || o == 3) := by
        constructor <;> simp [rel, push, Bool.decide_or, beq_eq_decide]
      rw [names.1, names.2]
      exact ⟨sends, last, retires⟩
  · intro s s1 d a o sc h x e n v op form reg addr place free room
    obtain ⟨data, low, run⟩ := exec_store (s := s) (sc := sc) (h := h) (x := x) (a := a) (o := o) form reg
    obtain ⟨plb, rfl⟩ := State.locate_memory_state place
    refine ⟨_, run.trans (by rw [State.withTarget, place]), ?_⟩
    dsimp only
    rw [low (s.withPlb (coreOf s.cur) plb) rfl]
    exact State.storeMemory_sends free room plb n _ o sc.toNat _

end Sys2Proof.Machine

/-!
PROOFS. FENCE, PPURGE, LEASE and PREF of a memory address (R106, R142, R165 to R168).
-/
namespace Sys2Proof.Machine

/-! ### The miss table (R14, R197) -/

@[simp] theorem State.cur_prepared (s : State) (plb : List (Nat × RightsEntry)) (c : Ctx) : (s.prepared plb c).cur = s.cur := rfl

@[simp] theorem State.execCore_prepared (s : State) (plb : List (Nat × RightsEntry)) (c : Ctx) : (s.prepared plb c).execCore = s.execCore := rfl

/-- An entry of the miss table is free where nothing waits for one. -/
theorem State.missRoom_of_unclaimed {s t : State} (alone : s.net.claims = []) (same : t.net = s.net) (exec : t.execCore = s.execCore)
    (free : s.missTable (clusterOf s.execCore) < 16) : t.missRoom = true := by
  have used : t.missTable (clusterOf t.execCore) = s.missTable (clusterOf s.execCore) := by rw [State.missTable, State.missTable, same, exec]
  unfold State.missRoom State.missRoomAt State.inTurn
  rw [used, same, alone]
  simp [free]

/-- An entry that nothing waited for moves no turn. -/
theorem State.takeMissHere_of_unclaimed {s : State} (alone : s.net.claims = []) : s.takeMissHere = s := by
  unfold State.takeMissHere State.takeMiss
  rw [alone]
  rfl

/-! ### FENCE (R106, R165) -/

theorem State.drift_eq (s : State) : ∃ x, s.drift s.cur = s.setCtx s.cur (s.timed x) := by
  refine ⟨s.clocksAt s.cur (s.lfOf s.cur), ?_⟩
  have drifted : maxStamp (s.lclkOf s.cur) (s.lfOf s.cur) = s.clock := maxStamp_maxStamp ..
  unfold State.drift State.raiseLclk
  rw [drifted]
  rfl

/-- Which values LCLK has had plays no part in how an instruction retires. -/
theorem RetiresAs.of_clocks {s t : State} {c c' : Ctx} (h : RetiresAs s c t) (same : { c with clocks := [] } = { c' with clocks := [] }) : RetiresAs s c' t :=
  (h.trans (congrArg (fun q : Ctx => { q with pc := s.here.pc + 4, migCount := (s.here.countRetired false).migCount }) same) :)

/-- A context whose push counts have restarted, with a value in PRES (R146). -/
def Ctx.withPres (c : Ctx) (p : Word) : Ctx := { c with pushDelivered := 0, pushRefused := 0, pushSkipped := false, cr := { c.cr with pres := p } }

theorem Ctx.recordPushes_eq (c : Ctx) : c.recordPushes = c.withPres (presOf c.pushSkipped c.pushRefused c.pushDelivered) := rfl

/-- What FENCE makes of a context: its push counts are recorded and its spin table is empty (R106, R130). -/
def Ctx.fenced (c : Ctx) : Ctx := { c.recordPushes with spin := [] }

/-- A context that FENCE leaves, with a value in PRES. -/
def Ctx.fencedWith (c : Ctx) (p : Word) : Ctx := { c.withPres p with spin := [] }

theorem Ctx.fenced_eq (c : Ctx) : c.fenced = c.fencedWith (presOf c.pushSkipped c.pushRefused c.pushDelivered) :=
  congrArg (fun q : Ctx => { q with spin := [] }) c.recordPushes_eq

theorem Ctx.fencedWith_keeps (c : Ctx) (p : Word) : (c.fencedWith p).pc = c.pc ∧ (c.fencedWith p).migrated = c.migrated ∧ (c.fencedWith p).migCount = c.migCount :=
  ⟨rfl, rfl, rfl⟩

theorem Ctx.fenced_clocks (c : Ctx) (x y : List (Nat × Stamp × Stamp)) : { ({ c with clocks := x } : Ctx).fenced with clocks := y } = { c.fenced with clocks := y } := by
  rw [Ctx.fenced_eq, Ctx.fenced_eq]
  dsimp only
  generalize presOf c.pushSkipped c.pushRefused c.pushDelivered = p
  rfl

theorem Ctx.fenced_keeps (c : Ctx) : c.fenced.pc = c.pc ∧ c.fenced.migrated = c.migrated ∧ c.fenced.migCount = c.migCount :=
  c.fenced_eq ▸ c.fencedWith_keeps _
theorem State.fence_completes {s : State} (idle : s.Idle) (sc : BitVec 2) : Completes (.fence sc) s fun t => OnlyHere s t ∧
    RetiresAs s (Ctx.fenced { s.here with cr := { s.here.cr with lclk := s.clock } }) t := by
  have performed : ¬(s.unperformed s.cur sc.toNat (s.core s.execCore).reqSeq || s.pushing s.cur (s.core s.execCore).reqSeq) = true := by
    rw [idle.allPerformed, idle.notPushing]
    exact Bool.false_ne_true
  obtain ⟨x, timed⟩ := s.drift_eq
  have run : exec (.fence sc) s = .next ((s.drift s.cur).onHere Ctx.fenced).retire := by
    show execFence sc s = _
    unfold execFence
    rw [if_neg performed]
    rfl
  have kept := (s.timed x).fenced_keeps
  rw [timed, State.onHere_retire (State.ctx_setCtx_self ..)] at run
  refine ⟨_, run, ⟨rfl, fun id other => ?_⟩, ?_⟩
  · exact (State.ctx_setCtx_ne _ other _).trans (s.ctx_setCtx_ne other _)
  · generalize hc : (s.timed x).fenced = c at kept
    refine RetiresAs.of_clocks (retiresAs_setCtx rfl kept.1 kept.2.1 kept.2.2) ?_
    subst hc
    exact Ctx.fenced_clocks { s.here with cr := { s.here.cr with lclk := s.clock } } x []

/-! ### The register that waits for a result (R15, R41) -/

theorem target_eq (d : Reg) : (if d.toNat = 0 then none else some (RegRef.g d.toNat)) = if d = 0 then none else some (RegRef.g d.toNat) := by
  have zero : d.toNat = 0 ↔ d = 0 := by simp [← BitVec.toNat_inj]
  simp only [zero]

/-- The context that waits for a result, with LCLK after drift. -/
theorem State.timed_awaitMaybe (s : State) (y : List (Nat × Stamp × Stamp)) (r : Option RegRef) :
    { (s.timed y).awaitMaybe r with clocks := [] } = { s.awaiting r with clocks := [] } := by cases r <;> rfl

/-- Nothing holds back an access of a context with nothing on its way, once its core has looked up its PLB and its LCLK has drifted. -/
theorem State.Idle.acquiring_timed {s : State} (idle : s.Idle) (plb : List (Nat × RightsEntry)) (y : List (Nat × Stamp × Stamp)) (scope : Nat) :
    (s.prepared plb (s.timed y)).acquiring s.cur scope = false := by
  obtain ⟨flights, waiters, -⟩ := idle
  have uid : ((s.prepared plb (s.timed y)).ctx s.cur).uid = (s.ctx s.cur).uid := by
    rw [show (s.prepared plb (s.timed y)).ctx s.cur = s.timed y from s.here_prepared plb _]
    rfl
  unfold State.acquiring State.flightsOf State.waitersOf
  rw [uid, show (s.prepared plb (s.timed y)).flightsBy s.cur (s.ctx s.cur).uid = [] from flights,
    show (s.prepared plb (s.timed y)).net.waiters.filter _ = [] from waiters]
  rfl

/-! ### PPURGE (R142, R166) -/

section
variable {s : State} {addr : Word} {e : RightsEntry} {plb : List (Nat × RightsEntry)} {a d : Reg} {x : BitVec 8} {sl : Nat}
  (at_ : s.rdG a + x.signExtend 64 * 64 = addr) (idle : s.Idle) (place : placeOf s.homeCore addr = .memory)
  (look : s.plbLookup s.execCore s.here.accessDomain addr.toNat = (some e, s.withPlb s.execCore plb))
  (free : s.missTable (clusterOf s.execCore) < 16) (alone : s.net.claims = [])
include at_ idle place look free alone

theorem State.ppurge_completes (home : s.homeSlice s.here.partNo addr.toNat = some sl) (right : e.r = true ∨ e.w = true ∨ e.x = true) (r : BitVec 2) :
    Completes (.ppurge a r x) s fun t =>
      (∃ f, t.net.flights = s.net.flights ++ [f] ∧ f.kind = .purge (lineOf addr.toNat) r.toNat ∧ f.ctx = s.cur) ∧
      t.net.dew = s.net.dew.filter (fun l => !((requestPath r.toNat s.execCore sl).contains (l.x, l.y) && l.body.isAt s.here.partNo addr.toNat)) ∧
      (t.core s.execCore).cache = (s.core s.execCore).cache.filter (fun y => !(y.isAt s.here.partNo addr.toNat)) ∧
      (∀ i, i ≠ s.execCore → t.core i = s.core i) ∧ t.mem = s.mem ∧ OthersAsBefore s t ∧ RetiresAs s s.here t := by
  have room : (s.withPlb s.execCore plb).missRoom = true := State.missRoom_of_unclaimed alone rfl rfl free
  have quiet : (s.withPlb s.execCore plb).flightsOf s.cur = [] := idle.1
  have fresh : (s.withPlb s.execCore plb).acquiring s.cur 2 = false := idle.acquiring 2
  have run : exec (.ppurge a r x) s = .next ((((s.withPlb s.execCore plb).onCore s.execCore fun q => q.dropLine s.here.partNo addr.toNat).purgeAlong
      (requestPath r.toNat s.execCore sl) s.here.partNo addr.toNat).send (.purge (lineOf addr.toNat) r.toNat)).retire := by
    show execPpurge a r x s = _
    unfold execPpurge
    rw [show s.address a x 64 = addr from at_]
    dsimp only
    rw [place]
    dsimp only
    rw [look]
    dsimp only
    rw [if_neg (by revert right; cases e.r <;> cases e.w <;> cases e.x <;> simp), if_neg (by
      rw [show (s.withPlb s.execCore plb).cur = s.cur from rfl, fresh, quiet]; exact Bool.false_ne_true), if_neg (by rw [room]; exact Bool.false_ne_true)]
    rw [show ((s.withPlb s.execCore plb).onCore (s.withPlb s.execCore plb).execCore fun q => q.dropLine s.here.partNo addr.toNat).homeSlice s.here.partNo addr.toNat = some sl
      from home]
    dsimp only
    rw [State.takeMissHere_of_unclaimed (by exact alone)]
    rfl
  refine ⟨_, run, ?_⟩
  generalize hu : ((s.withPlb s.execCore plb).onCore s.execCore fun q => q.dropLine s.here.partNo addr.toNat).purgeAlong (requestPath r.toNat s.execCore sl) s.here.partNo addr.toNat = u
  obtain ⟨⟨⟨f, net, kind, ctx, -⟩, own, cores, others, rest⟩, retires⟩ := u.send_retire (.purge (lineOf addr.toNat) r.toNat)
  generalize (u.send (.purge (lineOf addr.toNat) r.toNat)).retire = t at net own cores others rest retires
  subst hu
  have cached := congrArg Core.cache own
  refine ⟨⟨f, by rw [net]; rfl, kind, ctx⟩, by rw [net]; rfl, ?_, fun i other => ?_, ?_, others, retires⟩
  · have dropped : ((s.withPlb s.execCore plb).setCore s.execCore (((s.withPlb s.execCore plb).core s.execCore).dropLine s.here.partNo addr.toNat)).core s.execCore =
        { s.core s.execCore with plb := plb }.dropLine s.here.partNo addr.toNat := by
      rw [State.core_setCore_self, State.withPlb, State.onCore_eq, State.core_setCore_self]
    exact cached.trans (congrArg Core.cache dropped)
  · exact (cores i other).trans ((State.core_setCore_ne _ other _).trans (State.core_setCore_ne _ other _))
  · exact (congrArg State.mem rest :)

/-! ### LEASE (R167) -/

omit idle free alone in
theorem State.lease_run (read : e.r = true) (permitted : s.detHere = false ∨ d = 0) (r : BitVec 2) : exec (.lease d a r x) s =
    .next (if e.attr = attrUncached ∨ e.attr = attrPlshared then (s.withPlb s.execCore plb).finishG d 0
      else if (s.withPlb s.execCore plb).acquiring s.cur (s.scopeOf s.cur addr.toNat e.attr) then s.withPlb s.execCore plb
      else if !(s.withPlb s.execCore plb).missRoom then (s.withPlb s.execCore plb).awaitMiss
      else
        let t := (s.withPlb s.execCore plb).drift s.cur
        ((t.takeMissHere.send (.load { fmt := .lease, d := d.toNat, addr := addr.toNat, rc := r.toNat, acq := false, sc := 0, hint := 0, attr := e.attr, ro := !e.w, c := t.lclkOf s.cur })).onHere
          fun c => c.awaitMaybe (LoadFmt.lease.target d.toNat)).retire) := by
  have locate : s.locate s.cur .load addr 1 = (.memory e, s.withPlb s.execCore plb) := by
    unfold State.locate
    dsimp only
    rw [show placeOf (s.homeOf s.cur) addr = .memory from place]
    dsimp only
    rw [show s.plbLookup (coreOf s.cur) (s.ctx s.cur).accessDomain addr.toNat = _ from look]
    dsimp only
    rw [read, show AccessKind.load.writes = false from rfl]
    simp [Nat.mod_one]
  show execLease d a r x s = _
  unfold execLease
  dsimp only
  rw [if_neg (by rcases permitted with h | h <;> simp [h]), show s.address a x 64 = addr from at_, State.withTarget, locate]
  rfl

omit idle free alone in
theorem State.lease_uncached (read : e.r = true) (permitted : s.detHere = false ∨ d = 0) (r : BitVec 2) (attr : e.attr = 2 ∨ e.attr = 3) :
    Completes (.lease d a r x) s fun t =>
      (∀ q : Reg, t.rdG q = if q = d ∧ q ≠ 0 then 0 else s.rdG q) ∧ t.here.pc = s.here.pc + 4 ∧ t.mem = s.mem ∧ t.net = s.net ∧ OthersAsBefore s t := by
  refine ⟨_, (State.lease_run at_ place look read permitted r).trans (congrArg Host.Outcome.next (if_pos attr)), ?_⟩
  obtain ⟨⟨only, others⟩, pc, -, value, -⟩ := (s.withPlb s.execCore plb).finishG_writes d 0
  exact ⟨value, pc, (congrArg State.mem only :), (congrArg State.net only :), others⟩

theorem State.lease_cached (read : e.r = true) (permitted : s.detHere = false ∨ d = 0) (r : BitVec 2) (attr : e.attr = 0 ∨ e.attr = 1) :
    Completes (.lease d a r x) s fun t =>
      Sends s (.load { fmt := .lease, d := d.toNat, addr := addr.toNat, rc := r.toNat, acq := false, sc := 0, hint := 0, attr := e.attr, ro := !e.w, c := s.clock }) t ∧
      RetiresAs s (s.awaiting (if d = 0 then none else some (.g d.toNat))) t := by
  have cached : ¬(e.attr = attrUncached ∨ e.attr = attrPlshared) := by rcases attr with h | h <;> rw [h] <;> decide
  have room : (s.withPlb s.execCore plb).missRoom = true := State.missRoom_of_unclaimed alone rfl rfl free
  have fresh : (s.withPlb s.execCore plb).acquiring s.cur (s.scopeOf s.cur addr.toNat e.attr) = false := idle.acquiring _
  obtain ⟨y, drift⟩ := s.drift_prepared plb
  have run := State.lease_run (d := d) at_ place look read permitted r
  rw [if_neg cached, fresh, room, drift] at run
  dsimp only at run
  rw [State.takeMissHere_of_unclaimed (by exact alone), State.lclkOf_prepared (c := s.timed y) plb rfl rfl] at run
  refine ⟨_, run, ?_⟩
  obtain ⟨sends, retires⟩ := State.prepared_send_await_retire (c := s.timed y) ⟨rfl, rfl, rfl, rfl⟩ rfl rfl rfl plb
    (.load { fmt := .lease, d := d.toNat, addr := addr.toNat, rc := r.toNat, acq := false, sc := 0, hint := 0, attr := e.attr, ro := !e.w, c := s.clock })
    (if d = 0 then none else some (.g d.toNat))
  rw [show LoadFmt.lease.target d.toNat = _ from target_eq d]
  exact ⟨sends, retires.of_clocks (s.timed_awaitMaybe y _)⟩

/-! ### PREF (R168) -/

theorem State.pref_completes (home : s.homeSlice s.here.partNo addr.toNat = some sl) (read : e.r = true) (loose : s.detHere = false)
    (miss : (s.core s.execCore).copy? s.here.partNo addr.toNat = none) (r : BitVec 2) (h : BitVec 1) :
    Completes (.pref a r h x) s fun t =>
      Sends s (.load { fmt := .pref, d := 0, addr := addr.toNat, rc := r.toNat, acq := false, sc := 0, hint := h.toNat, attr := e.attr, ro := !e.w, c := s.clock }) t ∧
      RetiresAs s { s.here with cr := { s.here.cr with lclk := s.clock } } t := by
  obtain ⟨y, drift⟩ := s.drift_prepared plb
  have room : (s.prepared plb (s.timed y)).missRoom = true := State.missRoom_of_unclaimed alone rfl rfl free
  have loose' : (s.prepared plb (s.timed y)).detHere = false := by
    rw [State.detHere, s.here_prepared plb]
    exact loose
  have home' : (s.prepared plb (s.timed y)).homeSlice s.here.partNo addr.toNat = some sl := home
  have fresh : (s.prepared plb (s.timed y)).acquiring s.cur ((s.prepared plb (s.timed y)).scopeOf s.cur addr.toNat e.attr) = false := idle.acquiring_timed plb y _
  have miss' : ((s.prepared plb (s.timed y)).core s.execCore).copy? s.here.partNo addr.toNat = none := by
    rw [show (s.prepared plb (s.timed y)).core s.execCore = { s.core s.execCore with plb := plb } from State.core_setCore_self ..]
    exact miss
  have run : exec (.pref a r h x) s = .next ((s.prepared plb (s.timed y)).send (.load
      { fmt := .pref, d := 0, addr := addr.toNat, rc := r.toNat, acq := false, sc := 0, hint := h.toNat, attr := e.attr, ro := !e.w, c := s.clock })).retire := by
    show execPref a r h x s = _
    unfold execPref
    rw [show s.address a x 64 = addr from at_]
    dsimp only
    rw [place]
    dsimp only
    rw [look]
    dsimp only
    rw [show (s.withPlb s.execCore plb).cur = s.cur from rfl, drift, State.cur_prepared, State.execCore_prepared, State.lclkOf_prepared (c := s.timed y) plb rfl rfl, miss']
    rw [read, loose', room, home', fresh]
    rfl
  refine ⟨_, run, ?_⟩
  obtain ⟨sends, retires⟩ := State.prepared_send_retire (c := s.timed y) ⟨rfl, rfl, rfl, rfl⟩ rfl rfl rfl plb
    (.load { fmt := .pref, d := 0, addr := addr.toNat, rc := r.toNat, acq := false, sc := 0, hint := h.toNat, attr := e.attr, ro := !e.w, c := s.clock })
  exact ⟨sends, retires.of_clocks rfl⟩

end

/-- Settles O15: FENCE, PPURGE, LEASE and PREF of a memory address complete as R165 to R168 give. -/
theorem fencePurgeLeasePrefetch : Obligations.FencePurgeLeasePrefetch := by
  unfold Obligations.FencePurgeLeasePrefetch
  intro s s1 sc d a r h x e sl addr p
  refine ⟨fun idle => State.fence_completes idle sc, fun idle place look free alone home => ?_⟩
  obtain ⟨plb, rfl⟩ := State.plbLookup_state look
  refine ⟨fun right => State.ppurge_completes rfl idle place look free alone home right r, fun read permitted => ⟨fun attr => ?_, fun attr => ?_⟩, fun read loose miss => ?_⟩
  · exact State.lease_uncached rfl place look read permitted r attr
  · exact State.lease_cached rfl idle place look free alone read permitted r attr
  · exact State.pref_completes rfl idle place look free alone home read loose miss r h

end Sys2Proof.Machine

/-!
PROOFS. Atomics at issue (R102, R120, R173 to R175): what is sent to the home, or to the port of an LM.
-/
namespace Sys2Proof.Machine

/-- The eleven atomics with the number of their operation (R173). -/
def atomicForms : List ((Reg → Reg → Reg → BitVec 2 → BitVec 2 → BitVec 1 → Instr) × Nat) :=
  [(Instr.aadd, 0), (Instr.aand, 1), (Instr.aor, 2), (Instr.axor, 3), (Instr.amin, 4), (Instr.amax, 5), (Instr.aminu, 6), (Instr.amaxu, 7), (Instr.aswap, 8),
    (Instr.acas, 9), (Instr.afadd, 10)]

section
variable {s : State} {d a b : Reg} {o sc : BitVec 2} {z : BitVec 1} {k : Nat} {op : Reg → Reg → Reg → BitVec 2 → BitVec 2 → BitVec 1 → Instr}

theorem exec_atomic (form : (op, k) ∈ atomicForms) : exec (op d a b o sc z) s = .next (s.atomic (op d a b o sc z) k d a b o sc z) := by
  simp only [atomicForms, List.mem_cons, Prod.mk.injEq, List.not_mem_nil, or_false] at form
  rcases form with ⟨rfl, rfl⟩ | ⟨rfl, rfl⟩ | ⟨rfl, rfl⟩ | ⟨rfl, rfl⟩ | ⟨rfl, rfl⟩ | ⟨rfl, rfl⟩ | ⟨rfl, rfl⟩ | ⟨rfl, rfl⟩ | ⟨rfl, rfl⟩ | ⟨rfl, rfl⟩ | ⟨rfl, rfl⟩ <;> rfl

/-- Nothing forbids the atomic where the partition is not deterministic, and there those whose old value goes nowhere (R120). -/
theorem State.atomic_permitted (permitted : s.detHere = false ∨ k ≠ 10 ∧ (8 ≤ k ∨ d = 0)) : (s.detHere && amoForbidden k d) = false := by
  rcases permitted with loose | ⟨notFloat, large | zero⟩
  · rw [loose, Bool.false_and]
  · have past : ¬k ≤ 7 := by omega
    simp [amoForbidden, notFloat, past]
  · simp [amoForbidden, notFloat, zero]

end

/-- The request of an atomic, with its operands as they stand (R173). -/
def State.atomReq (s : State) (k : Nat) (d b : Reg) (o sc : BitVec 2) (z : BitVec 1) (at_ attr : Nat) (l : Stamp) : AtomReq :=
  { op := .amo k, addr := at_, size := if z = 0 then 4 else 8, b := s.rdG b, cmp := s.rdG d, d := d.toNat, acq := o == 1 || o == 3, rel := o == 2 || o == 3
    sc := sc.toNat, attr := attr, l := l }

theorem State.atomic_eq {s : State} {k : Nat} {d : Reg} (permitted : s.detHere = false ∨ k ≠ 10 ∧ (8 ≤ k ∨ d = 0)) (i : Instr) (a b : Reg) (o sc : BitVec 2) (z : BitVec 1) :
    s.atomic i k d a b o sc z = s.withTarget .atomic (s.rdG a) (if z = 0 then 4 else 8)
      (fun t core off => t.sendLmAtomic (s.atomReq k d b o sc z (lmAddr core off) 0 0) core)
      fun t e => t.sendAtomic (s.atomReq k d b o sc z (s.rdG a).toNat e.attr 0) fun c => c := by
  unfold State.atomic
  rw [State.atomic_permitted permitted, order_rel, order_push]
  rfl

/-- An atomic to memory sends its request, and its register waits (R102, R174). -/
theorem State.sendAtomic_sends {s : State} {q : AtomReq} {d : Reg} (dest : q.d = d.toNat) (free : s.acquiring s.cur (s.scopeOf s.cur q.addr q.attr) = false)
    (room : s.storeBuffer s.execCore < 16) (plb : List (Nat × RightsEntry)) : let t := (s.withPlb s.execCore plb).sendAtomic q fun c => c
    Sends s (.atomic { q with l := s.clock }) t ∧ RetiresAs s ((s.awaiting (if d = 0 then none else some (.g d.toNat))).clearSpin (sectorOf q.addr)) t := by
  obtain ⟨y, drift⟩ := s.drift_prepared plb
  have open_ : ¬((s.withPlb s.execCore plb).acquiring s.cur ((s.withPlb s.execCore plb).scopeOf s.cur q.addr q.attr) ||
      decide (16 ≤ (s.withPlb s.execCore plb).storeBuffer s.execCore)) = true := by
    rw [show (s.withPlb s.execCore plb).acquiring s.cur ((s.withPlb s.execCore plb).scopeOf s.cur q.addr q.attr) = false from free,
      show (s.withPlb s.execCore plb).storeBuffer s.execCore = s.storeBuffer s.execCore from rfl]
    simpa using room
  have sent : ((s.withPlb s.execCore plb).sendAtomic q fun c => c) =
      (((s.prepared plb ((s.timed y).clearSpin (sectorOf q.addr))).send (.atomic { q with l := s.clock })).onHere
        fun c => c.awaitMaybe (if d = 0 then none else some (.g d.toNat))).retire := by
    refine (if_neg open_).trans ?_
    rw [show (s.withPlb s.execCore plb).cur = s.cur from rfl, drift, State.onHere_prepared, State.lclkOf_prepared (c := (s.timed y).clearSpin (sectorOf q.addr)) plb rfl rfl, dest, target_eq d]
  have spun : { ((s.timed y).clearSpin (sectorOf q.addr)).awaitMaybe (if d = 0 then none else some (.g d.toNat)) with clocks := [] } =
      { (s.awaiting (if d = 0 then none else some (.g d.toNat))).clearSpin (sectorOf q.addr) with clocks := [] } := by
    split <;> rfl
  obtain ⟨sends, retires⟩ := State.prepared_send_await_retire (c := (s.timed y).clearSpin (sectorOf q.addr)) ⟨rfl, rfl, rfl, rfl⟩ rfl rfl rfl plb
    (.atomic { q with l := s.clock }) (if d = 0 then none else some (.g d.toNat))
  dsimp only
  rw [sent]
  exact ⟨sends, retires.of_clocks spun⟩

/-- An atomic to an LM goes to its port as it stands (R175). -/
theorem State.sendLmAtomic_sends {s : State} {q : AtomReq} {d : Reg} {core : Nat} (dest : q.d = d.toNat) (free : s.acquiring s.cur (s.scopeOf s.cur q.addr 0) = false)
    (clear : s.lmHeld s.cur core q.addr q.size true = false) (room : s.storeBuffer s.execCore < 16) :
    Sends s (.atomic q) (s.sendLmAtomic q core) ∧ RetiresAs s (s.here.awaitMaybe (if d = 0 then none else some (.g d.toNat))) (s.sendLmAtomic q core) := by
  have open_ : ¬(s.acquiring s.cur (s.scopeOf s.cur q.addr 0) || s.lmHeld s.cur core q.addr q.size true || decide (16 ≤ s.storeBuffer s.execCore)) = true := by
    rw [free, clear]
    simpa using room
  have sent : s.sendLmAtomic q core = ((s.send (.atomic q)).onHere fun c => c.awaitMaybe (if d = 0 then none else some (.g d.toNat))).retire := by
    refine (if_neg open_).trans ?_
    rw [dest, target_eq d]
  rw [sent]
  exact s.send_await_retire _ _

/-- Settles O16: an atomic sends its request to its home, or to the port of its LM. -/
theorem atomicsAreSent : Obligations.AtomicsAreSent := by
  unfold Obligations.AtomicsAreSent
  intro s s1 d a b o sc z e core off op k form permitted addr size q r room
  have run := (exec_atomic (s := s) (d := d) (a := a) (b := b) (o := o) (sc := sc) (z := z) form).trans
    (congrArg Host.Outcome.next (State.atomic_eq permitted (op d a b o sc z) a b o sc z))
  refine ⟨fun place free => ?_, fun place free clear => ?_⟩
  · obtain ⟨plb, rfl⟩ := State.locate_memory_state place
    rw [State.withTarget, place] at run
    exact ⟨_, run, State.sendAtomic_sends (q := s.atomReq k d b o sc z addr.toNat e.attr 0) rfl free room plb⟩
  · rw [State.withTarget, place] at run
    exact ⟨_, run, State.sendLmAtomic_sends (q := s.atomReq k d b o sc z (lmAddr core off) 0 0) rfl free clear room⟩

end Sys2Proof.Machine

/-!
PROOFS. An atomic at an LM port (R110, R114): an access of no bytes at an address past the scratch is refused.
-/
namespace Sys2Proof.Machine

/-- An atomic of no bytes at the end of the scratch of core 0's LM, sent by a context of core 1. -/
def emptyAtomic : AtomReq :=
  { op := .amo 8, addr := lmAddr 0 0x6000, size := 0, b := 0, cmp := 0, d := 0, acq := false, rel := false, sc := 0, attr := 0, l := 0 }

/-- The flight that carries `emptyAtomic`. -/
def emptyAtomicFlight : Flight := { kind := .atomic emptyAtomic, ctx := 8, uid := 0, part := 0, domain := 0, launch := none, home := 1 }

/-- The machine after reset with `emptyAtomicFlight` on its way. -/
def emptyAtomicSent : State := { State.reset with net := { flights := [emptyAtomicFlight] } }

/-- The port refuses it, as its address lies past the scratch and the core that sends it is another (R110). -/
theorem emptyAtomic_refused : exec (.lmAtomic 0) emptyAtomicSent = .next (emptyAtomicSent.answer 0 emptyAtomicFlight (.lmAck (lmAddr 0 0x6000) true)) := by
  rfl

/-- Refutes O33: LM_ATOMIC of an access of no bytes at offset 0x6000, the end of the scratch, is answered with an error and not with a result. -/
theorem not_atomicsPerformAtTheirHome : ¬Obligations.AtomicsPerformAtTheirHome := by
  unfold Obligations.AtomicsPerformAtTheirHome
  rintro ⟨-, -, -, -, -, -, atPort, -⟩
  obtain ⟨t, next, answered, -⟩ := atPort emptyAtomicSent 0 emptyAtomicFlight emptyAtomic 0 0x6000 ⟨rfl, rfl⟩ rfl (by decide) (by decide) (by decide)
    (by decide) (by decide) (by decide) (by decide) (by decide)
  rw [emptyAtomic_refused] at next
  obtain rfl := Host.Outcome.next.inj next
  have results := congrArg (List.map Flight.kind) answered
  exact absurd results (by decide)

end Sys2Proof.Machine

/-!
PROOFS. Stores at their homes (R100, R131, R158, R161, R359): one that must wait, one that has performed before, one whose page is absent, and acknowledgements.
-/
namespace Sys2Proof.Machine

/-! ### On the way to the home (R100, R101, R161) -/

/-- Nothing before it keeps a store from its home. -/
structure State.StoreGoes (s : State) (n : Nat) (f : Flight) (q : StoreReq) : Prop where
  parked : q.parked = false
  refused : q.refused = false
  held : q.held = 0
  order : s.inOrder n = true
  first : s.parkedBefore f.part q.addr = false
  behind : isAgent f.ctx = false → s.writeBehind f.ctx f.uid f.seq q.addr = false
  released : q.rel = true → s.releaseHeld f q.sc = false

section
variable {s s1 : State} {n : Nat} {f : Flight} {q : StoreReq} {sl : Nat} {host : Option Nat} {w : Stamp} (carried : s.Carries n f (.store q))

include carried in
theorem State.Carries.inside : n < s.net.flights.length := by
  obtain ⟨flight, -⟩ := carried
  exact (List.getElem?_eq_some_iff.1 flight).1

include carried in
theorem exec_homeStore (goes : s.StoreGoes n f q) : exec (.homeStore n) s = .next (s.storeArrives n f q) := by
  obtain ⟨flight, kind⟩ := carried
  obtain ⟨parked, refused, held, order, first, behind, released⟩ := goes
  have passes : (!(isAgent f.ctx) && s.writeBehind f.ctx f.uid f.seq q.addr) = false := by
    cases agent : isAgent f.ctx
    · rw [behind agent]; rfl
    · rfl
  have unheld : (q.rel && s.releaseHeld f q.sc) = false := by
    cases rel : q.rel
    · rfl
    · rw [released rel]; rfl
  refine congrArg Host.Outcome.next ?_
  rw [flight]
  dsimp only
  rw [kind]
  dsimp only
  rw [if_neg (by rw [held]; decide), if_neg]
  rw [parked, refused, held, order, first, passes, unheld]
  decide

include carried in
theorem exec_homeStore_held (held : q.held = 4) (free : s.parkedBehind n f.part q.addr = false) :
    exec (.homeStore n) s = .next (s.storeArrives n f { q with held := 0 }) := by
  obtain ⟨flight, kind⟩ := carried
  refine congrArg Host.Outcome.next ?_
  rw [flight]
  dsimp only
  rw [kind]
  dsimp only
  rw [if_pos held, if_neg (Bool.eq_false_iff.1 free)]

include carried in
theorem exec_horizonWaitEnd_store (held : q.held = 1) : exec (.horizonWaitEnd n) s = .next (s.storeArrives n f { q with held := 0 }) := by
  obtain ⟨flight, kind⟩ := carried
  refine congrArg Host.Outcome.next ?_
  rw [flight]
  dsimp only
  rw [kind]
  exact if_pos held

include carried in
theorem exec_plsharedWriteRelease_store (held : q.held = 2) : exec (.plsharedWriteRelease n) s = .next (s.storeArrives n f { q with held := 0 }) := by
  obtain ⟨flight, kind⟩ := carried
  refine congrArg Host.Outcome.next ?_
  rw [flight]
  dsimp only
  rw [kind]
  exact if_pos held

/-- A store that waited at its home is ready as it was (R131). -/
theorem StoreReady.unheld (ready : StoreReady s s1 f q sl host w) : StoreReady s s1 f { q with held := 0 } sl host w := by
  obtain ⟨home, det, fresh, first, stamp, leased, horizon, pub⟩ := ready
  exact ⟨home, det, fresh, first, stamp, leased, horizon, pub⟩

/-! ### At a home whose page is mapped (R126, R131, R134, R359) -/

theorem State.storeArrives_ready (home : s.atHome f.part q.addr true (some f.sentAt) = (.ready sl host, s1)) (fresh : s1.keptAnswer sl (coreOf f.ctx) f = none)
    (first : s1.refusedBefore f q.addr = false) : s.storeArrives n f q = s1.storeReady n f q sl host := by
  unfold State.storeArrives
  rw [home]
  dsimp only
  rw [fresh]
  exact if_neg (Bool.eq_false_iff.1 first)

theorem State.storeArrives_kept {k : FKind} (home : s.atHome f.part q.addr true (some f.sentAt) = (.ready sl host, s1)) (kept : s1.keptAnswer sl (coreOf f.ctx) f = some k) :
    s.storeArrives n f q = s1.answer n f k := by
  unfold State.storeArrives
  rw [home]
  dsimp only
  rw [kept]

/-- No check of R119 concerns an access in a partition that is not deterministic. -/
theorem State.detWho_free (det : s.isDet f.part = false) : s.detWho f = none := by
  unfold State.detWho
  rw [det]
  rfl

theorem State.storeReady_ok {t : State} (det : s.isDet f.part = false) (at_ : s.storeAt n f q sl host (s.sector sl f.part q.addr) = .ok t) :
    s.storeReady n f q sl host = t := by
  unfold State.storeReady
  rw [State.detWho_free det]
  dsimp only
  rw [at_]

theorem State.storeReady_waits {why : Nat} (det : s.isDet f.part = false) (at_ : s.storeAt n f q sl host (s.sector sl f.part q.addr) = .error why) :
    s.storeReady n f q sl host = s.putFlight n { f with kind := .store { q with held := why } } := by
  unfold State.storeReady
  rw [State.detWho_free det]
  dsimp only
  rw [at_]

theorem State.storeAt_leased {x : SecRec} (leased : s.leased sl host f.part q.attr x = true) : s.storeAt n f q sl host x = .error 2 := if_pos leased

section
variable {x : SecRec} (unleased : s.leased sl host f.part q.attr x = false) (stamp : w = writeStamp (s.writeClock f q.rel q.l) x)
include unleased stamp

theorem State.storeAt_early (early : later w (s.horizon f.part (homeDie sl host)) = true) : s.storeAt n f q sl host x = .error 1 := by
  unfold State.storeAt
  dsimp only
  rw [if_neg (Bool.eq_false_iff.1 unleased), ← stamp, if_pos early]

theorem State.storeAt_unpublished (inside : later w (s.horizon f.part (homeDie sl host)) = false) (pub : s.mayGrant sl w = false) :
    s.storeAt n f q sl host x = .ok (s.wantStamp sl w) := by
  unfold State.storeAt
  dsimp only
  rw [if_neg (Bool.eq_false_iff.1 unleased), ← stamp, if_neg (Bool.eq_false_iff.1 inside), if_pos (by rw [pub]; rfl)]

end

/-- A store that waits at its home bears no incarnation of an agent that sends it. -/
theorem State.stamped_waiting (waits : (q.parked || q.refused || q.held != 0) = true) : s.stamped { f with kind := .store q } = { f with kind := .store q } := by
  have still : s.laneOf { f with kind := .store q } = none := if_pos waits
  rw [State.stamped, still]
  rfl

/-- On arrival at a home the clocks that decide about a write are as before (R100, R131, R134). -/
theorem State.atHome_clocks (arrived : s.atHome f.part q.addr true (some f.sentAt) = (.ready sl host, s1)) :
    s1.horizon f.part (homeDie sl host) = s.horizon f.part (homeDie sl host) ∧ s1.writeClock f q.rel q.l = s.writeClock f q.rel q.l ∧
      ∀ v, s1.mayGrant sl v = s.mayGrant sl v := by
  obtain ⟨m, po, tr, fa, li, e, -⟩ := State.atHome_frame arrived
  exact ⟨by rw [e]; rfl, by rw [e]; rfl, State.mayGrant_of_pub (by rw [e]) sl⟩

/-- A store that must wait at its home stands there, and memory is as it was on its arrival (R126, R131). -/
theorem State.putFlight_waits {t : State} (arrived : s.atHome f.part q.addr true (some f.sentAt) = (.ready sl host, s1)) {q' : StoreReq} (waits : q'.held ≠ 0)
    (put : t = s1.putFlight n { f with kind := .store q' }) :
    t.mem = s1.mem ∧ t.ctxs = s.ctxs ∧ t.net.flights = s.net.flights.set n (t.stamped { f with kind := .store q' }) := by
  obtain ⟨m, po, tr, fa, li, e, -⟩ := State.atHome_frame arrived
  have held : (q'.parked || q'.refused || q'.held != 0) = true := by simp [waits]
  have flights : s1.net.flights = s.net.flights := by rw [e]
  have ctxs : s1.ctxs = s.ctxs := by rw [e]
  refine ⟨by rw [put]; rfl, by rw [put]; exact ctxs, ?_⟩
  rw [State.stamped_waiting held, put, State.putFlight, State.stamped_waiting held, ← flights]
  rfl

section
variable (carried : s.Carries n f (.store q)) (goes : s.StoreGoes n f q) (arrived : s.atHome f.part q.addr true (some f.sentAt) = (.ready sl host, s1))
  (det : s.isDet f.part = false) (fresh : s1.keptAnswer sl (coreOf f.ctx) f = none) (first : s1.refusedBefore f q.addr = false)
include carried goes arrived det fresh first

theorem exec_homeStore_ready : exec (.homeStore n) s = .next (s1.storeReady n f q sl host) ∧ s1.isDet f.part = false := by
  obtain ⟨m, po, tr, fa, li, e, -⟩ := State.atHome_frame arrived
  refine ⟨(exec_homeStore carried goes).trans (congrArg Host.Outcome.next (State.storeArrives_ready arrived fresh first)), ?_⟩
  rw [e]
  exact det

theorem completes_homeStore_leased (leased : s1.leased sl host f.part q.attr (s1.sector sl f.part q.addr) = true) : Completes (.homeStore n) s fun t =>
    t.mem = s1.mem ∧ t.ctxs = s.ctxs ∧ t.net.flights = s.net.flights.set n (t.stamped { f with kind := .store { q with held := 2 } }) := by
  obtain ⟨run, det1⟩ := exec_homeStore_ready carried goes arrived det fresh first
  exact ⟨_, run, State.putFlight_waits arrived (Nat.succ_ne_zero _) (State.storeReady_waits det1 (State.storeAt_leased leased))⟩

variable (unleased : s1.leased sl host f.part q.attr (s1.sector sl f.part q.addr) = false)
  (stamp : w = maxStamp (if q.rel then maxStamp q.l (if s.alive f then s.lclkOf f.ctx else q.l) + 1 else q.l) ((s1.sector sl f.part q.addr).rts + 1))
include unleased stamp

theorem completes_homeStore_early (early : later w (s.horizon f.part (homeDie sl host)) = true) : Completes (.homeStore n) s fun t =>
    t.mem = s1.mem ∧ t.ctxs = s.ctxs ∧ t.net.flights = s.net.flights.set n (t.stamped { f with kind := .store { q with held := 1 } }) := by
  obtain ⟨run, det1⟩ := exec_homeStore_ready carried goes arrived det fresh first
  obtain ⟨limit, clock, -⟩ := State.atHome_clocks arrived
  have stamp1 : w = writeStamp (s1.writeClock f q.rel q.l) (s1.sector sl f.part q.addr) := clock ▸ stamp
  exact ⟨_, run, State.putFlight_waits arrived (Nat.succ_ne_zero _) (State.storeReady_waits det1 (State.storeAt_early unleased stamp1 (by rw [limit]; exact early)))⟩

theorem exec_homeStore_unpublished (inside : later w (s.horizon f.part (homeDie sl host)) = false) (pub : s.mayGrant sl w = false) :
    exec (.homeStore n) s = .next (s1.wantStamp sl w) := by
  obtain ⟨run, det1⟩ := exec_homeStore_ready carried goes arrived det fresh first
  obtain ⟨limit, clock, pubs⟩ := State.atHome_clocks arrived
  have stamp1 : w = writeStamp (s1.writeClock f q.rel q.l) (s1.sector sl f.part q.addr) := clock ▸ stamp
  rw [run, State.storeReady_ok det1 (State.storeAt_unpublished unleased stamp1 (by rw [limit]; exact inside) ((pubs w).trans pub))]

end

/-! ### At a home whose page is absent (R161, R200, R350) -/

/-- A fault is recorded, whether or not it was before (R350). -/
theorem State.reportFault_records (s : State) (sl p page : Nat) :
    ∃ fa, s.reportFault sl p page = { s with net := { s.net with faults := fa } } ∧ ({ slice := sl, part := p, page := page } : FaultRec) ∈ fa := by
  unfold State.reportFault
  dsimp only
  split
  · next recorded => exact ⟨s.net.faults, rfl, List.contains_iff_mem.1 recorded⟩
  · exact ⟨_, rfl, List.mem_append_right _ (List.mem_singleton_self _)⟩

/-- An offer of a resource with a free unit, where nobody waits for a turn, is taken and leaves no trace (R200). -/
theorem State.offer_free {s : State} (none : s.net.turns = []) (r : Res) (src : Nat) {units : Nat} (some : 0 < units) : s.offer r src units = (true, s) := by
  have settled : s.settled r = { res := r } := by
    rw [State.settled, show s.turnsOf r = { res := r } by rw [State.turnsOf, none]; rfl]
    rfl
  unfold State.offer
  rw [settled]
  dsimp only
  rw [if_pos (by simp [some]), State.setTurns_empty none rfl]

section
variable (arrived : s.atHome f.part q.addr true (some f.sentAt) = (.absent sl, s1))
include arrived

/-- An access that meets an absent page leaves a fault record, and nothing else has changed but what the home keeps of translations. -/
theorem State.atHome_absent : ∃ tr fa, s1 = { s with net := { s.net with trans := tr, faults := fa } } ∧ ∃ r ∈ fa, r.part = f.part ∧ r.page = pageOf q.addr := by
  unfold State.atHome at arrived
  split at arrived
  · cases arrived
  · rename_i home _
    split at arrived
    · cases arrived
    · obtain ⟨tr, translated⟩ := s.translateAt_frame home f.part q.addr
      generalize s.translateAt home f.part q.addr = x at arrived translated
      obtain ⟨fate, u⟩ := x
      dsimp only at translated
      subst translated
      cases fate with
      | missing => cases arrived
      | absent =>
        cases arrived
        obtain ⟨fa, e, recorded⟩ := State.reportFault_records { s with net := { s.net with trans := tr } } sl f.part (pageOf q.addr)
        exact ⟨tr, fa, e, _, recorded, rfl, rfl⟩
      | mapped b =>
        dsimp only at arrived
        split at arrived
        · cases arrived
        · split at arrived
          · cases arrived
          · split at arrived <;> cases arrived

variable (alone : s.net.turns = []) (first : s1.refusedBefore f q.addr = false) (thread : isXu f.ctx = false)
include alone first

include thread in
theorem State.storeArrives_parks (room : s1.parkedAt sl < Config.parkEntries) :
    s.storeArrives n f q = s1.putFlight n { f with kind := .store { q with parked := true, refused := false } } := by
  obtain ⟨tr, fa, e, -⟩ := State.atHome_absent arrived
  have alone1 : s1.net.turns = [] := by rw [e]; exact alone
  have units : 0 < Config.parkEntries - s1.parkedAt sl := Nat.sub_pos_of_lt room
  unfold State.storeArrives
  rw [arrived]
  dsimp only
  unfold State.parkStore
  rw [if_neg (Bool.eq_false_iff.1 first), State.offer_free alone1 _ _ units]
  dsimp only
  unfold State.copyParks State.copyOf?
  rw [thread]
  rfl

theorem State.storeArrives_refused (full : Config.parkEntries ≤ s1.parkedAt sl) :
    ∃ ts, s.storeArrives n f q = (s1.withTurns ts).putFlight n { f with kind := .store { q with refused := true }, offered := s.gtrOf (sliceDie sl) } := by
  obtain ⟨tr, fa, e, -⟩ := State.atHome_absent arrived
  obtain ⟨ts, offered⟩ := State.offer_none (s := s1) (by rw [e]; exact alone) (.park sl) f.ctx
  have time : s1.gtrOf (sliceDie sl) = s.gtrOf (sliceDie sl) := by rw [e]; rfl
  refine ⟨ts, ?_⟩
  unfold State.storeArrives
  rw [arrived]
  dsimp only
  unfold State.parkStore
  rw [if_neg (Bool.eq_false_iff.1 first), Nat.sub_eq_zero_of_le full, offered]
  dsimp only
  rw [time]

end

/-- A store to an absent page is parked or refused, and its fault recorded (R161, R350). -/
theorem completes_homeStore_absent (carried : s.Carries n f (.store q)) (goes : s.StoreGoes n f q)
    (arrived : s.atHome f.part q.addr true (some f.sentAt) = (.absent sl, s1)) (alone : s.net.turns = []) (first : s1.refusedBefore f q.addr = false) (thread : isXu f.ctx = false) :
    Completes (.homeStore n) s fun t => t.mem = s.mem ∧ t.ctxs = s.ctxs ∧ (∃ r ∈ t.net.faults, r.part = f.part ∧ r.page = pageOf q.addr) ∧
      (s1.parkedAt sl < Config.parkEntries → t.net.flights =
        s.net.flights.set n (t.stamped { f with kind := .store { q with parked := true, refused := false } })) ∧
      (Config.parkEntries ≤ s1.parkedAt sl → t.net.flights =
        s.net.flights.set n (t.stamped { f with kind := .store { q with refused := true }, offered := s.gtrOf (sliceDie sl) })) := by
  refine ⟨_, exec_homeStore carried goes, ?_⟩
  obtain ⟨tr, fa, e, recorded⟩ := State.atHome_absent arrived
  rcases Nat.lt_or_ge (s1.parkedAt sl) Config.parkEntries with room | full
  · rw [State.storeArrives_parks arrived alone first thread room]
    refine ⟨by rw [e]; rfl, by rw [e]; rfl, by rw [e]; exact recorded, fun _ => ?_, fun full => absurd room (Nat.not_lt.2 full)⟩
    rw [State.stamped_waiting (by simp), State.putFlight, State.stamped_waiting (by simp), e]
    rfl
  · obtain ⟨ts, refused⟩ := State.storeArrives_refused arrived alone first full
    rw [refused]
    refine ⟨by rw [e]; rfl, by rw [e]; rfl, by rw [e]; exact recorded, fun room => absurd room (Nat.not_lt.2 full), fun _ => ?_⟩
    rw [State.stamped_waiting (f := { f with offered := s.gtrOf (sliceDie sl) }) (by simp), State.putFlight,
      State.stamped_waiting (f := { f with offered := s.gtrOf (sliceDie sl) }) (by simp), e]
    rfl

end

/-! ### Acknowledgements (R20, R97, R158, R185) -/

theorem State.tickLog_onLaunch (s : State) (p slot p' : Nat) (g : Launch → Launch) : (s.onLaunch p slot g).tickLog p' = s.tickLog p' := by
  have kept (q : Part) : (q.onLaunch slot g).tick = q.tick := by unfold Part.onLaunch; split <;> rfl
  unfold State.tickLog State.onLaunch
  rw [State.get_parts_onPart]
  by_cases hp : p' = p
  · subst hp
    cases s.parts.get p' <;> simp [kept]
  · simp [hp]

/-- The completion clock of a launch has no part in LCLK (R127). -/
theorem State.lclkOf_raiseLaunch (s : State) (p : Nat) (slot : Option Nat) (w : Stamp) (id : Nat) : (s.raiseLaunch p slot w).lclkOf id = s.lclkOf id := by
  obtain ⟨ps, e⟩ := s.raiseLaunch_frame p slot w
  have tick (p' : Nat) : (s.raiseLaunch p slot w).tickLog p' = s.tickLog p' := by
    unfold State.raiseLaunch
    split
    · exact State.tickLog_onLaunch ..
    · rfl
  unfold State.lclkOf State.lfOf State.lf
  rw [tick, e]
  rfl

/-- Filling a resident line with the version that an acknowledgement brings changes that core alone (R158). -/
def State.ackFill (s : State) (f : Flight) (q : StoreReq) (v : SecCopy) : State :=
  if !q.nl && q.attr != attrUncached && ((s.core (coreOf f.ctx)).cacheLine? f.part q.addr).isSome then
    s.onCore (coreOf f.ctx) fun k => k.fillCopy f.part q.addr { v with rts := v.wts, expiry := if v.shared q.attr then some 0 else none } false
  else s

theorem State.ackFill_frame (s : State) (f : Flight) (q : StoreReq) (v : SecCopy) : ∃ cs, s.ackFill f q v = { s with cores := cs } := by
  unfold State.ackFill
  split
  exacts [⟨_, rfl⟩, ⟨s.cores, rfl⟩]

section
variable {s : State} {n : Nat} {f : Flight}

theorem exec_storeAck {q : StoreReq} {v : SecCopy} (carried : s.Carries n f (.storeAck q v)) (order : s.inOrder n = true) (alive : s.alive f = true) (thread : isXu f.ctx = false) :
    exec (.storeAck n) s =
      .next (((((s.dropFlight n).raiseLaunch f.part f.launch v.wts).ackFill f q v).raiseLclk f.ctx v.wts).bumpLoads f.ctx f.uid 0 q.addr q.size v.wts) := by
  obtain ⟨flight, kind⟩ := carried
  have living : (((s.dropFlight n).raiseLaunch f.part f.launch v.wts).ackFill f q v).alive f = true := by
    obtain ⟨cs, filled⟩ := ((s.dropFlight n).raiseLaunch f.part f.launch v.wts).ackFill_frame f q v
    obtain ⟨ps, raised⟩ := (s.dropFlight n).raiseLaunch_frame f.part f.launch v.wts
    rw [filled, raised]
    exact alive
  refine congrArg Host.Outcome.next ?_
  rw [flight]
  dsimp only
  rw [kind]
  dsimp only
  rw [if_neg (by rw [order]; decide), thread]
  exact if_pos living

theorem completes_storeAck {q : StoreReq} {v : SecCopy} (carried : s.Carries n f (.storeAck q v)) (order : s.inOrder n = true) (alive : s.alive f = true)
    (thread : isXu f.ctx = false) : Completes (.storeAck n) s fun t =>
      { t.ctx f.ctx with clocks := [] } = { s.ctx f.ctx with clocks := [], cr := { (s.ctx f.ctx).cr with lclk := maxStamp (s.lclkOf f.ctx) v.wts } } ∧
      (∀ id, id ≠ f.ctx → t.ctx id = s.ctx id) ∧ t.mem = s.mem ∧ t.net.flights.length + 1 = s.net.flights.length ∧
      (∀ k l, f.launch = some k → s.launch? f.part k = some l → ∃ l' : Launch, t.launch? f.part k = some l' ∧ l'.clock = maxStamp l.clock v.wts) := by
  refine ⟨_, exec_storeAck carried order alive thread, ?_⟩
  have inside : n < s.net.flights.length := (List.getElem?_eq_some_iff.1 carried.1).1
  obtain ⟨cs, filled⟩ := ((s.dropFlight n).raiseLaunch f.part f.launch v.wts).ackFill_frame f q v
  obtain ⟨ps, raised⟩ := (s.dropFlight n).raiseLaunch_frame f.part f.launch v.wts
  have clock := (s.dropFlight n).lclkOf_raiseLaunch f.part f.launch v.wts f.ctx
  have launches (k : Nat) (l : Launch) (own : f.launch = some k) (launch : s.launch? f.part k = some l) :
      ((s.dropFlight n).raiseLaunch f.part f.launch v.wts).launch? f.part k = some (l.raiseClock v.wts) := by
    rw [own]
    exact State.launch?_raiseLaunch (s := s.dropFlight n) launch _
  generalize hu : ((s.dropFlight n).raiseLaunch f.part f.launch v.wts).ackFill f q v = u at filled
  have ctx (id : Nat) : u.ctx id = s.ctx id := by rw [filled, raised]; rfl
  have lclk : u.lclkOf f.ctx = s.lclkOf f.ctx := by rw [filled]; exact clock
  refine ⟨?_, fun id other => ?_, ?_, ?_, fun k l own launch => ⟨l.raiseClock v.wts, ?_, rfl⟩⟩
  · rw [← lclk, ← ctx]
    exact congrArg (fun c : Ctx => { c with clocks := [] }) (State.ctx_setCtx_self ..)
  · exact (u.ctx_setCtx_ne other _).trans (ctx id)
  · rw [show ((u.raiseLclk f.ctx v.wts).bumpLoads f.ctx f.uid 0 q.addr q.size v.wts).mem = u.mem from rfl, filled, raised]
    rfl
  · have fewer : (s.net.flights.eraseIdx n).length + 1 = s.net.flights.length := by rw [List.length_eraseIdx_of_lt inside]; omega
    have flights : u.net.flights = s.net.flights.eraseIdx n := by rw [filled, raised]; rfl
    rw [← fewer, ← flights]
    exact congrArg (· + 1) (List.length_map _)
  · rw [← launches k l own launch, show ((u.raiseLclk f.ctx v.wts).bumpLoads f.ctx f.uid 0 q.addr q.size v.wts).launch? f.part k = u.launch? f.part k from rfl, filled]
    rfl

/-- A failed access of a thread orders its launch to abort, with the record of the failure (R20, R160, R346). -/
theorem State.failFlight_aborts {slot : Nat} {l : Launch} (thread : isXu f.ctx = false) (own : f.launch = some slot) (launch : s.launch? f.part slot = some l)
    (pending : l.pendingAbort = none) (kind a : Nat) : let t := s.failFlight f kind a
    t.net.flights = s.net.flights ∧ ∃ (l' : Launch) (r : AbortRec), t.launch? f.part slot = some l' ∧ l'.st = .aborted ∧
      l'.pendingAbort = some r ∧ r.kind = kind ∧ r.pc = 0 ∧ r.addr = BitVec.ofNat 64 a := by
  have charged (r : AbortRec) : s.chargeIssuer f.launch f.part f.ctx f.uid r = s.orderAbort f.part slot r := by rw [own]; rfl
  unfold State.failFlight
  rw [thread]
  dsimp only
  rw [if_neg Bool.false_ne_true, charged]
  obtain ⟨l', launch', aborted, record⟩ := State.orderAbort_first launch pending
    { kind := kind, tid := if s.alive f then (s.ctx f.ctx).cr.tid else 0, addr := BitVec.ofNat 64 a }
  refine ⟨?_, l', _, launch', aborted, record, rfl, rfl, rfl⟩
  unfold State.orderAbort State.onLaunch
  obtain ⟨ps, e⟩ := s.onPart_frame f.part fun q => q.onLaunch slot fun l => l.orderAbort
    { kind := kind, tid := if s.alive f then (s.ctx f.ctx).cr.tid else 0, addr := BitVec.ofNat 64 a, slot := slot, gtr := s.gtrOf sDie }
  rw [e]

theorem completes_storeAck_imprecise {a slot : Nat} {l : Launch} (carried : s.Carries n f (.lmAck a true)) (order : s.inOrder n = true) (thread : isXu f.ctx = false)
    (own : f.launch = some slot) (launch : s.launch? f.part slot = some l) (pending : l.pendingAbort = none) : Completes (.storeAck n) s fun t =>
      t.net.flights = s.net.flights.eraseIdx n ∧ ∃ (l' : Launch) (r : AbortRec), t.launch? f.part slot = some l' ∧ l'.st = .aborted ∧
        l'.pendingAbort = some r ∧ r.kind = 16 ∧ r.addr = BitVec.ofNat 64 a := by
  obtain ⟨flight, kind⟩ := carried
  have run : exec (.storeAck n) s = .next ((s.dropFlight n).failFlight f 16 a) := by
    refine congrArg Host.Outcome.next ?_
    rw [flight]
    dsimp only
    rw [kind]
    dsimp only
    rw [if_neg (by rw [order]; decide)]
    rfl
  obtain ⟨flights, l', r, launch', aborted, record, kind', -, addr⟩ := State.failFlight_aborts (s := s.dropFlight n) thread own launch pending 16 a
  exact ⟨_, run, flights, l', r, launch', aborted, record, kind', addr⟩

end

/-- Settles O32: a store performs at its home or waits there as R100, R126, R131 and R134 give, and its acknowledgement raises LCLK. -/
theorem storesPerformAtTheirHome : Obligations.StoresPerformAtTheirHome := by
  unfold Obligations.StoresPerformAtTheirHome
  refine ⟨?_, ?_, ?_, ?_, ?_, ?_⟩
  · intro s s1 n f q sl host w carried ready
    have inside := State.Carries.inside carried
    refine ⟨fun ⟨parked, refused, held, order, first, behind, released⟩ => ?_, fun held free => ?_, fun held => ?_, fun held => ?_⟩
    · exact ⟨_, exec_homeStore carried ⟨parked, refused, held, order, first, behind, released⟩, (State.storeArrives_performs inside ready).1⟩
    · exact ⟨_, exec_homeStore_held carried held free, (State.storeArrives_performs inside ready.unheld).1⟩
    · exact ⟨_, exec_horizonWaitEnd_store carried held, (State.storeArrives_performs inside ready.unheld).1⟩
    · exact ⟨_, exec_plsharedWriteRelease_store carried held, (State.storeArrives_performs inside ready.unheld).1⟩
  · intro s s1 n f q sl host x w carried arrived det fresh before parked refused held order first behind released
    have goes : s.StoreGoes n f q := ⟨parked, refused, held, order, first, behind, released⟩
    refine ⟨fun leased => ?_, fun unleased early => ?_, fun unleased inside pub => ?_⟩
    · exact completes_homeStore_leased carried goes arrived det fresh before leased
    · exact completes_homeStore_early carried goes arrived det fresh before unleased rfl early
    · exact exec_homeStore_unpublished carried goes arrived det fresh before unleased rfl inside pub
  · intro s s1 n f q sl host k carried arrived kept parked refused held order first behind released
    rw [exec_homeStore carried ⟨parked, refused, held, order, first, behind, released⟩, State.storeArrives_kept arrived kept]
  · intro s s1 n f q sl carried arrived before alone thread parked refused held order first behind released
    exact completes_homeStore_absent carried ⟨parked, refused, held, order, first, behind, released⟩ arrived alone before thread
  · intro s n f q v carried order alive thread
    exact completes_storeAck carried order alive thread
  · intro s n f a slot l carried order thread own launch pending
    exact completes_storeAck_imprecise carried order thread own launch pending

end Sys2Proof.Machine

/-!
PROOFS. Loads on their way (R98, R124 to R126, R135, R138, R139, R155, R160, R348): what a home, a copy on the path and a reply do.
-/
namespace Sys2Proof.Machine

/-! ### At the home (R98, R124 to R126, R135) -/

/-- The leases that a read at a home grants (R124 to R126, R135). -/
theorem State.grant_cases (s : State) (die p attr : Nat) (ro : Bool) (c : Stamp) (x : SecRec) : let g := s.grant die p attr ro true c x
    g.sec.wts = x.wts ∧ (attr = attrUncached → g.sec.rts = maxStamp x.rts c ∧ g.give = false) ∧
    (attr = attrPlshared → g.sec.rts = maxStamp x.rts c ∧ g.give = (s.die die).locked ∧ g.expiry = if g.give then some (s.gtrOf die + 32000) else none) ∧
    (attr ≤ 1 → g.give = true ∧ g.expiry = none ∧ g.sec.rts =
      if ro then maxStamp (maxStamp x.rts (s.lf p die + 2 ^ 31)) c
      else if later c x.rts then minStamp (maxStamp c (s.lf p die) + BitVec.ofNat 40 (8 * 2 ^ x.level)) (s.lf p die + 2 ^ 32) else x.rts) := by
  unfold State.grant
  by_cases uncached : attr = attrUncached
  · subst uncached
    exact ⟨rfl, fun _ => ⟨rfl, rfl⟩, fun h => absurd h (by decide), fun h => absurd h (by decide)⟩
  by_cases shared : attr = attrPlshared
  · subst shared
    cases locked : (s.die die).locked
    · simp [attrPlshared, attrUncached, holdRead]
    · simp [attrPlshared, attrUncached, holdRead, microsecond]
  · have cached : (!true || attr == attrUncached) = false := by simp [uncached]
    rw [if_neg (Bool.eq_false_iff.1 cached), if_neg shared]
    cases ro
    · by_cases past : later c x.rts = true
      · simp [past, uncached, shared, newLease, show (2#40 ^ 32) = 4294967296#40 by decide]
      · simp [past, uncached, shared]
    · simp [uncached, shared, show (2#40 ^ 31) = 2147483648#40 by decide]

/-- A read performs where PUB allows its stamp (R98, R134). -/
theorem State.serveRead_ok {s : State} {sl : Nat} {host : Option Nat} {p a attr : Nat} {ro copyOut : Bool} {c : Stamp} {x : SecRec}
    (pub : s.mayGrant sl (s.grant (homeDie sl host) p (homeAttr host attr) (ro && !(s.writable p a)) copyOut c x).sec.rts = true) (old : SecRec) :
    ∃ v give t, s.serveRead sl host p a attr ro copyOut c old x = .ok ((v, give), t) := ⟨_, _, _, if_pos pub⟩

/-- What a home does with an access that passes the check of R119. -/
theorem match_passed {r : Except Who SecRec} {x : SecRec} (passed : r = .ok x) (race : Who → State) (performs : SecRec → State) :
    (match (generalizing := false) r with | .error w => race w | .ok x => performs x) = performs x := by
  subst passed
  rfl

section
variable {s s1 : State} {n : Nat} {f : Flight} {q : LoadReq} {c : Stamp} (carried : s.Carries n f (.load q)) (may : s.mayLoad n f q = true) (clock : s.clockOk f q c = true)
include carried may clock

/-- A load that passes routers without a copy for it goes as far as it is said to (R139). -/
theorem exec_homeLoad_passes {passed : Nat} (further : q.hop < passed) (inside : passed < (s.pathOf f q.rc q.addr).length)
    (clear : ∀ r ∈ ((s.pathOf f q.rc q.addr).take passed).drop q.hop, s.dewHit f q c r = none) :
    exec (.homeLoad n c passed) s = .next (s.putFlight n { f with kind := .load { q with hop := passed, c := c } }) := by
  obtain ⟨flight, kind⟩ := carried
  have none : (((s.pathOf f q.rc q.addr).take passed).drop q.hop).any (fun r => (s.dewHit f q c r).isSome) = false := by
    refine List.any_eq_false.2 fun r mem => ?_
    rw [clear r mem]
    exact Bool.false_ne_true
  refine congrArg Host.Outcome.next ?_
  rw [flight]
  dsimp only
  rw [kind]
  dsimp only
  rw [may, clock, none, Bool.and_false, if_neg (by decide), if_pos inside, if_neg (Nat.not_le.2 further)]

theorem completes_homeLoad {passed sl : Nat} {host : Option Nat} {g : Granted}
    (clear : s.takesDew f q = false ∨ ∀ r ∈ (s.pathOf f q.rc q.addr).drop q.hop, s.dewHit f q c r = none) (whole : (s.pathOf f q.rc q.addr).length ≤ passed)
    (det : s.isDet f.part = false) (arrived : s.atHome f.part q.addr false (some f.sentAt) = (.ready sl host, s1))
    (granted : s1.grant (homeDie sl host) f.part (homeAttr host q.attr) (q.ro && !(s1.writable f.part q.addr)) true c (s1.sector sl f.part q.addr) = g)
    (pub : s1.mayGrant sl g.sec.rts = true) : Completes (.homeLoad n c passed) s fun t => t.mem = s1.mem ∧ t.ctxs = s.ctxs ∧ t.cores = s.cores ∧
      Answered s n f (.loadReply { q with c := c } (.copy (s1.version f.part q.addr host g.sec g.expiry) true (s.pathOf f q.rc q.addr).length g.give)) t := by
  obtain ⟨flight, kind⟩ := carried
  have none : (s.takesDew f q && (((s.pathOf f q.rc q.addr).take passed).drop q.hop).any fun r => (s.dewHit f q c r).isSome) = false := by
    rw [List.take_of_length_le whole]
    rcases clear with never | clear
    · rw [never, Bool.false_and]
    · rw [Bool.and_eq_false_iff, List.any_eq_false]
      refine .inr fun r mem => ?_
      rw [clear r mem]
      exact Bool.false_ne_true
  obtain ⟨m, po, tr, fa, li, e, -⟩ := State.atHome_frame arrived
  have unchecked : s1.detWho f = Option.none := State.detWho_free (by rw [e]; exact det)
  obtain ⟨v, give, s2, read⟩ := State.serveRead_ok (granted.symm ▸ pub) (s1.sector sl f.part q.addr)
  obtain ⟨version, gives, -, re, ms, me, mp, li', e2⟩ := State.serveRead_eq read
  rw [granted] at version gives
  have run : exec (.homeLoad n c passed) s = .next (s2.answer n f (.loadReply { q with c := c } (.copy v true (s.pathOf f q.rc q.addr).length give))) := by
    refine congrArg Host.Outcome.next ?_
    rw [flight]
    dsimp only
    rw [kind]
    dsimp only
    rw [may, clock, none, if_neg (by decide), if_neg (Nat.not_lt.2 whole), arrived]
    dsimp only
    refine (match_passed (x := s1.sector sl f.part q.addr) ?_ _ _).trans ?_
    · rw [unchecked]
    split
    · next waits =>
      rw [read] at waits
      cases waits
    · next reads =>
      rw [read] at reads
      cases reads
      rfl
  rw [← version, ← gives]
  refine ⟨_, run, ?_, ?_, ?_, State.answer_answered ?_ n f _⟩
  · rw [e2]; rfl
  · rw [e2, e]; rfl
  · rw [e2, e]; rfl
  · rw [e2, e]

/-! ### A copy that answers (R98, R136, R139) -/

variable {x : SecCopy}

/-- A copy that the core got since the load was sent answers it (R98, R139). -/
theorem completes_dewAnswer_own
    (own : (if mayCache q.attr q.hint && q.fmt != .lease && s.alive f then (s.core (coreOf f.ctx)).copy? f.part q.addr else none) = some x)
    (hit : s.ownHit f.ctx c x = true) : Completes (.dewAnswer n c) s (Answered s n f (.loadReply { q with c := c } (.copy x false 0 false))) := by
  obtain ⟨flight, kind⟩ := carried
  obtain ⟨cached, copy⟩ := Option.ite_none_right_eq_some.1 own
  have run : exec (.dewAnswer n c) s =
      .next ((s.onCore (coreOf f.ctx) fun k => k.touch f.part q.addr).answer n f (.loadReply { q with c := c } (.copy x false 0 false))) := by
    refine congrArg Host.Outcome.next ?_
    rw [flight]
    dsimp only
    rw [kind]
    dsimp only
    rw [may, clock, if_neg (by decide), if_pos cached, copy]
    dsimp only
    rw [if_pos hit]
  exact ⟨_, run, State.answer_answered rfl n f _⟩

/-- The first copy on the rest of the path whose lease covers the clock answers (R139). -/
theorem completes_dewAnswer_path {i : Nat} {r : Nat × Nat}
    (own : (if mayCache q.attr q.hint && q.fmt != .lease && s.alive f then (s.core (coreOf f.ctx)).copy? f.part q.addr else none) = none)
    (takes : s.takesDew f q = true) (ahead : q.hop ≤ i) (router : (s.pathOf f q.rc q.addr)[i]? = some r) (hit : s.dewHit f q c r = some x)
    (first : ∀ j p, q.hop ≤ j → j < i → (s.pathOf f q.rc q.addr)[j]? = some p → s.dewHit f q c p = none) : Completes (.dewAnswer n c) s fun t =>
      Answered s n f (.loadReply { q with c := c } (.copy x false i true)) t ∧ later c x.rts = false ∧ t.mem = s.mem ∧ t.ctxs = s.ctxs := by
  obtain ⟨flight, kind⟩ := carried
  have found : ((s.pathOf f q.rc q.addr).drop q.hop).findIdx? (fun r => (s.dewHit f q c r).isSome) = some (i - q.hop) := by
    obtain ⟨inside, here⟩ := List.getElem?_eq_some_iff.1 router
    refine List.findIdx?_eq_some_iff_getElem.2 ⟨by rw [List.length_drop]; omega, ?_, fun j before => ?_⟩
    · rw [List.getElem_drop]
      simp only [Nat.add_sub_cancel' ahead, here, hit, Option.isSome_some]
    · rw [List.getElem_drop, first (q.hop + j) _ (Nat.le_add_right ..) (by omega) (List.getElem?_eq_getElem (by omega))]
      exact Bool.false_ne_true
  have covered : later c x.rts = false := by
    unfold State.dewHit at hit
    split at hit
    · split at hit
      · cases hit
      · next fresh =>
        cases hit
        exact Bool.eq_false_iff.2 fresh
    · cases hit
  have copyless (cached : (mayCache q.attr q.hint && q.fmt != .lease && s.alive f) = true) : (s.core (coreOf f.ctx)).copy? f.part q.addr = none := by
    rwa [if_pos cached] at own
  have run : exec (.dewAnswer n c) s =
      .next ((s.touchDew r.1 r.2 f.part q.addr).answer n f (.loadReply { q with c := c } (.copy x false i true))) := by
    refine congrArg Host.Outcome.next ?_
    rw [flight]
    dsimp only
    rw [kind]
    dsimp only
    rw [may, clock, if_neg (by decide), ite_eq_right_iff (p := (mayCache q.attr q.hint && q.fmt != .lease && s.alive f) = true) |>.2 ?_]
    · dsimp only
      rw [if_neg (by rw [takes]; decide), found]
      dsimp only
      rw [Nat.add_sub_cancel' ahead, List.getD_eq_getElem?_getD, router, Option.getD_some, hit]
    · intro cached
      rw [copyless cached]
  have used : ∃ dew, s.touchDew r.1 r.2 f.part q.addr = { s with net := { s.net with dew := dew } } := by
    unfold State.touchDew
    split
    exacts [⟨_, rfl⟩, ⟨s.net.dew, rfl⟩]
  obtain ⟨dew, e⟩ := used
  rw [e] at run
  exact ⟨_, run, State.answer_answered rfl n f _, covered, rfl, rfl⟩

end

/-! ### What a reply does to its context (R97, R129, R155, R156) -/

/-- Delivering a value changes the registers g, f and v alone. -/
theorem Ctx.deliver_eq (c : Ctx) (fmt : LoadFmt) (d raw : Nat) :
    c.deliver fmt d raw = { c with g := (c.deliver fmt d raw).g, f := (c.deliver fmt d raw).f, v := (c.deliver fmt d raw).v } := by
  have general (n : Nat) (v : Word) : c.wrG n v = { c with g := (c.wrG n v).g, f := (c.wrG n v).f, v := (c.wrG n v).v } := by
    unfold Ctx.wrG
    split <;> rfl
  cases fmt with
  | sx n => exact general ..
  | zx n => exact general ..
  | lease => exact general ..
  | f32 => rfl
  | f64 => rfl
  | v128 => rfl
  | pref => rfl

/-- What is delivered depends on the registers g, f and v alone. -/
theorem Ctx.deliver_regs {c c' : Ctx} (g : c.g = c'.g) (f : c.f = c'.f) (v : c.v = c'.v) (fmt : LoadFmt) (d raw : Nat) :
    (c.deliver fmt d raw).g = (c'.deliver fmt d raw).g ∧ (c.deliver fmt d raw).f = (c'.deliver fmt d raw).f ∧ (c.deliver fmt d raw).v = (c'.deliver fmt d raw).v := by
  have general (n : Nat) (x : Word) : (c.wrG n x).g = (c'.wrG n x).g ∧ (c.wrG n x).f = (c'.wrG n x).f ∧ (c.wrG n x).v = (c'.wrG n x).v := by
    unfold Ctx.wrG
    split
    · exact ⟨g, f, v⟩
    · exact ⟨by rw [g], f, v⟩
  cases fmt with
  | sx n => exact general ..
  | zx n => exact general ..
  | lease => exact general ..
  | f32 => exact ⟨g, by simp only [Ctx.deliver, Ctx.wrF, f], v⟩
  | f64 => exact ⟨g, by simp only [Ctx.deliver, Ctx.wrF, f], v⟩
  | v128 => exact ⟨g, f, by simp only [Ctx.deliver, Ctx.wrV, v]⟩
  | pref => exact ⟨g, f, v⟩

/-- A register that has come is to come no longer (R15). -/
theorem Ctx.arrivedMaybe_eq (c : Ctx) (r : Option RegRef) : c.arrivedMaybe r = { c with pend := c.pend.filter fun x => some x ≠ r } := by
  cases r with
  | none => simp [Ctx.arrivedMaybe]
  | some r => simp [Ctx.arrivedMaybe, Ctx.arrived, bne, beq_eq_decide]

/-- The context that a value has reached (R155). -/
def Ctx.loaded (c : Ctx) (fmt : LoadFmt) (d raw : Nat) : Ctx := (c.deliver fmt d raw).arrivedMaybe (fmt.target d)

theorem Ctx.loaded_eq (c : Ctx) (fmt : LoadFmt) (d raw : Nat) : c.loaded fmt d raw =
    { c with g := (c.deliver fmt d raw).g, f := (c.deliver fmt d raw).f, v := (c.deliver fmt d raw).v, pend := c.pend.filter fun x => some x ≠ fmt.target d } :=
  (Ctx.arrivedMaybe_eq ..).trans
    (congrArg (fun x : Ctx => { x with pend := x.pend.filter fun r => some r ≠ fmt.target d }) (c.deliver_eq fmt d raw))

theorem State.leaveFifo_frame (s : State) (id : Nat) : ∃ fifo, s.leaveFifo id = { s with migFifo := fifo } := by
  unfold State.leaveFifo
  dsimp only
  split
  exacts [⟨_, rfl⟩, ⟨s.migFifo, rfl⟩]

section
variable {s : State} {f : Flight} {q : LoadReq} {x : SecCopy}

/-- A reply on its way back changes copies alone: in dew stores and in the cache region of its core (R138, R140, R141). -/
theorem State.condense_frame (s : State) (f : Flight) (q : LoadReq) (x : SecCopy) (hop : Nat) (give : Bool) :
    ∃ dew cs, s.condense f q x hop give = { s with cores := cs, net := { s.net with dew := dew } } := by
  unfold State.condense
  dsimp only
  have deposits : ∃ dew, (if give && x.expiry.isNone && mayCondense (s.isDet f.part) q.attr q.rc q.hint then s.depositAlong ((s.pathOf f q.rc q.addr).take hop) f.part q.addr x
      else s) = { s with net := { s.net with dew := dew } } := by
    split
    exacts [⟨_, rfl⟩, ⟨s.net.dew, rfl⟩]
  obtain ⟨dew, e⟩ := deposits
  rw [e]
  split
  exacts [⟨dew, _, rfl⟩, ⟨dew, s.cores, rfl⟩]

/-- A version that comes back raises LCLK to its stamp; a sector without an entry in the spin table fires nothing (R97, R129). -/
theorem State.absorbVersion_eq (s : State) (id attr a : Nat) (x : SecCopy) (atHome : Bool) (fresh : ∀ e ∈ (s.ctx id).spin, e.sector ≠ sectorOf a) :
    ∃ spin clocks, s.absorbVersion id attr a x atHome =
      s.setCtx id { s.ctx id with spin := spin, clocks := clocks, cr := { (s.ctx id).cr with lclk := maxStamp (s.lclkOf id) x.wts } } := by
  have raised : (s.raiseLclk id x.wts).ctx id = { s.ctx id with clocks := s.clocksAt id x.wts, cr := { (s.ctx id).cr with lclk := maxStamp (s.lclkOf id) x.wts } } :=
    State.ctx_setCtx_self ..
  have none : (s.ctx id).spin.find? (fun e => e.sector == sectorOf a) = none := List.find?_eq_none.2 fun e mem same => fresh e mem (beq_iff_eq.1 same)
  unfold State.absorbVersion
  dsimp only
  split
  · exact ⟨(s.ctx id).spin, s.clocksAt id x.wts, rfl⟩
  · unfold spinUpdate
    rw [raised]
    dsimp only
    rw [none]
    dsimp only
    refine ⟨{ sector := sectorOf a, wts := x.wts, rts := x.rts, count := 0 } :: ((s.ctx id).spin.filter fun e => e.sector != sectorOf a).take 3,
      s.clocksAt id x.wts, ?_⟩
    unfold State.onCtx
    rw [raised]
    exact State.setCtx_setCtx_self ..

/-- A load of a register takes its bytes, and later loads of the sector perform at or after its time (R99, R155). -/
theorem State.finishLoad_eq (register : q.fmt ≠ .pref ∧ q.fmt ≠ .lease) (clean : x.poisonedAt q.addr q.fmt.size = false) (atHome : Bool) : s.finishLoad f q x atHome =
    ((s.absorbVersion f.ctx q.attr q.addr x atHome).bumpLoads f.ctx f.uid (f.seq + 1) (sectorOf q.addr) 64 (maxStamp q.c x.wts)).onCtx f.ctx
      fun c => c.loaded q.fmt q.d (x.bytes q.addr q.fmt.size) := by
  obtain ⟨notPref, notLease⟩ := register
  unfold State.finishLoad
  dsimp only
  split
  · next h => exact absurd h notPref
  · next h => exact absurd h notLease
  · exact if_neg (Bool.eq_false_iff.1 clean)

section
variable {n : Nat} {atHome give : Bool} {hop : Nat}

theorem exec_loadReply_copy (carried : s.Carries n f (.loadReply q (.copy x atHome hop give))) (order : s.inOrder n = true) (fresh : s.staleReply f x = false)
    (alive : s.alive f = true) : exec (.loadReply n) s = .next ((((s.condense f q x hop give).dropFlight n).finishLoad f q x atHome).faultOver f.ctx) := by
  obtain ⟨flight, kind⟩ := carried
  obtain ⟨dew, cs, e⟩ := s.condense_frame f q x hop give
  have living : ((s.condense f q x hop give).dropFlight n).alive f = true := by rw [e]; exact alive
  refine congrArg Host.Outcome.next ?_
  rw [flight]
  dsimp only
  rw [kind]
  dsimp only
  rw [if_neg (by rw [order]; decide), if_neg (Bool.eq_false_iff.1 fresh)]
  exact if_pos living

/-- A reply writes its register and raises LCLK (R97, R155, R156). -/
theorem completes_loadReply_copy (carried : s.Carries n f (.loadReply q (.copy x atHome hop give))) (order : s.inOrder n = true) (fresh : s.staleReply f x = false)
    (alive : s.alive f = true) (register : q.fmt ≠ .pref ∧ q.fmt ≠ .lease) (clean : x.poisonedAt q.addr q.fmt.size = false) (runs : (s.ctx f.ctx).st ≠ .faultWaiting)
    (unspun : ∀ e ∈ (s.ctx f.ctx).spin, e.sector ≠ sectorOf q.addr) : Completes (.loadReply n) s fun t =>
      t.net.flights = ((s.dropFlight n).bumpLoads f.ctx f.uid (f.seq + 1) (sectorOf q.addr) 64 (maxStamp q.c x.wts)).net.flights ∧ t.mem = s.mem ∧
      (∀ id, id ≠ f.ctx → t.ctx id = s.ctx id) ∧ (t.ctx f.ctx).cr = { (s.ctx f.ctx).cr with lclk := maxStamp (s.lclkOf f.ctx) x.wts } ∧
      (t.ctx f.ctx).pc = (s.ctx f.ctx).pc ∧
      (∃ c, c = (s.ctx f.ctx).deliver q.fmt q.d (x.bytes q.addr q.fmt.size) ∧ (t.ctx f.ctx).g = c.g ∧ (t.ctx f.ctx).f = c.f ∧ (t.ctx f.ctx).v = c.v) ∧
      (t.ctx f.ctx).pend = (s.ctx f.ctx).pend.filter fun r => some r ≠ q.fmt.target q.d := by
  have run := exec_loadReply_copy carried order fresh alive
  obtain ⟨dew, cs, e⟩ := s.condense_frame f q x hop give
  rw [State.finishLoad_eq register clean, e] at run
  generalize hu : ({ s with cores := cs, net := { s.net with dew := dew } } : State).dropFlight n = u at run
  have ctx (id : Nat) : u.ctx id = s.ctx id := by rw [← hu]; rfl
  have lclk : u.lclkOf f.ctx = s.lclkOf f.ctx := by rw [← hu]; rfl
  have flights : u.net.flights = (s.dropFlight n).net.flights := by rw [← hu]; rfl
  have mem : u.mem = s.mem := by rw [← hu]; rfl
  clear hu e
  obtain ⟨spin, clocks, absorbed⟩ := u.absorbVersion_eq f.ctx q.attr q.addr x atHome (by rw [ctx]; exact unspun)
  rw [absorbed, ctx, lclk] at run
  generalize hc : ({ s.ctx f.ctx with spin := spin, clocks := clocks, cr := { (s.ctx f.ctx).cr with lclk := maxStamp (s.lclkOf f.ctx) x.wts } } : Ctx) = c at run
  obtain ⟨g, ff, v, pc, pend, st, cr⟩ : c.g = (s.ctx f.ctx).g ∧ c.f = (s.ctx f.ctx).f ∧ c.v = (s.ctx f.ctx).v ∧ c.pc = (s.ctx f.ctx).pc ∧ c.pend = (s.ctx f.ctx).pend ∧
      c.st = (s.ctx f.ctx).st ∧ c.cr = { (s.ctx f.ctx).cr with lclk := maxStamp (s.lclkOf f.ctx) x.wts } := by
    rw [← hc]
    exact ⟨rfl, rfl, rfl, rfl, rfl, rfl, rfl⟩
  have delivered : (((u.setCtx f.ctx c).bumpLoads f.ctx f.uid (f.seq + 1) (sectorOf q.addr) 64 (maxStamp q.c x.wts)).onCtx f.ctx fun c => c.loaded q.fmt q.d (x.bytes q.addr q.fmt.size)) =
      ((u.setCtx f.ctx c).bumpLoads f.ctx f.uid (f.seq + 1) (sectorOf q.addr) 64 (maxStamp q.c x.wts)).setCtx f.ctx (c.loaded q.fmt q.d (x.bytes q.addr q.fmt.size)) :=
    congrArg (fun c : Ctx => State.setCtx _ f.ctx (c.loaded q.fmt q.d (x.bytes q.addr q.fmt.size))) (u.ctx_setCtx_self f.ctx c)
  rw [delivered] at run
  have now : (((u.setCtx f.ctx c).bumpLoads f.ctx f.uid (f.seq + 1) (sectorOf q.addr) 64 (maxStamp q.c x.wts)).setCtx f.ctx
      (c.loaded q.fmt q.d (x.bytes q.addr q.fmt.size))).ctx f.ctx = c.loaded q.fmt q.d (x.bytes q.addr q.fmt.size) := State.ctx_setCtx_self ..
  rw [State.faultOver, if_neg (by rw [now, Ctx.loaded_eq]; exact fun h => runs (st ▸ h.1))] at run
  refine ⟨_, run, ?_, mem, fun id other => ?_, ?_, ?_, ⟨_, rfl, ?_⟩, ?_⟩
  · exact congrArg (fun l : List Flight => (({ s with net := { s.net with flights := l } } : State).bumpLoads f.ctx f.uid (f.seq + 1) (sectorOf q.addr) 64 (maxStamp q.c x.wts)).net.flights) flights
  · exact (State.ctx_setCtx_ne _ other _).trans ((u.ctx_setCtx_ne other _).trans (ctx id))
  all_goals rw [now, Ctx.loaded_eq]
  · exact cr
  · exact pc
  · exact Ctx.deliver_regs g ff v ..
  · exact congrArg _ pend

/-- A load of LM that was sent late reads its port (R110; log 7). -/
theorem completes_loadReply_lm {fmt : LoadFmt} {d core off sc : Nat} {acq : Bool} (carried : s.Carries n f (.lmLoad fmt d (lmAddr core off) acq sc)) (order : s.inOrder n = true)
    (alive : s.alive f = true) (inside : off < 0x6000) (clean : s.poisoned (lmAddr core off) fmt.size = false) : Completes (.loadReply n) s fun t =>
      t.net.flights = s.net.flights.eraseIdx n ∧ t.mem = s.mem ∧ (∀ id, id ≠ f.ctx → t.ctx id = s.ctx id) ∧ (t.ctx f.ctx).cr = (s.ctx f.ctx).cr ∧
      (t.ctx f.ctx).pc = (s.ctx f.ctx).pc ∧
      (∃ c, c = (s.ctx f.ctx).deliver fmt d (s.mem.readNat (lmAddr core off) fmt.size) ∧ (t.ctx f.ctx).g = c.g ∧ (t.ctx f.ctx).f = c.f ∧ (t.ctx f.ctx).v = c.v) ∧
      (t.ctx f.ctx).pend = (s.ctx f.ctx).pend.filter fun r => some r ≠ fmt.target d := by
  obtain ⟨flight, kind⟩ := carried
  have small : off < 0x8000 := by omega
  have run : exec (.loadReply n) s = .next ((s.dropFlight n).setCtx f.ctx ((s.ctx f.ctx).loaded fmt d (s.mem.readNat (lmAddr core off) fmt.size))) := by
    refine congrArg Host.Outcome.next ?_
    rw [flight]
    dsimp only
    rw [kind]
    dsimp only
    rw [if_pos order, State.portLoad, if_neg (by rw [show (s.dropFlight n).alive f = true from alive]; decide),
      if_neg (by rw [show (s.dropFlight n).poisoned (lmAddr core off) fmt.size = false from clean]; decide), lmCore?_lmAddr small, lmAddr_offset small]
    rfl
  refine ⟨_, run, rfl, rfl, fun id other => State.ctx_setCtx_ne _ other _, ?_⟩
  rw [State.ctx_setCtx_self, Ctx.loaded_eq]
  exact ⟨rfl, rfl, ⟨_, rfl, rfl, rfl, rfl⟩, rfl⟩

/-- A plshared copy that has expired on its way sends the load to its home again (R126; log 62). -/
theorem exec_loadReply_stale (carried : s.Carries n f (.loadReply q (.copy x atHome hop give))) (order : s.inOrder n = true) (stale : s.staleReply f x = true) :
    exec (.loadReply n) s = .next (s.putFlight n { f with kind := .load { q with hop := 0 } }) := by
  obtain ⟨flight, kind⟩ := carried
  refine congrArg Host.Outcome.next ?_
  rw [flight]
  dsimp only
  rw [kind]
  dsimp only
  rw [if_neg (by rw [order]; decide), if_pos stale]

/-- A load whose page is absent makes its context fault-wait (R348). -/
theorem completes_loadReply_absent (carried : s.Carries n f (.loadReply q .pageAbsent)) (order : s.inOrder n = true) (alive : s.alive f = true) :
    Completes (.loadReply n) s fun t =>
      t.ctx f.ctx = { s.ctx f.ctx with st := .faultWaiting, wait := .page q.addr, waitSent := s.gtrOf (tileOf (coreOf f.ctx)), unrecorded := false } ∧
      ∃ g : Flight, t.net.flights = s.net.flights.set n (t.stamped { f with kind := .load { q with fault := 1 } }) ++ [g] ∧ g.ctx = f.ctx ∧ g.uid = f.uid ∧
        g.kind = .wait (.page (pageOf q.addr)) (pageOf q.addr * 65536) 0 0 (.core (coreOf f.ctx)) := by
  obtain ⟨flight, kind⟩ := carried
  have run : exec (.loadReply n) s = .next ((s.putFlight n { f with kind := .load { q with fault := 1 } }).faultWait f.ctx q.addr) := by
    refine congrArg Host.Outcome.next ?_
    rw [flight]
    dsimp only
    rw [kind]
    dsimp only
    rw [if_neg (by rw [order]; decide), if_pos alive]
  obtain ⟨fifo, left⟩ := (s.putFlight n { f with kind := .load { q with fault := 1 } }).leaveFifo_frame f.ctx
  unfold State.faultWait at run
  rw [left] at run
  generalize hu : (({ s.putFlight n { f with kind := .load { q with fault := 1 } } with migFifo := fifo } : State).onCtx f.ctx
    fun c => { c with st := .faultWaiting, wait := .page q.addr }) = u at run
  have now : u.ctx f.ctx = { s.ctx f.ctx with st := .faultWaiting, wait := .page q.addr } := by
    rw [← hu]
    exact State.ctx_setCtx_self ..
  have time : u.gtrOf (tileOf (coreOf f.ctx)) = s.gtrOf (tileOf (coreOf f.ctx)) := by rw [← hu]; rfl
  have flights : u.net.flights = s.net.flights.set n { f with kind := .load { q with fault := 1 } } := by rw [← hu]; rfl
  obtain ⟨g, sent, ctx, uid, wait⟩ := u.sendWait_sends f.ctx (.page (pageOf q.addr)) 0
  refine ⟨_, run, ?_, g, ?_, ctx, ?_, wait⟩
  · rw [State.sendWait_ctx_self, now, time]
  · rw [sent, flights]
    rfl
  · rw [uid, now]
    exact beq_iff_eq.1 alive

/-- A load whose address has no translation orders its launch to abort (R160, R346). -/
theorem completes_loadReply_untranslated {slot : Nat} {l : Launch} (carried : s.Carries n f (.loadReply q .noTranslation)) (order : s.inOrder n = true)
    (thread : isXu f.ctx = false) (own : f.launch = some slot) (launch : s.launch? f.part slot = some l) (pending : l.pendingAbort = none) :
    Completes (.loadReply n) s fun t => ∃ (l' : Launch) (r : AbortRec), t.launch? f.part slot = some l' ∧ l'.st = .aborted ∧ l'.pendingAbort = some r ∧
      r.kind = 17 ∧ r.pc = 0 ∧ r.addr = BitVec.ofNat 64 q.addr := by
  obtain ⟨flight, kind⟩ := carried
  have run : exec (.loadReply n) s = .next ((s.dropFlight n).failFlight f 17 q.addr) := by
    refine congrArg Host.Outcome.next ?_
    rw [flight]
    dsimp only
    rw [kind]
    dsimp only
    rw [if_neg (by rw [order]; decide)]
  exact ⟨_, run, (State.failFlight_aborts (s := s.dropFlight n) thread own launch pending 17 q.addr).2⟩

end

end

/-- Settles O31: a load is answered by its home or by the first copy on its path, and its reply writes the register and raises LCLK. -/
theorem loadsAreAnswered : Obligations.LoadsAreAnswered := by
  unfold Obligations.LoadsAreAnswered
  refine ⟨?_, ?_, ?_, ?_, ?_, ?_⟩
  · intro s s1 n f q c passed sl host x attr die lf ro carried may clock clear whole det arrived pub
    have grants := s1.grant_cases die f.part attr ro c x
    generalize granted : s1.grant die f.part attr ro true c x = g at pub grants
    obtain ⟨m, po, tr, fa, li, e, -⟩ := State.atHome_frame arrived
    have published : s1.mayGrant sl g.sec.rts = true := (State.mayGrant_of_pub (by rw [e]) sl _).trans pub
    obtain ⟨t, run, mem, ctxs, cores, answered⟩ := completes_homeLoad carried may clock clear whole det arrived granted published
    obtain ⟨wts, uncached, shared, cached⟩ := grants
    have floor : s1.lf f.part die = lf := by rw [e]; rfl
    have locked : (s1.die die).locked = (s.die die).locked := by rw [e]; rfl
    have time : s1.gtrOf die = s.gtrOf die := by rw [e]; rfl
    rw [locked, time] at shared
    rw [floor] at cached
    exact ⟨t, run, mem, ctxs, cores, s1.version f.part q.addr host g.sec g.expiry, g.give, answered, rfl, wts, uncached, shared, cached⟩
  · intro s n f q c x own path carried may clock
    refine ⟨fun passed further inside clear => exec_homeLoad_passes carried may clock further inside clear, fun mine hit => completes_dewAnswer_own carried may clock mine hit,
      fun i r none takes ahead router hit first => completes_dewAnswer_path carried may clock none takes ahead router hit first⟩
  · intro s n f q x atHome give hop d carried order fresh alive notPref notLease clean runs unspun
    exact completes_loadReply_copy carried order fresh alive ⟨notPref, notLease⟩ clean runs unspun
  · intro s n f fmt d core off acq sc a carried order alive inside clean _ _
    exact completes_loadReply_lm carried order alive inside clean
  · intro s n f q now
    exact ⟨fun x atHome give hop carried order stale => exec_loadReply_stale carried order stale, fun carried order alive => completes_loadReply_absent carried order alive⟩
  · intro s n f q slot l carried order thread own launch pending
    exact completes_loadReply_untranslated carried order thread own launch pending

end Sys2Proof.Machine

/-!
PROOFS. Matrix jobs (R113, R192, R197, R279, R289 to R297): what ending a job leaves alone, then the dispatch of a job and the retirement of each kind.
-/
namespace Sys2Proof.Machine

/-! ### What the end of a job leaves alone -/

/-- The second core has the engine registers, the tiles and the jobs of the first. -/
structure Core.SameEngine (k k' : Core) : Prop where
  jobs : k'.jobs = k.jobs
  acc : k'.acc = k.acc
  kinds : k'.kinds = k.kinds
  scales : k'.scales = k.scales
  status : k'.jobStatus = k.jobStatus
  last : k'.last = k.last

namespace Core.SameEngine
variable {k k' k'' : Core}

theorem refl (k : Core) : k.SameEngine k := ⟨rfl, rfl, rfl, rfl, rfl, rfl⟩

theorem trans (h : k.SameEngine k') (h' : k'.SameEngine k'') : k.SameEngine k'' where
  jobs := h'.jobs.trans h.jobs
  acc := h'.acc.trans h.acc
  kinds := h'.kinds.trans h.kinds
  scales := h'.scales.trans h.scales
  status := h'.status.trans h.status
  last := h'.last.trans h.last

theorem accAt (h : k.SameEngine k') (tile i : Nat) : k'.accAt tile i = k.accAt tile i := by rw [Core.accAt, h.acc, Core.accAt]
theorem kind (h : k.SameEngine k') (n : Nat) : k'.kind n = k.kind n := by rw [Core.kind, h.kinds, Core.kind]
theorem scale (h : k.SameEngine k') (n : Nat) : k'.scale n = k.scale n := by rw [Core.scale, h.scales, Core.scale]

end Core.SameEngine

/-- The second core has the engine, the jobs and the rings of the first. -/
structure Core.SameWork (k k' : Core) : Prop extends Core.SameEngine k k' where
  rings : k'.rings = k.rings

namespace Core.SameWork
variable {k k' k'' : Core}

theorem refl (k : Core) : k.SameWork k := ⟨.refl k, rfl⟩
theorem trans (h : k.SameWork k') (h' : k'.SameWork k'') : k.SameWork k'' := ⟨h.toSameEngine.trans h'.toSameEngine, h'.rings.trans h.rings⟩
theorem ring (h : k.SameWork k') (q : Nat) : k'.ring q = k.ring q := by rw [Core.ring, h.rings, Core.ring]

end Core.SameWork

/-- From `s` to `t` no byte of memory, no full bit and no engine, ring or job of any core has changed. -/
structure State.Undisturbed (s t : State) : Prop where
  mem : t.mem = s.mem
  emptied : t.emptied = s.emptied
  work : ∀ i, (s.core i).SameWork (t.core i)

namespace State.Undisturbed
variable {s t u : State}

theorem refl (s : State) : s.Undisturbed s := ⟨rfl, rfl, fun _ => .refl _⟩

theorem trans (h : s.Undisturbed t) (h' : t.Undisturbed u) : s.Undisturbed u :=
  ⟨h'.mem.trans h.mem, h'.emptied.trans h.emptied, fun i => (h.work i).trans (h'.work i)⟩

/-- A change outside memory, full bits and cores. -/
theorem frame (mem : t.mem = s.mem) (emptied : t.emptied = s.emptied) (cores : t.cores = s.cores) : s.Undisturbed t :=
  ⟨mem, emptied, fun i => by rw [State.core, State.core, cores]; exact .refl _⟩

theorem onCore (s : State) (core : Nat) {f : Core → Core} (hf : (s.core core).SameWork (f (s.core core))) : s.Undisturbed (s.onCore core f) := by
  refine ⟨rfl, rfl, fun i => ?_⟩
  rw [State.onCore_eq, State.core_setCore]
  split
  · rename_i same
    rwa [same]
  · exact .refl _

theorem setCtx (s : State) (id : Nat) (c : Ctx) : s.Undisturbed (s.setCtx id c) := frame rfl rfl rfl

theorem setTurns (s : State) (t : Turns) : s.Undisturbed (s.setTurns t) := frame rfl rfl rfl

theorem onPart (s : State) (p : Nat) (f : Part → Part) : s.Undisturbed (s.onPart p f) := by
  unfold State.onPart
  split
  · exact frame rfl rfl rfl
  · exact refl s

theorem unitsFreed (s : State) (r : Res) (n : Nat) : s.Undisturbed (s.unitsFreed r n) := by
  obtain ⟨ts, e⟩ := s.unitsFreed_eq r n
  rw [e]
  exact frame rfl rfl rfl

theorem ite {c : Prop} [Decidable c] (h : s.Undisturbed t) (h' : s.Undisturbed u) : s.Undisturbed (if c then t else u) := by
  split <;> assumption

theorem foldl {α : Type} {f : State → α → State} (hf : ∀ (s : State) (x : α), s.Undisturbed (f s x)) (s : State) (xs : List α) : s.Undisturbed (xs.foldl f s) :=
  List.foldlRecOn _ _ (refl s) fun _ ht x _ => ht.trans (hf _ x)

theorem lift (s : State) (c : Option Charge) : s.Undisturbed (s.lift c) := by
  obtain ⟨e, h⟩ := s.lift_frame c
  rw [h]
  exact frame rfl rfl rfl

theorem endHandler (s : State) (id : Nat) : s.Undisturbed (s.endHandler id) := by
  have dormant : s.Undisturbed ((s.onCore (coreOf id) fun k => k.freeSlot (numberOf id == 5) (s.ctx id).slot).setCtx id {}) :=
    (onCore s _ (by unfold Core.freeSlot; split <;> exact ⟨⟨rfl, rfl, rfl, rfl, rfl, rfl⟩, rfl⟩)).trans (setCtx ..)
  unfold State.endHandler
  extract_lets core high slot dormant' freed resumed
  have hFreed : s.Undisturbed freed := ite (dormant.trans (setTurns ..)) dormant
  have hResumed : s.Undisturbed resumed := ite (hFreed.trans (setCtx ..)) hFreed
  exact ite hResumed (hResumed.trans (onCore _ _ ⟨⟨rfl, rfl, rfl, rfl, rfl, rfl⟩, rfl⟩))

theorem chargeFailure (s : State) (id : Nat) (r : AbortRec) : s.Undisturbed (s.chargeFailure id r) := by
  unfold State.chargeFailure
  dsimp only
  split
  · exact (setCtx ..).trans (onPart ..)
  · exact ite ((endHandler ..).trans (onPart ..)) (setCtx ..)

theorem chargeIssuer (s : State) (launch : Option Nat) (p ctx uid : Nat) (r : AbortRec) : s.Undisturbed (s.chargeIssuer launch p ctx uid r) := by
  unfold State.chargeIssuer
  split
  · exact onPart ..
  · exact (ite (endHandler ..) (refl s)).trans (onPart ..)

theorem jobMachineCheck (s : State) (j : Job) : s.Undisturbed (s.jobMachineCheck j) := ite (refl s) (chargeIssuer ..)

theorem trapOf (s : State) (id : Nat) (c : Cause) (addr val ret : Word) : s.Undisturbed (s.trapOf id c addr val ret) :=
  ite (refl s) (ite (setCtx ..) (chargeFailure ..))

theorem trapLater (s : State) (id : Nat) (c : Cause) (addr val ret : Word) : s.Undisturbed (s.trapLater id c addr val ret) :=
  ite (trapOf ..) (setCtx ..)

theorem retestRing (s : State) (id q k d : Nat) (room : Bool) : s.Undisturbed (s.retestRing id q k d room) := by
  unfold State.retestRing
  split
  · exact (setCtx ..).trans (trapLater ..)
  · exact setCtx ..
  · exact refl s

theorem wakeRing (s : State) (core q : Nat) : s.Undisturbed (s.wakeRing core q) := by
  refine foldl (fun t x => ?_) s s.ctxs
  split
  · split
    · exact ite (retestRing ..) (refl t)
    · exact ite (retestRing ..) (refl t)
    · exact refl t
  · exact refl t

theorem releasePins (s : State) (p slot core : Nat) : s.Undisturbed (s.releasePins p slot core) :=
  ite (refl s) (onCore _ _ ⟨⟨rfl, rfl, rfl, rfl, rfl, rfl⟩, rfl⟩)

theorem letPins (s : State) (p core : Nat) : s.Undisturbed (s.letPins p core) := foldl (fun t slot => releasePins t p slot core) ..

theorem jobPins (s : State) (core : Nat) (j : Job) : s.Undisturbed (s.jobPins core j) := by
  unfold State.jobPins
  split
  · exact (letPins ..).trans (letPins ..)
  · exact letPins ..

theorem producedBy (s : State) (core q : Nat) (j : Job) : s.Undisturbed (s.producedBy core q j) := by
  have noted (x : Nat × Nat × Nat) : s.Undisturbed (s.onCore core fun c => { c with ringWriter := c.ringWriter.set q x }) :=
    onCore _ _ ⟨⟨rfl, rfl, rfl, rfl, rfl, rfl⟩, rfl⟩
  unfold State.producedBy
  split
  · exact ite (refl s) (noted _)
  · exact noted _

end State.Undisturbed

/-! ### A job leaves the queue (R279, R289, R293) -/

/-- The status word that an end gives a job. -/
def JobEnd.word (id : Nat) : JobEnd → Word
  | .status code flags sat => statusWord id code flags sat
  | .poisoned => 0

/-- The core whose oldest job, `j`, has left with an end. -/
def Core.closed (c : Core) (j : Job) (e : JobEnd) : Core :=
  let c := { c with jobs := c.jobs.drop 1 }
  match j.id with
  | some id => { c.setStatus id (e.word id) with last := BitVec.ofNat 16 id }
  | none => c

theorem Core.closed_of_id {c : Core} {j : Job} {id : Nat} (named : j.id = some id) (e : JobEnd) :
    c.closed j e = { { c with jobs := c.jobs.drop 1 }.setStatus id (e.word id) with last := BitVec.ofNat 16 id } := by
  rw [Core.closed, named]

/-- The core's entry in the queue and the status change, and not the rings or the engine. -/
theorem Core.closed_keeps (c : Core) (j : Job) (e : JobEnd) : (c.closed j e).jobs = c.jobs.drop 1 ∧ (c.closed j e).acc = c.acc ∧
    (c.closed j e).kinds = c.kinds ∧ (c.closed j e).scales = c.scales ∧ (c.closed j e).rings = c.rings := by
  unfold Core.closed
  dsimp only
  split <;> exact ⟨rfl, rfl, rfl, rfl, rfl⟩

theorem Core.mem_setStatus {c : Core} {id : Nat} {w : Word} {x : Nat × Word} (mem : x ∈ (c.setStatus id w).jobStatus) (same : x.1 = id) : x.2 = w := by
  obtain ⟨y, -, rfl⟩ := List.mem_map.1 mem
  by_cases h : y.1 = id
  · simp [h]
  · simp [h] at same

/-- After the end of job `j` of a core, which its work has brought to `u`. -/
structure State.Closed (u : State) (core : Nat) (j : Job) (e : JobEnd) (t : State) : Prop where
  mem : t.mem = u.mem
  emptied : t.emptied = u.emptied
  work : ((u.core core).closed j e).SameWork (t.core core)

theorem State.closeJob_closed (u : State) (core : Nat) (j : Job) (e : JobEnd) : u.Closed core j e (u.closeJob core j e) := by
  have lifted := Undisturbed.lift u j.charge
  obtain ⟨energy, frame⟩ := u.lift_frame j.charge
  have same : (u.lift j.charge).core core = u.core core := by rw [frame]; rfl
  unfold State.closeJob
  dsimp only
  cases named : j.id with
  | none => exact ⟨lifted.mem, lifted.emptied, by rw [onCore_eq, core_setCore_self, same, Core.closed, named]; exact .refl _⟩
  | some id =>
    refine ⟨lifted.mem, lifted.emptied, ?_⟩
    rw [Core.closed_of_id named]
    change Core.SameWork _ (((u.lift j.charge).setCore core _).core core)
    rw [core_setCore_self, same]
    cases e <;> exact .refl _

namespace State.Closed
variable {s t u : State} {core : Nat} {j : Job} {e : JobEnd}

theorem trans (h : u.Closed core j e s) (h' : s.Undisturbed t) : u.Closed core j e t :=
  ⟨h'.mem.trans h.mem, h'.emptied.trans h.emptied, h.work.trans (h'.work core)⟩

theorem jobs (h : u.Closed core j e t) : (t.core core).jobs = (u.core core).jobs.drop 1 := h.work.jobs.trans (Core.closed_keeps ..).1
theorem acc (h : u.Closed core j e t) : (t.core core).acc = (u.core core).acc := h.work.acc.trans (Core.closed_keeps ..).2.1

theorem accAt (h : u.Closed core j e t) (tile i : Nat) : (t.core core).accAt tile i = (u.core core).accAt tile i := by
  rw [Core.accAt, h.acc, Core.accAt]

theorem kind (h : u.Closed core j e t) (n : Nat) : (t.core core).kind n = (u.core core).kind n := by
  obtain ⟨-, -, kinds, -, -⟩ := (u.core core).closed_keeps j e
  rw [h.work.kind, Core.kind, kinds, Core.kind]

theorem scale (h : u.Closed core j e t) (n : Nat) : (t.core core).scale n = (u.core core).scale n := by
  obtain ⟨-, -, -, scales, -⟩ := (u.core core).closed_keeps j e
  rw [h.work.scale, Core.scale, scales, Core.scale]

theorem ring (h : u.Closed core j e t) (q : Nat) : (t.core core).ring q = (u.core core).ring q := by
  obtain ⟨-, -, -, -, rings⟩ := (u.core core).closed_keeps j e
  rw [h.work.ring, Core.ring, rings, Core.ring]

theorem status (h : u.Closed core j e t) {id : Nat} (named : j.id = some id) : ∀ x ∈ (t.core core).jobStatus, x.1 = id → x.2 = e.word id := by
  intro x mem
  rw [h.work.status, Core.closed_of_id named] at mem
  exact Core.mem_setStatus mem

theorem last (h : u.Closed core j e t) {id : Nat} (named : j.id = some id) : (t.core core).last = BitVec.ofNat 16 id :=
  h.work.last.trans (by rw [Core.closed_of_id named])

end State.Closed

/-- JOB_RETIRE of a running job: what its work has done, and then the end of the job. -/
theorem completes_jobRetire {s : State} {core : Nat} {j : Job} {rest : List Job} (first : (s.core core).jobs = j :: rest) (running : j.running = true)
    {e : JobEnd} {u : State} (done : (if j.sick then (.poisoned, s) else s.runJob core j) = (e, u)) : Completes (.jobRetire core) s (u.Closed core j e) := by
  have checked : u.Closed core j e (if e = .poisoned then (u.closeJob core j e).jobMachineCheck j else u.closeJob core j e) :=
    (u.closeJob_closed core j e).trans (State.Undisturbed.ite (.jobMachineCheck ..) (.refl _))
  refine ⟨_, ?_, checked.trans (.jobPins _ core j)⟩
  change execJobRetire core s = _
  unfold execJobRetire
  simp only [first, running, Bool.not_true, Bool.false_eq_true, if_false, done]

/-! ### Dispatch (R192, R197, R289) -/

/-- A core whose turn it is has an oldest job that may run now. -/
theorem State.jobWaits_of_turn {s : State} {cl last core : Nat} {j : Job} {rest : List Job} (turn : nextTurn cl last s.jobWaits = some core)
    (first : (s.core core).jobs = j :: rest) : s.admits j.part (tileOf core) j.kind.charge = true ∧ j.running = false := by
  have waits : s.jobWaits core = true := List.find?_some turn
  unfold State.jobWaits at waits
  rw [first] at waits
  dsimp only at waits
  rw [Bool.and_eq_true, Bool.and_eq_true, Bool.and_eq_true, Bool.not_eq_true'] at waits
  obtain ⟨⟨⟨idle, -⟩, -⟩, admitted⟩ := waits
  exact ⟨admitted, idle⟩

/-- The core whose oldest job, `j`, has been dispatched with a charge. -/
def Core.dispatched (c : Core) (j : Job) (rest : List Job) (charge : Charge) : Core :=
  let c := { c with jobs := { j with running := true, snap := c.snapshot j.kind, charge := some charge } :: rest }
  match j.id with
  | some id => c.setStatus id (statusWord id 2 0 false)
  | none => c

theorem exec_jobDispatch {s : State} {core : Nat} {j : Job} {rest : List Job}
    (turn : nextTurn (clusterOf core) (s.rrJobs.getD (clusterOf core) (7, 7)).1 s.jobWaits = some core) (first : (s.core core).jobs = j :: rest) :
    exec (.jobDispatch core) s = .next ((({ s with rrJobs := s.rrJobs.set (clusterOf core) (core % 8, (s.rrJobs.getD (clusterOf core) (7, 7)).2) } : State).takeCharge
      (s.chargeOf j.part (tileOf core) j.kind.charge)).onCore core fun c => c.dispatched j rest (s.chargeOf j.part (tileOf core) j.kind.charge)) := by
  change execJobDispatch core s = _
  unfold execJobDispatch
  simp only [turn, first, ne_eq, not_true_eq_false, if_false]
  rfl

/-- The status word of a job without flags or saturation. -/
theorem statusWord_plain (id code : Nat) : statusWord id code 0 false = BitVec.ofNat 64 (id * 2 ^ 16 + code) := by
  simp [statusWord]

/-! ### Tiles (R280) -/

theorem FMap.get_foldl_set_ne {α β : Type} {f : α → Nat} {g : α → β} {k : Nat} (m : FMap β) {xs : List α} (other : ∀ x ∈ xs, f x ≠ k) :
    FMap.get (xs.foldl (fun m x => FMap.set m (f x) (g x)) m) k = FMap.get m k := by
  induction xs generalizing m with
  | nil => rfl
  | cons x xs ih =>
    rw [List.foldl_cons, ih _ fun y hy => other y (List.mem_cons_of_mem _ hy), FMap.get_set_ne m (other x List.mem_cons_self).symm]

theorem FMap.get_foldl_set_mem {α β : Type} {f : α → Nat} {g : α → β} (m : FMap β) {xs : List α} {x : α} (mem : x ∈ xs)
    (only : ∀ y ∈ xs, f y = f x → g y = g x) : FMap.get (xs.foldl (fun m x => FMap.set m (f x) (g x)) m) (f x) = some (g x) := by
  induction xs using List.reverseRecOn with
  | nil => cases mem
  | append_singleton xs y ih =>
    rw [List.foldl_append, List.foldl_cons, List.foldl_nil]
    by_cases same : f y = f x
    · rw [same, FMap.get_set_self, only y (by simp) same]
    · have earlier : x ∈ xs := by
        refine (List.mem_append.1 mem).resolve_right fun h => same ?_
        rw [List.mem_singleton.1 h]
      rw [FMap.get_set_ne _ (Ne.symm same), ih earlier fun z hz => only z (List.mem_append_left _ hz)]

theorem mem_zip_range {n : Nat} {xs : List Nat} {x : Nat × Nat} : x ∈ (List.range n).zip xs ↔ x.1 < n ∧ xs[x.1]? = some x.2 := by
  rw [List.mem_iff_getElem?]
  constructor
  · rintro ⟨i, h⟩
    obtain ⟨number, value⟩ := List.getElem?_zip_eq_some.1 h
    obtain ⟨low, e⟩ := List.getElem?_eq_some_iff.1 number
    rw [List.getElem_range] at e
    subst e
    exact ⟨by simpa using low, value⟩
  · rintro ⟨low, value⟩
    exact ⟨x.1, List.getElem?_zip_eq_some.2 ⟨by simp [low], value⟩⟩

theorem Core.accAt_setTile_self {c : Core} {tile i : Nat} {xs : List Nat} (long : xs.length = 256) (low : i < 256) :
    (c.setTile tile xs).accAt tile i = xs.getD i 0 % 2 ^ 32 := by
  have value : xs[i]? = some (xs.getD i 0) := by simp [List.getD_eq_getElem?_getD, List.getElem?_eq_getElem (long.symm ▸ low)]
  have listed : (i, xs.getD i 0) ∈ (List.range 256).zip xs := mem_zip_range.2 ⟨low, value⟩
  have written := FMap.get_foldl_set_mem (f := fun x => tile * 256 + x.1) (g := fun x => BitVec.ofNat 32 x.2) c.acc listed fun y hy same => by
    have place : y.1 = i := by simpa using same
    have e : y.2 = xs.getD i 0 := by
      have h := (mem_zip_range.1 hy).2
      rw [place, value] at h
      exact (Option.some.inj h).symm
    rw [e]
  rw [Core.accAt, Core.setTile, FMap.getD, written]
  exact BitVec.toNat_ofNat ..

theorem Core.accAt_setTile_ne {c : Core} {tile u i : Nat} (other : u ≠ tile) (low : i < 256) (xs : List Nat) : (c.setTile tile xs).accAt u i = c.accAt u i := by
  have kept := FMap.get_foldl_set_ne (f := fun x => tile * 256 + x.1) (g := fun x => BitVec.ofNat 32 x.2) (k := u * 256 + i) c.acc
    (xs := (List.range 256).zip xs) fun x hx => by
      have := (mem_zip_range.1 hx).1
      omega
  rw [Core.accAt, Core.setTile, FMap.getD, kept, Core.accAt, FMap.getD]

theorem accumulate_length (xa xb : Elem) (panels : List (Panel × Panel)) : ∀ {tile : List Nat}, tile.length = 256 → (accumulate xa xb tile panels).1.length = 256 := by
  induction panels with
  | nil => exact fun long => long
  | cons p rest ih =>
    intro tile long
    exact ih (by simp [accBlock, long])

theorem FMap.get_filter {β : Type} (m : FMap β) (keep : Nat → Bool) (i : Nat) :
    FMap.get (m.filter fun x => keep x.1) i = if keep i = true then FMap.get m i else none := by
  induction m with
  | nil => simp [FMap.get]
  | cons x m ih =>
    obtain ⟨k, v⟩ := x
    by_cases same : i = k
    · subst same
      cases kept : keep i <;> simp [FMap.get, kept, ih]
    · cases kept : keep k <;> simp [FMap.get, kept, same, ih]

theorem Core.accAt_zeroTile_self (c : Core) {tile i : Nat} (low : i < 256) : (c.zeroTile tile).accAt tile i = 0 := by
  have gone := FMap.get_filter c.acc (fun k => k / 256 != tile) (tile * 256 + i)
  have inside : (tile * 256 + i) / 256 = tile := by omega
  rw [if_neg (by simp [inside])] at gone
  rw [Core.accAt, Core.zeroTile, FMap.getD, gone]
  rfl

theorem Core.accAt_zeroTile_ne (c : Core) {tile u i : Nat} (other : u ≠ tile) (low : i < 256) : (c.zeroTile tile).accAt u i = c.accAt u i := by
  have kept := FMap.get_filter c.acc (fun k => k / 256 != tile) (u * 256 + i)
  have outside : (u * 256 + i) / 256 = u := by omega
  rw [if_pos (by simp [outside, other])] at kept
  rw [Core.accAt, Core.zeroTile, FMap.getD, kept, Core.accAt, FMap.getD]

/-! ### Rings (R28, R170, R282) -/

theorem State.setRing_undisturbed (s : State) (core q : Nat) (w : Word) :
    (s.onCore core fun c => { c with rings := c.rings.set q w }).Undisturbed (s.setRing core q w) := .wakeRing ..

/-- From `s` to `t` the descriptor of a ring of a core has become `w`. -/
structure State.RingMoved (s : State) (core q : Nat) (w : Word) (t : State) : Prop where
  mem : t.mem = s.mem
  emptied : t.emptied = s.emptied
  engine : (s.core core).SameEngine (t.core core)
  ring : (t.core core).ring q = w
  rings : ∀ i, i ≠ q → (t.core core).ring i = (s.core core).ring i

theorem State.RingMoved.trans {s t u : State} {core q : Nat} {w : Word} (h : s.RingMoved core q w t) (h' : t.Undisturbed u) : s.RingMoved core q w u where
  mem := h'.mem.trans h.mem
  emptied := h'.emptied.trans h.emptied
  engine := h.engine.trans (h'.work core).toSameEngine
  ring := ((h'.work core).ring q).trans h.ring
  rings i hi := ((h'.work core).ring i).trans (h.rings i hi)

theorem State.setRing_moved (s : State) (core q : Nat) (w : Word) : s.RingMoved core q w (s.setRing core q w) := by
  have written : s.RingMoved core q w (s.onCore core fun c => { c with rings := c.rings.set q w }) := by
    refine ⟨rfl, rfl, ?_, ?_, fun i hi => ?_⟩
    all_goals rw [onCore_eq, core_setCore_self]
    · exact ⟨rfl, rfl, rfl, rfl, rfl, rfl⟩
    · exact FMap.getD_set_self ..
    · exact FMap.getD_set_ne _ hi ..
  exact written.trans (s.setRing_undisturbed core q w)

/-- A ring that a job pops, unless it keeps it (R289). -/
theorem State.popRing_moved (s : State) (core q n : Nat) (keep : Bool) :
    s.RingMoved core q (if keep then (s.core core).ring q else withHead ((s.core core).ring q) (ringHead ((s.core core).ring q) + n))
      (if keep then s else s.popRing core q n) := by
  cases keep with
  | true => exact ⟨rfl, rfl, .refl _, rfl, fun _ _ => rfl⟩
  | false => exact (s.setRing_moved ..).trans (.unitsFreed ..)

/-! ### MMA and MMASP at retirement (R289) -/

section Mma
variable {s v : State} {core : Nat} {sparse : Bool} {pair : Nat} {desc opts scale wa wb : Word}

theorem State.runMma_invalid (invalid : (s.core core).ringValid wa = false ∨ (s.core core).ringValid wb = false) :
    s.runMma v core sparse pair desc opts scale wa wb = (.status 6 0 false, s) := by
  unfold State.runMma
  exact if_pos (by rcases invalid with h | h <;> simp [h])

variable (validA : (s.core core).ringValid wa = true) (validB : (s.core core).ringValid wb = true)
include validA validB

theorem State.runMma_otherKind (keeps : opts.getLsbD 0 = false) (used : (s.core core).kind (descAcc desc) ≠ 0)
    (other : (s.core core).kind (descAcc desc) ≠ pairKind pair) : s.runMma v core sparse pair desc opts scale wa wb = (.status 5 0 false, s) := by
  unfold State.runMma
  exact (if_neg (by simp [validA, validB])).trans (if_pos (by rw [keeps, bne_iff_ne.2 used, bne_iff_ne.2 other]; rfl))

/-- The core whose tile has taken the sums of a job. -/
def Core.accumulated (c : Core) (tile : Nat) (xs : List Nat) (kind : BitVec 2) (scale : Word) : Core :=
  { c.setTile tile xs with kinds := c.kinds.set tile kind, scales := c.scales.set tile scale }

/-- The rings' slots that a job frees, unless it keeps them. -/
def State.popPanels (s : State) (core : Nat) (desc opts : Word) (na nb : Nat) : State :=
  let s := if opts.getLsbD 1 then s else s.popRing core (descA desc) na
  if opts.getLsbD 2 then s else s.popRing core (descB desc) nb

variable (kind : opts.getLsbD 0 = true ∨ (s.core core).kind (descAcc desc) = 0 ∨ (s.core core).kind (descAcc desc) = pairKind pair)
  {pa pb : List (Nat × Nat)} {na nb : Nat}
  (placesA : v.panelPlaces core wa (pairElems pair).1 sparse 0 (descK desc) = some (pa, na))
  (placesB : v.panelPlaces core wb (pairElems pair).2 sparse 0 (descK desc) = some (pb, nb))
  (cleanA : v.ringPoisoned core wa pa = false) (cleanB : v.ringPoisoned core wb pb = false)
include kind placesA placesB cleanA cleanB

theorem State.runMma_malformed (malformed : v.readPanels core wa (pairElems pair).1 sparse pa = none) :
    s.runMma v core sparse pair desc opts scale wa wb = (.status 4 0 false, s) := by
  unfold State.runMma
  refine (if_neg (by simp [validA, validB])).trans ((if_neg (by rcases kind with h | h | h <;> simp [h])).trans ?_)
  simp only [placesA, placesB, cleanA, cleanB, malformed, Bool.or_self, Bool.false_eq_true, if_false]

theorem State.runMma_done {as bs : List Panel} (panelsA : v.readPanels core wa (pairElems pair).1 sparse pa = some as)
    (panelsB : v.readPanels core wb (pairElems pair).2 sparse pb = some bs) {r : List Nat × FpFlags × Bool}
    (sums : accumulate (pairElems pair).1 (pairElems pair).2 (if opts.getLsbD 0 then List.replicate 256 0 else (s.core core).tile (descAcc desc)) (as.zip bs) = r) :
    s.runMma v core sparse pair desc opts scale wa wb = (.status 3 r.2.1 r.2.2,
      (s.setCore core ((s.core core).accumulated (descAcc desc) r.1 (pairKind pair) scale)).popPanels core desc opts na nb) := by
  have zero : (List.range 256).map (fun _ => 0) = List.replicate 256 0 := by simp
  unfold State.runMma
  refine (if_neg (by simp [validA, validB])).trans ((if_neg (by rcases kind with h | h | h <;> simp [h])).trans ?_)
  simp only [placesA, placesB, cleanA, cleanB, panelsA, panelsB, zero, sums, Bool.or_self, Bool.false_eq_true, if_false]
  rfl

end Mma

theorem State.runJob_mma {s : State} {core : Nat} {j : Job} {sparse : Bool} {pair : Nat} {desc opts scale wa wb : Word}
    (kind : j.kind = .mma sparse pair desc opts scale) (snap : j.snap = [wa, wb]) :
    s.runJob core j = s.runMma (s.viewOf j) core sparse pair desc opts scale wa wb := by
  unfold State.runJob
  rw [kind, snap]
  rfl

/-- What popping the panels leaves, where the two rings are not the same. -/
theorem State.popPanels_moved (s : State) (core : Nat) (desc opts : Word) (na nb : Nat) :
    let t := s.popPanels core desc opts na nb
    let head (q n : Nat) (keep : Bool) : Word := if keep then (s.core core).ring q else withHead ((s.core core).ring q) (ringHead ((s.core core).ring q) + n)
    t.mem = s.mem ∧ (s.core core).SameEngine (t.core core) ∧
    (descA desc ≠ descB desc → (t.core core).ring (descA desc) = head (descA desc) na (opts.getLsbD 1) ∧ (t.core core).ring (descB desc) = head (descB desc) nb (opts.getLsbD 2)) ∧
    ∀ q, q ≠ descA desc → q ≠ descB desc → (t.core core).ring q = (s.core core).ring q := by
  have first := s.popRing_moved core (descA desc) na (opts.getLsbD 1)
  have second := (if opts.getLsbD 1 then s else s.popRing core (descA desc) na).popRing_moved core (descB desc) nb (opts.getLsbD 2)
  refine ⟨second.mem.trans first.mem, first.engine.trans second.engine, fun apart => ⟨(second.rings _ apart).trans first.ring, ?_⟩,
    fun q hA hB => (second.rings q hB).trans (first.rings q hA)⟩
  rw [first.rings _ (Ne.symm apart)] at second
  exact second.ring

section RetireMma
variable {s : State} {core id : Nat} {j : Job} {rest : List Job}

/-- A job that has changed nothing and raised no flag ends with its status code. -/
theorem State.Closed.ends {t : State} {code : Nat} (h : s.Closed core j (.status code 0 false) t) (first : (s.core core).jobs = j :: rest) (named : j.id = some id) :
    ((t.core core).jobs = rest ∧ t.mem = s.mem ∧ (t.core core).last = BitVec.ofNat 16 id ∧
      ∀ y ∈ (t.core core).jobStatus, y.1 = id → y.2 = BitVec.ofNat 64 (id * 2 ^ 16 + code)) ∧ (t.core core).acc = (s.core core).acc := by
  refine ⟨⟨by rw [h.jobs, first, List.drop_one, List.tail_cons], h.mem, h.last named, fun y hy same => ?_⟩, h.acc⟩
  rw [h.status named y hy same, JobEnd.word, statusWord_plain]

variable (first : (s.core core).jobs = j :: rest) (running : j.running = true) (named : j.id = some id)
include first running named

/-- A job that read poison ends with status word 0 (log 38). -/
theorem completes_jobRetire_sick (sick : j.sick = true) : Completes (.jobRetire core) s fun t =>
    (t.core core).jobs = rest ∧ t.mem = s.mem ∧ (t.core core).acc = (s.core core).acc ∧ ∀ y ∈ (t.core core).jobStatus, y.1 = id → y.2 = 0 := by
  obtain ⟨t, e, h⟩ := completes_jobRetire first running (if_pos sick)
  exact ⟨t, e, by rw [h.jobs, first, List.drop_one, List.tail_cons], h.mem, h.acc, h.status named⟩

variable (well : j.sick = false) {sparse : Bool} {pair : Nat} {desc opts scale wa wb : Word} (kind : j.kind = .mma sparse pair desc opts scale) (snap : j.snap = [wa, wb])
include well kind snap

omit named in
theorem completes_jobRetire_mma {e : JobEnd} {u : State} (done : s.runMma (s.viewOf j) core sparse pair desc opts scale wa wb = (e, u)) :
    Completes (.jobRetire core) s (u.Closed core j e) :=
  completes_jobRetire first running ((if_neg (by simp [well])).trans ((State.runJob_mma kind snap).trans done))

/-- An MMA that its rings, its tile's KIND or its panels stop changes no tile. -/
theorem completes_jobRetire_stopped {code : Nat} (stopped : s.runMma (s.viewOf j) core sparse pair desc opts scale wa wb = (.status code 0 false, s)) :
    Completes (.jobRetire core) s fun t => ((t.core core).jobs = rest ∧ t.mem = s.mem ∧ (t.core core).last = BitVec.ofNat 16 id ∧
      ∀ y ∈ (t.core core).jobStatus, y.1 = id → y.2 = BitVec.ofNat 64 (id * 2 ^ 16 + code)) ∧ (t.core core).acc = (s.core core).acc := by
  obtain ⟨t, e, h⟩ := completes_jobRetire_mma first running well kind snap stopped
  exact ⟨t, e, h.ends first named⟩

/-- An MMA that accumulates. -/
theorem completes_jobRetire_accumulated {na nb : Nat} {r : List Nat × FpFlags × Bool} (long : r.1.length = 256)
    (done : s.runMma (s.viewOf j) core sparse pair desc opts scale wa wb = (.status 3 r.2.1 r.2.2,
      (s.setCore core ((s.core core).accumulated (descAcc desc) r.1 (pairKind pair) scale)).popPanels core desc opts na nb)) :
    Completes (.jobRetire core) s fun t =>
      let k := s.core core
      let c := t.core core
      c.jobs = rest ∧ t.mem = s.mem ∧ (∀ i, i < 256 → c.accAt (descAcc desc) i = r.1.getD i 0 % 2 ^ 32) ∧
      (∀ u i, u ≠ descAcc desc → i < 256 → c.accAt u i = k.accAt u i) ∧ c.kind (descAcc desc) = pairKind pair ∧ c.scale (descAcc desc) = scale ∧
      (descA desc ≠ descB desc →
        c.ring (descA desc) = (if opts.getLsbD 1 then k.ring (descA desc) else withHead (k.ring (descA desc)) (ringHead (k.ring (descA desc)) + na)) ∧
        c.ring (descB desc) = (if opts.getLsbD 2 then k.ring (descB desc) else withHead (k.ring (descB desc)) (ringHead (k.ring (descB desc)) + nb))) ∧
      (∀ q, q ≠ descA desc → q ≠ descB desc → c.ring q = k.ring q) ∧
      ∀ y ∈ c.jobStatus, y.1 = id → y.2 = statusWord id 3 r.2.1 r.2.2 := by
  obtain ⟨t, e, h⟩ := completes_jobRetire_mma first running well kind snap done
  obtain ⟨mem, engine, popped, kept⟩ := (s.setCore core ((s.core core).accumulated (descAcc desc) r.1 (pairKind pair) scale)).popPanels_moved core desc opts na nb
  rw [State.core_setCore_self] at engine popped kept
  refine ⟨t, e, ?_, h.mem.trans mem, fun i low => ?_, fun u i other low => ?_, ?_, ?_, fun apart => ?_, fun q hA hB => ?_, h.status named⟩
  · rw [h.jobs, engine.jobs]
    exact congrArg (List.drop 1) first
  · rw [h.accAt, engine.accAt]
    exact Core.accAt_setTile_self long low
  · rw [h.accAt, engine.accAt]
    exact Core.accAt_setTile_ne other low _
  · rw [h.kind, engine.kind]
    exact FMap.getD_set_self ..
  · rw [h.scale, engine.scale]
    exact FMap.getD_set_self ..
  · rw [h.ring, h.ring]
    exact popped apart
  · rw [h.ring]
    exact kept q hA hB

end RetireMma

/-! ### Words that a job writes (R113, R295 to R297) -/

/-- From `s` to `t` the engine has written words of LMs, which are full now, where nothing waits for a full bit. -/
structure State.EngineWrote (s : State) (words : List ((Nat × Nat) × Nat)) (t : State) : Prop where
  mem : t.mem = words.foldl (fun m x => m.writeNat x.1.1 8 x.1.2) s.mem
  waiters : t.net.waiters = s.net.waiters
  work : ∀ i, (s.core i).SameWork (t.core i)
  full : ∀ x ∈ words, t.full x.1.1 = true
  stays : ∀ a, s.full a = true → t.full a = true

theorem State.EngineWrote.cons {s t u : State} {x : (Nat × Nat) × Nat} {words : List ((Nat × Nat) × Nat)} (h : s.EngineWrote [x] t) (h' : t.EngineWrote words u) :
    s.EngineWrote (x :: words) u where
  mem := by rw [h'.mem, h.mem]; rfl
  waiters := h'.waiters.trans h.waiters
  work i := (h.work i).trans (h'.work i)
  full := List.forall_mem_cons.2 ⟨h'.stays _ (h.full x List.mem_cons_self), h'.full⟩
  stays a ha := h'.stays a (h.stays a ha)

theorem lmAddr_of_address {a : Nat} (global : globalBase ≤ a) : lmAddr ((lmCore? a).getD 0) ((a - globalBase) % 0x8000) = a := by
  have e : lmCore? a = some ((a - globalBase) / 0x8000) := if_pos global
  rw [e, Option.getD_some, lmAddr]
  omega

theorem State.full_setFull_true (s : State) {a y : Nat} (full : s.full y = true) : (s.setFull a true).full y = true := by
  by_cases same : wordOf y = wordOf a
  · have e : (s.setFull a true).full y = (s.setFull a true).full a := by rw [State.full, State.full, same]
    rw [e, State.full_setFull_self]
  · rw [State.full_setFull_ne s same, full]

theorem State.engineWrite_wrote {s : State} {x : (Nat × Nat) × Nat} (global : globalBase ≤ x.1.1) (none : s.net.waiters = []) :
    s.EngineWrote [x] (s.engineWrite x.1.1 x.1.2) := by
  have written : s.engineWrite x.1.1 x.1.2 =
      (s.lmWrite ((lmCore? x.1.1).getD 0) ((x.1.1 - globalBase) % 0x8000) 8 x.1.2).setFull x.1.1 true :=
    State.setFullServe_none (s := s.lmWrite ((lmCore? x.1.1).getD 0) ((x.1.1 - globalBase) % 0x8000) 8 x.1.2) none ..
  rw [written]
  refine ⟨?_, rfl, fun i => ?_, fun y hy => ?_, fun a full => State.full_setFull_true _ full⟩
  · change s.mem.writeNat (lmAddr _ _) 8 x.1.2 = _
    rw [lmAddr_of_address global]
    rfl
  · exact (Undisturbed.onCore (s.writeMem _ 8 x.1.2) _ (f := fun c => c.dropFetched _ 8) ⟨⟨rfl, rfl, rfl, rfl, rfl, rfl⟩, rfl⟩).work i
  · rw [List.mem_singleton.1 hy]
    exact State.full_setFull_self ..

theorem State.engineWrites_wrote {words : List ((Nat × Nat) × Nat)} : ∀ {s : State}, (∀ x ∈ words, globalBase ≤ x.1.1) → s.net.waiters = [] →
    s.EngineWrote words (words.foldl (fun s x => s.engineWrite x.1.1 x.1.2) s) := by
  induction words with
  | nil => exact fun _ _ => ⟨rfl, rfl, fun _ => .refl _, fun _ h => absurd h List.not_mem_nil, fun _ h => h⟩
  | cons x words ih =>
    intro s global none
    have first := State.engineWrite_wrote (s := s) (global x List.mem_cons_self) none
    exact first.cons (ih (fun y hy => global y (List.mem_cons_of_mem _ hy)) (first.waiters.trans none))

/-- The words of a job that it has not written before its retirement. -/
def Job.left (j : Job) (words : List (Nat × Nat)) : List ((Nat × Nat) × Nat) := words.zipIdx.filter fun x => !(j.put.contains x.2)

theorem State.writeRest_wrote {s : State} {core : Nat} {j : Job} {words : List (Nat × Nat)} (listed : s.jobWords core j = words)
    (global : ∀ x ∈ words, globalBase ≤ x.1) (none : s.net.waiters = []) : s.EngineWrote (j.left words) (s.writeRest core j) := by
  subst listed
  exact State.engineWrites_wrote (fun x hx => global x.1 (List.fst_mem_of_mem_zipIdx (List.mem_filter.1 hx).1)) none

theorem zipIdx_map_range {α : Type} (f : Nat → α) (n : Nat) : ((List.range n).map f).zipIdx = (List.range n).map fun x => (f x, x) := by
  refine List.ext_getElem (by simp) fun i _ _ => by simp

/-! ### MST (R295, R296) -/

/-- The word that MST writes of row `i`, at place `k` in it. -/
def Core.mstWord (c : Core) (fmt : ConvFmt) (size tile i k : Nat) : Nat :=
  ((List.range (8 / size)).map fun n =>
    (mstValue fmt (c.scale tile) (c.kind tile) (c.accAt tile (16 * i + k * (8 / size) + n))).1 * 2 ^ (8 * size * n)).sum

theorem Core.tile_getElem? (c : Core) (tile : Nat) {i : Nat} (low : i < 256) : (c.tile tile)[i]? = some (c.accAt tile i) := by
  simp [Core.tile, low]

/-- The elements of a row fill its words. -/
theorem mstFormat_row {code size : Nat} {fmt : ConvFmt} (format : mstFormat code = some (fmt, size)) : 2 * size * (8 / size) = 16 := by
  unfold mstFormat at format
  split at format <;> cases format <;> rfl

theorem Core.mstWords_eq (c : Core) {addr tile size : Nat} {opts : Word} {fmt : ConvFmt} (format : mstFormat (bitsOf opts 0 8) = some (fmt, size)) :
    c.mstWords addr opts tile =
      (List.range 16).flatMap fun i => (List.range (2 * size)).map fun k => (addr + i * bitsOf opts 16 16 + 8 * k, c.mstWord fmt size tile i k) := by
  have row := mstFormat_row format
  unfold Core.mstWords
  rw [format]
  refine List.flatMap_congr fun i hi => List.map_congr_left fun k hk => congrArg (Prod.mk _) (congrArg List.sum (List.map_congr_left fun n hn => ?_))
  rw [List.mem_range] at hi hk hn
  have inRow : k * (8 / size) + n < 16 := calc
    k * (8 / size) + n < (k + 1) * (8 / size) := by rw [Nat.add_one_mul]; omega
    _ ≤ 2 * size * (8 / size) := Nat.mul_le_mul_right _ hk
    _ = 16 := row
  have entry := c.tile_getElem? tile (i := 16 * i + k * (8 / size) + n) (by omega)
  rw [Nat.mul_comm i 16, Core.mstValues, format]
  simp only [List.getD_eq_getElem?_getD, List.getElem?_map, entry, Option.map_some, Option.getD_some]

/-! ### MLDT (R297) -/

/-- Where MLDT writes word `x` of its block, and what. -/
def State.mldtWord (v : State) (core addr : Nat) (opts w : Word) (x : Nat) : Nat × Nat :=
  let at_ := x / 4 * 64 + 32 * bitsOf opts 0 1 + 8 * (x % 4)
  (lmAddr core (ringSlotAt w (ringTail w) (at_ / ringSlotSize w) + at_ % ringSlotSize w),
   ((List.range 4).map fun i => v.mem.readNat (addr + mldtOffset opts (4 * (x % 4) + i) (x / 4)) 2 * 2 ^ (16 * i)).sum)

theorem State.mldtWords_eq (v : State) (core addr : Nat) (opts w : Word) :
    v.mldtWords core addr opts w = (List.range 64).map (v.mldtWord core addr opts w) := by
  unfold State.mldtWords mldtSources
  refine List.map_congr_left fun x _ => congrArg (Prod.mk _) (congrArg List.sum ?_)
  rw [List.map_map, zipIdx_map_range, List.map_map]
  rfl

theorem Job.left_map_range (j : Job) (f : Nat → Nat × Nat) (n : Nat) :
    j.left ((List.range n).map f) = ((List.range n).filter fun x => !(j.put.contains x)).map fun x => (f x, x) := by
  rw [Job.left, zipIdx_map_range, List.filter_map]
  rfl

/-- The state with the TAIL of an MLDT's ring moved past its block, where its option says so. -/
def State.advanced (s : State) (core : Nat) (opts w : Word) (q : Nat) : State :=
  if bitsOf opts 1 1 = 1 then s.setRing core q (withTail ((s.core core).ring q) (ringTail ((s.core core).ring q) + slotsFor w 1024)) else s

theorem State.advanced_moved (s : State) (core : Nat) (opts w : Word) (q : Nat) :
    s.RingMoved core q (if bitsOf opts 1 1 = 1 then withTail ((s.core core).ring q) (ringTail ((s.core core).ring q) + slotsFor w 1024) else (s.core core).ring q)
      (s.advanced core opts w q) := by
  unfold State.advanced
  split
  · exact s.setRing_moved ..
  · exact ⟨rfl, rfl, .refl _, rfl, fun _ _ => rfl⟩

/-- MLDT with a valid ring and clean sources. -/
theorem State.runMldt_well {s : State} {core addr q : Nat} {j : Job} {opts w : Word} (snap : j.snap = [w]) (valid : (s.core core).ringValid w = true)
    (clean : ((mldtOffsets opts).any fun o => (s.viewOf j).poisoned (addr + o) 2) = false) :
    s.runMldt core j addr opts q = (.status 3 0 false, (s.writeRest core j).advanced core opts w q) := by
  unfold State.runMldt
  rw [snap]
  exact (if_neg (by simp [valid])).trans (if_neg (by simp [clean]))

/-- The job may be noted as the producer of its ring (R121), which disturbs nothing. -/
theorem State.runJob_mldt {s : State} {core q : Nat} {j : Job} {addr opts w : Word} (kind : j.kind = .mldt addr opts q) (snap : j.snap = [w])
    (valid : (s.core core).ringValid w = true) (clean : ((mldtOffsets opts).any fun o => (s.viewOf j).poisoned (addr.toNat + o) 2) = false) :
    ∃ u, s.runJob core j = (.status 3 0 false, u) ∧ ((s.writeRest core j).advanced core opts w q).Undisturbed u := by
  unfold State.runJob
  rw [kind]
  dsimp only
  rw [State.runMldt_well snap valid clean]
  exact ⟨_, rfl, .ite (.producedBy ..) (.refl _)⟩

/-! ### Retirement of MZERO, MST and MLDT (R294 to R297) -/

section RetireWriter
variable {s : State} {core : Nat} {j : Job} {rest : List Job} (first : (s.core core).jobs = j :: rest) (running : j.running = true) (well : j.sick = false)
include first running well

theorem completes_jobRetire_well {e : JobEnd} {u : State} (done : s.runJob core j = (e, u)) : Completes (.jobRetire core) s (u.Closed core j e) :=
  completes_jobRetire first running ((if_neg (by simp [well])).trans done)

theorem completes_jobRetire_mzero {tile : Nat} (kind : j.kind = .mzero tile) : Completes (.jobRetire core) s fun t =>
    t.mem = s.mem ∧ (t.core core).kind tile = 0 ∧ (t.core core).jobs = rest ∧ (∀ i, i < 256 → (t.core core).accAt tile i = 0) ∧
    (∀ u i, u ≠ tile → i < 256 → (t.core core).accAt u i = (s.core core).accAt u i) := by
  have done : s.runJob core j = (.status 3 0 false, s.setCore core ((s.core core).zeroTile tile)) := by
    unfold State.runJob
    rw [kind]
    rfl
  obtain ⟨t, e, h⟩ := completes_jobRetire_well first running well done
  have zeroed : (s.setCore core ((s.core core).zeroTile tile)).core core = (s.core core).zeroTile tile := State.core_setCore_self ..
  refine ⟨t, e, h.mem, ?_, ?_, fun i low => ?_, fun u i other low => ?_⟩
  · rw [h.kind, zeroed]
    exact FMap.getD_set_self ..
  · rw [h.jobs, zeroed]
    exact congrArg (List.drop 1) first
  · rw [h.accAt, zeroed, Core.accAt_zeroTile_self _ low]
  · rw [h.accAt, zeroed, Core.accAt_zeroTile_ne _ other low]

variable (none : s.net.waiters = [])
include none

theorem completes_jobRetire_mst {addr opts : Word} {tile size k off : Nat} {fmt : ConvFmt} (kind : j.kind = .mst addr opts tile)
    (format : mstFormat (bitsOf opts 0 8) = some (fmt, size)) (place : addr.toNat = lmAddr k off) :
    Completes (.jobRetire core) s fun t =>
      let left := j.left ((List.range 16).flatMap fun i => (List.range (2 * size)).map fun k =>
        (addr.toNat + i * bitsOf opts 16 16 + 8 * k, (s.core core).mstWord fmt size tile i k))
      t.mem = left.foldl (fun m x => m.writeNat x.1.1 8 x.1.2) s.mem ∧ (t.core core).jobs = rest ∧ (t.core core).acc = (s.core core).acc ∧
      ∀ x ∈ left, t.full x.1.1 = true := by
  have listed : s.jobWords core j = (s.core core).mstWords addr.toNat opts tile := by
    unfold State.jobWords
    rw [kind]
  rw [Core.mstWords_eq _ format] at listed
  have global : globalBase ≤ addr.toNat := by
    rw [place, lmAddr]
    omega
  have wrote := State.writeRest_wrote listed (fun x hx => by
    simp only [List.mem_flatMap, List.mem_map] at hx
    obtain ⟨i, -, n, -, rfl⟩ := hx
    dsimp only
    omega) none
  have done : s.runJob core j = (.status 3 (((s.core core).mstValues opts tile).foldl (fun f x => f ||| x.2) 0) false, s.writeRest core j) := by
    unfold State.runJob
    rw [kind]
    rfl
  obtain ⟨t, e, h⟩ := completes_jobRetire_well first running well done
  refine ⟨t, e, h.mem.trans wrote.mem, ?_, h.acc.trans (wrote.work core).acc, fun x hx => ?_⟩
  · rw [h.jobs, (wrote.work core).jobs, first, List.drop_one, List.tail_cons]
  · rw [State.full, h.emptied]
    exact wrote.full x hx

theorem completes_jobRetire_mldt {addr opts w : Word} {q : Nat} (kind : j.kind = .mldt addr opts q) (snap : j.snap = [w])
    (valid : (s.core core).ringValid w = true) (clean : ∀ o ∈ mldtOffsets opts, (s.viewOf j).poisoned (addr.toNat + o) 2 = false) :
    Completes (.jobRetire core) s fun t =>
      t.mem = ((List.range 64).filter fun x => !(j.put.contains x)).foldl
        (fun m x => m.writeNat ((s.viewOf j).mldtWord core addr.toNat opts w x).1 8 ((s.viewOf j).mldtWord core addr.toNat opts w x).2) s.mem ∧
      (t.core core).ring q = (if bitsOf opts 1 1 = 1 then withTail ((s.core core).ring q) (ringTail ((s.core core).ring q) + slotsFor w 1024) else (s.core core).ring q) ∧
      (t.core core).jobs = rest := by
  have listed : s.jobWords core j = (List.range 64).map ((s.viewOf j).mldtWord core addr.toNat opts w) := by
    unfold State.jobWords
    rw [kind, snap]
    exact (if_pos valid).trans ((s.viewOf j).mldtWords_eq ..)
  have wrote := State.writeRest_wrote listed (fun x hx => by
    obtain ⟨n, -, rfl⟩ := List.mem_map.1 hx
    rw [State.mldtWord, lmAddr]
    omega) none
  have sources : ((mldtOffsets opts).any fun o => (s.viewOf j).poisoned (addr.toNat + o) 2) = false := by simpa using clean
  obtain ⟨u, done, noted⟩ := State.runJob_mldt kind snap valid sources
  have moved := ((s.writeRest core j).advanced_moved core opts w q).trans noted
  rw [(wrote.work core).ring] at moved
  obtain ⟨t, e, h⟩ := completes_jobRetire_well first running well done
  refine ⟨t, e, ?_, (h.ring q).trans moved.ring, ?_⟩
  · rw [h.mem, moved.mem, wrote.mem, Job.left_map_range, List.foldl_map]
  · rw [h.jobs, moved.engine.jobs, (wrote.work core).jobs, first, List.drop_one, List.tail_cons]

end RetireWriter

/-! ### Integer sums (R251, R255) -/

theorem toInt_ofNat_emod {c : Int} (low : -2147483648 ≤ c) (high : c ≤ 2147483647) : (BitVec.ofNat 32 (c % 4294967296).toNat).toInt = c := by
  rw [BitVec.toInt_eq_toNat_cond, BitVec.toNat_ofNat]
  split <;> omega

theorem addInt_saturates (acc : BitVec 32) (v : Int) :
    (BitVec.ofNat 32 (addInt acc.toNat v).value).toInt = max (-2 ^ 31) (min (2 ^ 31 - 1) (acc.toInt + v)) ∧
    ((addInt acc.toNat v).sat = true ↔ acc.toInt + v < -2 ^ 31 ∨ 2 ^ 31 - 1 < acc.toInt + v) := by
  have entry : intValue true 32 acc.toNat = acc.toInt := by
    rw [BitVec.toInt_eq_toNat_cond]
    unfold intValue
    simp only [Bool.true_and, decide_eq_true_eq]
    split <;> split <;> omega
  unfold addInt
  rw [entry]
  generalize acc.toInt + v = sum
  dsimp only
  rw [toInt_ofNat_emod (by split_ifs <;> omega) (by split_ifs <;> omega), decide_eq_true_eq]
  norm_num only
  split_ifs <;> constructor <;> omega

theorem zip_range_zip {u v : List Nat} {n : Nat} (hu : u.length = n) (hv : v.length = n) :
    (List.range n).zip (u.zip v) = (List.range n).map fun i => (i, u.getD i 0, v.getD i 0) := by
  refine List.ext_getElem (by simp [hu, hv]) fun i h _ => ?_
  have low : i < n := by simpa [hu, hv] using h
  simp [List.getD_eq_getElem?_getD, hu, hv, low]

/-- Where every element counts, the sum runs over all 32 products. -/
theorem oiSum_full (wa wb : Nat) {a b : Panel} {i j : Nat} {u v : List Nat} (ga : a.groups[i]? = some u) (gb : b.groups[j]? = some v)
    (hu : u.length = 32) (hv : v.length = 32) (ma : a.maps[i]? = some (2 ^ 32 - 1)) (mb : b.maps[j]? = some (2 ^ 32 - 1)) :
    oiSum (.oi wa) (.oi wb) a b i j =
      ((List.range 32).map fun n => ((u.getD n 0 : Int) - (a.metas.getD i 0 % 2 ^ wa : Nat)) * ((v.getD n 0 : Int) - (b.metas.getD j 0 % 2 ^ wb : Nat))).sum := by
  have groupA : a.groups.getD i [] = u := by rw [List.getD_eq_getElem?_getD, ga, Option.getD_some]
  have groupB : b.groups.getD j [] = v := by rw [List.getD_eq_getElem?_getD, gb, Option.getD_some]
  have mapA : a.maps.getD i 0 = 2 ^ 32 - 1 := by rw [List.getD_eq_getElem?_getD, ma, Option.getD_some]
  have mapB : b.maps.getD j 0 = 2 ^ 32 - 1 := by rw [List.getD_eq_getElem?_getD, mb, Option.getD_some]
  unfold oiSum
  rw [groupA, groupB, mapA, mapB, zip_range_zip hu hv, Nat.and_self]
  dsimp only
  rw [List.map_map]
  refine congrArg List.sum (List.map_congr_left fun n hn => ?_)
  have counts : (2 ^ 32 - 1).testBit n = true := by rw [Nat.testBit_two_pow_sub_one, decide_eq_true (List.mem_range.1 hn)]
  exact if_pos counts

/-! ### O42 -/

/-- Settles O42: each job is followed from its turn or its work to the end of the job, which disturbs no tile, ring or byte. -/
theorem matrixJobsRunAndRetire : Obligations.MatrixJobsRunAndRetire := by
  unfold Obligations.MatrixJobsRunAndRetire
  refine ⟨?_, ?_, ?_, addInt_saturates, fun wa wb a b i j u v ga gb hu hv ma mb => oiSum_full wa wb ga gb hu hv ma mb⟩
  · intro s core id j rest k cl e turn first named
    obtain ⟨admitted, idle⟩ := State.jobWaits_of_turn turn first
    refine ⟨_, exec_jobDispatch turn first, admitted, idle, rfl, rfl, ?_, ?_, congrArg Energy.pending (FMap.getD_set_self ..)⟩
    all_goals rw [State.onCore_eq, State.core_setCore_self, Core.dispatched, named]
    · rfl
    · exact fun x mem same => (Core.mem_setStatus mem same).trans (statusWord_plain id 2)
  · intro s core id j rest sparse pair desc opts scale wa wb k x v tile ends first running named kind snap
    refine ⟨completes_jobRetire_sick first running named, fun well invalid => ?_, fun well validA validB keeps used other => ?_,
      fun pa na pb nb well validA validB tileKind placesA placesB cleanA cleanB => ⟨fun malformed => ?_, fun as bs panelsA panelsB => ?_⟩⟩
    · exact completes_jobRetire_stopped first running named well kind snap (State.runMma_invalid invalid)
    · exact completes_jobRetire_stopped first running named well kind snap (State.runMma_otherKind validA validB keeps used other)
    · exact completes_jobRetire_stopped first running named well kind snap
        (State.runMma_malformed validA validB tileKind placesA placesB cleanA cleanB malformed)
    · refine completes_jobRetire_accumulated first running named well kind snap (accumulate_length _ _ _ ?_)
        (State.runMma_done validA validB tileKind placesA placesB cleanA cleanB panelsA panelsB rfl)
      split
      · exact List.length_replicate
      · simp [Core.tile]
  · intro s core off k j rest opts addr tile size fmt q w c stride first running well none
    refine ⟨fun kind _ => completes_jobRetire_mzero first running well kind, fun kind format place _ => ?_, fun kind snap valid clean => ?_⟩
    · refine (completes_jobRetire_mst first running well none kind format place).imp fun t h => ?_
      obtain ⟨mem, jobs, acc, full⟩ := h
      exact ⟨mem, jobs, acc, fun x hx _ _ => full x hx⟩
    · exact completes_jobRetire_mldt first running well none kind snap valid clean

end Sys2Proof.Machine
